-- ==== Sys2Proof/Word.lean ====
section
/-! DEFINITION. The word types of the TWA2045 (R6: everything is little-endian, bit 0 the least
significant), the unit numbers of chapter 00, and the sparse table type every large array is held in. -/

namespace Sys2Proof

abbrev Byte := BitVec 8
abbrev Half := BitVec 16
abbrev Word := BitVec 32
abbrev DWord := BitVec 64
/-- A 64-byte descriptor, command or granule, byte 0 in bits 7:0 (R6). -/
abbrev Line := BitVec 512
abbrev Bytes := List Byte

/-- A sparse array: (index, entry) pairs in strictly rising index order, none equal to the array's
default entry. The operations are in Machine/Ops.lean. -/
abbrev Tbl (α : Type) := List (Nat × α)

/-- Slices 0 to 127 (R266, R344). -/
abbrev SliceId := BitVec 7
/-- Cores 0 to 63 (chapter 03). -/
abbrev CoreId := BitVec 6
/-- Attention engines 0 to 15 (chapter 05). -/
abbrev AeId := BitVec 4
/-- Raster front ends 0 to 3 (chapter 06). -/
abbrev RfeId := BitVec 2
/-- Sync counters 0 to 8,191 (chapter 08). -/
abbrev CtrId := BitVec 13
/-- Mailbox channels 0 to 31 (R333). -/
abbrev ChanId := BitVec 5
/-- Camera streams 0 to 15 (R200). -/
abbrev CamId := BitVec 4
/-- Scenes 0 to 31 of a cue sheet (R232). -/
abbrev SceneId := BitVec 5
/-- Display heads 0 to 3 (R190). -/
abbrev HeadId := BitVec 2
/-- CAN FD controllers 0 to 15 (R443). -/
abbrev CanId := BitVec 4
/-- Ethernet ports 0 to 11 (R432). -/
abbrev EthId := Fin 12
/-- Gateway routes 0 to 4,095 (R445). -/
abbrev RouteId := BitVec 12
/-- Time bases TB0 to TB3 (R436). -/
abbrev TbId := BitVec 2
/-- Sequences 0 to 1,023 of one attention engine (R141). -/
abbrev SeqId := BitVec 10

end Sys2Proof
end

