-- ==== Sys2Proof/Syntax.lean ====
section
/-! DEFINITION. The commands of the block: one constructor of `Instr` per row of
spec/opcode_table.json, with the row's operands. A Pyotos command carries the slice whose ring it
stands in and its 64 bytes (R346); an event of the part carries what its environment decides (the
instant, a received frame, what a checker observed). -/

namespace Sys2Proof

/-- A unit that holds jobs (R234). -/
inductive UnitId where
  | core (c : CoreId)
  | ae (a : AeId)
  | rfe (r : RfeId)
  deriving DecidableEq, Repr

/-- The six dies (Table 1-1). -/
inductive DieId where
  | stage (d : BitVec 2)
  | wings
  | floor
  deriving DecidableEq, Repr

/-- Safety islands A and B (R405). -/
inductive IslandId where
  | a
  | b
  deriving DecidableEq, Repr

/-- What the checker of an operation observed (R66, R67): it passed; it failed once and the one retry
passed; it failed and so did the retry; the error correction of what it reads corrected a single-bit error, or met a
double-bit error (R65, R72). -/
inductive Chk where
  | pass
  | transient
  | fail
  | corrected
  | double
  deriving DecidableEq, Repr

/-- A core whose vector engine runs an instruction that no check of Table 2-6 covers, with what the error correction of its
registers and store, or the carried check of the store, observed (R65, R72, R122). -/
structure CoreChk where
  c : CoreId
  k : Chk := .pass
  deriving DecidableEq, Repr

/-- What the error correction of a core store met on the reads of one operation (R72): how many single-bit errors it
corrected, and the part of the operation, if any, whose reads met a double-bit error. -/
structure StoreEcc where
  corrected : Nat := 0
  double : Option Nat := none
  deriving DecidableEq, Repr

/-- What the checks of a TE_OP observed: of each output block that the row does, in the order of the dataflow, a pass beyond the
list's end (R67, R99), and of the store reads by such a block; and how many output blocks it does before it stops, all that
are left when none is named (R103). -/
structure TeChk where
  blocks : List Chk := []
  ecc : StoreEcc := {}
  stop : Option Nat := none
  deriving DecidableEq, Repr

/-- What the checks of an SE_MOVE observed: of the far granule at the start of one point's run, of the store reads
by point, and the point, if any, whose outbound write fails its check at the PCIe exit (R70); and how many granules it moves
before it stops, all that are left when none is named (R103). -/
structure MoveChk where
  point : Nat := 0
  far : Chk := .pass
  ecc : StoreEcc := {}
  exit : Option Nat := none
  stop : Option Nat := none
  deriving DecidableEq, Repr

/-- A patrol read of a 2 KiB block: its controller, and the granules of the block, 0 to 31, whose read and re-read both failed. Any
other that fails its read passes when it is read again (R282). -/
structure PatrolRead where
  controller : Fin 12
  lasting : List (Fin 32) := []
  deriving DecidableEq, Repr

/-- What the setup tests of binning answered, and how many triangles it reads before it yields, all when none is named (R180). -/
structure RenderChk where
  chk : Chk := .pass
  upTo : Option Nat := none
  deriving DecidableEq, Repr

/-- What the checks of a convolution observed, and how far it runs: the taps it takes before it yields, all when none is
named, and the tap, counted from the first of the launch, that the check's answer is of, or the conversion of the outputs
that follow it (R67, R135, R138). -/
structure ConvChk where
  taps : Option Nat := none
  tap : Nat := 0
  out : Bool := false
  chk : Chk := .pass
  deriving DecidableEq, Repr

/-- A core's sample whose lanes the texture unit returns, with the answer of the carried check on the n-th granule it read
(R67, R189). -/
structure TexDone where
  core : CoreId
  granule : Nat := 0
  read : Chk := .pass
  deriving DecidableEq, Repr

/-- A check of an attention engine's work: the residue of exact group sums, the sampled repetition of FP32 steps, or the
carried check of a granule it reads, by the granule's number (R66, R67, R155). -/
inductive AeCheck where
  | residue
  | sampled
  | carried (granule : Nat)
  deriving DecidableEq, Repr

/-- What a check of one batch entry, or of an append or gather, observed (R67). -/
structure EntryChk where
  kind : AeCheck := .sampled
  chk : Chk := .pass
  deriving DecidableEq, Repr

/-- What the checks of an attention operation observed, by batch entry, a pass beyond the list's end, and how far it runs:
the blocks or granules it does before it yields, all when none is named (R155, R167). -/
structure AeChk where
  entries : List EntryChk := []
  blocks : Option Nat := none
  deriving DecidableEq, Repr

/-- The engine whose current operation a descriptor-complete event ends (R77). -/
inductive EngineId where
  | se
  | te
  | ve
  | own
  deriving DecidableEq, Repr

/-- The registers of the endpoint's configuration space that hold its options (R313, R323, R339; log entry 125). -/
inductive PcieReg where
  | classCode
  | deviceControl
  | deviceControl2
  | msixControl
  | ptmControl
  deriving DecidableEq, Repr

/-- A register that an access reaches (R10): a BAR0 offset or a configuration register of the host, or an SRW or RWL
register. -/
inductive RegAddr where
  | bar0 (off : BitVec 24) (eight : Bool)
  | pcie (r : PcieReg)
  | secDebug
  | secWdtKick
  | secUnitEnc (u : UnitId)
  | secHold (j : BitVec 2)
  | secWdtCtrl
  | mbxChannel (k : ChanId)
  | prefetchRange (i : BitVec 4)
  deriving DecidableEq, Repr

/-- What an access does with a register (R10): a value written, or a read (log entry 125). -/
inductive RegData where
  | write (v : DWord)
  | read
  deriving DecidableEq, Repr

/-- Who uses a channel's doorbell: an end rings the other's, or takes the one rung for it (R335; log entry 125). -/
structure DoorbellBy where
  master : BitVec 4
  take : Bool := false
  deriving DecidableEq, Repr

/-- A host request and the instant its time ran out (R323). -/
structure HostTimeout where
  addr : BitVec 64
  at_ : Nat
  deriving DecidableEq, Repr

/-- What a JTAG debug access reaches (R387, R413). -/
inductive DebugTarget where
  | unit (u : UnitId)
  | stagehand
  | security
  | control
  | island (i : IslandId)
  | boundary
  deriving DecidableEq, Repr

/-- The rail groups that PWR_EN[0] to PWR_EN[2] enable (R474). -/
inductive RailGroup where
  | g2
  | g3
  | g4
  deriving DecidableEq, Repr

/-- The causes of an internal chip reset (Tables 17-6 and 17-7). -/
inductive ResetCause where
  | watchdog
  | sleepExit
  | brownOut
  | thermalTrip
  deriving DecidableEq, Repr

/-- What the verification of one boot image found (R370), with the header fields the device keeps
(R369) and, for a Pyotos image, its network configuration block (R430). -/
structure ImageReport where
  fieldsOk : Bool
  keyHashOk : Bool
  keyRevoked : Bool
  sigOk : Bool
  digestOk : Bool
  rollback : Nat
  version : Word
  net : Bytes
  deriving DecidableEq, Repr

/-- The instant at which secure ROM runs, and whether the boot flash's SFDP tables declare 8D-8D-8D support (R520). -/
structure RomStart where
  at_ : Nat
  octal : Bool
  deriving DecidableEq, Repr

/-- The two images of one boot-flash bank (R368). -/
structure BankReport where
  sf : ImageReport
  py : ImageReport
  deriving DecidableEq, Repr

/-- What secure ROM reads of a bank: what it found, or the bank's bytes. -/
inductive BankRead where
  | found (r : BankReport)
  | bytes (bs : Bytes)
  deriving DecidableEq, Repr

/-- FW_UPDATE's 64 bytes, and whether the boot flash reads back wrong what is written to it (R372). -/
structure FlashWrite where
  line : Line
  faulty : Bool := false
  deriving DecidableEq, Repr

/-- A module of a die link (R293): modules 0 to 7 of a Stage die, 0 and 1 of the Wings. -/
structure ModId where
  die : DieId
  idx : BitVec 3
  deriving DecidableEq, Repr

/-- What trim, PLL lock, die identity and link training found (R291, R296). -/
structure TrimReport where
  straps : List (DieId × Word)
  pllFail : Option DieId
  /-- The lanes that each module's own tests find failed at training. -/
  lanes : List (ModId × List Nat)
  deriving DecidableEq, Repr

/-- The end of one DRAM training pass (R259). -/
inductive TrainReport where
  | pass (caps16 : BitVec 12)
  | fail (ctrl : Fin 12) (chan : BitVec 2) (retrained : Bool)
  | badCapacity (ctrl : Fin 12)
  deriving DecidableEq, Repr

/-- The refresh rate MR4 requests (R260). -/
inductive RefreshRate where
  | x1
  | x2
  | x4
  deriving DecidableEq, Repr

/-- The status of a host completion (R323). -/
inductive CplStatus where
  | ok
  | poisoned
  | unsupported
  | abort
  deriving DecidableEq, Repr

/-- What the floor scrubber met in one SRAM entry (Table 9-8). -/
inductive SramError where
  | corrected
  | cacheDataClean (dpa : Nat)
  | cacheDataDirty (dpa : Nat)
  | cacheTagsOne
  | cacheTagsBoth (set : BitVec 17)
  | lookup (port : Fin 5) (n : SliceId) (va : Nat)
  | counter (c : CtrId)
  | tracker (tag : BitVec 16)
  deriving DecidableEq, Repr

/-- What the floor answers a host access through a window: in time, in time after one re-read that passed, or not before its
timeout (R66, R289, R322). -/
inductive FloorAns where
  | ok
  | retried
  | timeout
  deriving DecidableEq, Repr

/-- A host's non-posted request through a window: its length, whether it is an AtomicOp, and the floor's answer (R321, R322;
log entry 125). -/
structure AptRead where
  len : Nat
  atomic : Bool := false
  floor : FloorAns := .ok
  deriving DecidableEq, Repr

/-- A host write through a window: whether EP is set, and the floor's answer (R321, R322). -/
structure AptWrite where
  ep : Bool := false
  floor : FloorAns := .ok
  deriving DecidableEq, Repr

/-- A flit that fails its link CRC (R295, R296): its module, the lane whose bits fail, its sequence number, and that of the last
flit sent before the transmitter learns of it. -/
structure FlitFail where
  mod_ : ModId
  lane : Nat
  seq : Nat
  last : Nat
  deriving DecidableEq, Repr

/-- A transaction of the tracker and the instant at which its timeout is looked at (R289). -/
structure TxnTimeout where
  tag : BitVec 16
  at_ : Nat
  deriving DecidableEq, Repr

/-- The raw streams of Table 10-5. -/
inductive RawStream where
  | cue
  | safety
  | control
  | trace
  deriving DecidableEq, Repr

/-- The lead's cue frame as the follower takes it (R311): the count, the instant of the edge and the timestamp of the control
block on the lead's time scale, whether the lead's cue stops at this edge (R312), and the instant of arrival. -/
structure TwinCue where
  count : DWord
  lead : Nat
  sent : Nat
  stops : Bool
  at_ : Nat
  deriving DecidableEq, Repr

inductive TwinCopyResult where
  | visible
  | link
  | timeout
  | check
  deriving DecidableEq, Repr

/-- A paired-mode record (R425): the key (start cue, scene, job name), the state and the signature. -/
structure CrossRecord where
  startCue : DWord
  scene : Nat
  name : BitVec 128
  completed : Bool
  sig : DWord
  deriving DecidableEq, Repr

/-- The dual-core lockstep pairs of R411. -/
inductive LockstepPair where
  | stagehand
  | security
  | control
  deriving DecidableEq, Repr

/-- A checker of Table 14-9. -/
inductive Checker where
  | te (c : CoreId)
  | ve (c : CoreId)
  | store (c : CoreId)
  | ae (a : AeId)
  | rfe (r : RfeId)
  | floor
  | link (m : ModId)
  | twin
  | pair (p : LockstepPair)
  | island (i : IslandId)
  | block (b : Fin 5)
  deriving DecidableEq, Repr

/-- A safety event as an island latches it (R396): the code of Table 14-2 and what it names: a unit, a die, a
checker (R420), the package of a known-answer frame (R424), or a path under debug (R413). -/
structure SafetyEvent where
  code : Byte
  unit : Option UnitId := none
  die : Option DieId := none
  checker : Option Checker := none
  pkg : Option (SliceId × Nat) := none
  path : Option DebugTarget := none
  deriving DecidableEq, Repr

/-- A CSI-2 packet header as the port received it (R200, R204). -/
structure CsiPacket where
  port : BitVec 2
  vc : BitVec 4
  dt : BitVec 6
  eccOk : Bool
  crcOk : Bool
  deriving DecidableEq, Repr

inductive IntakeEngine where
  | jpeg
  | tokens
  | dice
  deriving DecidableEq, Repr

/-- A CAN or CAN FD frame (R443). -/
structure CanFrame where
  id : BitVec 29
  ext : Bool
  fd : Bool
  brs : Bool
  rtr : Bool
  data : Bytes
  deriving DecidableEq, Repr

/-- How a transmission attempt of a CAN controller ended (R444). -/
inductive CanTxResult where
  | sent
  | arbitrationLost
  | busError
  /-- A granule of the frame fails its check before the frame is formed (R70). -/
  | checkFailed
  deriving DecidableEq, Repr

/-- What an Ethernet port finds of a received frame: whether its FCS is correct (R432), and whether its granules still pass
their check where the frame is used or leaves (R70). -/
structure EthRx where
  fcsOk : Bool := true
  keeps : Bool := true
  deriving DecidableEq, Repr

/-- A gPTP Sync whose Follow_Up has come (R435, R438): the port, the two messages from the byte after the EtherType, and the
port's peer delay in ns, which Pyotos measured with its own exchanges. -/
structure PtpSync where
  port : EthId
  sync : Bytes
  followUp : Bytes
  delay : Nat
  deriving DecidableEq, Repr

/-- What arrives at a package that has asked for a far lock (R310). -/
inductive FarLockAnswer where
  | grant
  | retry
  | release
  deriving DecidableEq, Repr

/-- The Wings domains that a channel doorbell can wake (Table 11-13). -/
inductive WakeDomain where
  | secure
  | control
  deriving DecidableEq, Repr

/-- What a cut that Stagehand itself requests would cut (R393). -/
inductive CutTarget where
  | core (c : CoreId)
  | die (d : BitVec 2)
  | domain (d : WakeDomain)
  deriving DecidableEq, Repr

/-- The two records of a link credit loop at one audit marker (R300): the transmitter's H and C_t, and the receiver's O, F
and C_r. -/
structure LoopRec where
  h : Nat
  ct : BitVec 48
  o : Nat
  f : Nat
  cr : BitVec 48
  deriving DecidableEq, Repr

/-- The buffer-slot pools of Table 1-6: a slice's notice staging, a camera stream's ring, a slice's queue of an intake engine
(R213), the bridge's buffers. -/
inductive SlotPool where
  | notices (n : SliceId)
  | ring (c : CamId)
  | intake (n : SliceId) (e : IntakeEngine)
  | bridge
  deriving DecidableEq, Repr

/-- What the conservation audit of one pool compares (R41, R300, R301): for a link credit loop, the receiver's record returned
to the transmitter's monitor with the transmitter's own; for buffer slots, those that producers and consumers hold beside the
notices staged, and those in transfer; for tags, the tracker's free and allocated ones. -/
inductive AuditReport where
  | dieLink (m : ModId) (vc : BitVec 2) (x : LoopRec)
  | twinLink (req : Bool) (x : LoopRec)
  | buffers (q : SlotPool) (held flight : Nat)
  | sync (c : CtrId)
  | kvPages (a : AeId)
  | bandwidth (account : Nat)
  | tags (pool : Fin 6) (free allocated : Nat)
  deriving DecidableEq, Repr

/-- The commands: one constructor per row of spec/opcode_table.json, in the table's order. -/
inductive Instr where
  /-- NOP (R356): Pyotos command that completes at once with no effect. -/
  | nop (n : SliceId) (w : Line)
  /-- COMMIT (R355): Validates 1 to 10 staged groups as a whole and applies them IMMEDIATE, AT_CUE or at a two-package target cue. -/
  | commit (n : SliceId) (w : Line)
  /-- CANCEL (R37): Cancels the pending AT_CUE commit that holds the named group if the cut has not passed. -/
  | cancel (n : SliceId) (w : Line)
  /-- DIAG_READ (R360): Writes the diagnostic record named by KIND to slice memory. -/
  | diagRead (n : SliceId) (w : Line)
  /-- LOG_READ (R361): Copies held log entries from index FROM onwards to slice memory. -/
  | logRead (n : SliceId) (w : Line)
  /-- POWER_SET_PARKED (R479): POWER_SET STATE 1 moves ACTIVE to PARKED, unless refused with BUSY or SECURE_HOLD. -/
  | powerSetParked (n : SliceId) (w : Line)
  /-- POWER_SET_ACTIVE (R481): POWER_SET STATE 0 repowers the Stage and moves PARKED to ACTIVE. -/
  | powerSetActive (n : SliceId) (w : Line)
  /-- FW_UPDATE (R372): Verifies a new firmware image and writes it to the inactive boot-flash bank. -/
  | fwUpdate (n : SliceId) (w : FlashWrite)
  /-- SLICE_CREATE (R266): Creates a slice bound to a PASID, with every quota 0. -/
  | sliceCreate (n : SliceId) (w : Line)
  /-- SLICE_DESTROY (R352): Stops, aborts, frees and unmaps everything of a slice, then resets its mailbox page. -/
  | sliceDestroy (n : SliceId) (w : Line)
  /-- QUOTA_SET (R274): Sets one slice quota, flagging OVER_QUOTA and optionally reclaiming KV memory. -/
  | quotaSet (n : SliceId) (w : Line)
  /-- ASSIGN (R356): Gives a head, camera stream, route block or loop to a slice. -/
  | assign (n : SliceId) (w : Line)
  /-- CACHE_SET (R271): Writes the shadow of the system-cache partition masks. -/
  | cacheSet (n : SliceId) (w : Line)
  /-- MEM_MAP (R357): Maps a virtual range to granted zeroed device pages or to host memory. -/
  | memMap (n : SliceId) (w : Line)
  /-- MEM_UNMAP (R523): Removes the slice's mappings in a range and releases owner pages that are no longer mapped. -/
  | memUnmap (n : SliceId) (w : Line)
  /-- APERTURE_SET (R321): Sets or clears APT_BASE of the slice's BAR2 window. -/
  | apertureSet (n : SliceId) (w : Line)
  /-- SWAP_AREA_SET (R163): Registers the slice's swap area in host memory. -/
  | swapAreaSet (n : SliceId) (w : Line)
  /-- GRAPH_LOAD (R363): Validates, relocates and loads a graph package and returns a HANDLE. -/
  | graphLoad (n : SliceId) (w : Line)
  /-- GRAPH_UNLOAD (R356): Unloads a package and restores W on its image. -/
  | graphUnload (n : SliceId) (w : Line)
  /-- JOB_START (R358): Checks and queues a job in a scene and completes when the job has ended on every unit. -/
  | jobStart (n : SliceId) (w : Line)
  /-- JOB_ABORT (R356): Terminates running jobs and dequeues queued jobs that carry the given JOB_START TAG. -/
  | jobAbort (n : SliceId) (w : Line)
  /-- SHEET_WRITE (R233): Validates a cue sheet and writes it into a non-active bank. -/
  | sheetWrite (n : SliceId) (w : Line)
  /-- CUE_SET (R231): Writes the CUE group shadow: period, beat, time base and bank. -/
  | cueSet (n : SliceId) (w : Line)
  /-- CUE_START (R359): Fixes the first cue edge at least 1 ms ahead and starts the cue there. -/
  | cueStart (n : SliceId) (w : Line)
  /-- CUE_STOP (R18): Stops the cue at the next edge, or cancels a start that is still pending. -/
  | cueStop (n : SliceId) (w : Line)
  /-- SYNC_ALLOC (R356): Allocates a run of consecutive free sync counters set to VALUE. -/
  | syncAlloc (n : SliceId) (w : Line)
  /-- SYNC_FREE (R256): Frees sync counters unless a wait or a signal is pending on them. -/
  | syncFree (n : SliceId) (w : Line)
  /-- SYNC_SET (R257): Re-initialises a counter's value and starts a new ledger. -/
  | syncSet (n : SliceId) (w : Line)
  /-- SYNC_SIGNAL (R250): Pyotos command that adds VALUE to a counter. -/
  | syncSignal (n : SliceId) (w : Line)
  /-- SYNC_READ (R356): Returns a counter's value. -/
  | syncRead (n : SliceId) (w : Line)
  /-- KV_POOL_SET (R159): Sets the page pool of an attention engine. -/
  | kvPoolSet (n : SliceId) (w : Line)
  /-- SEQ_CREATE (R160): Creates a sequence descriptor and maps its pages at once or on demand. -/
  | seqCreate (n : SliceId) (w : Line)
  /-- SEQ_FREE (R166): Frees a sequence, releasing its pages under the epoch rule. -/
  | seqFree (n : SliceId) (w : Line)
  /-- SEQ_GLOBALS (R165): Changes a sparse sequence's global positions by copy-on-write. -/
  | seqGlobals (n : SliceId) (w : Line)
  /-- SEQ_SWAP_OUT (R163): Starts swapping a sequence out to the slice's swap area. -/
  | seqSwapOut (n : SliceId) (w : Line)
  /-- SEQ_SWAP_IN (R163): Maps pages, copies a swapped sequence back and verifies every granule. -/
  | seqSwapIn (n : SliceId) (w : Line)
  /-- SAMPLE_SUBMIT (R213): Queues all given sample descriptors into the intake queues, or none. -/
  | sampleSubmit (n : SliceId) (w : Line)
  /-- DICT_LOAD (R222): Validates and loads a tokenizer dictionary image. -/
  | dictLoad (n : SliceId) (w : Line)
  /-- CAM_SET (R201): Writes a camera stream group shadow. -/
  | camSet (n : SliceId) (w : Line)
  /-- SAMPLE_RELEASE (R217): Unmaps a decoded intake tensor and returns its pages. -/
  | sampleRelease (n : SliceId) (w : Line)
  /-- HEAD_SET (R191): Writes the head settings of a HEAD group shadow. -/
  | headSet (n : SliceId) (w : Line)
  /-- LAYER_SET (R191): Writes one layer of a HEAD group shadow. -/
  | layerSet (n : SliceId) (w : Line)
  /-- FALLBACK_LOAD (R196): Copies a fallback surface for a head into Pyotos-owned pages. -/
  | fallbackLoad (n : SliceId) (w : Line)
  /-- ROUTE_SET (R445): Writes the shadows of a run of gateway routes. -/
  | routeSet (n : SliceId) (w : Line)
  /-- TIMEBASE_SET (R437): Writes a TIMEBASE group shadow. -/
  | timebaseSet (n : SliceId) (w : Line)
  /-- TIME_SET (R439): Steps a time base to a new value. -/
  | timeSet (n : SliceId) (w : Line)
  /-- TIME_READ (R440): Returns a time base's value and servo state. -/
  | timeRead (n : SliceId) (w : Line)
  /-- LOOP_SET (R455): Writes a LOOP group shadow from a 320-byte structure. -/
  | loopSet (n : SliceId) (w : Line)
  /-- LOOP_COEFF (R465): Writes one stage word that takes effect unstaged at a following sample. -/
  | loopCoeff (n : SliceId) (w : Line)
  /-- LOOP_TUNE_STOP (R468): LOOP_TUNE MODE 0 stops a running tuning. -/
  | loopTuneStop (n : SliceId) (w : Line)
  /-- LOOP_TUNE_INJECT (R469): LOOP_TUNE MODE 1 injects a chirp or PRBS into a vehicle loop and records samples. -/
  | loopTuneInject (n : SliceId) (w : Line)
  /-- LOOP_TUNE_RELAY (R470): LOOP_TUNE MODE 2 runs a relay auto-tune on an internal loop. -/
  | loopTuneRelay (n : SliceId) (w : Line)
  /-- SAFETY_POLICY (R398): Writes the SAFETY group shadow. -/
  | safetyPolicy (n : SliceId) (w : Line)
  /-- KAF_SET (R422): Registers, replaces or removes a known-answer frame registration. -/
  | kafSet (n : SliceId) (w : Line)
  /-- SAFETY_STATUS (R427): Writes the safety status record to slice memory. -/
  | safetyStatus (n : SliceId) (w : Line)
  /-- TWIN_MODE (R306): Writes the TWIN group shadow. -/
  | twinMode (n : SliceId) (w : Line)
  /-- TWIN_CHANNEL_SET (R307): Sets one end of a twin channel. -/
  | twinChannelSet (n : SliceId) (w : Line)
  /-- TWIN_CHANNEL_FREE (R356): Frees one end of a twin channel. -/
  | twinChannelFree (n : SliceId) (w : Line)
  /-- ENCLAVE_CREATE (R377): Creates an enclave of ENCLAVE pages for a host slice. -/
  | enclaveCreate (n : SliceId) (w : Line)
  /-- ENCLAVE_LOAD (R380): Authenticates, decrypts and loads an enclave package into an enclave. -/
  | enclaveLoad (n : SliceId) (w : Line)
  /-- ENCLAVE_DESTROY (R384): Removes, zeroes and frees an enclave's pages. -/
  | enclaveDestroy (n : SliceId) (w : Line)
  /-- CE_SPLIT (R471): CE_SPLIT MODE 1 splits the control-engine pair at a cue edge. -/
  | ceSplit (n : SliceId) (w : Line)
  /-- CE_JOIN (R471): CE_SPLIT MODE 0 joins the control-engine pair at a cue edge. -/
  | ceJoin (n : SliceId) (w : Line)
  /-- IDENTIFY (R345): Mailbox message that returns firmware and command-set versions. -/
  | identify (n : SliceId)
  /-- ECHO (R345): Mailbox message that echoes words 1 to 6. -/
  | echo (n : SliceId)
  /-- STOP_SLICE (R352): Mailbox message that aborts a slice's jobs and its unstarted commands. -/
  | stopSlice (n : SliceId)
  /-- GET_KEYS (R374): Secure-channel message that writes the signed device public keys to host memory. -/
  | getKeys
  /-- BOOT_INFO (R373): Secure-channel message that returns the boot bank, fallback and rollback counts. -/
  | bootInfo
  /-- PROVISION (R376): Secure-channel message that sets or clears a supplier slot from a signed record. -/
  | provision
  /-- DEBUG_CHALLENGE (R387): Secure-channel message that returns a fresh debug nonce. -/
  | debugChallenge
  /-- DEBUG_UNLOCK (R387): Secure-channel message that sets SEC_DEBUG bits from a signed token. -/
  | debugUnlock
  /-- DESCRIPTOR_ISSUE (R76): The sequencer issues the next descriptor once its queue has room and its WAIT engines are done. -/
  | descriptorIssue (u : UnitId) (k : Chk)
  /-- BEGIN (R81): Sequencer descriptor that opens a program and sets its live range. -/
  | begin_ (u : UnitId)
  /-- END (R77): Sequencer descriptor that completes the program when all engines are idle. -/
  | end_ (u : UnitId)
  /-- SE_MOVE (R83): Stream-engine move of LEN0 bytes over a five-level loop nest. -/
  | seMove (c : CoreId) (k : MoveChk)
  /-- SE_WINDOW (R87): Loads a window-unroller context. -/
  | seWindow (c : CoreId)
  /-- TE_OP (R96): Tensor-engine matrix operation with check, conversion and optional argmax. -/
  | teOp (c : CoreId) (k : TeChk)
  /-- VE_LAUNCH (R126): Launches a vector kernel over a grid in kernel mode. -/
  | veLaunch (c : CoreId)
  /-- VE_LAUNCH_CONV (R134): VE_LAUNCH MODE 1 runs depth-wise or grouped convolution. -/
  | veLaunchConv (c : CoreId) (k : ConvChk)
  /-- SYNC_WAIT (R252): Descriptor that waits on a sync counter, in MODE 0 or MODE 1. -/
  | syncWait (u : UnitId)
  /-- SYNC_SIGNAL_DESCRIPTOR (R253): Descriptor that signals a sync counter. -/
  | syncSignalDescriptor (u : UnitId)
  /-- YIELD (R105): Descriptor that applies a live range and yields or suspends when a request is pending. -/
  | yield_ (u : UnitId)
  /-- AE_APPEND (R148): Attention-engine append of keys and values to a sequence layer. -/
  | aeAppend (a : AeId) (k : AeChk)
  /-- AE_GATHER (R150): Attention-engine copy of one stream plane into a core store. -/
  | aeGather (a : AeId) (k : AeChk)
  /-- AE_DECODE (R153): Attention-engine decode of one layer for a batch of sequences. -/
  | aeDecode (a : AeId) (k : AeChk)
  /-- RFE_RENDER (R175): Bins every draw of a render context, finishes tiles and flips. -/
  | rfeRender (r : RfeId) (k : RenderChk)
  /-- RFE_CLEAR (R184): Sets fast-clear flags on every tile. -/
  | rfeClear (r : RfeId)
  /-- RFE_RESOLVE (R185): Writes the clear values into flagged tiles and clears the flags. -/
  | rfeResolve (r : RfeId)
  /-- TILE_ISSUE (R178): The RFE hands the next tile to a waiting idle core of the partition. -/
  | tileIssue (r : RfeId) (k : Chk)
  /-- VE_NOP (R113): Vector instruction with no effect. -/
  | veNop (c : CoreId)
  /-- HALT (R128): Ends the current grid point and starts the next one or completes the launch. -/
  | halt (c : CoreId)
  /-- BR (R113): Unconditional branch. -/
  | br (c : CoreId)
  /-- BRZ (R113): Branch if the scalar is zero. -/
  | brz (x : CoreChk)
  /-- BRNZ (R113): Branch if the scalar is non-zero. -/
  | brnz (x : CoreChk)
  /-- BRANY (R113): Branch if any predicate lane is set. -/
  | brany (x : CoreChk)
  /-- BRNONE (R113): Branch if no predicate lane is set. -/
  | brnone (x : CoreChk)
  /-- LOOP (R113): Decrements a scalar and branches while it is non-zero. -/
  | loop (c : CoreId) (k : Chk)
  /-- TRAP (R131): Raises the TRAP exception. -/
  | trap (c : CoreId)
  /-- SADD (R113): Scalar add. -/
  | sadd (c : CoreId) (k : Chk)
  /-- SSUB (R113): Scalar subtract. -/
  | ssub (c : CoreId) (k : Chk)
  /-- SMUL (R113): Scalar multiply, low 64 bits. -/
  | smul (c : CoreId) (k : Chk)
  /-- SAND (R113): Scalar AND. -/
  | sand (c : CoreId) (k : Chk)
  /-- SOR (R113): Scalar OR. -/
  | sor (c : CoreId) (k : Chk)
  /-- SXOR (R113): Scalar XOR. -/
  | sxor (c : CoreId) (k : Chk)
  /-- SSHL (R113): Scalar left shift. -/
  | sshl (c : CoreId) (k : Chk)
  /-- SSHR (R113): Scalar right shift, logical or arithmetic. -/
  | sshr (c : CoreId) (k : Chk)
  /-- SMIN (R113): Scalar minimum. -/
  | smin (c : CoreId) (k : Chk)
  /-- SMAX (R113): Scalar maximum. -/
  | smax (c : CoreId) (k : Chk)
  /-- SCMP (R114): Scalar compare. -/
  | scmp (c : CoreId) (k : Chk)
  /-- SMOVI (R113): Moves a sign-extended immediate into a scalar. -/
  | smovi (c : CoreId) (k : Chk)
  /-- VADD (R115): Vector integer add. -/
  | vadd (c : CoreId) (k : Chk)
  /-- VSUB (R115): Vector integer subtract. -/
  | vsub (c : CoreId) (k : Chk)
  /-- VMUL (R115): Vector integer multiply, low half. -/
  | vmul (c : CoreId) (k : Chk)
  /-- VMULH (R113): Vector integer multiply, high half. -/
  | vmulh (c : CoreId) (k : Chk)
  /-- VMAD (R115): Vector integer multiply-add. -/
  | vmad (c : CoreId) (k : Chk)
  /-- VDOT4 (R113): Four-way INT8 dot product accumulated per lane. -/
  | vdot4 (c : CoreId) (k : Chk)
  /-- VABS (R115): Vector absolute value. -/
  | vabs (c : CoreId) (k : Chk)
  /-- VNEG (R115): Vector negate. -/
  | vneg (c : CoreId) (k : Chk)
  /-- VMIN (R113): Vector integer minimum. -/
  | vmin (c : CoreId) (k : Chk)
  /-- VMAX (R113): Vector integer maximum. -/
  | vmax (c : CoreId) (k : Chk)
  /-- VAND (R113): Vector AND. -/
  | vand (c : CoreId) (k : Chk)
  /-- VOR (R113): Vector OR. -/
  | vor (c : CoreId) (k : Chk)
  /-- VXOR (R113): Vector XOR. -/
  | vxor (c : CoreId) (k : Chk)
  /-- VNOT (R113): Vector NOT. -/
  | vnot (c : CoreId) (k : Chk)
  /-- VSHL (R113): Vector left shift. -/
  | vshl (c : CoreId) (k : Chk)
  /-- VSHR (R113): Vector right shift. -/
  | vshr (c : CoreId) (k : Chk)
  /-- VCMP (R114): Vector integer compare into a predicate. -/
  | vcmp (c : CoreId) (k : Chk)
  /-- VCLZ (R113): Counts leading zeros per lane. -/
  | vclz (c : CoreId) (k : Chk)
  /-- VLD (R122): Loads 256 bytes from the core store. -/
  | vld (x : CoreChk)
  /-- VST (R122): Stores 256 bytes to the core store. -/
  | vst (x : CoreChk)
  /-- VLDS (R122): Strided vector load. -/
  | vlds (x : CoreChk)
  /-- VSTS (R123): Strided vector store. -/
  | vsts (x : CoreChk)
  /-- VGATH (R122): Gathers lanes from indexed store addresses. -/
  | vgath (x : CoreChk)
  /-- VSCAT (R123): Scatters lanes to indexed store addresses. -/
  | vscat (x : CoreChk)
  /-- VLDBC (R122): Loads one element broadcast to every lane. -/
  | vldbc (x : CoreChk)
  /-- VLDPIP (R124): Loads two Pip blocks converted to FP32. -/
  | vldpip (x : CoreChk)
  /-- VSTPIP (R124): Converts lanes to two Pip blocks and stores them. -/
  | vstpip (c : CoreId) (k : Chk)
  /-- SLD (R122): Scalar 8-byte load. -/
  | sld (x : CoreChk)
  /-- SST (R122): Scalar 8-byte store. -/
  | sst (x : CoreChk)
  /-- TSAMPLE (R125): Issues a texture sample to the texture unit. -/
  | tsample (c : CoreId) (k : Chk)
  /-- TSAMPLE_RESULT (R187): The texture unit returns filtered samples for a TSAMPLE. -/
  | tsampleResult (c : TexDone)
  /-- FADD (R116): Float add. -/
  | fadd (c : CoreId) (k : Chk)
  /-- FSUB (R116): Float subtract. -/
  | fsub (c : CoreId) (k : Chk)
  /-- FMUL (R116): Float multiply. -/
  | fmul (c : CoreId) (k : Chk)
  /-- FFMA (R116): Float fused multiply-add. -/
  | ffma (c : CoreId) (k : Chk)
  /-- FFMS (R116): Float fused multiply-subtract. -/
  | ffms (c : CoreId) (k : Chk)
  /-- FMIN (R116): Float minimumNumber. -/
  | fmin (c : CoreId) (k : Chk)
  /-- FMAX (R116): Float maximumNumber. -/
  | fmax (c : CoreId) (k : Chk)
  /-- FABS (R116): Float absolute value. -/
  | fabs (c : CoreId) (k : Chk)
  /-- FNEG (R116): Float negate. -/
  | fneg (c : CoreId) (k : Chk)
  /-- FCMP (R114): Float compare into a predicate. -/
  | fcmp (c : CoreId) (k : Chk)
  /-- FDIV (R116): Float divide, correctly rounded. -/
  | fdiv (c : CoreId) (k : Chk)
  /-- FSQRT (R116): Float square root, correctly rounded. -/
  | fsqrt (c : CoreId) (k : Chk)
  /-- FRCP (R117): Float reciprocal. -/
  | frcp (c : CoreId) (k : Chk)
  /-- FRSQ (R117): Float reciprocal square root. -/
  | frsq (c : CoreId) (k : Chk)
  /-- FEXP2 (R117): Float base-2 exponential. -/
  | fexp2 (c : CoreId) (k : Chk)
  /-- FLOG2 (R117): Float base-2 logarithm. -/
  | flog2 (c : CoreId) (k : Chk)
  /-- FSIN (R117): Float sine of 2 pi A. -/
  | fsin (c : CoreId) (k : Chk)
  /-- FCOS (R117): Float cosine of 2 pi A. -/
  | fcos (c : CoreId) (k : Chk)
  /-- FTANH (R117): Float hyperbolic tangent. -/
  | ftanh (c : CoreId) (k : Chk)
  /-- FSIGM (R117): Float logistic sigmoid. -/
  | fsigm (c : CoreId) (k : Chk)
  /-- FFLOOR (R116): Float floor. -/
  | ffloor (c : CoreId) (k : Chk)
  /-- FROUND (R116): Float round to integral, ties to even. -/
  | fround (c : CoreId) (k : Chk)
  /-- FCLAMP (R116): Float clamp. -/
  | fclamp (c : CoreId) (k : Chk)
  /-- CVT (R119): Converts between element types. -/
  | cvt (c : CoreId) (k : Chk)
  /-- F8PACK (R119): Packs floats into FP8. -/
  | f8pack (c : CoreId) (k : Chk)
  /-- F8UNPK (R119): Unpacks FP8 into a float type. -/
  | f8unpk (c : CoreId) (k : Chk)
  /-- I4PACK (R113): Packs INT4 pairs with saturation. -/
  | i4pack (c : CoreId) (k : Chk)
  /-- I4UNPK (R113): Unpacks INT4 pairs with sign extension. -/
  | i4unpk (c : CoreId) (k : Chk)
  /-- NARROW (R52): Rounding shift with integer narrowing and saturation. -/
  | narrow (c : CoreId) (k : Chk)
  /-- VSEL (R113): Selects lanes by predicate. -/
  | vsel (c : CoreId) (k : Chk)
  /-- VMOV (R113): Vector move. -/
  | vmov (c : CoreId) (k : Chk)
  /-- VPERM (R113): Permutes lanes by index. -/
  | vperm (c : CoreId) (k : Chk)
  /-- VROT (R113): Rotates lanes. -/
  | vrot (c : CoreId) (k : Chk)
  /-- VEXT (R113): Extracts one lane into a scalar. -/
  | vext (c : CoreId) (k : Chk)
  /-- VINS (R113): Inserts a scalar into one lane. -/
  | vins (c : CoreId) (k : Chk)
  /-- VREDADD (R118): Tree sum of the active lanes. -/
  | vredadd (c : CoreId) (k : Chk)
  /-- VREDMAX (R118): Tree maximum of the active lanes. -/
  | vredmax (c : CoreId) (k : Chk)
  /-- VREDMIN (R118): Tree minimum of the active lanes. -/
  | vredmin (c : CoreId) (k : Chk)
  /-- VIDX (R113): Writes lane indices. -/
  | vidx (c : CoreId) (k : Chk)
  /-- PAND (R113): Predicate AND. -/
  | pand (c : CoreId) (k : Chk)
  /-- POR (R113): Predicate OR. -/
  | por (c : CoreId) (k : Chk)
  /-- PNOT (R113): Predicate NOT. -/
  | pnot (c : CoreId) (k : Chk)
  /-- PFIRSTN (R113): Sets the first n predicate lanes. -/
  | pfirstn (c : CoreId) (k : Chk)
  /-- PCNT (R113): Counts the set predicate lanes. -/
  | pcnt (c : CoreId) (k : Chk)
  /-- DOORBELL_CMD (R349): Host sets MBX_DOORBELL.CMD, and Pyotos fetches commands up to CMD_TAIL. -/
  | doorbellCmd (n : SliceId)
  /-- DOORBELL_MBX (R345): Host sets MBX_DOORBELL.MBX, and Stagehand takes the mailbox message. -/
  | doorbellMbx (n : SliceId)
  /-- RING_ENABLE (R320): A RING_CTRL write that sets ENABLE validates the rings, zeroes the pointers and delivers staged notices. -/
  | ringEnable (n : SliceId) (v : Word)
  /-- RING_DISABLE (R320): A RING_CTRL write that clears ENABLE stops every ring of the slice. -/
  | ringDisable (n : SliceId) (v : Word)
  /-- CPL_HEAD_WRITE (R319): Host advances CPL_HEAD, which frees completion-ring room or sets ERROR. -/
  | cplHeadWrite (n : SliceId) (v : Word)
  /-- NTC_HEAD_WRITE (R340): Host advances NTC_HEAD, which frees notice-ring room or sets ERROR. -/
  | ntcHeadWrite (n : SliceId) (v : Word)
  /-- NTC_LOST_READ (R331): A non-speculative read of NTC_LOST returns it and clears it. -/
  | ntcLostRead (n : SliceId) (speculative : Bool)
  /-- PD_STATUS_CLEAR (R336): Writing 1 to MBX_PD_STATUS.VALID clears VALID and COUNT. -/
  | pdStatusClear (v : Word)
  /-- COUNTER_FETCHADD (R326): A host 32-bit FetchAdd to the counter window signals or reads a sync counter. -/
  | counterFetchAdd (n : SliceId) (ctr : CtrId) (v : Word)
  /-- COUNTER_SWAP_CAS (R326): A host Swap or CAS to the counter window receives Completer Abort. -/
  | counterSwapCas (n : SliceId) (ctr : CtrId)
  /-- BAR0_INVALID_ACCESS (R316): A BAR0 access of wrong size, alignment or readiness is aborted or discarded and counted. -/
  | bar0InvalidAccess (write : Bool) (off : BitVec 24) (size : Nat)
  /-- APERTURE_READ (R321): Host read through a BAR2 window, translated and owner-checked. -/
  | apertureRead (n : SliceId) (off : BitVec 25) (r : AptRead)
  /-- APERTURE_WRITE (R321): Host write through a BAR2 window, merged under the carried check. -/
  | apertureWrite (n : SliceId) (off : BitVec 25) (data : Bytes) (r : AptWrite)
  /-- PASID_PREFIXED_REQUEST (R321): An inbound request carrying a PASID prefix receives Unsupported Request. -/
  | pasidPrefixedRequest (bar2 : Bool)
  /-- CHANNEL_DOORBELL (R335): Writing a channel doorbell raises a wake event and may power the other end. -/
  | channelDoorbell (ch : ChanId) (m : DoorbellBy)
  /-- CHANNEL_WORD_ACCESS (R336): An access to mailbox-channel words is checked for the end and for domain power. -/
  | channelWordAccess (ch : ChanId) (master : BitVec 4) (write : Bool) (idx : BitVec 4) (v : Word)
  /-- MBX_LOCK_SET (R333): Setting MBX_LOCK freezes the channel table and reports duplicate host pages. -/
  | mbxLockSet
  /-- SEC_WDT_KICK (R390): Writing 0x5A restarts the secure watchdog count. -/
  | secWdtKick (secure : Bool) (v : Word)
  /-- SEC_DEBUG_WRITE (R387): A secure write to SEC_DEBUG changes the debug enables unless LOCK is set. -/
  | secDebugWrite (secure : Bool) (v : Word)
  /-- REGISTER_WRITE (R10): A write to any register without its own row behaves as its field types define. -/
  | registerWrite (r : RegAddr) (secure : Bool) (v : RegData)
  /-- I2C_OFFSET_WRITE (R518): A two-byte I2C write sets the management target's offset. -/
  | i2cOffsetWrite (data : Bytes)
  /-- I2C_READ (R519): An I2C read returns page 0 words and latches 64-bit registers consistently. -/
  | i2cRead (words : Nat)
  /-- I2C_SCL_TIMEOUT (R518): SCL held low for 25 ms makes the target release SDA. -/
  | i2cSclTimeout
  /-- JTAG_DEBUG_ACCESS (R388): A JTAG debug access is admitted or refused under SEC_DEBUG. -/
  | jtagDebugAccess (d : DebugTarget) (invasive : Bool)
  /-- JTAG_TRST (R484): TRST_N resets the JTAG debug access port. -/
  | jtagTrst
  /-- AON_POWER_ON (R474): Rails 0 and 1 are within limits and the always-on domain leaves power-on reset. -/
  | aonPowerOn
  /-- RAIL_GOOD (R474): A group's rails become good, and the next PWR_EN rises after 1 ms. -/
  | railGood (g : RailGroup)
  /-- RAIL_ENABLE_TIMEOUT (R474): A rail is not good within 10 ms of its enable, so every PWR_EN is lowered and a retry is scheduled. -/
  | railEnableTimeout (rail : Fin 9)
  /-- RAIL_RETRY (R474): The 100 ms retry restarts rail sequencing. -/
  | railRetry
  /-- BROWN_OUT (R475): A rail outside its limits for 2 us causes a chip reset. -/
  | brownOut (rail : Fin 9)
  /-- PORST_N_LOW (R484): PORST_N is held low, resetting the whole device. -/
  | porstNLow
  /-- PORST_N_RISE (R486): PORST_N rises, the straps are sampled and bring-up begins. -/
  | porstNRise (twin : BitVec 2) (i2c : BitVec 2)
  /-- CHIP_RESET (R484): An internal chip reset of PORST_N scope from the watchdog, SLEEP exit, brown-out or thermal trip. -/
  | chipReset (cause : ResetCause)
  /-- SECURE_ROM_START (R486): Secure ROM runs, starts the secure watchdog and the I2C target. -/
  | secureRomStart (r : RomStart)
  /-- CONFIG_RETRY_END (R314): 100 ms after PORST_N rises, configuration requests are served. -/
  | configRetryEnd (at_ : Nat)
  /-- IMAGE_VERIFY_DONE (R370): Boot image verification ends, accepting images, falling back to the other bank or halting. -/
  | imageVerifyDone (a : BankRead) (b : BankRead)
  /-- TRIM_AND_PLL_LOCK (R291): Regulators are trimmed, PLLs lock, die identity is checked and die links train. -/
  | trimAndPllLock (r : TrimReport)
  /-- DRAM_TRAINING_DONE (R259): A DRAM training pass ends, with retrain, rate step-down, halt or start of initialisation. -/
  | dramTrainingDone (r : TrainReport)
  /-- BIST_COMPLETE (R409): BIST and the island comparator self-test end. -/
  | bistComplete (fail : Option DieId) (islandFail : Bool)
  /-- DEV_READY (R486): The first 16 GiB is initialised, the network block applied, locks set and DEV_READY rises. -/
  | devReady (at_ : Nat)
  /-- MEMORY_INIT_COMPLETE (R487): Every page is initialised and MEM_COMPLETE is set. -/
  | memoryInitComplete
  /-- REFCLK_LOSS (R516): The reference stops or drifts, PLLs lose lock and every domain is held in reset. -/
  | refclkLoss
  /-- SLEEP_REQUEST (R482): SLEEP_N held low for 10 ms moves PARKED to SLEEP. -/
  | sleepRequest
  /-- WAKE (R482): A SLEEP_N rise or WAKE_IN edge in SLEEP starts sequencing and full bring-up. -/
  | wake
  /-- THERMAL_SENSOR_UPDATE (R491): Each sensor reading updates every 100 us. -/
  | thermalSensorUpdate (i : Fin 44) (milliC : Int)
  /-- THROTTLE_STEP (R492): Every 1 ms while hot, or over the power cap, affected dies step down one operating point. -/
  | throttleStep (d : BitVec 2)
  /-- THROTTLE_STEP_UP (R492): Every 10 ms once cool and under the cap, a throttled die steps up one point. -/
  | throttleStepUp (d : BitVec 2)
  /-- OPERATING_POINT_STEP_DONE (R477): A die's voltage and clock change to the next point completes. -/
  | operatingPointStepDone (d : BitVec 2)
  /-- THERMAL_EMERGENCY (R493): An emergency cuts every Stage die and aborts its jobs. -/
  | thermalEmergency
  /-- THERMAL_RECOVERY (R493): Every sensor at or below 95 C repowers the Stage dies. -/
  | thermalRecovery
  /-- THERMAL_TRIP (R494): A sensor at 135 C lowers every PWR_EN without firmware. -/
  | thermalTrip
  /-- POWER_MEASURE (R495): Package power is measured every 100 us against the cap in force. -/
  | powerMeasure (milliW : Nat)
  /-- MR4_READ (R260): Every 4 ms a controller reads MR4 and sets the refresh rate. -/
  | mr4Read (k : Fin 12) (mult : RefreshRate) (overTemp : Bool)
  /-- IVR_CORE_WAKE (R476): A gated idle core returns to service, scrubbed. -/
  | ivrCoreWake (c : CoreId)
  /-- PCIE_LINK_DOWN (R342): The data link goes down or a hot reset arrives, and the bridge discards and clears ring enables. -/
  | pcieLinkDown
  /-- D3HOT_ENTRY (R343): The host moves the function to D3hot. -/
  | d3hotEntry
  /-- D0_RETURN (R343): The host returns the function to D0 with state kept. -/
  | d0Return
  /-- HOST_COMPLETION (R323): A host completion for a device request to host memory arrives. -/
  | hostCompletion (a : BitVec 64) (st : CplStatus) (data : Bytes)
  /-- HOST_COMPLETION_TIMEOUT (R323): A device request to host memory exceeds the Completion Timeout Value. -/
  | hostCompletionTimeout (x : HostTimeout)
  /-- BRIDGE_PREFETCH (R329): The bridge speculatively reads ahead within a marked range. -/
  | bridgePrefetch (n : SliceId) (off : BitVec 25) (len : Nat) (at_ : Nat)
  /-- PREFETCH_EXPIRY (R330): Prefetched data is discarded 10 us after it was read. -/
  | prefetchExpiry (at_ : Nat)
  /-- NOTICE_DELIVER (R340): A waiting notice enters the notice ring once room frees, with an overflow notice if any were lost. -/
  | noticeDeliver (n : SliceId)
  /-- COMPLETION_WRITE (R319): A held completion is written once the completion ring has room. -/
  | completionWrite (n : SliceId)
  /-- COALESCE_TIMER (R339): The coalescing timer reaches COALESCE_US and one MSI-X is sent. -/
  | coalesceTimer (n : SliceId) (v : Fin 2) (at_ : Nat)
  /-- CUE_EDGE (R26): A cue edge increments the count, applies commits, closes scenes, snapshots pools and handles overruns. -/
  | cueEdge (at_ : Nat)
  /-- CONSERVATION_AUDIT (R300): The receiver's audit record returns, the pool is compared and mismatches are reported. -/
  | conservationAudit (r : AuditReport)
  /-- BEAT_START (R24): A beat starts, sending periodic gateway frames due at it. -/
  | beatStart (at_ : Nat)
  /-- CAMERA_TRIGGER (R202): A stream's trigger edge raises FSYNC and opens its acceptance window. -/
  | cameraTrigger (c : CamId) (at_ : Nat)
  /-- FSYNC_FALL (R202): The FSYNC pin falls after PULSE. -/
  | fsyncFall (p : BitVec 4) (at_ : Nat)
  /-- SCENE_OPEN (R238): A scene opens and its carry-over and queued jobs are placed. -/
  | sceneOpen (i : SceneId) (at_ : Nat)
  /-- SCENE_CLOSE (R244): A scene closes away from a cue edge and its unfinished jobs overrun. -/
  | sceneClose (i : SceneId) (at_ : Nat)
  /-- JOB_PLACE (R240): The head queued job is placed once the scene's free units meet its needs. -/
  | jobPlace (i : SceneId)
  /-- JOB_TERMINATE (R106): A unit abandons work, writes its record and is released after a termination. -/
  | jobTerminate (u : UnitId)
  /-- JOB_END (R524): The last unit of a job leaves its core and the JOB_START completes. -/
  | jobEnd (j : Nat)
  /-- PREEMPT_REQUEST (R102): A pre-emption request is latched on a core and engines head for yield points. -/
  | preemptRequest (u : UnitId)
  /-- FORCED_SPILL (R102): 5 us after the request, engines not at a yield point are captured as they stand. -/
  | forcedSpill (u : UnitId)
  /-- PREEMPT_SAVE_DONE (R102): The context is saved, the status record written and the core released. -/
  | preemptSaveDone (u : UnitId)
  /-- CONTEXT_RESTORE (R103): A pre-empted or suspended job's context is restored onto placed units. -/
  | contextRestore (u : UnitId)
  /-- DISPLAY_RECLAIM (R197): At D minus PREEMPT_BUDGET, lent cores of a render partition are pre-empted and returned. -/
  | displayReclaim (h : HeadId)
  /-- CORE_FENCE (R248): A unit is fenced and its job terminated, with replacements taken at the next edge. -/
  | coreFence (u : UnitId)
  /-- REGULATION_WINDOW (R278): A 1,000 ns window ends, tokens lapse, misses are reported and new tokens issue. -/
  | regulationWindow (at_ : Nat)
  /-- SYNC_SIGNAL_APPLY (R251): A signal reaches its counter and is applied or refused at the limit. -/
  | syncSignalApply (ctr : CtrId)
  /-- SYNC_WAIT_ARRIVE (R252): A wait reaches its counter and is released or queued. -/
  | syncWaitArrive (u : UnitId)
  /-- FAR_WRITE_ACK (R287): The floor acknowledges a far write once it is visible. -/
  | farWriteAck (tag : BitVec 16)
  /-- TRANSACTION_TIMEOUT (R289): A transaction exceeds its timeout and completes with an error. -/
  | transactionTimeout (t : TxnTimeout)
  /-- TRANSLATION_CHANGE_DONE (R269): The tracker drains transactions translated before an invalidation, completing the change. -/
  | translationChangeDone
  /-- PATROL_SCRUB_BLOCK (R282): The patrol scrubber reads one block with its checks and owner entries. -/
  | patrolScrubBlock (r : PatrolRead)
  /-- FLOOR_SRAM_SCRUB (R284): The floor scrubber reads SRAM entries in idle cycles. -/
  | floorSramScrub (e : SramError)
  /-- WRITE_LINK_ECC_ERROR (R281): The memory reports a write link ECC error, and the data is rewritten once. -/
  | writeLinkEccError (page : Nat) (again : Bool)
  /-- PAGE_TEST (R283): A page marked for test is tested once free, then freed or retired. -/
  | pageTest (page : Nat) (pass : Bool)
  /-- FLIT_CRC_FAIL (R295): A die-link flit fails its CRC and is negatively acknowledged for replay. -/
  | flitCrcFail (f : FlitFail)
  /-- LANE_ERROR_RETRAIN (R296): 16 CRC errors within 1 ms retrain the module. -/
  | laneErrorRetrain (m : ModId)
  /-- LINK_RETRAIN_DONE (R296): A module retrain ends, repairing the lane or fencing or curtaining. -/
  | linkRetrainDone (m : ModId) (bad : List Nat)
  /-- RAW_FRAME_RECEIVE (R297): A raw stream frame arrives and is taken from the first passing copy. -/
  | rawFrameReceive (st : RawStream) (d : DieId) (ok0 : Bool) (ok1 : Bool) (payload : BitVec 64)
  /-- CUE_PREDICTED_EDGE (R298): Both CUE copies fail, and the die applies its locally predicted edge. -/
  | cuePredictedEdge (d : DieId)
  /-- PLL_LOCK_LOSS (R299): A PLL loses lock, the die's links go down and the loss is reported. -/
  | pllLockLoss (d : DieId)
  /-- TWIN_LINK_UP (R305): Twin-link training completes and its pools initialise. -/
  | twinLinkUp (roundTrip : Nat)
  /-- TWIN_LINK_DOWN (R305): The twin link goes down, and crossing transactions fail and far locks release. -/
  | twinLinkDown
  /-- TWIN_CODEWORD_UNCORRECTABLE (R304): An uncorrectable codeword is discarded and replay requested. -/
  | twinCodewordUncorrectable
  /-- TWIN_ALIGNMENT_TIMEOUT (R304): Alignment lost for 10 us takes the link down. -/
  | twinAlignmentTimeout
  /-- TWIN_CUE_FRAME (R311): The follower receives the lead's cue frame and corrects its cue. -/
  | twinCueFrame (f : Option TwinCue)
  /-- FAR_LOCK_REQUEST (R310): A far-lock request arrives and is granted, refused with RETRY or tied. -/
  | farLockRequest (line : Nat)
  /-- FAR_LOCK_TIMEOUT (R309): A far lock not released within 20 us times out. -/
  | farLockTimeout (line : Nat) (at_ : Nat)
  /-- TWIN_CHANNEL_COPY (R307): The twin engine's trigger wait is released and it copies the buffer. -/
  | twinChannelCopy (ch : BitVec 6)
  /-- TWIN_CHANNEL_COPY_DONE (R307): The copy is visible and the completion counter is signalled, or the channel fails. -/
  | twinChannelCopyDone (ch : BitVec 6) (r : TwinCopyResult) (data : Bytes)
  /-- CURTAIN_FRAME_RECEIVE (R404): A partner's curtain frame arrives and raises PARTNER_CURTAIN. -/
  | curtainFrameReceive
  /-- CROSS_RECORD_RECEIVE (R425): A partner's paired result record arrives and is compared. -/
  | crossRecordReceive (r : CrossRecord)
  /-- SAFETY_EVENT_LATCH (R396): An island latches a safety event and applies its reaction. -/
  | safetyEventLatch (i : IslandId) (e : SafetyEvent) (at_ : Nat)
  /-- CURTAIN_MESSAGE_REPEAT (R403): The curtain message is repeated every 100 ms. -/
  | curtainMessageRepeat (at_ : Nat)
  /-- SAFE_OK_TOGGLE (R402): An island in SERVICE toggles its SAFE_OK pin every 500 us. -/
  | safeOkToggle (i : IslandId) (at_ : Nat)
  /-- VOTER_COMPARE (R405): Every 256 island cycles the voter compares the three core signatures. -/
  | voterCompare (i : IslandId) (s0 : Word) (s1 : Word) (s2 : Word)
  /-- UNDERSTUDY_REJOIN (R406): The understudy rejoins after resynchronisation. -/
  | understudyRejoin (i : IslandId)
  /-- ISLAND_RESTART_DONE (R407): A checkpoint restart completes and ISLAND_RESTART is raised. -/
  | islandRestartDone (i : IslandId)
  /-- ISLAND_CHECKPOINT_TIMER (R407): Every 10 ms with the cue stopped, an island writes a checkpoint. -/
  | islandCheckpointTimer (i : IslandId) (at_ : Nat)
  /-- ALIVE_WORD (R410): Island A writes its alive word to island B every 100 us. -/
  | aliveWord (at_ : Nat)
  /-- ISLAND_A_SILENT (R410): Island B sees no alive word for 250 us. -/
  | islandASilent (at_ : Nat)
  /-- LOCKSTEP_MISMATCH (R411): A lockstep pair's outputs differ. -/
  | lockstepMismatch (p : LockstepPair)
  /-- TARGETED_SELF_TEST (R416): A released SUSPECT unit starts its targeted self-test. -/
  | targetedSelfTest (u : UnitId)
  /-- TARGETED_SELF_TEST_DONE (R417): The self-test ends, returning the unit to service or fencing it. -/
  | targetedSelfTestDone (u : UnitId) (pass : Bool)
  /-- REHEARSAL_SEGMENT (R419): A rehearsal segment starts in an idle window or alongside traffic. -/
  | rehearsalSegment (k : Checker) (at_ : Nat)
  /-- REHEARSAL_SEGMENT_END (R418): A segment ends, passing or raising REHEARSAL_FAILED. -/
  | rehearsalSegmentEnd (k : Checker) (detected : Bool) (at_ : Nat)
  /-- REHEARSAL_STARVED (R420): A checker's age exceeds LFI_MS. -/
  | rehearsalStarved (k : Checker) (at_ : Nat)
  /-- SIGNATURE_READY (R421): The result signature is ready, and the known-answer check or the paired record proceeds. -/
  | signatureReady (j : Nat)
  /-- SECURE_WDT_WARNING (R390): Half the watchdog period passes without a kick. -/
  | secureWdtWarning (at_ : Nat)
  /-- SECURE_WDT_EXPIRY (R391): The secure watchdog expires, dropping the curtain and then resetting the chip. -/
  | secureWdtExpiry (at_ : Nat)
  /-- CSI2_LONG_PACKET (R204): A CSI-2 line packet arrives and is processed, replaced or discarded. -/
  | csi2LongPacket (p : CsiPacket) (data : Bytes)
  /-- CSI2_FRAME_START (R203): A frame-start packet is accepted or discarded as stray. -/
  | csi2FrameStart (p : CsiPacket) (at_ : Nat)
  /-- CSI2_FRAME_END (R209): A frame-end packet ends the frame's input. -/
  | csi2FrameEnd (p : CsiPacket)
  /-- CAMERA_WINDOW_EXPIRY (R203): No frame arrives in the window, and a MISSING record and notice are written. -/
  | cameraWindowExpiry (c : CamId) (at_ : Nat)
  /-- CAMERA_FRAME_DONE (R208): The last tensor granule is written and the record is rewritten with STATE 1. -/
  | cameraFrameDone (c : CamId)
  /-- SAMPLE_START (R212): An intake engine takes the next sample by class and round robin. -/
  | sampleStart (e : IntakeEngine) (at_ : Nat)
  /-- SAMPLE_END (R212): A sample ends, its result record is written and SAMPLE_DONE is sent. -/
  | sampleEnd (e : IntakeEngine) (at_ : Nat)
  /-- SAMPLE_BUDGET_EXPIRY (R220): A sample exceeds its budget and is cut. -/
  | sampleBudgetExpiry (e : IntakeEngine) (progress : Nat) (at_ : Nat)
  /-- VBLANK_START (R194): At vertical blanking a head applies commits, writes its frame record and latches flips. -/
  | vblankStart (h : HeadId) (at_ : Nat)
  /-- LINE_SEND (R193): A line is sent, filling missing pixels with background and setting UNDERRUN. -/
  | lineSend (h : HeadId) (complete : Nat)
  /-- HEAD_LINK_TRAINED (R191): A head's retrained display link comes up after a timing change. -/
  | headLinkTrained (h : HeadId)
  /-- KV_REFILL (R161): Pyotos serves a refill request by mapping pages, swapping out victims or waiting. -/
  | kvRefill (a : AeId)
  /-- SWAP_OUT_COMPLETE (R163): Earlier operations drain, the pages are copied out and the sequence becomes SWAPPED. -/
  | swapOutComplete (a : AeId) (q : SeqId)
  /-- EPOCH_PAGE_RELEASE (R166): Old tables and pages return to the free list once OLDEST exceeds their tag. -/
  | epochPageRelease (a : AeId)
  /-- CAN_FRAME_RECEIVE (R449): A CAN frame is received, timestamped and fed to signal routes or dropped. -/
  | canFrameReceive (c : CanId) (f : CanFrame) (at_ : Nat)
  /-- ETH_FRAME_RECEIVE (R433): An Ethernet frame is received, checked, forwarded and fed to the gateway. -/
  | ethFrameReceive (p : EthId) (k : EthRx) (data : Bytes) (at_ : Nat)
  /-- MIN_GAP_EXPIRY (R451): An ON_UPDATE frame held by MIN_GAP_US is sent. -/
  | minGapExpiry (r : RouteId) (at_ : Nat)
  /-- ROUTE_STALE (R450): A signal route becomes stale after TIMEOUT_US and substitutes SUBST. -/
  | routeStale (r : RouteId) (at_ : Nat)
  /-- CAN_BUSOFF_RECOVERY (R443): A bus-off controller recovers after 128 occurrences of 11 recessive bits. -/
  | canBusoffRecovery (c : CanId)
  /-- GCL_ENTRY (R434): A gate-control-list interval ends and the next entry's gates apply. -/
  | gclEntry (p : EthId) (at_ : Nat)
  /-- CAP_EDGE (R442): A capture pin edge is timestamped and recorded; a PPS edge feeds its servo. -/
  | capEdge (p : BitVec 3) (falling : Bool) (pulseNs : Nat) (at_ : Nat)
  /-- PTP_SYNC_RECEIVE (R438): A gPTP Sync yields an offset sample for the servo. -/
  | ptpSyncReceive (dom : Fin 2) (m : PtpSync) (at_ : Nat)
  /-- FOLLOW_SAMPLE (R438): Every millisecond a FOLLOW time base takes an offset sample. -/
  | followSample (tb : TbId) (at_ : Nat)
  /-- TIMEBASE_SAFE_POINT (R437): A TIMEBASE commit applies at the next sample or 1 ms after acceptance. -/
  | timebaseSafePoint (tb : TbId) (at_ : Nat)
  /-- TIMEBASE_HOLDOVER (R440): No sample for HOLDOVER_MS puts the time base in holdover. -/
  | timebaseHoldover (tb : TbId) (at_ : Nat)
  /-- GROUP_SAFE_POINT_APPLY (R33): An IMMEDIATE commit applies at its block's safe point. -/
  | groupSafePointApply (g : Word) (at_ : Nat)
  /-- LOOP_SAMPLE (R459): A loop samples its inputs, evaluates its stages and delivers its outputs. -/
  | loopSample (at_ : Nat)
  /-- DESCRIPTOR_COMPLETE (R77): An engine finishes an SE_MOVE, TE_OP, VE_LAUNCH or AE/RFE operation: the status word and flag log are written, the queue slot frees, and waiting issue can proceed. -/
  | descriptorComplete (u : UnitId) (e : EngineId)
  /-- SWAP_IN_COMPLETE (R163): A swap-in finishes copying and verifying pages and leaves the sequence RESIDENT, or FREE with a notice on a mismatch. -/
  | swapInComplete (a : AeId) (q : SeqId)
  /-- CAN_FRAME_TRANSMITTED (R444): A CAN FD controller finishes sending a frame, or loses arbitration or meets a bus error, which updates its error counters and its queue and can lead to bus-off. -/
  | canFrameTransmitted (c : CanId) (r : CanTxResult) (at_ : Nat)
  /-- ETH_PORT_LINK_CHANGE (R432): An Ethernet port's link comes up or goes down after in-band auto-negotiation, which changes status word bit 0. -/
  | ethPortLinkChange (p : EthId) (up : Bool)
  /-- FAR_LOCK_RESPONSE (R310): A grant, a RETRY refusal or a release for a locked twin-link operation arrives at the requesting package, which then writes, retries or proceeds. -/
  | farLockResponse (line : Nat) (r : FarLockAnswer)
  /-- DOMAIN_WAKE_COMPLETE (R335): A secure or control domain woken by a channel doorbell is up within its wake time, and its logic restarts (for the control engine, with zero loop states). -/
  | domainWakeComplete (d : WakeDomain)
  /-- CUT_REQUEST (R393): Stagehand by itself requests a cut, such as gating an idle core or die or powering down a secure or control domain, which is refused with a hold message when the domain is secure-held. -/
  | cutRequest (d : CutTarget)
  /-- AON_RAIL_REMOVAL (R482): Rails 0 and 1 are removed and the device enters OFF. -/
  | aonRailRemoval
  deriving DecidableEq, Repr

end Sys2Proof
end

