-- ==== Sys2Proof/Machine/State.lean ====
section
/-! DEFINITION. The state of the TWA2045 as plain data, the reasons a step can stop, and the state
right after power-on reset. Every structure names the rules of spec/ that give its fields; a reset
value not stated by the spec is marked with its log entry. -/

namespace Sys2Proof.Machine

/-- The reasons a step can stop with a fault. Every event of the part has an effect or none, so no
meaning raises one: the single constructor is never answered (safe). -/
inductive Fault where
  /-- Raised by no command (safe). -/
  | neverRaised
  deriving DecidableEq, Repr

/-- The reasons a step can be refused. -/
inductive Refusal where
  /-- Raised by `exec` alone, for a command that has no meaning yet (safe). -/
  | notModelled (mnemonic : String)
  deriving DecidableEq, Repr

/-! ### Memory (chapter 09) -/

/-- TYPE of a page-owner entry (Table 9-3). -/
inductive OwnerType where
  | free
  | slice
  | enclave
  | secure
  | pyotos
  | uninit
  | retired
  | invalid
  deriving DecidableEq, Repr

/-- A page-owner entry (Table 9-3, R263), with the ECHK byte as it stands in the metadata region. -/
structure Owner where
  typ : OwnerType := .uninit
  id : BitVec 7 := 0
  host : BitVec 7 := 0
  grants : Half := 0
  echk : Byte := 0
  deriving DecidableEq, Repr

/-- One leaf of a slice's translation (R267, Table 9-5): `size` is 4 KiB, 64 KiB or 2 MiB. -/
structure Leaf where
  va : Nat
  pa : Nat
  size : Nat
  w : Bool
  x : Bool
  noAlloc : Bool
  host : Bool
  deriving DecidableEq, Repr

/-- An addressed RAM: its bytes (default 0) and, per 64-byte granule, the stored carried check XOR the
check of the contents (R59): 0 valid, 0xFFFF poisoned (R61), anything else corrupt. -/
structure Ram where
  bytes : Tbl Byte := []
  syn : Tbl Half := []
  deriving DecidableEq, Repr

/-- A mapping change waiting for the transaction tracker (R269): the pages to release and the command
to complete when it drains. -/
structure PendingUnmap where
  slice : SliceId
  pages : List Nat
  tag : Word
  pos : Word
  op : Half
  result : BitVec 128
  /-- The tags of the transactions that were translated before the invalidation, with the instants of their issue. -/
  held : List (BitVec 16 × Nat) := []
  deriving DecidableEq, Repr

/-- Who waits for a tracked transaction or a host request (R288, R289): a job's unit, a twin channel, or the JOB_START whose host
semaphore is added to (R358), with what it completes with. -/
inductive TxnSource where
  | job (u : UnitId)
  | twin (ch : BitVec 6)
  | semaphore (n : SliceId) (tag pos : Word) (status : Half) (result : BitVec 128)
  deriving DecidableEq, Repr

/-- An outstanding transaction of the tracker (R288): its tag, pool (Table 10-2, 0 to 5), source,
whether it is a far write awaiting its acknowledgement (R287), its deadline and the slice. -/
structure Txn where
  tag : BitVec 16
  pool : Fin 6
  src : TxnSource
  /-- The identifier of the issuing master (R414, Table 14-6), and its security attributes (R364). -/
  mid : Byte
  sec : Bool := false
  enc : BitVec 5 := 0
  write : Bool
  crossing : Bool
  issued : Nat
  slice : SliceId
  deriving DecidableEq, Repr

/-- Some bytes of one LABEL that wait at the regulator, with the instant they came; LABEL stands for the rank in R31 where the
account is the real-time one (R275, R277, R278). -/
structure BwReq where
  since : Nat
  label : Nat
  bytes : Nat
  deriving DecidableEq, Repr

/-- One account of the bandwidth regulator in the current window (R275 to R279): scene 0 to 31, or 32
for the real-time account. -/
structure BwAccount where
  tokens : Nat := 0
  /-- Tokens issued for the window, and those that admitted requests have drawn (R276, Table 1-6). -/
  issued : Nat := 0
  drawn : Nat := 0
  /-- The requests that wait, the oldest first. -/
  reqs : List BwReq := []
  missedThisCue : Bool := false
  violations : Nat := 0
  deriving DecidableEq, Repr

/-- A line of the system cache (R270): its granule, the way that holds it, and whether DRAM lacks what it holds. The
line's contents are those of the granule in `MemSt.dram`, which holds what every reader sees. -/
structure CacheLine where
  granule : Nat
  way : Nat
  dirty : Bool
  deriving DecidableEq, Repr

/-- An entry of a translation unit's TLB, tagged with slice and page size (R268). -/
structure TlbEntry where
  slice : SliceId
  enc : BitVec 5 := 0
  va : Nat
  size : Nat
  deriving DecidableEq, Repr

/-- A table that an entry of a walk cache leads to, by level and address prefix (R268). -/
structure WalkEntry where
  slice : SliceId
  enc : BitVec 5 := 0
  level : Nat
  pre : Nat
  deriving DecidableEq, Repr

/-- DRAM, page ownership, regulation, error handling (chapter 09). -/
structure MemSt where
  dram : Ram := {}
  /-- The core stores: byte a of core c at 0x40_0000 * c + a (R71). -/
  store : Ram := {}
  /-- Host memory as the device has read or written it; an unlisted byte is `Config.hostByte`. -/
  hostMem : Tbl (Option Byte) := []
  owner : Tbl (Option Owner) := []
  /-- Pages initialised to FREE zero pages since bring-up (R487); pages from here on are UNINIT. -/
  initPages : Nat := 0
  unmaps : List PendingUnmap := []
  txns : List Txn := []
  /-- Requests that met an empty tag pool in this cue, by pool (R288). -/
  tagStalls : Tbl Nat := []
  lateResponses : Nat := 0
  acct : Tbl BwAccount := []
  window : Nat := 0
  windowStart : Nat := 0
  rtExcess : Nat := 0
  /-- Bytes each slice asks for in this window outside any account, 128 standing for Pyotos (R277 step 3, R280, Table 9-7). -/
  excess : Tbl Nat := []
  /-- The excess bandwidth caps of the slices in the window, in GB/s, as they stood when it began (R274). -/
  caps : Tbl (Option Nat) := []
  /-- Bytes that each master has asked for in this window, by its MID (R414). -/
  byMid : Tbl Nat := []
  /-- Lines of the system cache, the most recently used first, and the dirty ones written back (R270). -/
  cache : List CacheLine := []
  writeBacks : Nat := 0
  /-- The TLB and the walk cache of each translation unit, of S0 to S3 and W, the newest entry first (R268). -/
  tlb : Tbl (List TlbEntry) := []
  walks : Tbl (List WalkEntry) := []
  refresh : Tbl RefreshRate := []
  scrubBlock : Tbl Nat := []
  scrubCount : Nat := 0
  eccCorrected : Nat := 0
  sramEvents : Nat := 0
  testPages : List Nat := []
  retiredList : List Nat := []
  deriving DecidableEq, Repr

/-! ### The host interface and slices (chapters 11 and 12) -/

/-- A notice (Table 11-15) before PHASE is written. -/
structure Notice where
  code : Half
  vec : BitVec 3
  slice : SliceId
  seq : Word
  cue : DWord
  payload : BitVec 128
  deriving DecidableEq, Repr

/-- A completion entry (Table 12-3) before PHASE is written. -/
structure Cpl where
  status : Half
  tag : Word
  pos : Word
  op : Half
  detail : Half
  result : BitVec 128
  deriving DecidableEq, Repr

/-- The event a started command waits for before it completes (R350). -/
inductive WaitFor where
  | nothing
  | job (j : Nat)
  | cueStop
  | commit
  | unmap
  | tune (loop : BitVec 5)
  | power
  | swapIn (a : AeId) (q : SeqId)
  | twinAgree
  | destroy (n : SliceId)
  /-- Taken under BARRIER, and not started (R349). -/
  | barrier (w : Line)
  deriving DecidableEq, Repr

/-- A command in flight: taken and not yet completed (R349). -/
structure Flight where
  tag : Word
  pos : Word
  op : Half
  wait : WaitFor
  deriving DecidableEq, Repr

/-- The registers of a slice mailbox page (Tables 11-9 to 11-11). Reset 0 (R318). `seenTail` is the
CMD_TAIL the device last saw (R319). -/
structure Page where
  words : Tbl Word := []
  dbMbx : Bool := false
  dbCmd : Bool := false
  devMbx : Bool := false
  cmdBase : DWord := 0
  cplBase : DWord := 0
  ntcBase : DWord := 0
  enable : Bool := false
  error : Bool := false
  ntcLog2 : BitVec 5 := 0
  cplLog2 : BitVec 5 := 0
  cmdLog2 : BitVec 5 := 0
  cmdTail : Word := 0
  seenTail : Word := 0
  cmdHead : Word := 0
  cplTail : Word := 0
  cplHead : Word := 0
  ntcTail : Word := 0
  ntcHead : Word := 0
  coalesceUs : Half := 0
  ntcLost : Word := 0
  aptEnable : Bool := false
  aptBase : BitVec 48 := 0
  deriving DecidableEq, Repr

/-- A section of a loaded package (Table 12-14). -/
structure SecEntry where
  typ : Half
  offset : Nat
  size : Nat
  deriving DecidableEq, Repr

/-- A job entry of a package (Table 12-15). -/
structure JobEntry where
  cores : Nat
  align : BitVec 2
  cls : BitVec 2
  aes : Nat
  rfes : Nat
  preemptible : Bool
  coreSec : Nat
  aeSec : Nat
  rfeSec : Nat
  inputs : DWord
  kept : DWord
  name : BitVec 128
  deriving DecidableEq, Repr

/-- A buffer entry of a package (Table 12-16): where it lies from DATA_VA, and its size. -/
structure BufEntry where
  offset : Nat
  size : Nat
  deriving DecidableEq, Repr

/-- A loaded graph package (R363), with the leaves whose W it cleared (GRAPH_UNLOAD restores them). -/
structure Package where
  imageVa : Nat
  dataVa : Nat
  length : Nat
  dataSize : Nat
  sections : List SecEntry
  jobs : List JobEntry
  bufs : List BufEntry
  enclave : Option (BitVec 5)
  cleared : List Nat
  deriving DecidableEq, Repr

/-- A granule run of the swap area in use by one swapped sequence (R163). -/
structure SwapSlot where
  ae : AeId
  seq : SeqId
  va : Nat
  size : Nat
  deriving DecidableEq, Repr

/-- A slice (R266, R318, R344): the mailbox page, rings, quotas and everything held for it. -/
structure Slice where
  valid : Bool := false
  destroying : Bool := false
  pasid : BitVec 20 := 0
  partition : BitVec 4 := 0
  label : BitVec 3 := 0
  /-- Table 9-6, by row from 0; a row not set is 0, or the range maximum for slice 0 (R344). -/
  quota : Tbl (Option Nat) := []
  overQuota : List Nat := []
  reclaim : Bool := false
  page : Page := {}
  seq : Word := 0
  staged : List Notice := []
  lostPending : Word := 0
  held : List Cpl := []
  flight : List Flight := []
  timer0 : Option Nat := none
  timer1 : Option Nat := none
  maps : List Leaf := []
  /-- The 64 KiB PYOTOS pages that hold the slice's translation tables (R267). -/
  tables : List Nat := []
  /-- KV, root and directory memory charged to the slice, in bytes (chapter 09, Quotas). -/
  kvBytes : Nat := 0
  /-- Bytes of the slice's allocated intake tensors (R274). -/
  intakeUsed : Nat := 0
  /-- Sequence descriptors of the slice whose STATE is not FREE (R274). -/
  seqs : Nat := 0
  swapArea : Option (Nat × Nat) := none
  swapSlots : List SwapSlot := []
  packages : Tbl (Option Package) := []
  /-- DIAG_READ KIND 1 counters in its order (R360). -/
  diag : Tbl DWord := []
  lossWrites : Word := 0
  lossCpls : Word := 0
  recovering : Bool := false
  deriving DecidableEq, Repr

/-- A range entry of the bridge's prefetch table (R329). -/
structure PrefetchRange where
  valid : Bool := false
  bar2 : Bool := false
  first : Nat := 0
  last : Nat := 0
  deriving DecidableEq, Repr

/-- Granules read ahead and not yet used (R330). -/
structure Prefetched where
  slice : SliceId
  off : Nat
  len : Nat
  since : Nat
  deriving DecidableEq, Repr

/-- A host-memory read outstanding on the link (R323). -/
structure HostRead where
  addr : Nat
  len : Nat
  src : TxnSource
  /-- The slice's PASID, which the request carries (R266). -/
  pasid : BitVec 20
  /-- When it was asked for. -/
  since : Nat := 0
  deriving DecidableEq, Repr

/-- The endpoint's options that the host configures: Max_Payload_Size and Max_Read_Request_Size as powers of two of 128, the
Completion Timeout Value, MSI-X Enable and Function Mask, and PTM Enable (R313, R323, R339; reset values and places in log
entry 125). -/
structure PcieCfg where
  maxPayload : BitVec 3 := 0
  maxRead : BitVec 3 := 2
  timeout : BitVec 4 := 0
  msixEnable : Bool := false
  msixMask : Bool := false
  ptm : Bool := false
  deriving DecidableEq, Repr

/-- A mailbox channel (Table 11-14) with its words and doorbells; A's words are 0 to 7. -/
structure Channel where
  reg : Word := 0
  words : Tbl Word := []
  bellA : Bool := false
  bellB : Bool := false
  deriving DecidableEq, Repr

/-- What leaves the part (newest first in `State.out`). -/
inductive Out where
  | msix (vec : Nat)
  | cplEntry (n : SliceId) (pasid : BitVec 20) (e : Cpl) (phase : Bool)
  | noticeEntry (n : SliceId) (pasid : BitVec 20) (e : Notice) (phase : Bool)
  | dataWrite (pasid : BitVec 20) (addr : Nat) (data : Bytes) (poisoned : Bool)
  | fetchAdd (pasid : BitVec 20) (addr : Nat)
  | readData (data : Bytes)
  | completerAbort
  | unsupported
  | configRetry
  | errorResponse (endpoint : BitVec 4)
  | hostRead (pasid : BitVec 20) (addr : Nat) (len : Nat)
  | i2cData (data : Bytes)
  | i2cNak
  | wakeEvent (endpoint : BitVec 4)
  | holdMessage (domain : Nat) (requester : Nat)
  | abortNotice (enclave : Nat) (cause : Nat)
  | canFrame (c : CanId) (f : CanFrame)
  | ethFrame (p : EthId) (data : Bytes) (invalid : Bool)
  | fsync (p : BitVec 4) (high : Bool)
  | safeOk (i : IslandId) (high : Bool)
  | curtainFrame
  | crossRecord (r : CrossRecord)
  | twinCue (count : DWord) (edge : Nat) (stops : Bool)
  | farLock (line : Nat) (a : FarLockAnswer)
  | farRequest (line : Nat)
  | twinData (ch : BitVec 6) (data : Bytes) (bad : List Nat)
  | linkNak (m : ModId) (seq : Nat)
  | linkReplay (m : ModId) (seq last : Nat)
  | twinNak (packet : Nat)
  | twinRetrain
  | retrain (m : ModId)
  | line (h : HeadId) (pixels : List Nat)
  | pin (name : String) (high : Bool)
  | jtagData (ok : Bool)
  /-- A debug access, with its security attributes (R364). -/
  | jtagAccess (d : DebugTarget) (sec : Bool) (enc : BitVec 5)
  | output (loop : BitVec 5) (v : Word) (valid : Bool)
  | keyReply (data : Bytes)
  deriving DecidableEq, Repr

/-- The endpoint, page 0 and the bridge (R313 to R343). -/
structure HostSt where
  /-- The data link is up and configuration requests are served (R314). -/
  linkUp : Bool := false
  configReady : Bool := false
  d3hot : Bool := false
  cfg : PcieCfg := {}
  devReady : Bool := false
  /-- The slice whose ring Pyotos visits, and how many of its commands it has taken there (R349). -/
  visit : SliceId := 0
  visited : Nat := 0
  memComplete : Bool := false
  boot : Word := 0
  dramRate : BitVec 4 := 0
  dram16g : BitVec 12 := 0
  twinRole : BitVec 2 := 0
  i2cAddr : BitVec 2 := 0
  pdValid : Bool := false
  pdWrite : Bool := false
  pdCount : Byte := 0
  pdChannel : Byte := 0
  pdEndpoint : BitVec 4 := 0
  prefetchDiscard : Word := 0
  drop : Word := 0
  ranges : Tbl PrefetchRange := []
  rangesLocked : Bool := false
  prefetched : List Prefetched := []
  /-- The last host read through each window: its offset and length (R329). -/
  lastRead : Tbl (Nat × Nat) := []
  /-- Reads asked of host memory, oldest first: the first 768 are outstanding, the others wait (R313). -/
  reads : List HostRead := []
  /-- Reads answered with EP set, whose granules are to be stored poisoned (R323). -/
  poisonedIn : List HostRead := []
  channels : Tbl Channel := []
  mbxLock : Bool := false
  msix : Tbl Word := []
  msixMasked : Tbl Bool := []
  msixPending : Tbl Bool := []
  completionTimeouts : Nat := 0
  i2cOffset : Half := 0
  deriving DecidableEq, Repr

/-- The log of R361: entries with their index, oldest first; `own` marks Pyotos's own events. -/
structure LogEntry where
  idx : Nat
  notice : Notice
  own : Bool
  deriving DecidableEq, Repr

/-- A staged group (R33, R354): the two copies of its structure's bytes, and whether the shadow has
been written and the group committed since reset. -/
structure Staged where
  shadow : BitVec 4608
  committed : BitVec 4608
  written : Bool
  used : Bool
  deriving DecidableEq, Repr

/-- A notice of an overrun at an edge, which step 9 of Table 1-4 writes. -/
structure OwedNotice where
  slice : SliceId
  payload : BitVec 128
  deriving DecidableEq, Repr

/-- A pending commit (R34, R35, R38): the sets captured at acceptance, for an IMMEDIATE commit the groups
that have still to apply, and for an AT_CUE one the cue count at which it applies (R35) or the TARGET_CUE
of R38. -/
structure Commit where
  slice : SliceId
  groups : List Word
  sets : List (BitVec 4608)
  atCue : Bool
  due : DWord
  target : Option DWord
  twinAgreed : Bool
  tag : Word
  pos : Word
  at_ : Nat
  deriving DecidableEq, Repr

/-! ### The cue, scenes and jobs (chapters 01 and 08) -/

/-- A scene entry (Table 8-2). -/
structure Scene where
  lending : Bool
  kaf : Bool
  slice : SliceId
  cls : BitVec 2
  label : BitVec 3
  start : Nat
  duration : Nat
  gbps : Nat
  lendTo : SceneId
  cores : BitVec 64
  aes : BitVec 16
  rfes : BitVec 4
  deriving DecidableEq, Repr

/-- A cue-sheet bank: PERIOD and the scenes (Table 8-1). -/
structure Sheet where
  period : Nat
  scenes : List Scene
  deriving DecidableEq, Repr

/-- A core given to a scene in place of a fenced one (R248, R249). -/
structure Replacement where
  fenced : CoreId
  scene : SceneId
  by_ : Option CoreId
  deriving DecidableEq, Repr

/-- The cue generator (R17 to R29, R311, R312). -/
structure CueSt where
  /-- The CUE group has been committed since reset (R230, R359). -/
  configured : Bool := false
  running : Bool := false
  starting : Bool := false
  stopping : Bool := false
  count : DWord := 0
  /-- The period in force, its beat length, time base and bank (group CUE). -/
  period : Nat := 0
  beat : Nat := 0
  tb : TbId := 0
  bank : BitVec 2 := 0
  /-- The period and time base by which the next edge was placed: those of the set that a start used, then those in force (R17,
  R23, R359). -/
  edgePeriod : Nat := 0
  edgeTb : TbId := 0
  /-- Reference instants of the last edge and of the next edge. -/
  last : Nat := 0
  next : Nat := 0
  /-- This cue's length, which is not the period in a transitional or slewed cue (R20, R23). -/
  length : Nat := 0
  /-- The cue is the transitional one of a period change (R23). -/
  transitional : Bool := false
  /-- Beats of this cue that have started. -/
  beatIdx : Nat := 0
  slewing : Bool := false
  /-- What the next edge leaves of a slew, positive while edges have still to move later; 0 when it is not slewed. -/
  slewLeft : Int := 0
  /-- The servo frequency that a follower holds while the link is down (R21, R29). -/
  hold : Int := 0
  aligned : Bool := false
  alignRun : Nat := 0
  adopt : Option DWord := none
  /-- A cue frame that came before the own edge it tells of (R311). -/
  frame : Option TwinCue := none
  /-- Predicted edges in a row, the count and the instant of the last edge at the floor and each Stage die (R297, R298). -/
  predicted : Tbl Nat := []
  dieCount : Tbl DWord := []
  dieEdge : Tbl Nat := []
  /-- Lenders whose cores a reclaim has taken back, with the head (R197, R198). -/
  noLend : List (Nat × Nat) := []
  /-- Operations retried in this cue: the job, the unit (none for a read of a granule), the key of R67. -/
  retried : List (Nat × Option UnitId × Nat) := []
  /-- Scenes whose lost unit has been reported in this cue (R32, R248). -/
  reduced : List SceneId := []
  /-- UNIT codes of fenced units whose replacements the active sheet has taken (R248, R249). -/
  fencedSeen : List Nat := []
  /-- The pools audited since the last edge, whose monitors took their snapshots there (R41). -/
  audited : Option (List Nat) := none
  /-- An edge is at step 5 of Table 1-4, and the notices of its overruns that step 9 has still to write. -/
  atEdge : Bool := false
  owed : List OwedNotice := []
  deriving DecidableEq, Repr

/-- Where a job stands (R238, R242, R246, R524). -/
inductive JobPhase where
  | queued
  | running
  | suspended
  | ending
  | ended
  deriving DecidableEq, Repr

/-- One entry of a job's status area (Tables 3-11 and 12-10): UNIT, STATE, REASON, and what the unit
carries across a suspension. -/
structure Entry where
  unit : Option UnitId := none
  state : Byte := 0
  reason : Byte := 0
  saved : Bool := false
  sig : Option DWord := none
  deriving DecidableEq, Repr

/-- A job accepted by JOB_START (R234, R358). -/
structure Job where
  id : Nat
  slice : SliceId
  tag : Word
  pos : Word
  handle : Nat
  jobIdx : Nat
  e : JobEntry
  bank : BitVec 2
  scene : SceneId
  label : BitVec 3
  carryOver : Bool
  carryLimit : Nat
  statusVa : Nat
  semVa : Nat
  flagVa : Nat
  enclave : Option (BitVec 5)
  savePages : List Nat
  phase : JobPhase
  entries : List Entry
  suspensions : Nat
  borrowing : Bool
  kaf : Option Nat
  startCue : DWord
  endCue : DWord
  safetyRaised : Bool
  /-- The count of the cue that a carry-over job was last asked to leave (R246). -/
  susCue : Option DWord
  deriving DecidableEq, Repr

/-- A kept buffer resident in a core's store (R239). -/
structure Resident where
  slice : SliceId
  handle : Nat
  buf : Nat
  bytes : Nat
  deriving DecidableEq, Repr

/-- Who last owned a unit (R74): a slice, an enclave, or nobody since reset. -/
inductive OwnerTag where
  | nobody
  | slice (n : SliceId)
  | enclave (e : BitVec 5)
  deriving DecidableEq, Repr

/-- A descriptor in an engine queue: whether the engine has performed it, and its status word; before that, how many granules
of an SE_MOVE or output blocks of a TE_OP are done, and the flags of those blocks (R103). -/
structure QItem where
  d : Line
  ran : Bool
  status : Word
  part : Nat := 0
  flags : Byte := 0
  deriving DecidableEq, Repr

/-- Who waits on a counter: a unit for its job (R252), or the twin engine for a channel (R307). -/
inductive Waiter
  | unit (u : UnitId) (job : Nat)
  | twin (ch : Nat)
  deriving DecidableEq, Repr

/-- A wait on a counter. -/
structure SyncWait where
  who : Waiter
  ctr : CtrId
  mode1 : Bool
  value : Word
  deriving DecidableEq, Repr

/-- A core, AE or RFE sequencer (R75 to R81, R100 to R105). -/
structure Seq where
  /-- VA of the program and its length in descriptors. -/
  base : Nat := 0
  len : Nat := 0
  idx : Nat := 0
  /-- The descriptor fetched for the sequencer itself and not yet run. -/
  cur : Option Line := none
  preemptible : Bool := false
  liveBase : Nat := 0
  liveSize : Nat := 0
  se : List QItem := []
  te : List QItem := []
  ve : List QItem := []
  own : List QItem := []
  done : Word := 0
  flags : Byte := 0
  retries : Half := 0
  flagLog : Nat := 0
  tag : Half := 0
  wait : Option SyncWait := none
  arrived : Bool := false
  /-- The host reads of the descriptor an engine performs have been sent (R323). -/
  asked : Bool := false
  deriving DecidableEq, Repr

/-- What a unit is doing for the scheduler. -/
inductive UnitPhase where
  | idle
  | running
  | preemptWanted (suspend : Bool)
  | preemptAsked (at_ : Nat) (suspend : Bool)
  | preemptStopped (suspend : Bool)
  | saved
  | finished
  | terminating (reason : Byte)
  | selfTest
  deriving DecidableEq, Repr

/-- A core, attention engine or raster front end, keyed by the UNIT code of R358. `eccCorrected` counts the single-bit errors
of its store and registers (R65, R72). The linear-feedback register of a core is held as the cue count of its last reseeding
and the steps since (R65, log entry 106). -/
structure UnitSt where
  job : Option Nat := none
  entry : Nat := 0
  phase : UnitPhase := .idle
  seq : Seq := {}
  fenced : Bool := false
  suspect : Bool := false
  wakeUntil : Nat := 0
  gated : Bool := false
  lastOwner : OwnerTag := .nobody
  resident : List Resident := []
  checkEvents : Nat := 0
  eccCorrected : Nat := 0
  lfsrCue : DWord := 0
  lfsrSteps : Nat := 0
  deriving DecidableEq, Repr


/-! ### Sync counters (R250 to R257) -/

/-- The source of a signal (Table 8-4). -/
inductive SigSource where
  | program (u : UnitId) (j : Nat)
  | host (n : SliceId)
  | command (n : SliceId)
  | twin
  deriving DecidableEq, Repr

structure Signal where
  value : Word
  src : SigSource
  deriving DecidableEq, Repr

/-- A sync counter with its ledger (R257) and its pending waits in arrival order (R252). -/
structure Ctr where
  slice : Option SliceId := none
  value : Word := 0
  initial : Nat := 0
  added : Nat := 0
  consumed : Nat := 0
  issued : Nat := 0
  applied : Nat := 0
  flight : List Signal := []
  waits : List SyncWait := []
  dead : Bool := false
  overflows : Nat := 0
  deriving DecidableEq, Repr

/-! ### Fabric and twin link (chapter 10) -/

/-- A module of a die link (R293 to R296). -/
structure Module where
  up : Bool := true
  retraining : Bool := false
  /-- The instants of the CRC errors of each lane. -/
  laneErrors : Tbl (List Nat) := []
  /-- Flits sent again (R295). -/
  replays : Nat := 0
  /-- The lanes that the spares stand for since the module's training. -/
  mapped : List Nat := []
  creditFault : Bool := false
  deriving DecidableEq, Repr

/-- A credit loop's transmitter record at the last marker (R300): total, H and C_t. -/
structure CreditLoop where
  total : Nat
  held : Nat
  ct : BitVec 48
  deriving DecidableEq, Repr

/-- One end of a twin channel (R307). -/
structure TwinEnd where
  slice : SliceId
  receive : Bool
  ctr : CtrId
  va : Nat
  len : Nat
  copying : Bool
  /-- The wait on the trigger counter is released and the copy has not begun. -/
  triggered : Bool := false
  /-- What a copy under way holds: request credits, and space for responses (R308). -/
  credits : Nat := 0
  space : Nat := 0
  deriving DecidableEq, Repr

/-- A locked operation of this package (R309, R310). -/
structure FarOp where
  line : Nat
  requested : Nat
  pos : Word
  slice : SliceId
  /-- It holds its line on this package; a follower gives it up on a tie (R310). -/
  locked : Bool := true
  deriving DecidableEq, Repr

structure FabSt where
  /-- FAB_DIE_STRAP as the dies have reported it (R290); before, `Config.dieStrap`. -/
  straps : Tbl (Option Word) := []
  modules : Tbl Module := []
  /-- The lanes that the repair fuses of each module map out (R296), by the module's number: the spec gives no value (log entry
  127). -/
  laneFuses : Tbl (List Nat) := []
  credits : Tbl (Option CreditLoop) := []
  auditFaults : Nat := 0
  rawErrors : Nat := 0
  pllLost : List DieId := []
  twinUp : Bool := false
  /-- The credit loop whose failed audit the twin link retrains for (R43). -/
  twinRetrain : List Nat := []
  /-- The floor, or a floor block without redundancy, is lost: no die reaches memory (Table 1-2). -/
  floorLost : Bool := false
  oneWay : Nat := 0
  twinUncorrectable : Nat := 0
  twinUncorrectableCue : Nat := 0
  /-- Packets sent and received whole, which number them (R304), and the space reserved for responses, in credits (R308). -/
  twinSent : Nat := 0
  twinReceived : Nat := 0
  twinSpace : Nat := 0
  /-- The last payload of each raw stream at each die, by 8 times the stream and the die (R297). -/
  rawTaken : Tbl (Option DWord) := []
  twinMode : BitVec 2 := 0
  channels : Tbl (Option TwinEnd) := []
  /-- Lines the partner holds here, with the deadline of R309. -/
  farHeld : List (Nat × Nat) := []
  ops : List FarOp := []
  deriving DecidableEq, Repr
/-! ### Vector engines and window contexts (chapters 03 and 04) -/

/-- Where a convolution stands (R138): its pixel, the tap that comes next, and the pixel's accumulators, INT32 or FP32 bits. -/
structure ConvAt where
  pixel : Nat
  tap : Nat
  acc : List Word
  deriving DecidableEq, Repr

/-- A vector engine (R107, R126 to R133): the launch that runs, its code, registers, place and counts.
`codeKey` is the job, CODE_ADDR and CODE_LEN of the last launch (R127). `tex` is the word of a TSAMPLE in
flight, `texChk` the answer of its check. `driver` is the raster front end that launched the kernel (R178). `conv` is the
place of a convolution that has begun, and `launches` counts kernel launches, so that R67 can tell them apart. -/
structure VeSt where
  running : Bool := false
  d : Line := 0
  driver : Option RfeId := none
  code : List DWord := []
  codeKey : Option (Nat × Nat × Nat) := none
  v : Tbl (BitVec 2048) := []
  p : Tbl (BitVec 256) := []
  sr : Tbl DWord := []
  pc : Int := 0
  gx : Nat := 0
  gy : Nat := 0
  count : Nat := 0
  flags : Byte := 0
  tex : Option DWord := none
  texChk : Chk := .pass
  conv : Option ConvAt := none
  launches : Nat := 0
  deriving DecidableEq, Repr

/-- A core: its vector engine and its four window contexts (R87). -/
structure CoreSt where
  ve : VeSt := {}
  win : Tbl (Option Line) := []
  deriving DecidableEq, Repr


/-! ### Raster front ends (chapter 06) -/

/-- A binned piece: its draw, the three vertex records of the original triangle, and the snapped screen
position of the piece's vertices in 1/256 pixel (R175, R176). -/
structure Piece where
  draw : Nat
  verts : Bytes
  pos : List (Int × Int)
  sz : List Nat := []
  deriving DecidableEq, Repr

/-- A tile that a core finishes: the job entry of the core, the records still to batch, the draw whose
kernel and constants are loaded, and whether a batch is being shaded (R178, R179). -/
structure TileWork where
  entry : Nat
  tile : Nat
  rest : List Nat
  draw : Option Nat
  deriving DecidableEq, Repr

/-- What RFE_RENDER does (R175, R177 to R183). -/
structure RasterSt where
  /-- The latched render context (R172). -/
  ctx : Option (BitVec 1024) := none
  /-- The next triangle to bin: its draw and its number. -/
  draw : Nat := 0
  tri : Nat := 0
  recs : List Piece := []
  /-- Entries of each tile's list, newest first. -/
  lists : Tbl (List Nat) := []
  /-- Chunks of each tile in the order in which they were opened, as (tile, first entry). -/
  chunks : List (Nat × Nat) := []
  finishing : Bool := false
  flushing : Bool := false
  todo : List Nat := []
  work : List TileWork := []
  /-- The draw of the last batch of each core of the job, by entry, whose kernel and constants its work area holds. -/
  lastDraw : Tbl (Option Nat) := []
  flushes : Nat := 0
  triangles : Nat := 0
  pieces : Nat := 0
  tiles : Nat := 0
  peak : Nat := 0
  deriving DecidableEq, Repr

/-! ### Attention engines (chapter 05) -/

/-- STATE of a sequence (Table 5-3). -/
inductive SeqState where
  | free
  | resident
  | swapOut
  | swapped
  | swapIn
  deriving DecidableEq, Repr

/-- A sequence descriptor (Table 5-3) with what Pyotos keeps of its page tables: `tree` takes 2048 * stream + entry to the
physical address of a KV page plus 1, 0 where the entry is not VALID. The tables that the AE walks are bytes of DRAM
(R144, R145). -/
structure KvSeq where
  root : Nat
  gen : Word
  slice : SliceId
  cls : BitVec 2
  state : SeqState
  fmt : BitVec 4
  headDim : Nat
  kvHeads : Nat
  sparse : Bool
  layers : Nat
  window : Nat
  length : Nat
  capacity : Nat
  maxTokens : Nat
  pending : Nat
  nextLayer : Nat
  lastCue : DWord
  tree : Tbl Nat
  globals : List Nat
  /-- The job and the entry whose step has set PENDING and NEXT_LAYER, as `stepKey` codes them (R142). -/
  step : Option Nat
  /-- The 64 KiB PYOTOS pages of the root and directories. -/
  tables : List Nat
  /-- Pages of a class 2 or 3 sequence that are reserved and not mapped (R160). -/
  spare : List Nat
  /-- EPOCH as read after STATE became SWAP_OUT (R163). -/
  swapTag : DWord := 0
  /-- The cue in which a page reservation of the sequence was last reported as not kept (R32, R162). -/
  missedIn : Option DWord := none
  deriving DecidableEq, Repr

/-- KV pages and table pages that wait for the epoch of R166, with the bytes charged to a slice. The pages of a class 2
or 3 sequence go back to its reserve (R160). -/
structure Held where
  tag : DWord
  frames : List Nat
  tables : List Nat
  slice : SliceId
  bytes : Nat
  spareOf : Option SeqId := none
  deriving DecidableEq, Repr

/-- A directory entry in the walk cache, tagged by sequence and GEN (Table 5-1, R164). -/
structure WalkLine where
  seq : SeqId
  gen : Word
  key : Nat
  frame : Nat
  deriving DecidableEq, Repr

/-- An operation of an attention engine that has started and not ended: the engine whose EPOCH counts it, its start epoch,
the latch table, and how far it has come (R164, R166, R167). `pos` counts granules written of an append or gather, and
blocks of the batch entry `entry`, whose key and value are in their page once `begun`. -/
structure AeOp where
  home : AeId
  epoch : DWord
  latch : List (SeqId × KvSeq)
  table : Bytes := []
  entry : Nat := 0
  begun : Bool := false
  pos : Nat := 0
  free : Nat := 0
  m : Word := 0
  l : Word := 0
  acc : List Word := []
  out : Bytes := []
  flags : Byte := 0
  deriving DecidableEq, Repr

/-- An attention engine's pool, sequences, epoch, walk cache and running operation (R159 to R168). -/
structure AeSt where
  total : Nat := 0
  /-- KV pages on the free list, by physical address. -/
  free : List Nat := []
  held : List Held := []
  seqs : Tbl (Option KvSeq) := []
  epoch : DWord := 0
  /-- Start epochs of the operations in flight, the pre-empted and carried-over ones among them (R166). -/
  ops : List DWord := []
  op : Option AeOp := none
  walks : List WalkLine := []
  refills : List SeqId := []
  exhausted : List SeqId := []
  violations : Nat := 0
  /-- GEN of a descriptor when its sequence was last freed (Table 5-3). -/
  gens : Tbl Word := []
  deriving DecidableEq, Repr

/-- A unit's context in its job's save area (R102 to R104): the sequencer; for a core its live store range
and its vector engine and window contexts; for a raster front end its render; for an attention engine its operation. -/
structure SavedCtx where
  seq : Seq
  live : Ram
  core : CoreSt
  rfe : RasterSt
  ae : Option AeOp := none
  deriving DecidableEq, Repr

/-! ### Display heads (chapter 06) -/

/-- A buffer a layer shows: its addresses, the FLIP_ID of its flip and the slice of its render. -/
structure LayerBuf where
  addr : Nat
  aux : Nat
  flip : Half
  slice : SliceId
  deriving DecidableEq, Repr

/-- A flip accepted and not yet latched (R191, R194). -/
structure Flip where
  layer : BitVec 3
  buf : LayerBuf
  at_ : Nat
  deriving DecidableEq, Repr

/-- A fallback surface (R196): the layer that shows it and the pages that hold it. -/
structure Fallback where
  layer : BitVec 512
  pages : List Nat
  base : Nat
  len : Nat
  deriving DecidableEq, Repr

/-- A display head (R190 to R196). -/
structure HeadSt where
  /-- FRAME of the frame being sent (R194). -/
  frame : Nat := 0
  /-- Lines of the frame already sent. -/
  line : Nat := 0
  cur : Tbl (Option LayerBuf) := []
  /-- Retained buffers (R195), and the layers that show theirs until the next flip. -/
  kept : Tbl (Option LayerBuf) := []
  back : List Nat := []
  flips : List Flip := []
  underrun : Bool := false
  check : Bool := false
  /-- Every line sent of the frame so far came from the head's layers, in full (R195). -/
  scanned : Bool := true
  /-- REPEAT of the frame being sent, the slices of renders dropped since the last latch point, and FLIP_ID of the last flip. -/
  repeating : Bool := false
  dropped : List SliceId := []
  lastFlip : Half := 0
  repeats : Nat := 0
  underruns : Nat := 0
  /-- The link retrains: until this instant at most (R191). -/
  training : Option Nat := none
  fallback : Option Fallback := none
  deriving DecidableEq, Repr
/-! ### Cameras and intake (chapter 07) -/

/-- A frame that a stream takes (R203 to R208): its number, the set committed at its trigger, the trigger's cue
count, TIME, the lines taken so far (newest first) and what went wrong. -/
structure CamFrame where
  k : Nat
  set : BitVec 1024
  slice : SliceId
  cue : DWord
  time : Nat
  lines : List Bytes
  csi : Bool
  sizeErr : Bool
  overload : Bool
  ended : Bool
  deriving DecidableEq, Repr

/-- A camera stream (R202 to R208): trigger edges so far, the trigger whose window is open, whether that window
has accepted a frame, and the frame under way. -/
structure CamSt where
  k : Nat := 0
  /-- The instant of the last trigger edge. -/
  trigAt : Nat := 0
  set : BitVec 1024 := 0
  cue : DWord := 0
  openedAt : Option Nat := none
  taken : Bool := false
  /-- The trigger edge of this cue has fallen. -/
  fired : Bool := false
  frame : Option CamFrame := none
  strays : Nat := 0
  deriving DecidableEq, Repr

/-- A sample on an engine (R212): its start, and the slice's image maximum at it (R216). -/
structure RunSample where
  slice : SliceId
  d : Line
  start : Nat
  maxPixels : Nat
  deriving DecidableEq, Repr

/-- A dictionary in force (R221): its strings with their IDs, UNK_ID and the byte base. -/
structure Dict where
  slice : SliceId
  entries : List (Bytes × Nat)
  unk : Nat
  base : Option Nat
  deriving DecidableEq, Repr

/-- A decoded tensor in the intake range (R217). -/
structure IntakeTensor where
  slice : SliceId
  va : Nat
  pages : List Nat
  deriving DecidableEq, Repr

/-- The camera front end and the intake engines. Queues are keyed 128 * engine + slice. -/
structure IntakeSt where
  cams : Tbl CamSt := []
  /-- Packets that match no stream, by port (R200). -/
  unmatched : Tbl Nat := []
  /-- Embedded data of the frame under way, packet by packet, by port and virtual channel (Table 7-1). -/
  embedded : Tbl (List Bytes) := []
  /-- Bytes in the line buffer at an instant (R209). -/
  buffered : Nat := 0
  bufferedAt : Nat := 0
  /-- The FSYNC pins (R441). -/
  fsync : Half := 0
  queues : Tbl (List Line) := []
  running : Tbl (List RunSample) := []
  turn : Tbl Nat := []
  dicts : Tbl (Option Dict) := []
  /-- A dictionary that replaces the one a running sample uses (R222). -/
  nextDict : Tbl (Option Dict) := []
  tensors : List IntakeTensor := []
  deriving DecidableEq, Repr

/-! ### Time, network and gateway (chapter 15) -/

/-- A time base (R436 to R440): its value in units of 2^-32 ns at a reference instant, f and i of the servo, the
state of R440, samples within LOCK_NS in a row, the last sample or apply, the last e, and the capture ring's SEQ. -/
structure TimeBase where
  val : Int := 0
  at_ : Nat := 0
  f : Int := 0
  i : Int := 0
  st : BitVec 2 := 0
  good : Nat := 0
  last : Nat := 0
  lastE : Int := 0
  capSeq : Nat := 0
  deriving DecidableEq, Repr

/-- A CAN FD controller (R443, R444). -/
structure CanSt where
  busOff : Bool := false
  tec : Nat := 0
  rec_ : Nat := 0
  entries : Nat := 0
  buf0 : Option CanFrame := none
  queue : List (Option Nat × CanFrame) := []
  dropped : Nat := 0
  /-- Frames not sent because a granule failed its check (Table 2-8). -/
  unsent : Nat := 0
  replaced : Nat := 0
  deriving DecidableEq, Repr

/-- A Follow_Up that waits for its Sync to leave (R435): the domain, the Sync's time of arrival and the peer delay on the
domain's time base, and the message as received. -/
structure FollowUp where
  dom : Nat
  rx : Int
  delay : Nat
  msg : Bytes
  deriving DecidableEq, Repr

/-- A frame that waits at an egress port: its class, whether its granules pass their check, and the Follow_Up that is sent
after it. -/
structure EthOut where
  cls : Nat
  data : Bytes
  good : Bool := true
  follow : Option FollowUp := none
  deriving DecidableEq, Repr

/-- An Ethernet port (R432 to R435): its link, the counters, the times of the last frame received and the last sent on the
four time bases, and its gate control list: the entry in force and when it began. -/
structure EthSt where
  linkUp : Bool := false
  fcs : Nat := 0
  drops : Nat := 0
  /-- Frames not sent because a granule failed its check (Table 2-8). -/
  unsent : Nat := 0
  rxStamp : List Int := []
  txStamp : List Int := []
  gcl : Nat := 0
  gclAt : Option Nat := none
  queue : List EthOut := []
  deriving DecidableEq, Repr

/-- A committed route at work (R445 to R452): a signal route's destination value, last source event, whether an
event has come since the apply, and its counts; a frame route's last and next sending and its sequence number. -/
structure RouteSt where
  y : Int := 0
  event : Option Nat := none
  stale : Bool := false
  saturated : Nat := 0
  ignored : Nat := 0
  sent : Option Nat := none
  due : Option Nat := none
  seq : Nat := 0
  deriving DecidableEq, Repr

/-- A meter's two buckets in bits, and when they were last filled. -/
structure MeterSt where
  c : Option Nat := none
  e : Nat := 0
  at_ : Nat := 0
  deriving DecidableEq, Repr

/-- A sequence recovery function of IEEE 802.1CB: the last number taken, the numbers seen in its history, and when
it last took one. -/
structure FrerSt where
  next : Nat := 0
  last : Option Nat := none
  seen : List Nat := []
  at_ : Nat := 0
  deriving DecidableEq, Repr

/-- An edge in a capture pin's buffer: its direction and its time on the four time bases (R442). -/
structure CapEdge where
  falling : Bool
  times : List Nat
  deriving DecidableEq, Repr

/-- The time unit, the switch, the CAN controllers and the gateway. -/
structure NetSt where
  bases : Tbl TimeBase := []
  can : Tbl CanSt := []
  eth : Tbl EthSt := []
  routes : Tbl RouteSt := []
  meters : Tbl MeterSt := []
  frer : Tbl FrerSt := []
  /-- Capture edges dropped at a full buffer (R442), by pin. -/
  capDropped : Tbl Nat := []
  capEdges : Tbl (List CapEdge) := []
  /-- Frames with no FDB entry (R433). -/
  noFdb : Nat := 0
  /-- Frames routed to the management port for Pyotos. -/
  managed : List Bytes := []
  /-- Times of the last Sync received, by port and domain, on the four time bases (R435). -/
  syncRx : Tbl (List Int) := []
  applied : Nat := 0
  deriving DecidableEq, Repr

/-! ### Control engine (chapter 16) -/

/-- A loop is OFF, RUN, SAFE or TUNE (R463). -/
inductive LoopMode where
  | off
  | run
  | safe
  | tune
  deriving DecidableEq, Repr

/-- A tuning under way (R468 to R470): its structure and destination, the sample index, phi, the records taken
(newest first), and for a relay the last u_out and the samples at which it switched up with the extremes of e. -/
structure Tuning where
  relay : Bool
  w : Line
  dest : Nat
  slice : SliceId
  n : Nat
  phi : Nat
  recs : List (List Int)
  last : Int
  ups : List Nat
  es : List (Nat × Int)
  deriving DecidableEq, Repr

/-- A LOOP_COEFF word on its way to the engine (R465). -/
structure CoeffWrite where
  stage : Nat
  word : BitVec 128
  at_ : Nat
  tag : Word
  pos : Word
  slice : SliceId
  deriving DecidableEq, Repr

/-- A loop at work: the words in effect, the rows written and not yet applied, stage states, outputs, gateway
inputs, supervision and counts (R454 to R467). -/
structure LoopSt where
  mode : LoopMode := .off
  words : Tbl (BitVec 128) := []
  written : Tbl (BitVec 128) := []
  coeffs : List CoeffWrite := []
  states : Tbl (List Int) := []
  outs : Tbl Int := []
  ins : Tbl Int := []
  given : List Nat := []
  /-- It has sampled since reset, so that its outputs exist (R459). -/
  sampled : Bool := false
  exceeded : Option Nat := none
  tripped : Bool := false
  saturations : Nat := 0
  tuning : Option Tuning := none
  deriving DecidableEq, Repr

/-- A CE_SPLIT or CE_JOIN that waits for its edge (R471). -/
structure SplitWait where
  split : Bool
  due : DWord
  tag : Word
  pos : Word
  deriving DecidableEq, Repr

/-- The control engine. -/
structure CtlSt where
  loops : Tbl LoopSt := []
  split : Bool := false
  waiting : Option SplitWait := none
  degraded : Bool := false
  pump : Option Int := none
  cap : Option Int := none
  samples : Nat := 0
  deriving DecidableEq, Repr


/-! ### Power, clocks, reset and bring-up (chapter 17) -/

/-- The power states of Table 17-4. -/
inductive PowerState where
  | active
  | parked
  | sleep
  | off
  deriving DecidableEq, Repr

/-- Where bring-up stands (Table 17-8). -/
inductive BootPhase where
  | sequencing
  | waitPorst
  | held
  | rom
  | verify
  | trim
  | training
  | initing
  | ready
  | halted
  deriving DecidableEq, Repr

/-- The xSPI port (R520): the boot flash held in reset, in 1S-1S-1S mode at 25 MHz, or in 8D-8D-8D mode at 200 MHz. -/
inductive XspiMode
  | inReset
  | single
  | octal
  deriving DecidableEq, Repr

/-- The always-on domain's record and the operating state (R474 to R497). -/
structure PwrSt where
  state : PowerState := .active
  phase : BootPhase := .sequencing
  pwrEn : BitVec 3 := 0
  good : BitVec 3 := 0
  enTimeout : Bool := false
  aonUp : Bool := false
  /-- DEV_RESET (Table 17-6). -/
  rail : BitVec 4 := 0xF
  bringUps : Byte := 0
  prevCause : Byte := 0
  cause : Byte := 1
  firstPorst : Bool := true
  /-- PORST_N is high, and the instant from which bring-up counts (R486). -/
  porstHigh : Bool := false
  porst : Nat := 0
  /-- A chip reset that a source has caused and that has not been asserted (Table 17-7). -/
  resetDue : Option ResetCause := none
  /-- The I2C target answers (R3). -/
  i2cOn : Bool := false
  /-- The instant at which PARKED was entered (R480). -/
  parkedAt : Nat := 0
  tripped : Bool := false
  sleepAsked : Bool := false
  retrained : List Nat := []
  capW : Nat := 300
  bootRate : BitVec 4 := 5
  net : Bytes := []
  /-- Operating point of each Stage die, its supply, and its step under way (R476, R477). -/
  point : Tbl Nat := []
  dieOff : BitVec 4 := 0
  stepTo : Tbl (Option Nat) := []
  p4Since : Tbl (Option Nat) := []
  sensors : Tbl Int := []
  emergency : Bool := false
  powerMw : Nat := 0
  throttleTold : Bool := false
  capTold : Bool := false
  /-- Units of dies cut by an emergency or rejoining at the next edge. -/
  rejoin : BitVec 4 := 0
  overTemp : BitVec 12 := 0
  secureOff : Bool := false
  controlOff : Bool := false
  waking : List WakeDomain := []
  apertures : List SliceId := []
  refLost : Bool := false
  xspi : XspiMode := .inReset
  deriving DecidableEq, Repr

/-! ### Security (chapter 13) -/

/-- An enclave (R377 to R384): its pages in VA order from 0x8000_0000_0000, the SECURE pages of its tables (R378), its
cache partition, and of the package it holds the bytes of image, data and save area, one after the other, and the handle. -/
structure Enclave where
  host : SliceId
  pages : List Nat
  tables : List Nat
  partition : BitVec 4
  image : Nat
  data : Nat
  save : Nat
  handle : Option Nat
  deriving DecidableEq, Repr

/-- What the boot control block and image headers hold of one bank (R368 to R371). -/
structure Bank where
  success : Nat := 0
  rollbackSf : Nat := 0
  rollbackPy : Nat := 0
  versionSf : Word := 0
  versionPy : Word := 0
  /-- The images that the bank holds, header and payload, as far as a command has read or written them. -/
  sf : Bytes := []
  py : Bytes := []
  deriving DecidableEq, Repr

structure SecSt where
  /-- SEC_UNIT_ENC by UNIT code; reset 0 (R365). -/
  unitEnc : Tbl (BitVec 5) := []
  /-- SEC_HOLD0 to SEC_HOLD3; reset 0 (R392). -/
  hold : Tbl Word := []
  /-- SEC_WDT_CTRL; reset PERIOD_MS 1,000 (R390). -/
  period : BitVec 10 := 1000
  wdtLock : Bool := false
  wdtRunning : Bool := false
  kicked : Nat := 0
  warned : Bool := false
  /-- SEC_DEBUG (Table 13-8). -/
  debugBits : BitVec 4 := 0
  debugLock : Bool := false
  invUsed : Bool := false
  nonce : Option (BitVec 192 × Nat) := none
  sealedGone : Bool := false
  slots : Tbl (Option (BitVec 384)) := []
  lastCounter : Word := 0
  enclaves : Tbl (Option Enclave) := []
  activeB : Bool := false
  bankA : Bank := {}
  bankB : Bank := {}
  bootedB : Bool := false
  fallback : Bool := false
  fusedSf : Nat := 0
  fusedPy : Nat := 0
  violations : Nat := 0
  deriving DecidableEq, Repr

/-! ### Functional safety (chapter 14) -/

/-- Modes of an island (R407). -/
inductive IslandMode where
  | start
  | service
  | recovery
  | test
  deriving DecidableEq, Repr

/-- A safety island (R405 to R410): its cores in service, its understudy, the two checkpoint copies
(the cue count of each), and its SAFE_OK pin. -/
structure Island where
  mode : IslandMode := .start
  inService : BitVec 3 := 7
  understudy : Option (Fin 3) := none
  agreed : Bool := true
  ckpt0 : Option DWord := none
  ckpt1 : Option DWord := none
  newest1 : Bool := false
  restarting : Bool := false
  restartCue : Option DWord := none
  queue : List SafetyEvent := []
  understudies : List (Nat × Nat) := []
  pin : Bool := false
  lastToggle : Nat := 0
  lastCkpt : Nat := 0
  debug : Bool := false
  deriving DecidableEq, Repr

/-- A known-answer registration (R422, R424). -/
structure Kaf where
  slice : SliceId
  handle : Nat
  jobIdx : Nat
  k : Nat
  bank : BitVec 2
  scene : SceneId
  /-- The Pyotos-owned pages that hold the stored input, and its bytes. -/
  pages : List Nat
  len : Nat
  expect : DWord
  /-- Cues since the last passing run; `none` before the first. -/
  since : Option Nat
  running : Option Nat
  deriving DecidableEq, Repr

/-- The safety islands, the policy's bookkeeping, rehearsals and cross-checks (chapter 14). -/
structure SafSt where
  /-- Events raised by a mechanism and not yet latched by an island (R396). -/
  raised : List (IslandId × SafetyEvent) := []
  a : Island := {}
  b : Island := {}
  counts : Tbl Word := []
  /-- Check failures counted against masters without a UNIT code, by MID (R66). -/
  checksBy : Tbl Nat := []
  curtain : Bool := false
  cause : Byte := 0
  curtainCue : DWord := 0
  messages : Nat := 0
  nextMessage : Nat := 0
  /-- DEBUG of Table 14-10: paths an invasive access has reached, and those that DEGRADE has made non-safety (R413). -/
  debugPaths : Byte := 0
  nonSafety : Byte := 0
  /-- Stage units that are non-safety paths under R413, by UNIT code. -/
  debugUnits : List Nat := []
  /-- Stage units that an invasive access has reached, by UNIT code. -/
  debugSeen : List Nat := []
  firewall : Nat := 0
  kafs : List Kaf := []
  kafFailed : List (SliceId × Nat) := []
  /-- Cue counts of each unit's transient errors (R417). -/
  transients : Tbl (List Nat) := []
  /-- When each checker last passed a segment (R420), and those starved. -/
  passed : List (Checker × Nat) := []
  starvedNow : List Checker := []
  /-- Checkers for which REHEARSAL_STARVED has been raised since they last passed. -/
  overdue : List Checker := []
  /-- Segments under way, when each checker group last started one, and segments run in this rotation. -/
  segments : List (Checker × Nat) := []
  lastSegment : List (Checker × Nat) := []
  rotation : List (Checker × Nat) := []
  rotationMs : Word := 0
  rotationStart : Nat := 0
  lastAlive : Nat := 0
  silent : Bool := false
  crossMine : List (CrossRecord × Nat) := []
  crossTheirs : List CrossRecord := []
  unchecked : List Nat := []
  twinLostRaised : Bool := false
  deriving DecidableEq, Repr

/-! ### The machine -/

/-- Everything the spec gives the part, and the queue of commands that wait (first in, first out). -/
structure State where
  /-- Nanoseconds of the 100 MHz reference since power-on. -/
  now : Nat
  mem : MemSt
  host : HostSt
  slices : Tbl Slice
  log : List LogEntry
  logNext : Nat
  groups : Tbl Staged
  commits : List Commit
  /-- Which slice ASSIGN gave a resource: key kind * 65536 + index; default slice 0. -/
  assigned : Tbl SliceId
  cue : CueSt
  sheets : Tbl (Option Sheet)
  replaced : List Replacement
  missed : Tbl Nat
  jobs : List Job
  jobNext : Nat
  units : Tbl UnitSt
  /-- Contexts in save areas, keyed 128 * job + entry (R104). -/
  saved : Tbl (Option SavedCtx)
  ctrs : Tbl Ctr
  cores : Tbl CoreSt
  rasters : Tbl RasterSt
  heads : Tbl HeadSt
  intake : IntakeSt
  net : NetSt
  ctl : CtlSt
  fab : FabSt
  aes : Tbl AeSt
  saf : SafSt
  pwr : PwrSt
  sec : SecSt
  /-- The number of free values drawn so far: the model's own field, not the spec's. -/
  free : Nat
  out : List Out
  pending : List Instr
  deriving DecidableEq, Repr

/-- The state at power-on: every field at its Reset column, no command waiting. -/
def State.reset : State :=
  { now := 0, mem := {}, host := {}, slices := [], log := [], logNext := 0, groups := [], commits := [],
    assigned := [], cue := {}, sheets := [], replaced := [], missed := [], jobs := [], jobNext := 0,
    units := [], saved := [], ctrs := [], cores := [], rasters := [], heads := [], intake := {}, net := {}, ctl := {}, fab := {}, aes := [], saf := {}, pwr := {}, sec := {}, free := 0, out := [], pending := [] }

end Sys2Proof.Machine
end

