-- ==== Sys2Proof/Config.lean ====
section
/-! DEFINITION. What the spec leaves open, as constants with no body: nothing can evaluate them, so
a statement about one holds for every value. Each is named in the assumption log. -/

namespace Sys2Proof.Config

/-- The byte that host memory holds at an address before the device has read or written it. -/
opaque hostByte : Nat → Byte

/-- A byte the spec does not state, the i-th of the k-th free value. -/
opaque freeByte : Nat → Nat → Byte

/-- The real-time reservation Pyotos computes from the configured heads, streams and loops (R276), whose
formula the spec does not give. -/
opaque realTimeGbps : Tbl Machine.Staged → Nat

/-- The LEN of the partner's end of a twin channel, if it is set, at the k-th free value (R307). -/
opaque partnerLen : Nat → Nat → Option Nat

/-- FEXP2, FLOG2, FSIN, FCOS, FTANH or FSIGM (by OP) of an FP32 bit pattern: R117 gives a bound, not a result. -/
opaque transcend : Nat → Nat → Nat

/-- Which of the FP32 results within R117's bound FRCP or FRSQ (by OP) gives for a bit pattern. -/
opaque pick : Nat → Nat → Nat

/-- The pieces of a triangle with a coordinate that is not finite, of which the spec says nothing (R175). -/
opaque clipFan : List Nat → List (List Nat)

/-- Channel c of a texel of an ETC2 or ASTC block (by FORMAT), as FP32 bits: the decoder is another document's
(R186). The arguments are the format, the block's bytes as a number, x and y in the block, and c. -/
opaque texelBlock : Nat → Nat → Nat → Nat → Nat → Nat

/-- The linear value of an 8-bit sRGB component, as FP32 bits (R186, R192). -/
opaque srgb : Nat → Nat

/-- What an 8-bit component of a display layer of format sRGB is composed as, as FP32 bits: R192 does not say
whether it is decoded. -/
opaque srgbLayer : Nat → Nat

/-- Which of its two neighbours in 12-bit fixed point stands for a channel that lies between them (R192): the spec gives no
rounding there. The arguments are the numerator and the denominator. -/
opaque fixedPoint : Int → Nat → Nat

/-- Pmax and Pmin of the footprint of a TSAMPLE lane's quad, as FP32 bits (R187): the spec gives no arithmetic for
the derivatives. The arguments are the u and v bits of the quad's four lanes and the slot's first half. -/
opaque footprint : List Nat → Nat → Nat × Nat

/-- Where the k-th of N probes of an anisotropic sample lies, as FP32 bits of u and v (R187): the spec does not place them.
The arguments are the quad, the lane's u and v, N and k. -/
opaque probe : List Nat → Nat → Nat → Nat → Nat → Nat × Nat

/-- The whole texel or level that a coordinate or λ leads to where R187 states no rounding (by the first
argument: 0 a coordinate that is infinite, 1 the level of a λ between two levels, 4 the quantisation of a weight). -/
opaque wholeOf : Nat → Nat → Int

/-- The linear-feedback register of a core (R65), whose taps and seeding the spec does not give: the arguments are the core's
number, the cue count at its reset, and the steps since. -/
opaque samplingRegister : Nat → Nat → Nat → Half

/-- A field of an IPv4 header of the gateway that the spec does not state (0: the type of service; 1: the
identification), in the k-th frame (R452). -/
opaque ipField : Nat → Nat → Nat

/-- DEV_SERIAL, DEV_ID.GRADE and LIFECYCLE: fuses (Tables 11-3 and 13-2). -/
opaque devSerial : DWord
opaque grade : BitVec 4
opaque lifecycle : BitVec 2

/-- The device-unique key (Table 13-2). -/
opaque duk : BitVec 256

/-- The owner keys as public points, of which ROTPK_HASH holds the SHA-384, and whether ROTPK_REVOKE revokes them. -/
opaque ownerKey : Nat → Bytes
opaque ownerKeyRevoked : Nat → Bool

/-- The package straps that a die loads FAB_DIE_STRAP from, by its code (R13, R290). -/
opaque dieStrap : Nat → Word

/-- The credits of a die link's virtual channel at training, by its key (Table 1-6): no number is stated. -/
opaque dieCredits : Nat → Nat

/-- The slots of the bridge's buffers (Table 1-6): no number is stated. -/
opaque bridgeBuffers : Nat

/-- The per-message secret of the k-th signature, of which FIPS 186-5 fixes no value (R374). -/
opaque signSecret : Nat → Nat

/-- What the true random number generator gives at the k-th free value (R387). -/
opaque random : Nat → BitVec 192

end Sys2Proof.Config
end

