-- ==== Sys2Proof/Machine/Ops.lean ====
section
/-! DEFINITION. The named operations every meaning is written over: bits and bytes, sparse tables, the
carried check, memory with its checks, translation and page ownership, notices, completions and
interrupts, safety events, jobs and units. -/

namespace Sys2Proof.Machine

/-- What a meaning answers. -/
abbrev Ans := Host.Outcome State Fault Refusal

/-- The event has its effect. -/
def did (s : State) : Ans := .next s

/-- The event has its effect when its condition holds, and otherwise none (log entry 1). -/
def doWhen (c : Bool) (s t : State) : Ans := .next (if c then t else s)

/-! ### Bits and bytes (R5 to R7) -/

/-- `w[hi:lo]` of a word held as a number, R7. -/
def bits (w hi lo : Nat) : Nat := (w >>> lo) % 2 ^ (hi + 1 - lo)

/-- Bit i of a number. -/
def bitAt (w i : Nat) : Bool := (w >>> i) % 2 == 1

/-- The little-endian field of `size` bytes at byte `off` (R6). -/
def fld {n : Nat} (w : BitVec n) (off size : Nat) : Nat := (w.toNat >>> (8 * off)) % 2 ^ (8 * size)

/-- The same with bytes `off` to `off + size - 1` replaced by `v`. -/
def setFld {n : Nat} (w : BitVec n) (off size v : Nat) : BitVec n :=
  let keep := w.toNat % 2 ^ (8 * off) + (w.toNat >>> (8 * (off + size))) * 2 ^ (8 * (off + size))
  BitVec.ofNat n (keep + (v % 2 ^ (8 * size)) * 2 ^ (8 * off))

/-- Little-endian bytes as a number (R6). -/
def leNat : Bytes → Nat
  | [] => 0
  | b :: bs => b.toNat + 256 * leNat bs

/-- The low `n` bytes of a number, little-endian (R6). -/
def leBytes : Nat → Nat → Bytes
  | 0, _ => []
  | n + 1, v => BitVec.ofNat 8 v :: leBytes n (v / 256)

/-- The bytes of a structure, `n` of them. -/
def lineBytes {m : Nat} (n : Nat) (w : BitVec m) : Bytes := leBytes n w.toNat

/-- The two's-complement value of the low `n` bits. -/
def signed (n v : Nat) : Int :=
  let u := v % 2 ^ n
  if u < 2 ^ (n - 1) then (u : Int) else (u : Int) - (2 ^ n : Nat)

/-- An integer as `n` bits. -/
def wrapBits (n : Nat) (v : Int) : Nat := (v % (2 ^ n : Nat)).toNat

/-- `count` zero bytes. -/
def zeros (n : Nat) : Bytes := List.replicate n 0

/-- Byte i of a list, 0 beyond its end. -/
def byteAt (bs : Bytes) (i : Nat) : Nat := (bs.getD i 0).toNat

/-- The little-endian field of a byte list. -/
def fieldOf (bs : Bytes) (off size : Nat) : Nat := leNat ((bs.drop off).take size)

/-! ### Sparse tables -/

/-- Entry i of a table whose unlisted entries are `d`. -/
def tget {α : Type} (d : α) : Tbl α → Nat → α
  | [], _ => d
  | (k, v) :: t, i => if k = i then v else tget d t i

/-- Entry i taken out. -/
def tdel {α : Type} (t : Tbl α) (i : Nat) : Tbl α := t.filter (fun p => p.1 != i)

/-- Entry i put in at its place. -/
def tins {α : Type} : Tbl α → Nat → α → Tbl α
  | [], i, v => [(i, v)]
  | (k, w) :: t, i, v => if k < i then (k, w) :: tins t i v else (i, v) :: (k, w) :: t

/-- Entry i set to `v`; the entry is not listed when `v` is the default. -/
def tset {α : Type} [DecidableEq α] (d : α) (t : Tbl α) (i : Nat) (v : α) : Tbl α := if v = d then tdel t i else tins (tdel t i) i v

/-- The canonical form: indices strictly rising from `lo`, no entry equal to the default. -/
def twf {α : Type} [DecidableEq α] (d : α) : Nat → Tbl α → Bool
  | _, [] => true
  | lo, (k, v) :: t => decide (lo ≤ k) && decide (v ≠ d) && twf d (k + 1) t

/-- Entry i changed by `f`. -/
def tup {α : Type} [DecidableEq α] (d : α) (t : Tbl α) (i : Nat) (f : α → α) : Tbl α := tset d t i (f (tget d t i))

/-! ### Parts of the state -/

def State.upMem (s : State) (f : MemSt → MemSt) : State := { s with mem := f s.mem }
def State.upHost (s : State) (f : HostSt → HostSt) : State := { s with host := f s.host }
def State.upCue (s : State) (f : CueSt → CueSt) : State := { s with cue := f s.cue }
def State.upFab (s : State) (f : FabSt → FabSt) : State := { s with fab := f s.fab }
def State.upIntake (s : State) (f : IntakeSt → IntakeSt) : State := { s with intake := f s.intake }
def State.upNet (s : State) (f : NetSt → NetSt) : State := { s with net := f s.net }
def State.upCtl (s : State) (f : CtlSt → CtlSt) : State := { s with ctl := f s.ctl }
def State.upPwr (s : State) (f : PwrSt → PwrSt) : State := { s with pwr := f s.pwr }
def State.upSec (s : State) (f : SecSt → SecSt) : State := { s with sec := f s.sec }
def State.upSaf (s : State) (f : SafSt → SafSt) : State := { s with saf := f s.saf }
def State.slice (s : State) (n : SliceId) : Slice := tget {} s.slices n.toNat
def State.upSlice (s : State) (n : SliceId) (f : Slice → Slice) : State :=
  { s with slices := tup {} s.slices n.toNat f }
def State.upPage (s : State) (n : SliceId) (f : Page → Page) : State :=
  s.upSlice n (fun sl => { sl with page := f sl.page })
def State.ctr (s : State) (c : CtrId) : Ctr := tget {} s.ctrs c.toNat
def State.upCtr (s : State) (c : CtrId) (f : Ctr → Ctr) : State := { s with ctrs := tup {} s.ctrs c.toNat f }

/-- Every slice number. -/
def allSlices : List SliceId := (List.range 128).map (BitVec.ofNat 7)

/-- Something leaves the part. -/
def State.emit (s : State) (o : Out) : State := { s with out := o :: s.out }

/-! ### Units (R358) -/

/-- The UNIT code of R358: core n, 64 + c, 80 + d. -/
def UnitId.code : UnitId → Nat
  | .core c => c.toNat
  | .ae a => 64 + a.toNat
  | .rfe r => 80 + r.toNat

def unitOf (k : Nat) : UnitId :=
  if k < 64 then .core (BitVec.ofNat 6 k) else if k < 80 then .ae (BitVec.ofNat 4 (k - 64)) else .rfe (BitVec.ofNat 2 (k - 80))

def State.unit (s : State) (u : UnitId) : UnitSt := tget {} s.units (UnitId.code u)
def State.upUnit (s : State) (u : UnitId) (f : UnitSt → UnitSt) : State :=
  { s with units := tup {} s.units (UnitId.code u) f }
def State.upSeq (s : State) (u : UnitId) (f : Seq → Seq) : State :=
  s.upUnit u (fun x => { x with seq := f x.seq })

/-- The die a Stage unit lies on (Table 1-1). -/
def UnitId.die : UnitId → Nat
  | .core c => c.toNat / 16
  | .ae a => a.toNat / 4
  | .rfe r => r.toNat

def allUnits : List UnitId := (List.range 84).map unitOf

/-- The device is out of reset: the Wings, and with it every other block (R14, R483). -/
def outOfReset (s : State) : Bool := !([BootPhase.sequencing, .waitPorst, .held].contains s.pwr.phase)

/-! ### Time -/

/-- The instant of an event: time never goes back. -/
def State.at_ (s : State) (t : Nat) : State := { s with now := max s.now t }

/-! ### The carried check (R59) -/

/-- Eight shifts of the CRC register. -/
def crc16Step : Nat → Nat → Nat
  | 0, r => r
  | n + 1, r => crc16Step n (if r ≥ 0x8000 then ((r <<< 1) % 65536) ^^^ 0x8BB7 else r <<< 1)

/-- The register after some bytes. -/
def crc16 (bs : Bytes) (r : Nat) : Nat := bs.foldl (fun r b => crc16Step 8 (r ^^^ (b.toNat <<< 8))) r

/-- carried_check() of R59. -/
def carriedCheck (g : Bytes) : Half := BitVec.ofNat 16 (crc16 g 0 ^^^ 0xFFFF)

/-! ### RAM with its checks (R16, R59 to R61) -/

/-- The bytes from `a`. -/
def Ram.read (m : Ram) (a len : Nat) : Bytes := (List.range len).map (fun i => tget 0 m.bytes (a + i))

/-- How the check of the granule that holds `a` stands: 0 valid. -/
def Ram.synAt (m : Ram) (a : Nat) : Half := tget 0 m.syn (a / 64)

/-- The granules that `a` to `a + len - 1` touch. -/
def granules (a len : Nat) : List Nat := if len = 0 then [] else (List.range ((a + len - 1) / 64 - a / 64 + 1)).map (a / 64 + ·)

/-- The granules of a range whose check fails. -/
def Ram.bad (m : Ram) (a len : Nat) : List Nat := (granules a len).filter (fun g => tget 0 m.syn g ≠ 0)

/-- Bytes stored without regard to checks. -/
def Ram.poke (m : Ram) (a : Nat) (bs : Bytes) : Ram :=
  { m with bytes := bs.zipIdx.foldl (fun t p => tset 0 t (a + p.2) p.1) m.bytes }

/-- Bytes written: a granule written whole gets a valid check; one written in part keeps a valid
check only if its stored contents passed, and is stored poisoned otherwise (R60, R61). -/
def Ram.write (m : Ram) (a : Nat) (bs : Bytes) : Ram :=
  let full g := decide (a ≤ 64 * g) && decide (64 * g + 64 ≤ a + bs.length)
  let syn := (granules a bs.length).foldl
    (fun t g => if full g then tset 0 t g 0 else if tget 0 t g = 0 then t else tset 0 t g 0xFFFF) m.syn
  { (m.poke a bs) with syn := syn }

/-- The granules of a range marked poisoned (R61). -/
def Ram.poison (m : Ram) (a len : Nat) : Ram :=
  { m with syn := (granules a len).foldl (fun t g => tset 0 t g 0xFFFF) m.syn }

/-- A range written as zero granules with check 0xFFFF (R74, R265). -/
def Ram.clear (m : Ram) (a len : Nat) : Ram :=
  { bytes := m.bytes.filter (fun p => p.1 < a || a + len ≤ p.1),
    syn := m.syn.filter (fun p => p.1 < a / 64 || (a + len) / 64 ≤ p.1) }

/-- The start of core c's store in `MemSt.store`. -/
def storeBase (c : CoreId) : Nat := 0x400000 * c.toNat

/-- The check stored with a granule of DRAM (R59, R61). -/
def storedCheck (s : State) (g : Nat) : Half := carriedCheck (s.mem.dram.read (64 * g) 64) ^^^ tget 0 s.mem.dram.syn g

/-! ### DRAM and pages (R258 to R265) -/

/-- cap[k] in GiB: 16 when the bit of DRAM_16G is set (Table 11-4). -/
def capGiB (s : State) (k : Nat) : Nat := if bitAt s.host.dram16g.toNat k then 16 else 8

def dataBytes (s : State) (k : Nat) : Nat := capGiB s k * 0x40000000 - capGiB s k * 0x40000000 / 32

/-- The controllers with more than the least capacity (big of R261). -/
def bigControllers (s : State) : List Nat :=
  let m := ((List.range 12).map (dataBytes s)).foldl min (dataBytes s 0)
  (List.range 12).filter (fun k => m < dataBytes s k)

/-- top0 of R261. -/
def top0 (s : State) : Nat := 12 * ((List.range 12).map (dataBytes s)).foldl min (dataBytes s 0)

/-- data_top of R261. -/
def dataTop (s : State) : Nat :=
  top0 s + (bigControllers s).length * (((List.range 12).map (dataBytes s)).foldl max 0 - top0 s / 12)

/-- map() of R261: the controller and its local address. -/
def dpaMap (s : State) (dpa : Nat) : Nat × Nat :=
  if dpa < top0 s then
    let b := dpa / 2048
    (b % 12, b / 12 * 2048 + dpa % 2048)
  else
    let b := (dpa - top0 s) / 2048
    let nb := (bigControllers s).length
    ((bigControllers s).getD (b % nb) 0, top0 s / 12 + b / nb * 2048 + dpa % 2048)

/-- TYPE of an owner entry (Table 9-3). -/
def ownerType : OwnerType → Nat
  | .free => 0
  | .slice => 1
  | .enclave => 2
  | .secure => 3
  | .pyotos => 4
  | .uninit => 5
  | .retired => 6
  | .invalid => 7

/-- Bits 55:0 of an owner entry. -/
def ownerBits (o : Owner) : Nat := ownerType o.typ + 8 * o.id.toNat + 1024 * o.host.toNat + 2 ^ 32 * o.grants.toNat

/-- The ECHK that an owner entry's bytes 0 to 6 ask for (Table 9-3). -/
def echkOf (o : Owner) : Byte := (leBytes 7 (ownerBits o)).foldl (· ^^^ ·) 0xA5

/-- An owner entry as its 8 bytes hold it. -/
def ownerEntry (o : Owner) : Nat := ownerBits o + 2 ^ 56 * o.echk.toNat

/-- The entry's ECHK verifies. -/
def Owner.echkOk (o : Owner) : Bool := o.echk == echkOf o

/-- An entry as Pyotos writes it. -/
def sealOwner (o : Owner) : Owner := { o with echk := echkOf o }

/-- The owner entry of a page: as listed, or as memory initialisation left it (R487). -/
def ownerOf (s : State) (p : Nat) : Owner :=
  match tget none s.mem.owner p with
  | some o => o
  | none => sealOwner (if p < s.mem.initPages then { typ := .free } else {})

def setOwner (s : State) (p : Nat) (o : Owner) : State :=
  s.upMem (fun m => { m with owner := tset none m.owner p (some (sealOwner o)) })

/-- Who makes an access (Table 9-4). -/
inductive Actor where
  | slice (n : SliceId)
  | enclave (e : BitVec 5) (host : SliceId)
  | pyotos
  | security
  deriving DecidableEq, Repr

/-- Table 9-4. -/
def allowed (a : Actor) (o : Owner) : Bool :=
  o.echkOk && match o.typ with
  | .invalid => false
  | .retired => false
  | .slice => match a with
    | .slice n => o.id == n
    | .enclave _ h => o.id == h
    | .pyotos => true
    | .security => true
  | .enclave => match a with
    | .enclave e _ => o.id.toNat == e.toNat
    | .security => true
    | _ => false
  | .secure => a == .security
  | .pyotos => a == .pyotos || a == .security
  | _ => a == .pyotos || a == .security

/-- The first `k` FREE pages from page `p`, below `top`, lowest first (log entry 20). -/
def freePages (s : State) : Nat → Nat → Nat → Nat → List Nat
  | 0, _, _, _ => []
  | fuel + 1, p, top, k =>
    if k = 0 ∨ top ≤ p then []
    else if (ownerOf s p).typ = .free ∧ (ownerOf s p).echkOk ∧ p ∉ s.mem.testPages then p :: freePages s fuel (p + 1) top (k - 1)
    else freePages s fuel (p + 1) top k

/-- Steps enough to pass every listed page. -/
def pageFuel (s : State) (k : Nat) : Nat := k + s.mem.owner.length + s.mem.testPages.length + 1

/-- `k` FREE pages: region 0 first, then region 1 (R357), or region 1 alone. -/
def pickPages (s : State) (k : Nat) (region1 : Bool) : List Nat :=
  let t0 := top0 s / 65536
  let a := if region1 then [] else freePages s (pageFuel s k) 0 t0 k
  a ++ freePages s (pageFuel s k) t0 (dataTop s / 65536) (k - a.length)

/-- How many UNINIT pages the allowed regions hold. -/
def uninitPages (s : State) (region1 : Bool) : Nat :=
  let lo := if region1 then top0 s / 65536 else 0
  let hi := dataTop s / 65536
  let listed := (s.mem.owner.filter (fun p => lo ≤ p.1 && p.1 < hi && max s.mem.initPages lo ≤ p.1)).length
  hi - max s.mem.initPages lo - listed

/-- A page granted: owner set, GRANTS counted (Table 9-3, R265). -/
def grantPage (o : Owner) (s : State) (p : Nat) : State :=
  setOwner s p { o with grants := (ownerOf s p).grants + 1 }

def grantPages (s : State) (ps : List Nat) (o : Owner) : State := ps.foldl (grantPage o) s

/-- A page released: its lines leave the cache without a write-back, its granules are zeroed with valid checks, then it is
FREE (R265), or tested first (R283). -/
def releasePage (s : State) (p : Nat) : State :=
  let s := s.upMem (fun m => { m with cache := m.cache.filter (fun l => l.granule / 1024 ≠ p) })
  let s := s.upMem (fun m => { m with dram := m.dram.clear (65536 * p) 65536 })
  setOwner s p { typ := .free, grants := (ownerOf s p).grants }

def releasePages (s : State) (ps : List Nat) : State := ps.foldl releasePage s

/-- Bytes written into whole pages, in order; without the floor nothing reaches memory (Table 1-2). -/
def putPages (s : State) (ps : List Nat) (bs : Bytes) : State :=
  if s.fab.floorLost then s
  else ps.zipIdx.foldl (fun s p => s.upMem (fun m => { m with dram := m.dram.write (65536 * p.1) ((bs.drop (65536 * p.2)).take 65536) })) s

/-- The first `len` bytes of some pages. -/
def getPages (s : State) (ps : List Nat) (len : Nat) : Bytes :=
  ps.zipIdx.flatMap (fun p => s.mem.dram.read (65536 * p.1) (min 65536 (len - 65536 * p.2)))

/-- The bytes can be read, and every granule of them has a valid check. -/
def pagesOk (s : State) (ps : List Nat) (len : Nat) : Bool :=
  !s.fab.floorLost && ps.zipIdx.all (fun p => (s.mem.dram.bad (65536 * p.1) (min 65536 (len - 65536 * p.2))).isEmpty)

/-! ### Bandwidth (R275 to R280) -/

/-- A DRAM request of an account: its bytes wait for the regulator (R275). -/
def demand (s : State) (acct label bytes : Nat) : State :=
  s.upMem (fun m => { m with acct := tup {} m.acct acct (fun a => { a with reqs := a.reqs ++ [{ since := s.now, label := label, bytes := bytes }] }) })

/-- What a request's tokens are drawn on (Table 9-7): a scene's account under its job's label, the real-time account at a rank of R31, or no
account but a slice's label, or Pyotos's. -/
inductive Draw where
  | scene (k : Nat) (label : BitVec 3)
  | realTime (rank : Nat)
  | other (n : SliceId)
  | pyotos
  deriving DecidableEq, Repr

/-- The rank of a real-time master among its like (R31): the higher configured class first; at equal class the control
engine, then camera input, then scanout. -/
def rtRank (cls : Nat) (mid : Byte) : Nat := 3 * (3 - cls) + (if mid = 0x84 then 0 else if mid = 0x89 then 1 else 2)

/-- How Pyotos stands among the slices that share a LABEL (Table 9-7). -/
def pyotosKey : Nat := 128

/-- Bytes that missed the cache wait for the regulator. -/
def drawTokens (s : State) (d : Draw) (bytes : Nat) : State :=
  if bytes = 0 then s
  else match d with
    | .scene k l => demand s k l.toNat bytes
    | .realTime r => demand s 32 r bytes
    | .other n => s.upMem (fun m => { m with excess := tup 0 m.excess n.toNat (· + bytes) })
    | .pyotos => s.upMem (fun m => { m with excess := tup 0 m.excess pyotosKey (· + bytes) })

/-! ### The system cache (R270 to R272) -/

/-- The way mask of a partition in force (R271, R272). -/
def cacheMask (s : State) (p : Nat) : Nat := match s.groups.find? (fun g => g.1 = 0x2000000) with
  | some g => fld g.2.committed (2 * p) 2
  | none => 0

/-- The partition that serves a requester (R271). -/
def partOf (s : State) : Actor → Nat
  | .slice n => (s.slice n).partition.toNat
  | .enclave e _ => match tget none s.sec.enclaves e.toNat with
    | some x => x.partition.toNat
    | none => 0
  | .pyotos => 0
  | .security => 1

/-- The set of a granule: 131,072 sets of 16 ways (R270, log entry 110). -/
def cacheSet (g : Nat) : Nat := g % 131072

/-- One access of at most a granule: (address, length, whether a miss allocates). A hit becomes the most recently used line
of its set; a miss takes a free way of the mask, or that of the least recently used line, which is written back if dirty. The
lines, the bytes that missed, and the write-backs. -/
def cacheStep (mask : Nat) (write : Bool) (r : List CacheLine × Nat × Nat) (x : Nat × Nat × Bool) : List CacheLine × Nat × Nat :=
  let g := x.1 / 64
  let miss := r.2.1 + x.2.1
  match r.1.find? (fun l => l.granule = g ∧ bitAt mask l.way) with
  | some l => ({ l with dirty := l.dirty || write } :: r.1.erase l, r.2)
  | none =>
    let inSet := r.1.filter (fun l => cacheSet l.granule = cacheSet g)
    let ways := (List.range 16).filter (bitAt mask)
    if ¬ x.2.2 then (r.1, miss, r.2.2)
    else match ways.find? (fun w => inSet.all (fun l => l.way ≠ w)) with
      | some w => ({ granule := g, way := w, dirty := write } :: r.1, miss, r.2.2)
      | none => match (inSet.filter (fun l => bitAt mask l.way)).getLast? with
        | some v => ({ granule := g, way := v.way, dirty := write } :: r.1.erase v, miss, r.2.2 + (if v.dirty then 1 else 0))
        | none => (r.1, miss, r.2.2)

/-- A master's access to some parts of granules in DRAM (R270, R275, R414): what misses the cache draws tokens. -/
def memAccess (s : State) (mid : Byte) (part : Nat) (write : Bool) (d : Draw) (xs : List (Nat × Nat × Bool)) : State :=
  let r := xs.foldl (cacheStep (cacheMask s part) write) (s.mem.cache, 0, 0)
  let s := s.upMem (fun m => { m with
    cache := r.1
    writeBacks := m.writeBacks + r.2.2
    byMid := tup 0 m.byMid mid.toNat (· + (xs.map (·.2.1)).foldl (· + ·) 0) })
  drawTokens s d r.2.1

/-! ### Translation tables (R267, Table 9-5) -/

/-- The tables that a leaf's walk passes: level and address prefix. -/
def leafTables (l : Leaf) : List (Nat × Nat) :=
  [(0, 0), (1, l.va / 2 ^ 39), (2, l.va / 2 ^ 30)] ++ (if l.size < 0x200000 then [(3, l.va / 2 ^ 21)] else [])

/-- The tables of some leaves, in the order in which their leaves came. -/
def tableKeys (ls : List Leaf) : List (Nat × Nat) := (ls.flatMap leafTables).eraseDups

/-- Where a table lies: 16 tables of 4 KiB to a page (log entry 21). -/
def tableAt (pages : List Nat) (ks : List (Nat × Nat)) (k : Nat × Nat) : Option Nat :=
  if ks.contains k then some (65536 * pages.getD (ks.idxOf k / 16) 0 + 4096 * (ks.idxOf k % 16)) else none

/-- A leaf's entry, the i-th of its group when it maps a 64 KiB page (Table 9-5). -/
def leafEntry (l : Leaf) (i : Nat) : Nat :=
  let b (c : Bool) (k : Nat) : Nat := if c then 2 ^ k else 0
  1 + b (l.size == 65536) 2 + b l.w 3 + b l.x 4 + b l.host 5 + b l.noAlloc 6 + l.pa + 4096 * i

/-- The entries that hold a leaf, with their addresses. -/
def leafEntries (pages : List Nat) (ks : List (Nat × Nat)) (l : Leaf) : List (Nat × Nat) :=
  if l.size < 0x200000 then
    match tableAt pages ks (3, l.va / 2 ^ 21) with
    | none => []
    | some t => (List.range (l.size / 4096)).map (fun i => (t + 8 * ((l.va / 4096 + i) % 512), leafEntry l i))
  else match tableAt pages ks (2, l.va / 2 ^ 30) with
    | none => []
    | some t => [(t + 8 * (l.va / 2 ^ 21 % 512), leafEntry l 0)]

/-- The entry that leads to a table, with its address. -/
def linkEntry (pages : List Nat) (ks : List (Nat × Nat)) (k : Nat × Nat) : Option (Nat × Nat) :=
  if k.1 = 0 then none
  else match tableAt pages ks k, tableAt pages ks (k.1 - 1, k.2 / 512) with
    | some t, some p => some (p + 8 * (k.2 % 512), t + 3)
    | _, _ => none

/-- Every valid entry of the tables of some leaves, with its address. -/
def tableEntries (pages : List Nat) (ls : List Leaf) : List (Nat × Nat) :=
  (tableKeys ls).filterMap (linkEntry pages (tableKeys ls)) ++ ls.flatMap (leafEntries pages (tableKeys ls))

/-- The entries to rewrite: those that are no more become invalid, and those that are new are written. -/
def tableChanges (old new : List (Nat × Nat)) : List (Nat × Nat) :=
  (old.filter (fun p => !new.any (fun q => q.1 == p.1))).map (fun p => (p.1, 0)) ++ new.filter (fun p => !old.contains p)

def putEntries (ps : List (Nat × Nat)) (s : State) : State :=
  ps.foldl (fun s p => s.upMem (fun m => { m with dram := m.dram.write p.1 (leBytes 8 p.2) })) s

/-- Pyotos rewrites a slice's tables, through partition 0 and under LABEL 6 (R271, Table 9-7). -/
def writeTables (old new : List (Nat × Nat)) (s : State) : State :=
  memAccess (putEntries (tableChanges old new) s) 0x80 0 true .pyotos ((tableChanges old new).map (fun p => (p.1, 8, true)))

/-- The leaves of an enclave's own half: its pages in order, the image without W (R363, R378). -/
def enclaveLeaves (x : Enclave) : List Leaf := x.pages.zipIdx.map (fun p =>
  { va := 0x800000000000 + 65536 * p.2, pa := 65536 * p.1, size := 65536, w := decide (x.image ≤ 65536 * p.2), x := true, noAlloc := false, host := false })

/-- The leaves of slice n become `ls`, in tables in `pages`. -/
def setLeaves (s : State) (n : SliceId) (ls : List Leaf) (pages : List Nat) : State :=
  let x := s.slice n
  writeTables (tableEntries x.tables x.maps) (tableEntries pages ls) (s.upSlice n (fun x => { x with maps := ls, tables := pages }))

/-- An enclave becomes `x`, its tables with it. -/
def setEnclave (s : State) (e : Nat) (x : Enclave) : State :=
  let old := match tget none s.sec.enclaves e with
    | some y => tableEntries y.tables (enclaveLeaves y)
    | none => []
  putEntries (tableChanges old (tableEntries x.tables (enclaveLeaves x))) (s.upSec (fun y => { y with enclaves := tset none y.enclaves e (some x) }))

/-- The entries of all five units for some leaves of slice n go, and what their walk caches hold of its tables
(R269). -/
def invalidate (s : State) (n : SliceId) (gone : Nat → Bool) : State := s.upMem (fun m => { m with
  tlb := m.tlb.map (fun p => (p.1, p.2.filter (fun e => !(e.slice == n && gone e.va))))
  walks := m.walks.map (fun p => (p.1, p.2.filter (fun e => e.slice ≠ n))) })

/-- The addresses of the entries that a walk for `va` reads. -/
def walkAddrs (pages : List Nat) (ls : List Leaf) (va : Nat) : List Nat :=
  ([0, 1, 2, 3].filterMap (fun k => (tableAt pages (tableKeys ls) (k, va / 2 ^ (48 - 9 * k))).map (· + 8 * (va / 2 ^ (39 - 9 * k) % 512))))

/-! ### Translation (R267, R268) -/

/-- The leaf that maps a virtual address. -/
def leafOf (ls : List Leaf) (va : Nat) : Option Leaf :=
  ls.find? (fun l => decide (l.va ≤ va) && decide (va < l.va + l.size))

/-- Where an address leads: a device physical address, or host memory. -/
inductive Place where
  | dram (a : Nat)
  | host (a : Nat)
  deriving DecidableEq, Repr

/-- What an access needs beyond reading. -/
inductive Need where
  | read
  | write
  | fetch
  deriving DecidableEq, Repr

/-- The first address of an enclave's own half (R378, R380). -/
def enclaveBase : Nat := 0x800000000000

/-- Translation through an enclave's tables: its pages in order, the image without W (R363, R378). -/
def enclaveTranslate (s : State) (e : BitVec 5) (k : Need) (va : Nat) : Option Place :=
  match tget none s.sec.enclaves e.toNat with
  | none => none
  | some x =>
    let off := va - enclaveBase
    match x.pages[off / 65536]? with
    | none => none
    | some p =>
      if k = .write ∧ off < x.image then none
      else if allowed (.enclave e x.host) (ownerOf s p) then some (.dram (65536 * p + off % 65536)) else none

/-- The tables that serve an access, and their leaves: the slice's, or those of an enclave's own half. -/
def walkOf (s : State) (n : SliceId) (a : Actor) (va : Nat) : List Nat × List Leaf := match a with
  | .enclave e _ =>
    if enclaveBase ≤ va then match tget none s.sec.enclaves e.toNat with
      | some x => (x.tables, enclaveLeaves x)
      | none => ([], [])
    else ((s.slice n).tables, (s.slice n).maps)
  | _ => ((s.slice n).tables, (s.slice n).maps)

/-- The first entry of a walk whose granule fails its check: its address (log entry 120). -/
def walkBad (s : State) (n : SliceId) (a : Actor) (va : Nat) : Option Nat :=
  if s.mem.dram.syn.isEmpty then none
  else (walkAddrs (walkOf s n a va).1 (walkOf s n a va).2 va).find? (fun g => s.mem.dram.synAt g ≠ 0)

/-- The owner pages a leaf reaches. -/
def leafPages (l : Leaf) : List Nat :=
  if l.host then [] else (List.range (max 1 (l.size / 65536))).map (l.pa / 65536 + ·)

/-- Translation of one address for slice n acting as `a`: `none` is a fault or a denial (R268, R378). Without its floor
no die reaches memory (Table 1-2). -/
def translate (s : State) (n : SliceId) (a : Actor) (k : Need) (va : Nat) : Option Place :=
  let host : Option Place := match leafOf (s.slice n).maps va with
    | none => none
    | some l =>
      if (k = .write ∧ ¬ l.w) ∨ (k = .fetch ∧ ¬ l.x) then none
      else if l.host then some (.host (l.pa + (va - l.va)))
      else
        if leafPages l |>.all (fun p => allowed a (ownerOf s p)) then some (.dram (l.pa + (va - l.va))) else none
  if s.fab.floorLost ∨ (walkBad s n a va).isSome then none
  else match a with
  | .enclave e _ =>
    if enclaveBase ≤ va then enclaveTranslate s e k va
    else match host with
      | some (.host _) => none
      | r => r
  | _ => host

/-- A range cut at granule boundaries: (address, length) pairs. -/
def chunks : Nat → Nat → Nat → List (Nat × Nat)
  | 0, _, _ => []
  | fuel + 1, a, len =>
    if len = 0 then []
    else
      let k := min len (64 - a % 64)
      (a, k) :: chunks fuel (a + k) (len - k)

/-- Enough steps to cut a range of `len` bytes. -/
def chunkFuel (len : Nat) : Nat := len / 64 + 2

/-- Is the whole range mapped and reachable so? -/
def reachable (s : State) (n : SliceId) (a : Actor) (k : Need) (va len : Nat) : Bool :=
  (chunks (chunkFuel len) va len).all (fun c => (translate s n a k c.1).isSome)

/-- The first address of a range that is not reachable. -/
def firstUnreachable (s : State) (n : SliceId) (a : Actor) (k : Need) (va len : Nat) : Option Nat :=
  ((chunks (chunkFuel len) va len).find? (fun c => (translate s n a k c.1).isNone)).map (·.1)

/-- A host byte as the device knows it. -/
def hostByteAt (s : State) (a : Nat) : Byte := (tget none s.mem.hostMem a).getD (Config.hostByte a)

/-- The link carries requests (R342, R343). -/
def linkOk (s : State) : Bool := s.host.linkUp && !s.host.d3hot

/-- How a read of slice memory ends. -/
inductive ReadRes where
  | ok (bs : Bytes)
  | fault (va : Nat)
  | check (va : Nat) (poisoned : Bool)
  deriving DecidableEq, Repr

/-- One granule's part of a read; without the link a read of host memory ends with an error (R84, R342, R343). -/
def readChunk (s : State) (n : SliceId) (a : Actor) (k : Need) (va len : Nat) : ReadRes :=
  match translate s n a k va with
  | none => .fault va
  | some (.host h) => if linkOk s then .ok ((List.range len).map (fun i => hostByteAt s (h + i))) else .fault va
  | some (.dram d) =>
    if s.mem.dram.synAt d = 0 then .ok (s.mem.dram.read d len) else .check va (s.mem.dram.synAt d == 0xFFFF)

def readChunks (s : State) (n : SliceId) (a : Actor) (k : Need) : List (Nat × Nat) → ReadRes
  | [] => .ok []
  | (va, len) :: cs =>
    match readChunk s n a k va len with
    | .ok bs => match readChunks s n a k cs with
      | .ok rest => .ok (bs ++ rest)
      | e => e
    | e => e

/-- A read of slice memory: the bytes, the first address that faults, or the first that fails its check. -/
def readVa (s : State) (n : SliceId) (a : Actor) (k : Need) (va len : Nat) : ReadRes :=
  readChunks s n a k (chunks (chunkFuel len) va len)

/-- The bytes of a range as they stand, checks or no checks, for a master that carries them on unchanged (R16). -/
def carriedBytes (s : State) (n : SliceId) (a : Actor) (va len : Nat) : Option Bytes :=
  ((chunks (chunkFuel len) va len).mapM (fun (c : Nat × Nat) => match translate s n a .read c.1 with
    | none => none
    | some (.host h) => if linkOk s then some ((List.range c.2).map (fun i => hostByteAt s (h + i))) else none
    | some (.dram d) => some (s.mem.dram.read d c.2))).map List.flatten

/-- The offsets of a range whose granules carry a check that fails. -/
def carriedBad (s : State) (n : SliceId) (a : Actor) (va len : Nat) : List Nat :=
  (chunks (chunkFuel len) va len).filterMap (fun c => match translate s n a .read c.1 with
    | some (.dram d) => if s.mem.dram.synAt d = 0 then none else some (c.1 - va)
    | _ => none)

/-- Bytes placed in host memory. -/
def pokeHost (s : State) (a : Nat) (bs : Bytes) : State :=
  s.upMem (fun m => { m with hostMem := bs.zipIdx.foldl (fun t p => tset none t (a + p.2) (some p.1)) m.hostMem })

/-- A posted data write to host memory (R324, R342), one TLP for each granule (log entry 125): lost while the link is down, and
counted from a loss on. -/
def hostWrite (s : State) (n : SliceId) (a : Nat) (bs : Bytes) (poisoned : Bool) : State :=
  if linkOk s then
    (pokeHost s a bs).emit (.dataWrite (s.slice n).pasid a bs poisoned)
  else s.upSlice n (fun sl => if sl.recovering then { sl with lossWrites := sl.lossWrites + 1 } else sl)

def writeChunk (n : SliceId) (a : Actor) (s : State) (c : Nat × Bytes) : State :=
  match translate s n a .write c.1 with
  | some (.dram d) => s.upMem (fun m => { m with dram := m.dram.write d c.2 })
  | some (.host h) => hostWrite s n h c.2 false
  | none => s

/-- The bytes of a write cut at granule boundaries. -/
def chunkBytes (va : Nat) (bs : Bytes) : List (Nat × Bytes) :=
  (chunks (chunkFuel bs.length) va bs.length).map (fun c => (c.1, (bs.drop (c.1 - va)).take c.2))

/-- A write of slice memory whose granules at some offsets fail their check where they leave the device: those that go to
host memory are sent poisoned (R70); the rest of the range is written as any other. -/
def writeExitChunk (n : SliceId) (a : Actor) (va : Nat) (bad : List Nat) (s : State) (c : Nat × Bytes) : State :=
  match translate s n a .write c.1 with
  | some (.host h) => hostWrite s n h c.2 (bad.any (fun o => decide (o < c.1 + c.2.length - va) && decide (c.1 - va < o + 64)))
  | _ => writeChunk n a s c

/-- A write of slice memory; parts that do not translate are not written. -/
def writeVa (s : State) (n : SliceId) (a : Actor) (va : Nat) (bs : Bytes) : State :=
  (chunkBytes va bs).foldl (writeChunk n a) s

/-! ### Safety events (R396) -/

/-- A mechanism reports an event to an island. -/
def raise (s : State) (i : IslandId) (e : SafetyEvent) : State :=
  s.upSaf (fun f => { f with raised := f.raised ++ [(i, e)] })

def raiseCode (s : State) (i : IslandId) (c : Byte) : State := raise s i { code := c }

def raiseUnit (s : State) (c : Byte) (u : UnitId) : State := raise s .a { code := c, unit := some u }

/-! ### Interrupts and notices (R337 to R341) -/

/-- MSI-X vector v: sent, or left pending while it or the function is masked (R339); none is sent while MSI-X is not enabled
(log entry 125). -/
def sendMsix (s : State) (v : Nat) : State :=
  if ¬ s.host.cfg.msixEnable then s
  else if s.host.cfg.msixMask ∨ tget true s.host.msixMasked v then s.upHost (fun h => { h with msixPending := tset false h.msixPending v true })
  else if linkOk s then
    let s := { s with out := .msix v :: s.out }
    s.upHost (fun h => { h with
      prefetchDiscard := h.prefetchDiscard + BitVec.ofNat 32 ((h.prefetched.map (fun p => (granules p.off p.len).length)).foldl (· + ·) 0),
      prefetched := [] })
  else s

/-- Prefetched data is discarded when an entry or message is sent (R330). -/
def dropPrefetch (s : State) : State :=
  s.upHost (fun h => { h with
    prefetchDiscard := h.prefetchDiscard + BitVec.ofNat 32 ((h.prefetched.map (fun p => (granules p.off p.len).length)).foldl (· + ·) 0),
    prefetched := [] })

/-- The interrupt of an entry on offset v of slice n, coalesced or not (R339, Table 11-16). -/
def interrupt (s : State) (n : SliceId) (v : Nat) : State :=
  let sl := s.slice n
  if v ≥ 2 ∨ sl.page.coalesceUs = 0 then sendMsix s (16 * n.toNat + v)
  else
    let due := s.now + 1000 * sl.page.coalesceUs.toNat
    s.upSlice n (fun sl =>
      if v = 0 then { sl with timer0 := sl.timer0 <|> some due } else { sl with timer1 := sl.timer1 <|> some due })

/-- Entries of a ring of 2^L. -/
def ringSize (l : BitVec 5) : Nat := 2 ^ l.toNat

/-- PHASE of entry i: 1 on the first pass (R337). -/
def phaseOf (tail : Word) (l : BitVec 5) : Bool := tail.toNat / ringSize l % 2 == 0

/-- Room in the notice ring (R340). -/
def ntcRoom (p : Page) : Bool := p.enable && decide ((p.ntcTail - p.ntcHead).toNat < ringSize p.ntcLog2)

/-- The place of entry i of a ring in host memory. -/
def entryAt (base : DWord) (tail : Word) (l : BitVec 5) : Nat := base.toNat + 32 * (tail.toNat % ringSize l)

/-- A notice entry's bytes (Table 11-15). -/
def noticeBytes (e : Notice) (phase : Bool) : Bytes :=
  leBytes 2 e.code.toNat ++ [BitVec.ofNat 8 (2 * e.vec.toNat + (if phase then 1 else 0)), BitVec.ofNat 8 e.slice.toNat]
    ++ leBytes 4 e.seq.toNat ++ leBytes 8 e.cue.toNat ++ leBytes 16 e.payload.toNat

/-- A notice entry written and its tail moved (R324, R337). -/
def writeNotice (s : State) (n : SliceId) (e : Notice) : State :=
  let p := (s.slice n).page
  let ph := phaseOf p.ntcTail p.ntcLog2
  let s := pokeHost s (entryAt p.ntcBase p.ntcTail p.ntcLog2) (noticeBytes e ph)
  let s := dropPrefetch ({ s with out := .noticeEntry n (s.slice n).pasid e ph :: s.out })
  let s := s.upPage n (fun p => { p with ntcTail := p.ntcTail + 1 })
  interrupt s n e.vec.toNat

/-- How many entries of one slice number (or of Pyotos itself) the log keeps (R361). -/
def logDepth : Nat := 65536

/-- One entry more for a slice number: the oldest of that number goes once there are 65,536 (R361). -/
def logPush (own : Bool) (e : Notice) (s : State) : State :=
  let same (x : LogEntry) := x.own == own && (own || x.notice.slice == e.slice)
  let full := logDepth ≤ (s.log.filter same).length
  let kept := if full then s.log.eraseP same else s.log
  { s with log := kept ++ [{ idx := s.logNext, notice := { e with seq := BitVec.ofNat 32 s.logNext }, own := own }],
           logNext := s.logNext + 1 }

/-- A notice generated for slice n (R337, R338, R340): logged, numbered, then delivered, staged or lost. -/
def notify (s : State) (n : SliceId) (code : Half) (v : BitVec 3) (payload : BitVec 128) : State :=
  let sl := s.slice n
  let e : Notice := { code := code, vec := v, slice := n, seq := sl.seq, cue := s.cue.count, payload := payload }
  let s := logPush false e s
  if ¬ sl.valid then s
  else
    let s := s.upSlice n (fun x => { x with seq := x.seq + 1 })
    if sl.staged = [] ∧ ntcRoom sl.page ∧ linkOk s then writeNotice s n e
    else if sl.staged.length < 64 then s.upSlice n (fun x => { x with staged := x.staged ++ [e] })
    else s.upSlice n (fun x => { x with
      lostPending := x.lostPending + 1
      page := { x.page with ntcLost := x.page.ntcLost + 1 }
      diag := tup 0 x.diag 5 (· + 1) })

/-- A payload from (offset, size, value) fields (Table 12-12). -/
def payload (fs : List (Nat × Nat × Nat)) : BitVec 128 := fs.foldl (fun w f => setFld w f.1 f.2.1 f.2.2) 0

/-- A side-band event as a notice to slice 0 (R341, code 0x0014). -/
def sideBand (s : State) (ev value : Nat) : State := notify s 0 0x14 3 (payload [(0, 1, ev), (4, 4, value)])

/-- The audit and re-initialisation notice 0x0010. -/
def conservationNotice (s : State) (pool ev idx expected found : Nat) : State :=
  notify s 0 0x10 3 (payload [(0, 1, pool), (1, 1, ev), (4, 4, idx), (8, 4, expected), (12, 4, found)])

/-! ### Completions (R319, R347) -/

def cplRoom (p : Page) : Bool := decide ((p.cplTail - p.cplHead).toNat < ringSize p.cplLog2)

/-- A completion entry's bytes (Table 12-3). -/
def cplBytes (e : Cpl) (phase : Bool) : Bytes :=
  leBytes 2 e.status.toNat ++ [if phase then 1 else 0, 0] ++ leBytes 4 e.tag.toNat ++ leBytes 4 e.pos.toNat
    ++ leBytes 2 e.op.toNat ++ leBytes 2 e.detail.toNat ++ leBytes 16 e.result.toNat

/-- A completion entry written and its tail moved (R319, R347). -/
def writeCpl (s : State) (n : SliceId) (e : Cpl) : State :=
  let p := (s.slice n).page
  let ph := phaseOf p.cplTail p.cplLog2
  let s := pokeHost s (entryAt p.cplBase p.cplTail p.cplLog2) (cplBytes e ph)
  let s := dropPrefetch ({ s with out := .cplEntry n (s.slice n).pasid e ph :: s.out })
  let s := s.upPage n (fun p => { p with cplTail := p.cplTail + 1 })
  interrupt s n 0

/-- A completion posted: discarded while the rings are off (R320, counted during a link loss, R342),
held behind a full ring (R319), or written. -/
def postCpl (s : State) (n : SliceId) (e : Cpl) : State :=
  let sl := s.slice n
  if ¬ sl.valid then s
  else if ¬ sl.page.enable then
    if sl.recovering then s.upSlice n (fun x => { x with lossCpls := x.lossCpls + 1 }) else s
  else if sl.held ≠ [] ∨ ¬ cplRoom sl.page then s.upSlice n (fun x => { x with held := x.held ++ [e] })
  else writeCpl s n e

/-- A command in flight completes. -/
def complete (s : State) (n : SliceId) (f : Flight) (status detail : Nat) (result : BitVec 128) : State :=
  let s := s.upSlice n (fun x => { x with flight := x.flight.filter (fun g => ¬ (g.pos = f.pos)) })
  postCpl s n { status := BitVec.ofNat 16 status, tag := f.tag, pos := f.pos, op := f.op,
                detail := BitVec.ofNat 16 detail, result := result }

/-! ### Master identifiers (R414) -/

/-- The master identifier of a unit, and of a channel's endpoint (R332, R414, Table 14-6). -/
def midUnit : UnitId → Byte
  | .core c => BitVec.ofNat 8 c.toNat
  | .ae a => BitVec.ofNat 8 (0x40 + a.toNat)
  | .rfe r => BitVec.ofNat 8 (0x50 + r.toNat)
def midEnd (code : Nat) : Byte := [0, 0x8D, 0x80, 0x81, 0x82, 0x83, 0x84].getD code 0

/-- Masters without a unit (Table 14-6). -/
def midPageEngine : Byte := 0x60
def midStagehand : Byte := 0x80
def midSecurity : Byte := 0x81
def midDisplay : Byte := 0x88
def midCamera : Byte := 0x89
def midJpeg : Byte := 0x8A
def midTokenizer : Byte := 0x8B
def midDice : Byte := 0x8C
def midHost : Byte := 0x8D
def midTwin : Byte := 0x8E
def midGateway : Byte := 0x85
def midSwitch : Byte := 0x86
def midTimeUnit : Byte := 0x87
def midControl : Byte := 0x84

/-! ### Check failures (R66) -/

/-- The payload of a CHECK_FAILURE notice (Table 12-12); an enclave job shows no descriptor TAG. -/
def checkPayload (s : State) (u : UnitId) (tag : Word) (desc row outcome : Nat) : BitVec 128 :=
  let shown := match (s.unit u).job.bind (fun j => s.jobs.find? (fun x => x.id == j)) with
    | some j => if j.enclave.isSome then 0 else desc
    | none => desc
  payload [(0, 2, UnitId.code u), (2, 1, row), (3, 1, outcome), (4, 4, tag.toNat), (8, 2, shown)]

/-- The three reports of R66: the event, the count against the unit, and the CHECK_FAILURE notice.
`row` is the row of Table 2-7 from 1; `lasting` is false for a retry that passed. -/
def reportCheck (s : State) (u : UnitId) (n : SliceId) (tag : Word) (desc row : Nat) (lasting : Bool) : State :=
  let s := s.upUnit u (fun x => { x with checkEvents := x.checkEvents + 1 })
  let s := if lasting then s else raiseUnit s 0x03 u
  let s := s.upSlice n (fun x => { x with diag := tup 0 x.diag (if lasting then 4 else 3) (· + 1) })
  notify s n 0x03 3 (checkPayload s u tag desc row (if lasting then 1 else 0))

/-- A merge onto a granule that failed and was stored poisoned (R61): the job goes on, so that OUTCOME of its notice
is a value the spec does not state. -/
def reportMerge (s : State) (u : UnitId) (j : Job) (row : Nat) : State :=
  let s := s.upUnit u (fun x => { x with checkEvents := x.checkEvents + 1 })
  let out := (Config.freeByte s.free 0).toNat
  let s := raiseUnit { s with free := s.free + 1 } 0x00 u
  notify s j.slice 0x03 3 (checkPayload s u j.tag (s.unit u).seq.tag.toNat row out)

/-- A check failure counted against its master and reported to an island (R66). -/
def countCheck (s : State) (i : IslandId) (mid : Byte) : State :=
  raiseCode (s.upSaf (fun f => { f with checksBy := tup 0 f.checksBy mid.toNat (· + 1) })) i 0x00

/-- A lasting check failure of work that belongs to no job and no unit that R358 codes: UNIT of its notice is a value the
spec does not state (R66). -/
def reportCheckOf (s : State) (i : IslandId) (mid : Byte) (n : SliceId) (poisoned : Bool) : State :=
  let unit := leNat ((List.range 2).map (Config.freeByte s.free))
  let s := countCheck { s with free := s.free + 1 } i mid
  notify s n 0x03 3 (payload [(0, 2, unit), (2, 1, if poisoned then 6 else 2), (3, 1, 1)])

/-- A check of such work that failed once and passed when it was made again (R66, R67). -/
def passedCheckOf (s : State) (i : IslandId) (mid : Byte) (n : SliceId) : State :=
  let unit := leNat ((List.range 2).map (Config.freeByte s.free))
  notify (countCheck { s with free := s.free + 1 } i mid) n 0x03 3 (payload [(0, 2, unit), (2, 1, 2)])

/-- The checks of the granules of slice memory that a write covers in part and that do not pass (R60, R61): each merged
granule is stored poisoned by the write itself. -/
def mergesBad (s : State) (n : SliceId) (a : Actor) (va len : Nat) : List Half :=
  ((chunks (chunkFuel len) va len).filter (fun c => c.2 < 64)).filterMap (fun c => match translate s n a .write c.1 with
    | some (.dram d) => if s.mem.dram.synAt d = 0 then none else some (s.mem.dram.synAt d)
    | _ => none)

/-- A merge of work that belongs to no job, reported with the floor that made it: UNIT and OUTCOME of the notice are values
the spec does not state (R61, R66). -/
def reportMergeOf (s : State) (mid : Byte) (n : SliceId) (syn : Half) : State :=
  let f (i : Nat) : Nat := (Config.freeByte s.free i).toNat
  notify (countCheck { s with free := s.free + 1 } .a mid) n 0x03 3
    (payload [(0, 2, f 0 + 256 * f 1), (2, 1, if syn = 0xFFFF then 6 else 2), (3, 1, f 2)])

/-- The port of the Wings (R268, log entry 120). -/
def portW : Nat := 4

/-- The page that an address leads to has an owner entry whose ECHK fails, or TYPE 7 (R264). -/
def entryBroken (s : State) (n : SliceId) (a : Actor) (va : Nat) : Bool := match leafOf (walkOf s n a va).2 va with
  | some l => !l.host && (leafPages l).any (fun p => !(ownerOf s p).echkOk || (ownerOf s p).typ == .invalid)
  | none => false

/-- An access through translation unit `port` that meets such an entry is reported to island A (R264); one whose walk meets
a table granule that fails its check is reported as a check failure (R66, R268). -/
def meetEntry (s : State) (port : Nat) (n : SliceId) (a : Actor) (va : Nat) : State := match walkBad s n a va with
  | some g => reportCheckOf s .a (BitVec.ofNat 8 (0x58 + port)) n (s.mem.dram.synAt g == 0xFFFF)
  | none => if entryBroken s n a va then raiseCode s .a 0x0C else s

/-- What the accesses of a range meet where it cannot be reached (R264). -/
def meetRange (s : State) (n : SliceId) (a : Actor) (k : Need) (va len : Nat) : State := match firstUnreachable s n a k va len with
  | some x => meetEntry s portW n a x
  | none => s

/-- The parts of DRAM that a range of virtual addresses leads to, each with whether a miss allocates: neither the request
nor the leaf forbids it (R270). -/
def vaParts (s : State) (n : SliceId) (a : Actor) (k : Need) (va len : Nat) (noAlloc : Bool) : List (Nat × Nat × Bool) :=
  (chunks (chunkFuel len) va len).filterMap (fun c => match translate s n a k c.1 with
    | some (.dram d) => some (d, c.2, !noAlloc && !(((leafOf (s.slice n).maps c.1).map (·.noAlloc)).getD false))
    | _ => none)

/-- Pyotos's access to a slice's memory, through partition 0 and under LABEL 6 (R271, Table 9-7). -/
def pyotosAccess (s : State) (n : SliceId) (a : Actor) (write : Bool) (va len : Nat) : State :=
  memAccess s midStagehand 0 write .pyotos (vaParts s n a (if write then .write else .read) va len false)

/-- A write of slice memory by a master that works for no job: what cannot be reached is not written, and an owner entry or
a table that fails there is reported (R264). Pyotos's writes draw on its LABEL. -/
def writeBy (s : State) (mid : Byte) (n : SliceId) (a : Actor) (va : Nat) (bs : Bytes) : State :=
  let t := meetRange s n a .write va bs.length
  let t := writeVa ((mergesBad s n a va bs.length).foldl (fun s x => reportMergeOf s mid n x) t) n a va bs
  if mid = midStagehand then pyotosAccess t n a true va bs.length else t

/-- A write whose poisoned parts are reported to the slice (R66, R70). -/
def writeExit (s : State) (mid : Byte) (n : SliceId) (a : Actor) (va : Nat) (bs : Bytes) (bad : List Nat) : State :=
  let s := (chunkBytes va bs).foldl (writeExitChunk n a va bad) s
  bad.foldl (fun s _ => reportCheckOf s .a mid n false) s

/-! ### Jobs -/

def State.job (s : State) (j : Nat) : Option Job := s.jobs.find? (fun x => x.id == j)
def State.upJob (s : State) (j : Nat) (f : Job → Job) : State :=
  { s with jobs := s.jobs.map (fun x => if x.id = j then f x else x) }

/-- A job as one of its units works for it: under the ENC of the unit's SEC_UNIT_ENC (R364, R365). -/
def stamped (s : State) (u : UnitId) (j : Job) : Job :=
  let e := tget 0 s.sec.unitEnc (UnitId.code u)
  { j with enclave := if e = 0 then none else some e }

/-- The job whose partition holds the unit, as the unit works for it. -/
def jobOf (s : State) (u : UnitId) : Option Job := match (s.unit u).job with
  | none => none
  | some j => (s.job j).map (stamped s u)

/-- Who a unit acts for: its job's slice, or its enclave hosted there (Table 9-4). -/
def actorOf (j : Job) : Actor := match j.enclave with
  | some e => .enclave e j.slice
  | none => .slice j.slice

/-- A record's STATE and REASON set for one entry. -/
def setEntry (es : List Entry) (k : Nat) (f : Entry → Entry) : List Entry :=
  es.zipIdx.map (fun p => if p.2 = k then f p.1 else p.1)

/-- A record of a unit off its core rewritten as terminated (R524); `saved` marks the rewrite. -/
def endEntry (reason : Byte) (e : Entry) : Entry := { e with state := 2, reason := reason, saved := true }

/-- The safety event of a class 2 or 3 job, raised once (R68, R245), with its notices. -/
def jobSafety (s : State) (j : Job) (code : Byte) (cause : Nat) (u : Option UnitId) : State :=
  if j.e.cls.toNat < 2 ∨ j.safetyRaised then s
  else
    let s := raise s .a { code := code, unit := u }
    let p := payload [(0, 1, j.e.cls.toNat), (1, 1, cause), (4, 4, j.tag.toNat)]
    let s := notify s j.slice 0x04 3 p
    let s := if j.slice = 0 then s else notify s 0 0x04 3 p
    s.upJob j.id (fun x => { x with safetyRaised := true })

/-- A unit asked to stop: its record will show `reason` (R106, R524). A unit already saved off its core
has its record rewritten at once. DESIGN CHOICE: where a second termination reaches a unit before its record is written, the
later REASON is the one recorded (log entry 118). -/
def stopUnit (reason : Byte) (k : Nat) (s : State) (e : Entry) (jid : Nat) : State :=
  if e.state = 1 ∨ e.state = 2 then s
  else match e.unit with
    | some u =>
      if (s.unit u).job = some jid then s.upUnit u (fun x => { x with phase := .terminating reason })
      else s.upJob jid (fun j => { j with entries := setEntry j.entries k (endEntry reason) })
    | none => s.upJob jid (fun j => { j with entries := setEntry j.entries k (endEntry reason) })

/-! ### Waits on sync counters (R250 to R256) -/

/-- One end of a twin channel changes (R307). -/
def State.upChannel (s : State) (ch : Nat) (f : TwinEnd → TwinEnd) : State :=
  s.upFab (fun x => { x with channels := tset none x.channels ch ((tget none x.channels ch).map f) })

/-- A wait is satisfied: its sequencer goes on, the SYNC_WAIT done (R76), or the twin engine may copy its channel (R307). -/
def releaseWait (s : State) (w : SyncWait) : State := match w.who with
  | .unit u _ => s.upSeq u (fun q => if q.wait = some w then { q with wait := none, arrived := false, done := q.done + 1 } else q)
  | .twin ch => s.upChannel ch (fun e => { e with triggered := true })

/-- The MODE 1 waits that are released from the oldest while the value allows: the value left and the
waits kept. MODE 0 waits pass over (R252). -/
def releaseMode1 : Nat → List SyncWait → Nat × List SyncWait × List SyncWait
  | v, [] => (v, [], [])
  | v, w :: ws =>
    if ¬ w.mode1 then let r := releaseMode1 v ws; (r.1, w :: r.2.1, r.2.2)
    else if w.value.toNat ≤ v then let r := releaseMode1 (v - w.value.toNat) ws; (r.1, r.2.1, w :: r.2.2)
    else (v, w :: ws, [])

/-- After a change of the value: every MODE 0 wait whose condition holds, then MODE 1 waits from the
oldest (R252). -/
def releaseWaits (s : State) (c : CtrId) : State :=
  let x := s.ctr c
  let free0 := x.waits.filter (fun w => ¬ w.mode1 ∧ w.value ≤ x.value)
  let rest := x.waits.filter (fun w => ¬ (¬ w.mode1 ∧ w.value ≤ x.value))
  let r := releaseMode1 x.value.toNat rest
  let s := s.upCtr c (fun x => { x with value := BitVec.ofNat 32 r.1, waits := r.2.1, consumed := x.consumed + (x.value.toNat - r.1) })
  (free0 ++ r.2.2).foldl releaseWait s

/-- The unit waits, for any job. -/
def Waiter.isUnit (u : UnitId) : Waiter → Bool
  | .unit v _ => v == u
  | .twin _ => false

/-- The waits of a unit, or of a channel, leave a counter without effect on its value (R255); a wait that is the oldest now, and
whose condition holds, is released (R252). -/
def leaveCtr (s : State) (c : CtrId) (p : Waiter → Bool) : State :=
  releaseWaits (s.upCtr c (fun x => { x with waits := x.waits.filter (fun w => !p w.who) })) c

/-- A unit waits for the job. -/
def Waiter.forJob (jid : Nat) : Waiter → Bool
  | .unit _ j => j == jid
  | .twin _ => false

/-- The pending waits of a job are all removed without effect on the values (R255); then the waits of others that are the
oldest now, and whose conditions hold, are released (R252). -/
def dropWaits (s : State) (jid : Nat) : State :=
  let cs : List CtrId := (s.ctrs.filter (fun p => p.2.waits.any (fun w => w.who.forJob jid))).map (fun p => BitVec.ofNat 13 p.1)
  let s := cs.foldl (fun s c => s.upCtr c (fun x => { x with waits := x.waits.filter (fun w => !w.who.forJob jid) })) s
  cs.foldl releaseWaits s

/-! ### The end of a job (R524) -/

/-- Every unit of a job that has not written STATE 1 is terminated with `reason`, but entry `own`,
which records `ownReason` (R524); the job's pending waits are removed (R255). -/
def terminateJob (s : State) (jid : Nat) (own : Option Nat) (ownReason reason : Byte) : State :=
  match s.job jid with
  | none => s
  | some j =>
    let s := j.entries.zipIdx.foldl
      (fun s p => stopUnit (if some p.2 = own then ownReason else reason) p.2 s p.1 jid) s
    dropWaits (s.upJob jid (fun j => { j with phase := .ending })) jid

/-- A unit's own failure terminates its job (R524). -/
def failUnit (s : State) (u : UnitId) (reason : Byte) : State :=
  match (s.unit u).job with
  | none => s
  | some j => terminateJob s j (some (s.unit u).entry) reason 0x0B

/-- A check failure that terminates the job (Table 2-7, R66, R68). -/
def failCheck (s : State) (u : UnitId) (row : Nat) (poisoned : Bool) : State :=
  match jobOf s u with
  | none => s
  | some j =>
    let s := reportCheck s u j.slice j.tag (s.unit u).seq.tag.toNat row true
    let s := if j.e.cls.toNat < 2 then raiseUnit s 0x00 u else jobSafety s j 0x02 1 (some u)
    failUnit s u (if poisoned then 0x03 else 0x02)

/-- A check failure whose retry passed (Table 2-7): counted, reported, the unit's RETRIES increments. -/
def transientCheck (s : State) (u : UnitId) (row : Nat) : State :=
  match jobOf s u with
  | none => s
  | some j =>
    let s := reportCheck s u j.slice j.tag (s.unit u).seq.tag.toNat row false
    s.upSeq u (fun q => { q with retries := q.retries + 1 })

/-- The unit is at work: it holds a running job and nothing has stopped it. -/
def working (s : State) (u : UnitId) : Bool := (s.unit u).phase == .running && (jobOf s u).isSome

/-! ### Quotas (R273, R274) -/

/-- Translation tables of a slice: the root and one table per distinct prefix of its leaves. -/
def tableCount (ls : List Leaf) : Nat := (tableKeys ls).length

/-- PYOTOS bytes of a slice's tables: 16 tables to a page (log entry 21). -/
def tableBytes (ls : List Leaf) : Nat := (tableCount ls + 15) / 16 * 65536

/-- SLICE pages of slice n, and ENCLAVE pages it hosts (R377). -/
def slicePages (s : State) (n : SliceId) : Nat :=
  (s.mem.owner.filter (fun p => match p.2 with
    | some o => (o.typ == .slice && o.id == n) || (o.typ == .enclave && o.host == n)
    | none => false)).length

/-- Save-area bytes of a slice's jobs (R104). -/
def saveBytes (s : State) (n : SliceId) : Nat :=
  ((s.jobs.filter (fun j => j.slice == n)).map (fun j => 65536 * j.savePages.length)).foldl (· + ·) 0

def dramUsage (s : State) (n : SliceId) : Nat :=
  65536 * slicePages s n + tableBytes (s.slice n).maps + saveBytes s n + (s.slice n).kvBytes

def ctrUsage (s : State) (n : SliceId) : Nat := (s.ctrs.filter (fun p => p.2.slice == some n)).length

/-- The usage of a row of Table 9-6 (R274); rows 2 and 5 have none. -/
def usage (s : State) (n : SliceId) (row : Nat) : Nat :=
  if row = 0 then dramUsage s n
  else if row = 1 then (s.slice n).intakeUsed
  else if row = 3 then ctrUsage s n
  else if row = 4 then (s.slice n).seqs
  else 0

/-- The range maximum of a row of Table 9-6. -/
def quotaMax (s : State) (row : Nat) : Nat :=
  if row = 0 ∨ row = 1 then dataTop s else if row = 2 then 268435456 else if row = 3 then 8192 else if row = 4 then 16384 else 942

/-- A quota: slice 0 holds every quota at its range maximum until a command sets it (R344). -/
def quotaOf (s : State) (n : SliceId) (row : Nat) : Nat :=
  (tget none (s.slice n).quota row).getD (if n = 0 then quotaMax s row else 0)

/-- An allocation of `more` fits the quota, and the row is not flagged (R273, R274). -/
def fits (s : State) (n : SliceId) (row more : Nat) : Bool :=
  decide (usage s n row + more ≤ quotaOf s n row) && !(s.slice n).overQuota.contains row

/-- A row of a slice falls back to its limit: the flag clears with the second notice (R274). -/
def unflag (n : SliceId) (s : State) (row : Nat) : State :=
  if (s.slice n).overQuota.contains row ∧ usage s n row ≤ quotaOf s n row then
    let s := s.upSlice n (fun x => { x with overQuota := x.overQuota.filter (· ≠ row) })
    notify s n 0x05 1 (payload [(0, 1, row), (1, 1, 0), (8, 8, usage s n row)])
  else s

/-- Usage has fallen: every flag that may clear does. -/
def checkQuota (s : State) (n : SliceId) : State := [0, 1, 3, 4].foldl (unflag n) s

/-- The targets of Table 14-7 that a command's access can reach and be refused. -/
inductive Guarded where
  | store (c : CoreId)
  | sync
  | channel (endA endB : Nat)
  | secure
  deriving DecidableEq, Repr

/-- A target admits a master (R415, Table 14-7), but for a debug access. -/
def admits : Guarded → Byte → Bool
  | .store c, m => (decide (m.toNat < 64) && m.toNat / 4 == c.toNat / 4) || m.toNat == 0x40 + c.toNat / 4 || m.toNat == 0x50 + c.toNat / 16
  | .sync, m => decide (m.toNat ≤ 0x53) || m == 0x80 || m == 0x8D || m == 0x8E
  | .channel a b, m => m != 0 && (m == midEnd a || m == midEnd b)
  | .secure, m => m == midSecurity

/-- A line evicted so that its granule is read from DRAM again (Table 2-7). -/
def evictLine (s : State) (a : Nat) : State := s.upMem (fun m => { m with cache := m.cache.filter (fun l => l.granule ≠ a / 64) })

/-- A commit of the masks: every line in a way that leaves a partition is written back and invalidated (R272). -/
def leaveWays (old new : Nat → Nat) (s : State) : State :=
  let gone (w : Nat) : Bool := (List.range 16).any (fun p => bitAt (old p) w && !bitAt (new p) w)
  s.upMem (fun m => { m with
    cache := m.cache.filter (fun l => !gone l.way)
    writeBacks := m.writeBacks + (m.cache.filter (fun l => gone l.way && l.dirty)).length })

/-- A leaf's walk from the deepest table that the walk cache leads to: the addresses it reads (R268). -/
def walkReads (s : State) (port : Nat) (n : SliceId) (enc : BitVec 5) (pages : List Nat) (ls : List Leaf) (l : Leaf) : List Nat :=
  let known (k : Nat × Nat) : Bool := k.1 != 0 && (tget [] s.mem.walks port).contains { slice := n, enc := enc, level := k.1, pre := k.2 }
  let first := ((leafTables l).filter known).foldl (fun m k => max m k.1) 0
  (walkAddrs pages ls l.va).drop first

/-- Translation unit `port` serves an access to a leaf: from its TLB, or by a walk through partition 0 whose reads carry the account
and LABEL of the request (R268, R271, R275, log entry 120). Entries are tagged with ENC (R378). -/
def useLeaf (port : Nat) (d : Draw) (n : SliceId) (enc : BitVec 5) (w : List Nat × List Leaf) (s : State) (l : Leaf) : State :=
  let e : TlbEntry := { slice := n, enc := enc, va := l.va, size := l.size }
  let front {α : Type} [BEq α] (x : α) (xs : List α) : List α := x :: xs.erase x
  if (tget [] s.mem.tlb port).contains e then s.upMem (fun m => { m with tlb := tup [] m.tlb port (front e) })
  else
    let s := memAccess s (BitVec.ofNat 8 (0x58 + port)) 0 false d ((walkReads s port n enc w.1 w.2 l).map (fun a => (a, 8, true)))
    s.upMem (fun m => { m with
      tlb := tup [] m.tlb port (fun es => (e :: es).take 2048)
      walks := tup [] m.walks port (fun es => (((leafTables l).filter (fun k => k.1 ≠ 0)).foldl (fun es k =>
        front { slice := n, enc := enc, level := k.1, pre := k.2 } es) es).take 256) })

/-- ENC of an access (R364). -/
def encOf : Actor → BitVec 5
  | .enclave e _ => e
  | _ => 0

/-- Translation unit `port` serves an access to a range. -/
def walkFor (s : State) (port : Nat) (d : Draw) (n : SliceId) (a : Actor) (va len : Nat) : State :=
  let w := walkOf s n a va
  ((chunks (chunkFuel len) va len).filterMap (fun c => leafOf w.2 c.1)).eraseDups.foldl (useLeaf port d n (encOf a) w) s

/-- A range of DRAM cut at granules, which a miss allocates. -/
def physParts (pa len : Nat) : List (Nat × Nat × Bool) := (chunks (chunkFuel len) pa len).map (fun c => (c.1, c.2, true))

/-- An access to a slice's memory outside any account (Table 9-7). -/
def sliceAccess (s : State) (mid : Byte) (n : SliceId) (write : Bool) (va len : Nat) : State :=
  let t := walkFor s portW (.other n) n (.slice n) va len
  memAccess t mid (partOf s (.slice n)) write (.other n) (vaParts s n (.slice n) (if write then .write else .read) va len false)

/-- A real-time master's access to a slice's memory. -/
def realTimeAccess (s : State) (mid : Byte) (cls : Nat) (n : SliceId) (write : Bool) (va len : Nat) : State :=
  let t := walkFor s portW (.realTime (rtRank cls mid)) n (.slice n) va len
  memAccess t mid (partOf s (.slice n)) write (.realTime (rtRank cls mid)) (vaParts s n (.slice n) (if write then .write else .read) va len false)

/-- The parts of a read that go to host memory leave as requests with the slice's PASID (R266). -/
def askReads (s : State) (n : SliceId) (a : Actor) (k : Need) (va len : Nat) : State :=
  ((chunks (chunkFuel len) va len).filterMap (fun c => match translate s n a k c.1 with
    | some (.host h) => some (h, c.2)
    | _ => none)).foldl (fun s p => s.emit (.hostRead (s.slice n).pasid p.1 p.2)) s

/-- A unit's access to its job's memory, drawn on the scene of the job. -/
def unitDraw (s : State) (u : UnitId) (write : Bool) (k : Need) (va len : Nat) (noAlloc : Bool) : State := match jobOf s u with
  | some j =>
    let t := walkFor s (UnitId.die u) (.scene j.scene.toNat j.label) j.slice (actorOf j) va len
    memAccess t (midUnit u) (partOf s (actorOf j)) write (.scene j.scene.toNat j.label) (vaParts s j.slice (actorOf j) k va len noAlloc)
  | none => s

/-- A unit's access to its job's memory: the host reads it asks for, and the tokens it draws. -/
def unitAccess (s : State) (u : UnitId) (write : Bool) (k : Need) (va len : Nat) (noAlloc : Bool) : State :=
  let t := match write, jobOf s u with
    | false, some j => askReads s j.slice (actorOf j) k va len
    | _, _ => s
  unitDraw t u write k va len noAlloc

/-- A unit's access to pages that a walk of its own reached. -/
def unitPhys (s : State) (u : UnitId) (write : Bool) (pa len : Nat) : State := match jobOf s u with
  | some j => memAccess s (midUnit u) (partOf s (actorOf j)) write (.scene j.scene.toNat j.label) (physParts pa len)
  | none => s

/-! ### Denied accesses (R264, R415) -/

/-- The fault that a denied physical access is: counted, and FIREWALL at island A (R264, R415). -/
def firewallA (s : State) : State := raiseCode (s.upSaf (fun f => { f with firewall := f.firewall + 1 })) .a 0x0C

/-! ### Sync counters (R250 to R257) -/

/-- The twin engine's wait of a send end on its trigger counter: MODE 1, VALUE 1 (R307). A receive end has none. -/
def armTwin (s : State) (ch : Nat) : State := match tget none s.fab.channels ch with
  | some e =>
    if e.receive || (s.ctr e.ctr).dead then s
    else releaseWaits (s.upCtr e.ctr (fun x => { x with waits := x.waits ++ [{ who := .twin ch, ctr := e.ctr, mode1 := true, value := 1 }] })) e.ctr
  | none => s

/-- The wait of a channel's end goes with it. -/
def disarmTwin (s : State) (ch : Nat) : State := match tget none s.fab.channels ch with
  | some e => leaveCtr s e.ctr (fun w => w == .twin ch)
  | none => s

/-- A copy of a channel's end is over: the twin engine waits again. -/
def copyOver (s : State) (ch : Nat) : State := armTwin (s.upChannel ch (fun e => { e with copying := false })) ch

/-- How the sources of R254 are coded in the SYNC_LIMIT notice. -/
def sourceCode : SigSource → Nat
  | .program _ _ => 0
  | .host _ => 1
  | .command _ => 2
  | .twin => 0

/-- A signal reaches its counter (R250, R254, R257, Table 9-8): counted as applied, then added or refused. -/
def applySignal (s : State) (c : CtrId) (g : Signal) : State :=
  let x := s.ctr c
  let s := s.upCtr c (fun x => { x with applied := x.applied + 1 })
  if x.dead then
    match g.src with
    | .program u j => if (s.unit u).job = some j then failUnit s u 0x10 else s
    | _ => s
  else if x.value.toNat + g.value.toNat > 0xFFFFFFFF then
    let s := s.upCtr c (fun x => { x with overflows := x.overflows + 1 })
    let s := match x.slice with
      | some n => notify s n 0x0A 1 (payload [(0, 2, c.toNat), (2, 1, sourceCode g.src)])
      | none => s
    match g.src with
    | .program u j => if (s.unit u).job = some j then failUnit s u 0x0F else s
    | _ => s
  else
    releaseWaits (s.upCtr c (fun x => { x with value := x.value + g.value, added := x.added + g.value.toNat })) c

/-- A signal is issued: it is in flight to its counter (R257). -/
def issueSignal (s : State) (c : CtrId) (g : Signal) : State :=
  s.upCtr c (fun x => { x with issued := x.issued + 1, flight := x.flight ++ [g] })

/-! ### The active sheet (R230 to R233) -/

/-- The active sheet: that of the committed bank, none before the first commit of the CUE group (R230). -/
def activeSheet (s : State) : Option Sheet := if s.cue.configured then tget none s.sheets s.cue.bank.toNat else none

def activeScenes (s : State) : List Scene := match activeSheet s with
  | some sh => sh.scenes
  | none => []

def sceneOf (s : State) (i : SceneId) : Option Scene := (activeScenes s)[i.toNat]?

/-- Nanoseconds since the last cue edge. -/
def intoCue (s : State) : Nat := s.now - s.cue.last

/-- A scene is open from START until its close, which it excludes (R232). -/
def openAt (sc : Scene) (t : Nat) : Bool := decide (sc.start ≤ t) && decide (t < sc.start + sc.duration)

def sceneOpenNow (s : State) (i : SceneId) : Bool := s.cue.running && match sceneOf s i with
  | some sc => openAt sc (intoCue s)
  | none => false

/-- Two scenes overlap in time (R232). -/
def overlap (a b : Scene) : Bool := decide (a.start < b.start + b.duration) && decide (b.start < a.start + a.duration)

/-- A fenced unit has left every partition, which it does at the first edge after its fence (R15, R248). -/
def hasLeft (s : State) (u : UnitId) : Bool := (s.unit u).fenced && s.cue.fencedSeen.contains (UnitId.code u)

/-- The replacements that some later replacement gives core c on to another scene that overlaps scene `sc` (R248). -/
def givenOn (s : State) (i : SceneId) (sc : Scene) (later : List Replacement) (c : CoreId) : Bool :=
  later.any (fun r => r.by_ == some c && r.scene != i && ((sceneOf s r.scene).map (overlap sc)).getD false)

/-- The cores that a list of replacements leaves to scene i, oldest first. -/
def receivedBy (s : State) (i : SceneId) (sc : Scene) : List Replacement → List CoreId
  | [] => []
  | r :: rs => match r.by_ with
    | some c => if r.scene = i ∧ ¬ givenOn s i sc rs c then c :: receivedBy s i sc rs else receivedBy s i sc rs
    | none => receivedBy s i sc rs

/-- The cores of scene i's partition in force: fenced ones leave it, replacements join it (R248, R249),
and a core given to another scene that overlaps it in time is gone. -/
def coresInForce (s : State) (i : SceneId) : List CoreId := match sceneOf s i with
  | none => []
  | some sc =>
    let own := ((List.range 64).filter (fun k => sc.cores.getLsbD k)).map (BitVec.ofNat 6)
    (own.filter (fun c => !givenOn s i sc s.replaced c) ++ receivedBy s i sc s.replaced).filter (fun c => !hasLeft s (.core c))

def aesInForce (s : State) (i : SceneId) : List AeId := match sceneOf s i with
  | none => []
  | some sc => (((List.range 16).filter (fun k => sc.aes.getLsbD k)).map (BitVec.ofNat 4)).filter (fun a => !hasLeft s (.ae a))

def rfesInForce (s : State) (i : SceneId) : List RfeId := match sceneOf s i with
  | none => []
  | some sc => (((List.range 4).filter (fun k => sc.rfes.getLsbD k)).map (BitVec.ofNat 2)).filter (fun r => !hasLeft s (.rfe r))

/-- A unit is fenced: its job ends with FENCED on every unit, and island A is told: of a class-3 scene's core by the event
for it, of any other core by a report without a code (R15, R235, R248, Table 14-2, log entry 57). -/
def fenceUnit (s : State) (u : UnitId) : State :=
  if (s.unit u).fenced then s
  else
    let s := s.upUnit u (fun x => { x with fenced := true })
    let s := match (s.unit u).job with
      | some j => terminateJob s j none 0x0A 0x0A
      | none => s
    match u with
    | .core c => raiseUnit s (if (activeScenes s).any (fun sc => sc.cls = 3 ∧ sc.cores.getLsbD c.toNat) then 0x05 else 0x00) u
    | _ => s

/-- The units of a Stage die. -/
def dieUnits (d : Nat) : List UnitId := allUnits.filter (fun u => UnitId.die u = d)

/-- A Stage die is lost: its units are fenced and DIE_LOST is raised (Table 1-2, Table 14-2). -/
def loseDie (s : State) (d : BitVec 2) : State :=
  raise ((dieUnits d.toNat).foldl fenceUnit s) .a { code := 0x06, die := some (.stage d) }

/-! ### The transaction tracker (R288, R289) -/

/-- First tag and usable size of each pool of Table 10-2, less what is reserved within it. -/
def poolBase (p : Fin 6) : Nat := 12288 * p.val
def poolSize (p : Fin 6) : Nat := if p.val = 5 then 4096 else 12288
def poolUsable (p : Fin 6) : Nat := if p.val = 5 then 4096 else if p.val = 4 then 9216 else 11264

def poolTxns (s : State) (p : Fin 6) : List Txn := s.mem.txns.filter (fun t => t.pool = p)

/-- The lowest tag of a pool that no transaction holds. -/
def freeTag (s : State) (p : Fin 6) : Option (BitVec 16) :=
  if poolUsable p ≤ (poolTxns s p).length then none
  else ((List.range ((poolTxns s p).length + 1)).map (fun i => BitVec.ofNat 16 (poolBase p + i))).find?
    (fun t => (poolTxns s p).all (fun x => x.tag ≠ t))

/-- The pool a Stage unit's transactions draw on. -/
def poolOf (u : UnitId) : Fin 6 := ⟨UnitId.die u % 4, by omega⟩

/-- A transaction enters the floor under a tag. -/
def openTxn (s : State) (t : Txn) : State := s.upMem (fun m => { m with txns := m.txns ++ [t] })

/-- The transactions of a slice that the tracker holds. -/
def heldBy (s : State) (n : SliceId) : List (BitVec 16 × Nat) := (s.mem.txns.filter (fun t => t.slice == n)).map (fun t => (t.tag, t.issued))

/-- The transactions of a unit complete or are cancelled, and their tags return (R106). -/
def dropTxns (s : State) (u : UnitId) : State :=
  (s.upMem (fun m => { m with txns := m.txns.filter (fun t => t.src ≠ .job u) })).upHost
    (fun h => { h with reads := h.reads.filter (fun r => r.src ≠ .job u), poisonedIn := h.poisonedIn.filter (fun r => r.src ≠ .job u) })

/-! ### Host atomics (R328) -/

/-- The owner tag a job leaves on its units. -/
def ownerTagOf (j : Job) : OwnerTag := match j.enclave with
  | some e => .enclave e
  | none => .slice j.slice

/-! ### Thermal sensors (R491, Table 17-10) -/

/-- The reading of a sensor in m°C: 44 is the highest of 0 to 39, 45 of 0 to 43. -/
def sensorOf (s : State) (i : Nat) : Int :=
  let top (k : Nat) : Int := ((List.range k).map (fun j => tget 0 s.pwr.sensors j)).foldl max (tget 0 s.pwr.sensors 0)
  if i = 44 then top 40 else if i = 45 then top 44 else tget 0 s.pwr.sensors i

end Sys2Proof.Machine
end

