-- ==== Sys2Proof/Machine/HostBridge.lean ====
section
/-! DEFINITION. What the host and the bus masters do to the part's registers: slice pages and rings
(R318 to R320), page 0, counters (R326), the aperture (R321, R322), channels (R332 to R336). -/

namespace Sys2Proof.Machine

/-- An access counted in BRG_DROP (R316, R321, R326). -/
def dropCount (s : State) : State := s.upHost (fun h => { h with drop := h.drop + 1 })

/-- An inbound memory request: it never arrives without the link (R342), and in D3hot it receives Unsupported Request
(R343). -/
def inbound (s t : State) : Ans :=
  did (if ¬ s.host.linkUp then s else if s.host.d3hot then s.emit .unsupported else t)

/-- The page of slice n answers (R316). -/
def pageAnswers (s : State) (n : SliceId) : Bool := s.host.devReady && (s.slice n).valid

/-- A write into the page of slice n: one to a page that does not answer is discarded and counted (R316). -/
def onPage (s : State) (n : SliceId) (t : State) : Ans := inbound s (if pageAnswers s n then t else dropCount s)

/-- A Completer Abort, counted (R316, R326). -/
def abortAccess (s : State) : State := dropCount (s.emit .completerAbort)

/-! ### Rings (R319, R320) -/

/-- The device sees CMD_TAIL: an overrun of the ring is an error (R320). -/
def seeTail (s : State) (n : SliceId) : State :=
  s.upPage n (fun p =>
    if ¬ p.enable ∨ p.error then { p with dbCmd := true }
    else if ringSize p.cmdLog2 < (p.cmdTail - p.cmdHead).toNat then { p with error := true, dbCmd := true }
    else { p with seenTail := p.cmdTail, dbCmd := decide (p.cmdTail ≠ p.cmdHead) })

/-- DOORBELL_CMD (R319): the host rings CMD, and the device sees the tail. -/
def execDoorbellCmd (n : SliceId) (s : State) : Ans := onPage s n (seeTail s n)

/-- DOORBELL_MBX (R345): words 0 to 7 hold a message; reads 1 until Stagehand takes it. -/
def execDoorbellMbx (n : SliceId) (s : State) : Ans :=
  onPage s n (s.upPage n (fun p => { p with dbMbx := true }))

/-- One staged notice delivered while the ring has room (R340). -/
def deliverOne (s : State) (n : SliceId) : State :=
  match (s.slice n).staged with
  | [] => s
  | e :: es =>
    if ntcRoom (s.slice n).page ∧ linkOk s then
      let s := writeNotice (s.upSlice n (fun x => { x with staged := es })) n e
      let lost := (s.slice n).lostPending
      if lost = 0 then s
      else notify (s.upSlice n (fun x => { x with lostPending := 0 })) n 0xF0 3 (payload [(0, 4, lost.toNat)])
    else s

/-- As many staged notices as fit. -/
def deliverAll : Nat → State → SliceId → State
  | 0, s, _ => s
  | k + 1, s, n => deliverAll k (deliverOne s n) n

/-- After a re-enable: the staged notices, then LINK_RECOVERED with its counts (R342). -/
def afterEnable (s : State) (n : SliceId) : State :=
  let s := deliverAll (s.slice n).staged.length s n
  let x := s.slice n
  if x.recovering then
    notify (s.upSlice n (fun y => { y with recovering := false, lossWrites := 0, lossCpls := 0 })) n 0xF1 1
      (payload [(0, 4, x.lossWrites.toNat), (4, 4, x.lossCpls.toNat)])
  else s

/-- The LOG2 fields of a RING_CTRL value (Table 11-11). -/
def setLog2 (p : Page) (v : Word) : Page :=
  { p with cmdLog2 := v.extractLsb' 0 5, cplLog2 := v.extractLsb' 5 5, ntcLog2 := v.extractLsb' 10 5 }

def log2Ok (l : BitVec 5) : Bool := decide (6 ≤ l.toNat) && decide (l.toNat ≤ 16)

/-- The test of a write that sets ENABLE (R320). -/
def ringsOk (p : Page) : Bool :=
  log2Ok p.cmdLog2 && log2Ok p.cplLog2 && log2Ok p.ntcLog2 &&
  p.cmdBase.toNat % 4096 == 0 && p.cplBase.toNat % 4096 == 0 && p.ntcBase.toNat % 4096 == 0

/-- A RING_CTRL write with ENABLE 1 (R320). -/
def ringEnable (s : State) (n : SliceId) (v : Word) : State :=
  if (s.slice n).page.enable then s
  else
    let p := setLog2 (s.slice n).page v
    if ringsOk p then
      afterEnable (s.upPage n (fun _ => { p with
        enable := true
        error := false
        cmdTail := 0
        seenTail := 0
        cmdHead := 0
        cplTail := 0
        cplHead := 0
        ntcTail := 0
        ntcHead := 0
        dbCmd := false })) n
    else s.upPage n (fun _ => { p with error := true })

/-- RING_ENABLE (R320). -/
def execRingEnable (n : SliceId) (v : Word) (s : State) : Ans := onPage s n (ringEnable s n v)

/-- ENABLE cleared: the rings stop, and completions held back are discarded; the interrupt owed for entries already written stays
(R320, R339, R342). -/
def ringOff (s : State) (n : SliceId) : State :=
  s.upSlice n (fun x => { x with
    page := { x.page with enable := false }
    held := []
    lossCpls := if x.recovering then x.lossCpls + BitVec.ofNat 32 x.held.length else x.lossCpls })

/-- RING_DISABLE (R320): a write with ENABLE 0 sets the LOG2 fields it carries. -/
def execRingDisable (n : SliceId) (v : Word) (s : State) : Ans :=
  onPage s n ((ringOff s n).upPage n (fun p => setLog2 p v))

/-- CPL_HEAD moved to `v`; beyond its tail is an error (R320). -/
def cplHead (p : Page) (v : Word) : Page :=
  { p with cplHead := v, error := p.error || decide ((p.cplTail - p.cplHead).toNat < (v - p.cplHead).toNat) }

def ntcHead (p : Page) (v : Word) : Page :=
  { p with ntcHead := v, error := p.error || decide ((p.ntcTail - p.ntcHead).toNat < (v - p.ntcHead).toNat) }

/-- CPL_HEAD_WRITE (R319, R320). -/
def execCplHeadWrite (n : SliceId) (v : Word) (s : State) : Ans :=
  onPage s n (s.upPage n (fun p => cplHead p v))

/-- NTC_HEAD_WRITE (R320, R340): room frees in the notice ring. -/
def execNtcHeadWrite (n : SliceId) (v : Word) (s : State) : Ans :=
  onPage s n (s.upPage n (fun p => ntcHead p v))

/-- NTC_LOST_READ (R316, R331, R340): the count is returned and cleared, but not by a speculative read. -/
def execNtcLostRead (n : SliceId) (speculative : Bool) (s : State) : Ans :=
  let lost := (s.slice n).page.ntcLost
  let s1 := s.emit (.readData (leBytes 4 lost.toNat))
  inbound s (if ¬ s.host.devReady then (if speculative then s else abortAccess s)
    else if ¬ (s.slice n).valid then s.emit (.readData (zeros 4))
    else if speculative then s1 else s1.upPage n (fun p => { p with ntcLost := 0 }))

/-- MBX_PD_STATUS: a 1 in bit 31 clears VALID and COUNT (Table 11-7, R12). -/
def pdClear (s : State) (v : Word) : State :=
  if v.getLsbD 31 then s.upHost (fun h => { h with pdValid := false, pdCount := 0 }) else s

/-- PD_STATUS_CLEAR (Table 11-7). -/
def execPdStatusClear (v : Word) (s : State) : Ans := inbound s (pdClear s v)

/-! ### Sync counters from the host (R326, R327) -/

/-- COUNTER_FETCHADD (R326): a signal, a read, or an abort; a refused signal returns the old value. -/
def execCounterFetchAdd (n : SliceId) (ctr : CtrId) (v : Word) (s : State) : Ans :=
  let x := s.ctr ctr
  inbound s (if ¬ s.host.devReady ∨ x.dead then abortAccess s
  else if ¬ (s.slice n).valid ∨ x.slice ≠ some n then
    (if v = 0 then s.emit (.readData (zeros 4)) else abortAccess s)
  else
    let s1 := s.emit (.readData (leBytes 4 x.value.toNat))
    if v = 0 then s1
    else applySignal (s1.upCtr ctr (fun x => { x with issued := x.issued + 1 })) ctr { value := v, src := .host n })

/-- COUNTER_SWAP_CAS (R326): Completer Abort, counted; no counter changes. -/
def execCounterSwapCas (_n : SliceId) (_ctr : CtrId) (s : State) : Ans := inbound s (abortAccess s)

/-! ### Page 0 (Tables 11-3 to 11-8, R317, R483) -/

def bit1 (b : Bool) (i : Nat) : Nat := if b then 2 ^ i else 0

/-- DEV_CONFIG (Table 11-4). -/
def devConfig (s : State) : Nat := s.host.dramRate.toNat * 2 ^ 24 + s.host.dram16g.toNat * 2 ^ 12 + s.host.twinRole.toNat * 2 ^ 10

/-- DEV_STATUS (Table 11-5). -/
def devStatus (s : State) : Nat :=
  bit1 s.host.devReady 31 + bit1 s.host.memComplete 30 + bit1 s.saf.curtain 29 + bit1 s.fab.twinUp 28 + bit1 s.cue.running 27 + bit1 (s.pwr.state == .parked) 26

/-- MBX_PD_STATUS (Table 11-7). -/
def pdStatus (s : State) : Nat :=
  let h := s.host
  bit1 h.pdValid 31 + bit1 h.pdWrite 30 + h.pdCount.toNat * 2 ^ 16 + h.pdChannel.toNat * 2 ^ 8 + h.pdEndpoint.toNat * 2 ^ 4

/-- DEV_RESET (Table 17-6). -/
def devReset (s : State) : Nat :=
  s.pwr.rail.toNat * 2 ^ 24 + s.pwr.bringUps.toNat * 2 ^ 16 + s.pwr.prevCause.toNat * 2 ^ 8 + s.pwr.cause.toNat

/-- The word of page 0 at an offset; reserved offsets read as zero. -/
def page0Word (s : State) (o : Nat) : Nat :=
  if o = 0x00 then 0x2045B100 + Config.grade.toNat * 2 ^ 4
  else if o = 0x04 then devConfig s
  else if o = 0x08 then Config.devSerial.toNat % 2 ^ 32
  else if o = 0x0C then Config.devSerial.toNat / 2 ^ 32
  else if o = 0x10 then devStatus s
  else if o = 0x14 then s.host.boot.toNat
  else if o = 0x18 then s.cue.count.toNat % 2 ^ 32
  else if o = 0x1C then s.cue.count.toNat / 2 ^ 32
  else if o = 0x20 then pdStatus s
  else if o = 0x28 then s.host.prefetchDiscard.toNat
  else if o = 0x2C then s.host.drop.toNat
  else if o = 0x30 then devReset s
  else 0

/-! ### BAR0 (R315, R316) -/

/-- Where a BAR0 offset lies (Table 11-2). -/
inductive Bar0 where
  | page0 (o : Nat)
  | slice (n : SliceId) (o : Nat)
  | channel (j : Nat) (o : Nat)
  | msix (o : Nat)
  | pba (o : Nat)
  | reserved
  deriving DecidableEq, Repr

def bar0Of (off : Nat) : Bar0 :=
  if off < 0x10000 then .page0 off
  else if off < 0x810000 then .slice (BitVec.ofNat 7 (off / 0x10000 - 1)) (off % 0x10000)
  else if off < 0x890000 then .channel (off / 0x10000 - 0x81) (off % 0x10000)
  else if off < 0xF00000 then .reserved
  else if off < 0xF08000 then .msix (off - 0xF00000)
  else if off < 0xF08100 then .pba (off - 0xF08000)
  else .reserved

/-- A register 64 bits wide (R316). -/
def wide : Bar0 → Bool
  | .page0 o => o == 0x08 || o == 0x18
  | .slice _ o => o == 0x80 || o == 0x88 || o == 0x90 || o == 0xC8
  | .msix o => o % 16 == 0
  | .pba o => o % 8 == 0
  | _ => false

/-- The regions that answer while DEV_READY is low (R316). -/
def early : Bar0 → Bool
  | .page0 _ => true
  | .msix _ => true
  | .pba _ => true
  | _ => false

/-- The size and alignment rule of R316, and what answers before DEV_READY. -/
def bar0Accepts (s : State) (off size : Nat) : Bool :=
  ((size == 4 && off % 4 == 0) || (size == 8 && off % 8 == 0 && wide (bar0Of off))) && (s.host.devReady || early (bar0Of off))

/-- A write to the page of a slice that does not exist is discarded and counted (R316). -/
def absentPage (s : State) : Bar0 → Bool
  | .slice n _ => !(s.slice n).valid
  | _ => false

/-! ### The aperture (R321, R322) -/

/-- The VA a BAR2 offset reaches. -/
def apertureVa (s : State) (n : SliceId) (off : BitVec 25) : Nat := (s.slice n).page.aptBase.toNat + off.toNat

/-- A range of the window that meets a TARGET 1 leaf (R321). -/
def meetsHost (s : State) (n : SliceId) (va len : Nat) : Bool :=
  (chunks (chunkFuel len) va len).any (fun c => match leafOf (s.slice n).maps c.1 with
    | some l => l.host
    | none => false)

def ones (len : Nat) : Bytes := List.replicate len 0xFF

/-- The read is the window's last one (R329), and the prefetched granules it uses leave the buffer. -/
def usePrefetch (s : State) (n : SliceId) (off len : Nat) : State :=
  s.upHost (fun h => { h with
    lastRead := tset (0, 0) h.lastRead n.toNat (off, len)
    prefetched := h.prefetched.filter (fun p => ¬ (p.slice = n ∧ p.off < off + len ∧ off < p.off + p.len)) })

/-- An inbound write discards prefetched data it overlaps, counted as unused (R330). -/
def hitPrefetch (s : State) (n : SliceId) (off len : Nat) : State :=
  let hit (p : Prefetched) : Bool := p.slice == n && decide (p.off < off + len) && decide (off < p.off + p.len)
  s.upHost (fun h => { h with
    prefetchDiscard := h.prefetchDiscard + BitVec.ofNat 32 (((h.prefetched.filter hit).map (fun p => (granules p.off p.len).length)).foldl (· + ·) 0)
    prefetched := h.prefetched.filter (fun p => ¬ hit p) })

/-- The floor answers a host access: in time, after a re-read that passed and is reported (R66), or not before the timeout,
which answers it in its place and goes to island A (R289, R322). -/
def floorEnd (n : SliceId) (f : FloorAns) (s t : State) : State := match f with
  | .ok => t
  | .retried => passedCheckOf t .b midHost n
  | .timeout => notify (raiseCode s .a 0x0B) n 0x0C 3 (payload [(0, 1, 3)])

/-- APERTURE_READ (R289, R316, R321, R322): the bytes, or all ones for the whole request with the count and notice; an AtomicOp,
and any request before DEV_READY, receives Completer Abort. -/
def execApertureRead (n : SliceId) (off : BitVec 25) (r : AptRead) (s : State) : Ans :=
  let len := r.len
  let none_ := s.emit (.readData (ones len))
  let va := apertureVa s n off
  let x := s.slice n
  inbound s (if ¬ s.host.devReady ∨ r.atomic then abortAccess s
  else if ¬ x.valid ∨ ¬ x.page.aptEnable ∨ meetsHost s n va len then dropCount none_
  else match readVa s n (.slice n) .read va len with
    | .ok bs => floorEnd n r.floor none_ (sliceAccess ((usePrefetch s n off.toNat len).emit (.readData bs)) midHost n false va len)
    | .fault a => notify (dropCount (meetEntry none_ portW n (.slice n) a)) n 0x0C 3 (payload [(0, 1, 1), (8, 8, a)])
    | .check a _ => notify (countCheck none_ .b midHost) n 0x0C 3 (payload [(0, 1, 2), (8, 8, a)]))

/-- The device bytes of a range marked poisoned. -/
def poisonVa (s : State) (n : SliceId) (va len : Nat) : State :=
  (chunks (chunkFuel len) va len).foldl (fun s c => match translate s n (.slice n) .write c.1 with
    | some (.dram d) => s.upMem (fun m => { m with dram := m.dram.poison d c.2 })
    | _ => s) s

/-- APERTURE_WRITE (R289, R316, R321, R322): merged under R60; EP stores poisoned with a notice; one that the floor times out is
discarded and counted. -/
def execApertureWrite (n : SliceId) (off : BitVec 25) (data : Bytes) (r : AptWrite) (s : State) : Ans :=
  let va := apertureVa s n off
  let x := s.slice n
  inbound s (if ¬ s.host.devReady ∨ ¬ x.valid ∨ ¬ x.page.aptEnable ∨ meetsHost s n va data.length then dropCount s
  else match firstUnreachable s n (.slice n) .write va data.length with
    | some a => notify (dropCount (meetEntry s portW n (.slice n) a)) n 0x0C 3 (payload [(0, 1, 1), (8, 8, a)])
    | none =>
      let s1 := writeBy (hitPrefetch s n off.toNat data.length) midHost n (.slice n) va data
      let s1 := sliceAccess s1 midHost n true va data.length
      floorEnd n r.floor (dropCount s) (if r.ep then notify (poisonVa s1 n va data.length) n 0x0B 3 (payload [(0, 8, va)]) else s1))

/-- PASID_PREFIXED_REQUEST (R321): Unsupported Request, counted. -/
def execPasidPrefixedRequest (_bar2 : Bool) (s : State) : Ans := inbound s (dropCount (s.emit .unsupported))

/-! ### Channels (R332 to R336) -/

def endA (c : Channel) : Nat := bits c.reg.toNat 3 0
def endB (c : Channel) : Nat := bits c.reg.toNat 7 4
def hostPage (c : Channel) : Nat := bits c.reg.toNat 14 12

def codeOk (e : Nat) : Bool := decide (1 ≤ e) && decide (e ≤ 6)

def State.chan (s : State) (k : ChanId) : Channel := tget {} s.host.channels k.toNat
def State.upChan (s : State) (k : ChanId) (f : Channel → Channel) : State :=
  s.upHost (fun h => { h with channels := tup {} h.channels k.toNat f })

/-- An entry enabled on its own (R333). -/
def chanValid (c : Channel) : Bool :=
  c.reg.getLsbD 31 && codeOk (endA c) && codeOk (endB c) && endB c != 1 && endA c != endB c

/-- Two enabled entries naming one host page are both disabled (R333). -/
def chanClash (s : State) (k : ChanId) : Bool :=
  endA (s.chan k) == 1 && (List.range 32).any (fun i => i != k.toNat && chanValid (tget {} s.host.channels i)
    && endA (tget {} s.host.channels i) == 1 && hostPage (tget {} s.host.channels i) == hostPage (s.chan k))

def chanOn (s : State) (k : ChanId) : Bool := chanValid (s.chan k) && !chanClash s k

/-- The domain of an endpoint is off (Table 11-13). -/
def endOff (s : State) (e : Nat) : Bool := (e == 3 && s.pwr.secureOff) || (e == 6 && s.pwr.controlOff)

/-- A firewall fault on the Wings: counted and raised at island B (R334, R366, R415). -/
def firewallB (s : State) : State := raiseCode (s.upSaf (fun f => { f with firewall := f.firewall + 1 })) .b 0x0C

/-- The wake event at an end: its interrupt, MSI-X vector 4 for the host (R335). -/
def wakeEnd (s : State) (e : Nat) : State := if e = 1 then sendMsix s 4 else s.emit (.wakeEvent (BitVec.ofNat 4 e))

/-- A doorbell rung by one end for the other, waking its domain when the channel's WAKE bit is set (R335). -/
def ring (s : State) (k : ChanId) (fromA : Bool) : State :=
  let c := s.chan k
  let other := if fromA then endB c else endA c
  let wake := c.reg.getLsbD (if fromA then 30 else 29)
  let s := s.upChan k (fun c => if fromA then { c with bellB := true } else { c with bellA := true })
  let s := if endOff s other ∧ wake then
      s.upPwr (fun p => { p with waking := p.waking ++ [if other = 3 then .secure else .control] })
    else s
  wakeEnd s other

/-- An access by a bus master: the host's (code 1) comes in over the link. -/
def byMaster (master : BitVec 4) (s t : State) : Ans := if master = 1 then inbound s t else did t

/-- The answer to an access that a firewall refuses: an error response; a posted write of the host has none (R334). -/
def refuseEnd (s : State) (master : BitVec 4) (write : Bool) : State :=
  firewallB (if master = 1 then (if write then s else s.emit .completerAbort) else s.emit (.errorResponse master))

/-- An end takes the doorbell rung for it (R335). -/
def takeBell (s : State) (k : ChanId) (isA : Bool) : State :=
  s.upChan k (fun c => if isA then { c with bellA := false } else { c with bellB := false })

/-- CHANNEL_DOORBELL (R334, R335): only the two ends may ring the other's doorbell or take their own. -/
def execChannelDoorbell (ch : ChanId) (m : DoorbellBy) (s : State) : Ans :=
  let c := s.chan ch
  let act (isA : Bool) : State := if m.take then takeBell s ch isA else ring s ch isA
  byMaster m.master s (if chanOn s ch ∧ m.master.toNat = endA c then act true
  else if chanOn s ch ∧ m.master.toNat = endB c then act false
  else refuseEnd s m.master true)

/-- MBX_PD_STATUS records the first access to a powered-down end and counts all (R336, Table 11-7). -/
def pdRecord (s : State) (ch : ChanId) (write : Bool) (e : Nat) : State :=
  s.upHost (fun h => if h.pdValid then { h with pdCount := if h.pdCount = 255 then 255 else h.pdCount + 1 }
    else { h with pdValid := true, pdWrite := write, pdCount := 1, pdChannel := BitVec.ofNat 8 ch.toNat, pdEndpoint := BitVec.ofNat 4 e })

/-- CHANNEL_WORD_ACCESS (R334, R336): words 0 to 7 are written by A and live with B, 8 to 15 the reverse; a refused read gets
an error response. -/
def execChannelWordAccess (ch : ChanId) (master : BitVec 4) (write : Bool) (idx : BitVec 4) (v : Word) (s : State) : Ans :=
  let c := s.chan ch
  let isEnd := chanOn s ch && admits (.channel (endA c) (endB c)) (midEnd master.toNat)
  let reader := if idx.toNat < 8 then endB c else endA c
  let writer := if idx.toNat < 8 then endA c else endB c
  byMaster master s (if ¬ isEnd then refuseEnd s master write
  else if endOff s reader then (if write then pdRecord s ch true reader else (pdRecord s ch false reader).emit .completerAbort)
  else if write then
    (if master.toNat = writer then s.upChan ch (fun c => { c with words := tset 0 c.words idx.toNat v }) else s)
  else s.emit (.readData (leBytes 4 (tget 0 c.words idx.toNat).toNat)))

/-- The lock of the channel table is set, and each entry of a host-page clash is reported to island B (R333). -/
def lockChannels (s : State) : State :=
  let n := ((List.range 32).filter (fun k => chanValid (s.chan (BitVec.ofNat 5 k)) && chanClash s (BitVec.ofNat 5 k))).length
  (List.range n).foldl (fun s _ => raiseCode s .b 0x00) (s.upHost (fun h => { h with mbxLock := true }))

/-- MBX_LOCK_SET (R333). -/
def execMbxLockSet (s : State) : Ans := doWhen (!s.host.mbxLock) s (lockChannels s)

/-! ### Registers without a row of their own (R10) -/

/-- Half of a 64-bit register replaced. -/
def setHalf (r : DWord) (hi : Bool) (v : Word) : DWord :=
  if hi then v ++ r.extractLsb' 0 32 else r.extractLsb' 32 32 ++ v

/-- A 4-byte write into a slice page (Table 11-9); doorbells and RING_CTRL act as their own rows. -/
def writePage (s : State) (n : SliceId) (o : Nat) (v : Word) : State :=
  let base (p : Page) (f : DWord → DWord) : Page :=
    if p.enable then p
    else if o / 8 = 0x10 then { p with cmdBase := f p.cmdBase }
    else if o / 8 = 0x11 then { p with cplBase := f p.cplBase }
    else { p with ntcBase := f p.ntcBase }
  if o < 0x20 then s.upPage n (fun p => { p with words := tset 0 p.words (o / 4) v })
  else if o = 0x40 then
    let s := if v.getLsbD 1 then s.upPage n (fun p => { p with dbMbx := true }) else s
    if v.getLsbD 0 then seeTail s n else s
  else if o = 0x44 then (if v.getLsbD 29 then s.upPage n (fun p => { p with devMbx := false }) else s)
  else if 0x80 ≤ o ∧ o < 0x98 then s.upPage n (fun p => base p (fun r => setHalf r (o % 8 == 4) v))
  else if o = 0x98 then (if v.getLsbD 31 then ringEnable s n v else (ringOff s n).upPage n (fun p => setLog2 p v))
  else if o = 0xA0 then s.upPage n (fun p => { p with cmdTail := v })
  else if o = 0xAC then s.upPage n (fun p => cplHead p v)
  else if o = 0xB4 then s.upPage n (fun p => ntcHead p v)
  else if o = 0xC0 then
    s.upPage n (fun p => if bits v.toNat 15 0 ≤ 1000 then { p with coalesceUs := v.extractLsb' 0 16 } else p)
  else if 0x8000 ≤ o then dropCount s
  else s

/-- The channel that owns a host channel page (R334). -/
def pageChannel (s : State) (j : Nat) : Option ChanId :=
  ((List.range 32).map (BitVec.ofNat 5)).find? (fun k => chanOn s k && endA (s.chan k) == 1 && hostPage (s.chan k) == j)

/-! ### What a read returns -/

/-- A register of a slice page (Tables 11-9 to 11-11). -/
def pageWord (x : Slice) (o : Nat) : Nat :=
  let p := x.page
  let half (r : DWord) : Nat := if o % 8 = 0 then r.toNat % 2 ^ 32 else r.toNat / 2 ^ 32
  if o < 0x40 then (tget 0 p.words (o / 4)).toNat
  else if o = 0x40 then bit1 p.dbMbx 1 + bit1 p.dbCmd 0
  else if o = 0x44 then bit1 x.valid 31 + bit1 (!x.overQuota.isEmpty) 30 + bit1 p.devMbx 29
  else if o / 8 = 0x10 then half p.cmdBase
  else if o / 8 = 0x11 then half p.cplBase
  else if o / 8 = 0x12 then half p.ntcBase
  else if o = 0x98 then bit1 p.enable 31 + bit1 p.error 30 + p.ntcLog2.toNat * 2 ^ 10 + p.cplLog2.toNat * 2 ^ 5 + p.cmdLog2.toNat
  else if o = 0xA0 then p.cmdTail.toNat
  else if o = 0xA4 then p.cmdHead.toNat
  else if o = 0xA8 then p.cplTail.toNat
  else if o = 0xAC then p.cplHead.toNat
  else if o = 0xB0 then p.ntcTail.toNat
  else if o = 0xB4 then p.ntcHead.toNat
  else if o = 0xC0 then p.coalesceUs.toNat
  else if o = 0xC4 then p.ntcLost.toNat
  else if o = 0xC8 then bit1 p.aptEnable 0 + p.aptBase.toNat % 2 ^ 32
  else if o = 0xCC then p.aptBase.toNat / 2 ^ 32
  else 0

/-- A word of a host channel page: the sixteen words, the doorbell that the host rings, and DEV_MBX, which the other end rings
(R332, R334, Table 11-10). -/
def chanPageWord (c : Channel) (o : Nat) : Nat :=
  if o < 0x40 then (tget 0 c.words (o / 4)).toNat else if o = 0x40 then bit1 c.bellB 1 else if o = 0x44 then bit1 c.bellA 29 else 0

/-- A dword of the MSI-X table (R339). -/
def msixWord (s : State) (o : Nat) : Nat :=
  if o % 16 = 12 then bit1 (tget true s.host.msixMasked (o / 16)) 0 else (tget 0 s.host.msix (o / 4)).toNat

/-- A dword of the pending bits. -/
def pbaWord (s : State) (o : Nat) : Nat :=
  leNat ((List.range 4).map (fun k => BitVec.ofNat 8 (((List.range 8).map (fun i => bit1 (tget false s.host.msixPending (8 * (o + k) + i)) i)).foldl (· + ·) 0)))

/-- A 4-byte word of BAR0 as it reads (R316). -/
def bar0Word (s : State) (off : Nat) : Nat :=
  match bar0Of off with
  | .page0 o => page0Word s o
  | .slice n o => if (s.slice n).valid then pageWord (s.slice n) o else 0
  | .channel j o => match pageChannel s j with
    | some k => chanPageWord (s.chan k) o
    | none => 0
  | .msix o => msixWord s o
  | .pba o => pbaWord s o
  | .reserved => 0

/-- A read BAR0 accepts: NTC_LOST clears (R340), a counter answers its own slice (R326), words that live with
a channel's sleeping end abort (R336), and every other register reads as it stands. -/
def readBar0 (s : State) (off size : Nat) : State :=
  let plain := s.emit (.readData (leBytes size (bar0Word s off + (if size = 8 then bar0Word s (off + 4) * 2 ^ 32 else 0))))
  match bar0Of off with
  | .slice n o =>
    if ¬ (s.slice n).valid then plain
    else if o = 0xC4 then plain.upPage n (fun p => { p with ntcLost := 0 })
    else if 0x8000 ≤ o then
      (let x := s.ctr (BitVec.ofNat 13 ((o - 0x8000) / 4))
       if x.dead then abortAccess s
       else s.emit (.readData (if x.slice = some n then leBytes 4 x.value.toNat else zeros 4)))
    else plain
  | .channel j o => match pageChannel s j with
    | some k => if o < 0x20 ∧ endOff s (endB (s.chan k)) then (pdRecord s k false (endB (s.chan k))).emit .completerAbort else plain
    | none => plain
  | _ => plain

/-- BAR0_INVALID_ACCESS (R316): a read BAR0 does not accept gets Completer Abort, a write is discarded;
each is counted. A read of an absent slice's page returns zero and is not counted. A read that BAR0 does
accept returns its register; a write that it accepts is REGISTER_WRITE. -/
def execBar0InvalidAccess (write : Bool) (off : BitVec 24) (size : Nat) (s : State) : Ans :=
  let bad := !bar0Accepts s off.toNat size
  inbound s (if write then (if bad || absentPage s (bar0Of off.toNat) then dropCount s else s)
       else if bad then abortAccess s
       else readBar0 s off.toNat size)

/-- A write into a host channel page: words 0 to 7 and the doorbell (R332, R334, R336). -/
def writeHostPage (s : State) (j o : Nat) (v : Word) : State :=
  match pageChannel s j with
  | none => s
  | some k =>
    if o < 0x20 then
      (if endOff s (endB (s.chan k)) then pdRecord s k true (endB (s.chan k))
       else s.upChan k (fun c => { c with words := tset 0 c.words (o / 4) v }))
    else if o = 0x40 ∧ v.getLsbD 1 then ring s k true
    else if o = 0x44 ∧ v.getLsbD 29 then takeBell s k true
    else s

/-- A pending vector is sent once it is unmasked (R339). -/
def unmask (s : State) (vec : Nat) : State :=
  if tget false s.host.msixPending vec ∧ ¬ tget true s.host.msixMasked vec ∧ ¬ s.host.cfg.msixMask ∧ s.host.cfg.msixEnable then
    sendMsix (s.upHost (fun h => { h with msixPending := tset false h.msixPending vec false })) vec
  else s

/-- A dword of the MSI-X table: address and data, or the vector's Mask bit. -/
def writeMsix (s : State) (o : Nat) (v : Word) : State :=
  if o % 16 = 12 then
    unmask (s.upHost (fun h => { h with msixMasked := tset true h.msixMasked (o / 16) (v.getLsbD 0) })) (o / 16)
  else s.upHost (fun h => { h with msix := tset 0 h.msix (o / 4) v })

/-- A 4-byte write to BAR0 by field type (R10, R316). -/
def writeBar0 (s : State) (off : Nat) (v : Word) : State :=
  match bar0Of off with
  | .page0 o => if o = 0x20 then pdClear s v else s
  | .slice n o => if (s.slice n).valid then writePage s n o v else dropCount s
  | .channel j o => writeHostPage s j o v
  | .msix o => writeMsix s o v
  | .pba _ => s
  | .reserved => s

/-- A normal-world write to an SRW register is ignored, counted and a firewall fault (R366). -/
def srwDenied (s : State) : State := firewallB (s.upSec (fun x => { x with violations := x.violations + 1 }))

/-- MBX_CHANNEL[k] after a write (R9, R333): reserved bits stay zero, and an end keeps its code where the new one is none that
Table 11-13 defines, or 0x1 for END_B. -/
def mbxAfter (old v : Word) : Word :=
  let e (lo least : Nat) : Nat :=
    if least ≤ bits v.toNat (lo + 3) lo ∧ bits v.toNat (lo + 3) lo ≤ 6 then bits v.toNat (lo + 3) lo else bits old.toNat (lo + 3) lo
  BitVec.ofNat 32 ((v.toNat &&& 0xE0007000) + 16 * e 4 2 + e 0 1)

/-- The 64 bits of a prefetch range entry: VALID in bit 63, BAR2 in bit 62, the last page in bits 59:32 and the first in
bits 27:0, which the model lays out itself (R329, DESIGN CHOICE, log entry 93). -/
def rangeOf (v : DWord) : PrefetchRange :=
  { valid := v.getLsbD 63, bar2 := v.getLsbD 62, first := bits v.toNat 27 0, last := bits v.toNat 59 32 }

def rangeBits (r : PrefetchRange) : Nat :=
  (if r.valid then 2 ^ 63 else 0) + (if r.bar2 then 2 ^ 62 else 0) + r.last % 2 ^ 28 * 2 ^ 32 + r.first % 2 ^ 28

/-! ### SEC_DEBUG and the watchdog registers (R366, R387, R390) -/

/-- Bits 3:0 of SEC_DEBUG; S_INV or S_NONINV make the firmware discard its sealed keys (R389). -/
def setDebug (s : State) (v : BitVec 4) : State :=
  s.upSec (fun x => { x with debugBits := v, sealedGone := x.sealedGone || v.getLsbD 2 || v.getLsbD 3 })

/-- A write to SEC_DEBUG: bits 3:0 and LOCK, from the secure world and while LOCK is 0. -/
def writeDebug (s : State) (secure : Bool) (v : Word) : State :=
  if ¬ secure then srwDenied s
  else if s.sec.debugLock then s
  else (setDebug s (v.extractLsb' 0 4)).upSec (fun x => { x with debugLock := v.getLsbD 8 })

/-- A write to SEC_WDT_KICK: 0x5A from the secure world restarts the count. -/
def kickWdt (s : State) (secure : Bool) (v : Word) : State :=
  if ¬ secure then srwDenied s
  else if v = 0x5A ∧ s.sec.wdtRunning then s.upSec (fun x => { x with kicked := s.now, warned := false })
  else s

/-! ### The endpoint's configuration registers (R313, R323, R339; log entry 125) -/

/-- A configuration register as it reads. -/
def pcieWord (c : PcieCfg) : PcieReg → Nat
  | .classCode => 0x12000000
  | .deviceControl => c.maxPayload.toNat * 2 ^ 5 + c.maxRead.toNat * 2 ^ 12
  | .deviceControl2 => c.timeout.toNat
  | .msixControl => 2047 + bit1 c.msixMask 14 + bit1 c.msixEnable 15
  | .ptmControl => bit1 c.ptm 0

/-- The Completion Timeout Values of ranges A to D, each with the least time it names, in nanoseconds (R323). -/
def timeoutLeast (code : Nat) : Option Nat :=
  ([(0, 1000000), (1, 50000), (2, 1000000), (5, 16000000), (6, 65000000), (9, 260000000), (10, 1000000000), (13, 4000000000),
    (14, 17000000000)].find? (fun p => p.1 == code)).map (·.2)

/-- A configuration register written; a value that the endpoint does not support leaves its field as it was (R9, R313). -/
def pcieAfter (c : PcieCfg) (v : Word) : PcieReg → PcieCfg
  | .classCode => c
  | .deviceControl => { c with
      maxPayload := if bits v.toNat 7 5 ≤ 2 then v.extractLsb' 5 3 else c.maxPayload
      maxRead := if bits v.toNat 14 12 ≤ 5 then v.extractLsb' 12 3 else c.maxRead }
  | .deviceControl2 => { c with timeout := if (timeoutLeast (bits v.toNat 3 0)).isSome then v.extractLsb' 0 4 else c.timeout }
  | .msixControl => { c with msixMask := v.getLsbD 14, msixEnable := v.getLsbD 15 }
  | .ptmControl => { c with ptm := v.getLsbD 0 }

/-- A configuration register after a write; vectors that it unmasks and that are pending are sent (R339). -/
def writePcie (s : State) (r : PcieReg) (v : Word) : State :=
  let s := s.upHost (fun h => { h with cfg := pcieAfter h.cfg v r })
  (s.host.msixPending.map (·.1)).foldl unmask s

/-- A configuration request: served while the link is up, also in D3hot (R343), and answered with Configuration Request Retry
Status until 100 ms after PORST_N rises (R314). -/
def onConfig (s t : State) : State := if ¬ s.host.linkUp then s else if ¬ s.host.configReady then s.emit .configRetry else t

/-- A read of a register outside BAR0 (R10, R366): the secure world reads an SRW field, the normal world zero, which is
counted and a firewall fault; an RO or RWL field reads as it stands. -/
def readReg (s : State) (r : RegAddr) (secure : Bool) : State × Nat :=
  let srw (v : Nat) : State × Nat := if secure then (s, v) else (srwDenied s, 0)
  match r with
  | .bar0 off eight => (s, bar0Word s off.toNat + (if eight then bar0Word s (off.toNat + 4) * 2 ^ 32 else 0))
  | .pcie r => (s, pcieWord s.host.cfg r)
  | .secDebug =>
    let x := srw (s.sec.debugBits.toNat + bit1 s.sec.debugLock 8)
    (x.1, x.2 + bit1 s.sec.invUsed 16)
  | .secWdtKick => srw 0
  | .secUnitEnc u => srw (tget 0 s.sec.unitEnc (UnitId.code u)).toNat
  | .secHold j => srw (tget 0 s.sec.hold j.toNat).toNat
  | .secWdtCtrl => srw (s.sec.period.toNat + (if s.sec.wdtLock then 2 ^ 31 else 0))
  | .mbxChannel k => (s, (s.chan k).reg.toNat)
  | .prefetchRange i => (s, rangeBits (tget {} s.host.ranges i.toNat))

/-- A write to a register outside BAR0 by the master that owns it. -/
def writeReg (s : State) (r : RegAddr) (secure : Bool) (v : DWord) : State :=
  let lo := v.extractLsb' 0 32
  match r with
  | .bar0 _ _ => s
  | .pcie r => onConfig s (writePcie s r lo)
  | .secDebug => writeDebug s secure lo
  | .secWdtKick => kickWdt s secure lo
  | .secUnitEnc u =>
    if secure then s.upSec (fun x => { x with unitEnc := tset 0 x.unitEnc (UnitId.code u) (v.extractLsb' 0 5) }) else srwDenied s
  | .secHold j =>
    if secure then s.upSec (fun x => { x with hold := tset 0 x.hold j.toNat lo }) else srwDenied s
  | .secWdtCtrl =>
    if ¬ secure then srwDenied s
    else if s.sec.wdtLock then s
    else s.upSec (fun x => { x with
      period := if 1 ≤ bits v.toNat 9 0 ∧ bits v.toNat 9 0 ≤ 1000 then v.extractLsb' 0 10 else x.period
      wdtLock := v.getLsbD 31 })
  | .mbxChannel k =>
    if ¬ secure then srwDenied s
    else if s.host.mbxLock then s else s.upChan k (fun c => { c with reg := mbxAfter c.reg lo })
  | .prefetchRange i =>
    if s.host.rangesLocked ∨ secure then s
    else s.upHost (fun h => { h with
      ranges := tset {} h.ranges i.toNat (rangeOf v) })

/-- A write into BAR0 of 4 or 8 bytes (R316). -/
def writeBar0Of (s : State) (off : Nat) (eight : Bool) (v : DWord) : State :=
  if ¬ bar0Accepts s off (if eight then 8 else 4) ∨ absentPage s (bar0Of off) then dropCount s
  else if eight then writeBar0 (writeBar0 s off (v.extractLsb' 0 32)) (off + 4) (v.extractLsb' 32 32)
  else writeBar0 s off (v.extractLsb' 0 32)

/-- A read of BAR0 of 4 or 8 bytes (R316). -/
def readBar0Of (s : State) (off size : Nat) : State := if bar0Accepts s off size then readBar0 s off size else abortAccess s

/-- REGISTER_WRITE (R10, R11, R313, R316, R323, R329, R333, R365, R366, R387, R390, R392): a register written, or read as the
same row carries it (log entry 125). -/
def execRegisterWrite (r : RegAddr) (secure : Bool) (d : RegData) (s : State) : Ans :=
  match r, d with
  | .bar0 off eight, .write v => inbound s (writeBar0Of s off.toNat eight v)
  | .bar0 off eight, .read => inbound s (readBar0Of s off.toNat (if eight then 8 else 4))
  | .pcie x, .read => did (onConfig s (s.emit (.readData (leBytes 4 (pcieWord s.host.cfg x)))))
  | r, .write v => did (writeReg s r secure v)
  | r, .read => let x := readReg s r secure; did (x.1.emit (.readData (leBytes 8 x.2)))

end Sys2Proof.Machine
end

