-- ==== Sys2Proof/Machine/Cmd.lean ====
section
/-! DEFINITION. Taking a Pyotos command and completing it: the header, reserved bytes, structures named
by _VA fields, and the outcomes a command body can have (R346 to R353). -/

namespace Sys2Proof.Machine

/-- How a command body ends: complete with OK, complete with an error and none of its effects, an error
that still returns a RESULT, an error after an effect, or wait for a later event (R350). -/
inductive Res where
  | ok (s : State) (result : BitVec 128)
  | err (status detail : Nat)
  | errR (status detail : Nat) (result : BitVec 128)
  | errS (s : State) (status detail : Nat) (result : BitVec 128)
  | wait (s : State) (w : WaitFor)

/-- Status codes (Table 12-4). -/
def stBadOpcode : Nat := 1
def stReserved : Nat := 2
def stBadValue : Nat := 3
def stDenied : Nat := 4
def stNoObject : Nat := 5
def stBusy : Nat := 6
def stQuota : Nat := 7
def stNoResource : Nat := 8
def stRefused : Nat := 9
def stNotReady : Nat := 10
def stTwin : Nat := 12
def stTooLate : Nat := 13
def stSecureHold : Nat := 14
def stTranslation : Nat := 15
def stCheck : Nat := 16
def stPackage : Nat := 17
def stAborted : Nat := 19
def stDescheduled : Nat := 20
def stPaired : Nat := 21
def stAuth : Nat := 23
def stLimit : Nat := 24
def stSwapFailed : Nat := 25

/-- The opcodes of Tables 12-6 to 12-9 and of CE_SPLIT (R356, R471). -/
def opcodes : List Nat :=
  [0x0001, 0x0002, 0x0003, 0x0004, 0x0005, 0x0006, 0x0007, 0x0101, 0x0102, 0x0103, 0x0104, 0x0105, 0x0106, 0x0107, 0x0108, 0x0109]
  ++ [0x0201, 0x0202, 0x0301, 0x0302, 0x0401, 0x0402, 0x0403, 0x0404, 0x0501, 0x0502, 0x0503, 0x0504, 0x0505]
  ++ [0x0601, 0x0602, 0x0603, 0x0604, 0x0605, 0x0606, 0x0701, 0x0702, 0x0703, 0x0704, 0x0801, 0x0802, 0x0803]
  ++ [0x0901, 0x0902, 0x0903, 0x0904, 0x0905, 0x0906, 0x0907, 0x0908, 0x0A01, 0x0A02, 0x0A03, 0x0B01, 0x0B02, 0x0B03, 0x0C01, 0x0C02, 0x0C03]

/-- A command of the tables: its opcode, whether slice 0 alone may issue it, its named body fields as
(offset, size), and, for an opcode with two rows, the field values that are this row's. -/
structure CmdSpec where
  op : Nat
  zero : Bool
  named : List (Nat × Nat)
  mine : Line → Bool := fun _ => true

/-- Byte i of a command. -/
def cmdByte (w : Line) (i : Nat) : Nat := fld w i 1

/-- No field names a byte. -/
def unnamed (named : List (Nat × Nat)) (i : Nat) : Bool := !named.any (fun f => decide (f.1 ≤ i) && decide (i < f.1 + f.2))

/-- The offset of the reserved field that holds a byte: the first of the bytes, not below `lo`, that no field names (log entry 131). -/
def reservedField (named : List (Nat × Nat)) (lo : Nat) : Nat → Nat
  | 0 => 0
  | i + 1 => if lo ≤ i ∧ unnamed named i then reservedField named lo i else i + 1

/-- The first reserved field of the body that is not zero (R8, R348). -/
def reservedAt (w : Line) (named : List (Nat × Nat)) : Option Nat :=
  (((List.range 56).map (· + 8)).find? (fun i => cmdByte w i ≠ 0 && unnamed named i)).map (reservedField named 8)

/-- The reserved fields of a command: the offset of the first that is not zero. -/
def badReserved (w : Line) (named : List (Nat × Nat)) : Option Nat :=
  if cmdByte w 2 / 2 ≠ 0 then some 2 else if cmdByte w 3 ≠ 0 then some 3 else reservedAt w named

/-- BARRIER (R349). -/
def isBarrier (w : Line) : Bool := cmdByte w 2 % 2 == 1

/-- A command waits under BARRIER (R349). -/
def isHeld (f : Flight) : Bool := match f.wait with
  | .barrier _ => true
  | _ => false

/-- A slice has a command that Pyotos may take: one up to the CMD_TAIL it last saw, and none waits under BARRIER (R319, R320, R349). -/
def ringReady (x : Slice) : Bool :=
  x.valid && !x.destroying && x.page.enable && !x.page.error &&
  x.page.cmdHead != x.page.seenTail && x.held.isEmpty && decide (x.flight.length < 1024) && !x.flight.any isHeld

/-- When a slice's turn comes, from the visit that stands: up to 8 commands of the slice visited, then the other slices by rising
number, slice 0 again after the last (R349, log entry 131). -/
def turnOf (s : State) (n : SliceId) : Nat :=
  if n = s.host.visit ∧ s.host.visited < 8 then 0 else ((n - s.host.visit) - 1).toNat + 1

/-- It is slice n's turn. -/
def hasTurn (s : State) (n : SliceId) : Bool :=
  s.slices.all (fun p => !ringReady p.2 || decide (turnOf s n ≤ turnOf s (BitVec.ofNat 7 p.1)))

/-- Pyotos takes the entry at CMD_HEAD of slice n, and starts it unless a BARRIER keeps it waiting. -/
def mayTake (s : State) (n : SliceId) : Bool := s.host.devReady && linkOk s && ringReady (s.slice n) && hasTurn s n

/-- The entry that Pyotos takes starts (R349). -/
def canTake (s : State) (n : SliceId) (w : Line) : Bool := mayTake s n && (!isBarrier w || (s.slice n).flight.isEmpty)

/-- The entry that Pyotos takes waits: it carries BARRIER, and commands before it have not completed. -/
def mustWait (s : State) (n : SliceId) (w : Line) : Bool := mayTake s n && isBarrier w && !(s.slice n).flight.isEmpty

/-- The command that waited under BARRIER and starts, once every command before it has completed. -/
def released (s : State) (n : SliceId) (w : Line) : Option Flight := match (s.slice n).flight with
  | [f] => if f.wait = .barrier w then some f else none
  | _ => none

/-- The flight of the command taken. -/
def flightOf (s : State) (n : SliceId) (w : Line) : Flight :=
  { tag := BitVec.ofNat 32 (fld w 4 4), pos := (s.slice n).page.cmdHead, op := BitVec.ofNat 16 (fld w 0 2), wait := .nothing }

/-- The command is taken: CMD_HEAD moves, the CMD bit clears at the tail seen, the command is in flight, and the visit goes on. -/
def accept (s : State) (n : SliceId) (w : Line) : State :=
  (s.upSlice n (fun x => { x with
    page := { x.page with cmdHead := x.page.cmdHead + 1, dbCmd := decide (x.page.cmdHead + 1 ≠ x.page.seenTail) }
    flight := x.flight ++ [flightOf s n w] })).upHost (fun h => { h with
      visit := n
      visited := if n = h.visit ∧ h.visited < 8 then h.visited + 1 else 1 })

/-- A command in flight waits for an event. -/
def awaitEvent (s : State) (n : SliceId) (f : Flight) (w : WaitFor) : State :=
  s.upSlice n (fun x => { x with flight := x.flight.map (fun g => if g.pos = f.pos then { g with wait := w } else g) })

/-- The outcome of a body applied to the state in which the command was accepted. -/
def settle (s : State) (n : SliceId) (f : Flight) : Res → State
  | .ok t r => complete t n f 0 0 r
  | .err st d => complete s n f st d 0
  | .errR st d r => complete s n f st d r
  | .errS t st d r => complete t n f st d r
  | .wait t w => awaitEvent t n f w

/-- What the command body is given. -/
abbrev Body := State → SliceId → Flight → Line → Res

/-- The checks every command passes, in their order (log entry 12), then its body. -/
def checked (c : CmdSpec) (body : Body) (s : State) (n : SliceId) (f : Flight) (w : Line) : Res :=
  if ¬ opcodes.contains (fld w 0 2) then .err stBadOpcode 0
  else if c.zero ∧ n ≠ 0 then .err stDenied 0
  else match badReserved w c.named with
    | some o => .err stReserved o
    | none => body s n f w

/-- The entry is the row's: its opcode is the row's, or is not defined at all. -/
def isRow (c : CmdSpec) (w : Line) : Bool := (fld w 0 2 == c.op && c.mine w) || !opcodes.contains (fld w 0 2)

/-- A Pyotos command, whole: it is taken and starts, or is taken and waits under BARRIER, or starts after that wait. -/
def runCmd (c : CmdSpec) (body : Body) (n : SliceId) (w : Line) (s : State) : Ans :=
  let f := flightOf s n w
  let run (t : State) (f : Flight) : State := settle t n f (checked c body t n f w)
  doWhen (isRow c w) s (match released s n w with
    | some g => run (awaitEvent s n g .nothing) { g with wait := .nothing }
    | none =>
      if canTake s n w then run (accept s n w) f
      else if mustWait s n w then awaitEvent (accept s n w) n f (.barrier w)
      else s)

/-! ### Structures in slice memory (R348) -/

/-- The Stage is off and DRAM in self-refresh (R480). -/
def parked (s : State) : Bool := s.pwr.state == .parked

/-- A range that reaches device DRAM. -/
def inDram (s : State) (n : SliceId) (va len : Nat) : Bool :=
  (chunks (chunkFuel len) va len).any (fun c => match translate s n (.slice n) .read c.1 with
    | some (.dram _) => true
    | _ => false)

/-- Pyotos has read a structure in a slice's memory (R275, R348). -/
def structRead (s : State) (n : SliceId) (va len : Nat) : State := pyotosAccess s n (.slice n) false va len

/-- A read of a structure at the _VA field at `off`: aligned, mapped, its checks valid; in PARKED a structure in
device DRAM is refused (R480). What the read meets where it fails is reported (R66, R264). The rest is given the state after the
read. -/
def withBytes (s : State) (n : SliceId) (w : Line) (off va len : Nat) (k : State → Bytes → Res) : Res :=
  if fld w off 8 % 64 ≠ 0 ∨ 2 ^ 48 ≤ fld w off 8 then .err stBadValue off
  else if parked s ∧ inDram s n va len then .err stRefused 0
  else match readVa s n (.slice n) .read va len with
    | .ok bs => k (structRead s n va len) bs
    | .fault a => .errS (meetEntry s portW n (.slice n) a) stTranslation off 0
    | .check _ p => .errS (reportCheckOf s .a midStagehand n p) stCheck off 0

def withStruct (s : State) (n : SliceId) (w : Line) (off len : Nat) (k : State → Bytes → Res) : Res :=
  withBytes s n w off (fld w off 8) len k

/-- A destination field: aligned and writable for `len` bytes. -/
def withDest (s : State) (n : SliceId) (w : Line) (off len : Nat) (k : Nat → Res) : Res :=
  if fld w off 8 % 64 ≠ 0 ∨ 2 ^ 48 ≤ fld w off 8 then .err stBadValue off
  else if parked s ∧ inDram s n (fld w off 8) len then .err stRefused 0
  else if reachable s n (.slice n) .write (fld w off 8) len then k (fld w off 8)
  else .errS (meetRange s n (.slice n) .write (fld w off 8) len) stTranslation off 0

/-- The first reserved field of a structure that is not zero (R8). -/
def structReserved (bs : Bytes) (named : List (Nat × Nat)) : Option Nat :=
  ((List.range bs.length).find? (fun i => byteAt bs i ≠ 0 && unnamed named i)).map (reservedField named 0)

/-- DETAIL of a field of the named structure (Table 12-4). -/
def inStruct (off : Nat) : Nat := 0x8000 + off

/-- The bytes of a structure as the bits of a staged set, from byte `off`. -/
def bytesAtOff (bs : Bytes) (off : Nat) (w : BitVec 4608) : BitVec 4608 := setFld w off bs.length (leNat bs)

/-! ### Who owns a resource (R348, ASSIGN) -/

/-- The slice that ASSIGN gave a resource of `kind` and index; slice 0 by default. -/
def ownerSlice (s : State) (kind idx : Nat) : SliceId := tget 0 s.assigned (65536 * kind + idx)

/-! ### Staged groups (R33 to R38, R354) -/

/-- The initial set of a group (R354): the default SAFETY and TIMEBASE sets, else zeros. -/
def defaultReactions : List Nat :=
  [0, 0, 0, 0, 1, 1, 2, 2, 2, 0, 0, 0, 0, 0, 0, 0, 0, 2, 0, 2, 0, 0, 0, 0] ++ [1, 0, 0, 1, 2, 1, 2, 2, 2, 2, 0, 0]

/-- Tables 14-2 and 14-3. -/
def defaultSafety : BitVec 4608 :=
  let w := [(0, 2, 1), (2, 2, 8), (4, 4, 1000), (8, 4, 10000)].foldl (fun (w : BitVec 4608) f => setFld w f.1 f.2.1 f.2.2) 0
  defaultReactions.zipIdx.foldl (fun w p => setFld w (16 + p.2) 1 p.1) w

/-- The default TIMEBASE set (Table 15-4). -/
def defaultTimebase : BitVec 4608 :=
  [(4, 131072), (8, 16384), (12, 200000), (16, 1000000), (20, 100), (24, 3000)].foldl (fun (w : BitVec 4608) f => setFld w f.1 4 f.2) 0

def groupKind (g : Nat) : Nat := g / 0x1000000
def groupIdx (g : Nat) : Nat := g % 0x10000

/-- A group as reset leaves it. -/
def groupInit (g : Nat) : Staged :=
  let w := if groupKind g = 4 then defaultSafety else if groupKind g = 5 then defaultTimebase else 0
  { shadow := w, committed := w, written := false, used := false }

def State.group (s : State) (g : Nat) : Staged := tget (groupInit g) s.groups g
def State.upGroup (s : State) (g : Nat) (f : Staged → Staged) : State :=
  { s with groups := tset (groupInit g) s.groups g (f (s.group g)) }

/-- The committed structure of a group. -/
def committed (s : State) (kind idx : Nat) : BitVec 4608 := (s.group (kind * 0x1000000 + idx)).committed

/-- The shadow is locked by a pending AT_CUE commit (R37). -/
def locked (s : State) (g : Nat) : Bool := s.commits.any (fun c => c.atCue && c.groups.any (fun x => x.toNat == g))

/-- A write of a whole shadow, refused while locked (R37, R354). -/
def writeShadow (s : State) (g detail : Nat) (w : BitVec 4608) : Res :=
  if locked s g then .err stBusy detail
  else .ok (s.upGroup g (fun x => { x with shadow := w, written := true })) 0

end Sys2Proof.Machine
end

