-- ==== Sys2Proof/Machine/KvOps.lean ====
section
/-! DEFINITION. KV pages, sequence descriptors, the epoch rule and swaps (R141 to R147, R159 to R166). -/

namespace Sys2Proof.Machine

def State.ae (s : State) (a : AeId) : AeSt := tget {} s.aes a.toNat
def State.upAe (s : State) (a : AeId) (f : AeSt → AeSt) : State := { s with aes := tup {} s.aes a.toNat f }

def State.kv (s : State) (a : AeId) (q : Nat) : Option KvSeq := tget none (s.ae a).seqs q
def State.setKv (s : State) (a : AeId) (q : Nat) (x : Option KvSeq) : State :=
  s.upAe a (fun e => { e with seqs := tset none e.seqs q x })

/-! ### Page layout (R143) -/

/-- Element width in bits of a KV format (Table 3-8 codes 0x4, 0x6, 0x7, 0x9). -/
def kvBits (fmt : Nat) : Nat := if fmt = 4 then 4 else if fmt = 9 then 16 else 8

/-- M of R143. -/
def kvM (fmt d : Nat) : Nat := d * kvBits fmt / 8

/-- X of R143. -/
def kvX (fmt d : Nat) : Nat := if fmt = 4 ∨ fmt = 6 then d / 32 else 0

def c64 (n : Nat) : Nat := (n + 63) / 64 * 64

/-- Bytes a page of `t` tokens takes. -/
def pageNeed (fmt d t : Nat) : Nat := 2 * (c64 (t * kvM fmt d) + c64 (t * kvX fmt d))

/-- The largest count at most `n` that fits a page. -/
def tokensUpTo (fmt d : Nat) : Nat → Nat
  | 0 => 0
  | n + 1 => if pageNeed fmt d (n + 1) ≤ 32768 then n + 1 else tokensUpTo fmt d n

/-- T_p of R143 (Table 5-4). -/
def tokensPerPage (fmt d : Nat) : Nat := tokensUpTo fmt d 512

def KvSeq.tp (x : KvSeq) : Nat := tokensPerPage x.fmt.toNat x.headDim
def KvSeq.streams (x : KvSeq) : Nat := x.layers * x.kvHeads

/-- Byte offsets in a page of slot u's K values, K exponents, V values, V exponents. -/
def slotOffsets (x : KvSeq) (u : Nat) : Nat × Nat × Nat × Nat :=
  let m := kvM x.fmt.toNat x.headDim
  let e := kvX x.fmt.toNat x.headDim
  let a := c64 (x.tp * m)
  let b := a + c64 (x.tp * e)
  let d := b + c64 (x.tp * m)
  (u * m, a + u * e, b + u * m, d + u * e)

/-! ### Page tables (R144 to R146) -/

/-- The directory entry that serves token t for a write or a window read (R146). -/
def entryOf (x : KvSeq) (t : Nat) : Nat := if x.sparse then 64 + t / x.tp % 1984 else t / x.tp

/-- Where a stream's directory lies: the 16 KiB slots of the table pages in order, the root in the first. -/
def dirAddr (tables : List Nat) (stream : Nat) : Nat := 65536 * tables.getD ((stream + 1) / 4) 0 + 16384 * ((stream + 1) % 4)

/-- A sequence's root page and directories as the writes that fill fresh pages of zeros (Table 5-5, R145). -/
def tableWrites (x : KvSeq) : List (Nat × Bytes) :=
  (List.range x.streams).map (fun st => (x.root + 8 * st, leBytes 8 (dirAddr x.tables st + 1)))
  ++ x.globals.zipIdx.map (fun g => (x.root + 4096 + 4 * g.2, leBytes 4 g.1))
  ++ (if x.globals.isEmpty then [] else [(x.root + 4352, leBytes 1 x.globals.length)])
  ++ x.tree.map (fun p => (dirAddr x.tables (p.1 / 2048) + 8 * (p.1 % 2048), leBytes 8 p.2))

/-- Bytes that Pyotos writes into its pages. -/
def putBytes (s : State) (ws : List (Nat × Bytes)) : State :=
  s.upMem (fun m => { m with dram := ws.foldl (fun d w => d.write w.1 w.2) m.dram })

/-- A KV page, or a page of the tables, belongs to Pyotos (R147). -/
def kvOwned (s : State) (pa : Nat) : Bool := (ownerOf s (pa / 65536)).typ == .pyotos && (ownerOf s (pa / 65536)).echkOk

/-- How a walk ends: at an address, at a MAP_FAULT of R147, or at a granule that fails its check. -/
inductive Walk where
  | at_ (pa : Nat)
  | fault
  | check (poisoned : Bool)
  deriving DecidableEq, Repr

/-- One 8-byte entry of a root page or directory, whose address field begins at bit `lo` (R144, R145, R147). -/
def walkEntry (s : State) (pa lo : Nat) : Walk :=
  let w := leNat (s.mem.dram.read pa 8)
  if ¬ kvOwned s pa then .fault
  else if s.mem.dram.synAt pa ≠ 0 then .check (s.mem.dram.synAt pa == 0xFFFF)
  else if bitAt w 0 then .at_ (bits w 47 lo * 2 ^ lo)
  else .fault

/-- A walk goes on at the address it reached. -/
def Walk.next : Walk → (Nat → Walk) → Walk
  | .at_ pa, k => k pa
  | r, _ => r

/-- The walk through a latched root to the KV page behind an entry; the walk cache answers for an entry it holds (R144,
R145, R147, R164). -/
def walk (s : State) (a : AeId) (q : Nat) (x : KvSeq) (stream entry : Nat) : Walk :=
  let page (f : Nat) : Walk := if kvOwned s f then .at_ f else .fault
  match (s.ae a).walks.find? (fun l => l.seq.toNat = q ∧ l.gen = x.gen ∧ l.key = 2048 * stream + entry) with
  | some l => page l.frame
  | none => ((walkEntry s (x.root + 8 * stream) 14).next (fun dir => walkEntry s (dir + 8 * entry) 15)).next page

/-- The directory entries that some walks passed are in the cache of 256, the newest first; a line leaves when 256 newer
ones have come (R164, log entry 108). -/
def cacheWalks (s : State) (a : AeId) (q : Nat) (x : KvSeq) (keys : List Nat) : State :=
  let new := keys.filterMap (fun key => match walk s a q x (key / 2048) (key % 2048) with
    | .at_ f => some ({ seq := BitVec.ofNat 10 q, gen := x.gen, key := key, frame := f } : WalkLine)
    | _ => none)
  s.upAe a (fun e => { e with walks := (new ++ e.walks.filter (fun l => l ∉ new)).take 256 })

/-- The list of global positions in the root page (Table 5-5); a page that is not Pyotos's is a MAP_FAULT, `none` (R147), and a
granule that fails its check is poisoned or not. -/
def rootGlobals (s : State) (x : KvSeq) : Except (Option Bool) (List Nat) :=
  if ¬ x.sparse then .ok []
  else if ¬ kvOwned s x.root then .error none
  else match s.mem.dram.bad (x.root + 4096) 257 with
  | g :: _ => .error (some (tget 0 s.mem.dram.syn g == 0xFFFF))
  | [] => .ok ((List.range (leNat (s.mem.dram.read (x.root + 4352) 1))).map (fun j => leNat (s.mem.dram.read (x.root + 4096 + 4 * j) 4)))

/-- Every KV page the tables reach, once each. -/
def KvSeq.frames (x : KvSeq) : List Nat := ((x.tree.map (fun p => p.2 - 1))).eraseDups

/-- Bytes of root page, directories and KV pages charged (chapter 09, Quotas). -/
def KvSeq.bytes (x : KvSeq) : Nat := 8192 + 16384 * x.streams + 32768 * (x.frames.length + x.spare.length)

/-- 64 KiB pages for the root and directories: the root takes the place of one directory. -/
def tablePages (streams : Nat) : Nat := (streams + 4) / 4

/-! ### Latching and the epoch (R164 to R166) -/

/-- OLDEST of R166. -/
def oldest (e : AeSt) : DWord := e.ops.foldl (fun o x => if x.toNat < o.toNat then x else o) (e.epoch + 1)

/-- An operation starts: EPOCH increments, the descriptors it names are latched (R164, R166). -/
def startOp (s : State) (a : AeId) (qs : List Nat) : State :=
  s.upAe a (fun e => { e with
    epoch := e.epoch + 1
    ops := (e.epoch + 1) :: e.ops
    op := some { home := a, epoch := e.epoch + 1, latch := qs.filterMap (fun q => (tget none e.seqs q).map (fun x => (BitVec.ofNat 10 q, x))) } })

/-- An operation's latch table names the sequence of an engine. -/
def AeOp.names (o : AeOp) (a : AeId) (q : Nat) : Bool := o.home == a && o.latch.any (fun p => p.1.toNat == q)

/-- A running operation has latched the sequence, on its own engine or restored on another (R162, R525). -/
def latchedNow (s : State) (a : AeId) (q : Nat) : Bool := s.aes.any (fun p => (p.2.op.map (fun o => o.names a q)).getD false)

/-- An operation in flight, running or pre-empted, has latched the sequence. -/
def latched (s : State) (a : AeId) (q : Nat) : Bool :=
  latchedNow s a q || s.saved.any (fun p => ((p.2.bind (·.ae)).map (fun o => o.names a q)).getD false)

/-- Pages and tables leave a sequence under the epoch just read (R166); `keep` names a sequence of class 2 or 3 to whose
reserve the pages go back. -/
def holdPages (s : State) (a : AeId) (fr tb : List Nat) (n : SliceId) (bytes : Nat) (keep : Option SeqId) : State :=
  s.upAe a (fun e => { e with held := e.held ++ [{ tag := e.epoch, frames := fr, tables := tb, slice := n, bytes := bytes, spareOf := keep }] })

/-- One held group returns: tables to FREE; pages to the reserve they left, still charged, or to the free list. -/
def returnHeld (a : AeId) (s : State) (h : Held) : State :=
  let kept := match h.spareOf with
    | some q => s.kv a q.toNat
    | none => none
  let s := match kept, h.spareOf with
    | some x, some q => s.setKv a q.toNat (some { x with spare := x.spare ++ h.frames })
    | _, _ => s.upAe a (fun e => { e with free := e.free ++ h.frames })
  let s := releasePages s h.tables
  let off := if kept.isSome then h.bytes - 32768 * h.frames.length else h.bytes
  checkQuota (s.upSlice h.slice (fun x => { x with kvBytes := x.kvBytes - off })) h.slice

/-- EPOCH_PAGE_RELEASE's effect: every group whose tag OLDEST exceeds returns (R166). -/
def returnPages (s : State) (a : AeId) : State :=
  let o := oldest (s.ae a)
  let go := (s.ae a).held.filter (fun h => h.tag.toNat < o.toNat)
  go.foldl (returnHeld a) (s.upAe a (fun e => { e with held := e.held.filter (fun h => ¬ h.tag.toNat < o.toNat) }))

/-- The swap area's run of a sequence is free again. -/
def dropSlot (s : State) (a : AeId) (q : Nat) (n : SliceId) : State :=
  s.upSlice n (fun y => { y with swapSlots := y.swapSlots.filter (fun k => ¬ (k.ae = a ∧ k.seq.toNat = q)) })

/-- A sequence becomes FREE and its pages wait under R166; a swapped one holds none. -/
def freeSeq (s : State) (a : AeId) (q : Nat) : State :=
  match s.kv a q with
  | none => s
  | some x =>
    let s := dropSlot (s.setKv a q none) a q x.slice
    let s := s.upAe a (fun e => { e with
      gens := tset 0 e.gens q x.gen
      held := e.held.map (fun h => if h.spareOf = some (BitVec.ofNat 10 q) then { h with spareOf := none } else h) })
    let s := if x.state = .swapped then s else holdPages s a (x.frames ++ x.spare) x.tables x.slice x.bytes none
    checkQuota (s.upSlice x.slice (fun y => { y with seqs := y.seqs - 1 })) x.slice

/-! ### Mapping pages (R160, R161) -/

/-- Pages of the free list taken into a sequence's reserve and charged. -/
def takeSpare (s : State) (a : AeId) (q k : Nat) : State :=
  match s.kv a q with
  | none => s
  | some x =>
    let fs := (s.ae a).free.take k
    let s := (s.upAe a (fun y => { y with free := y.free.drop k })).setKv a q (some { x with spare := x.spare ++ fs })
    s.upSlice x.slice (fun y => { y with kvBytes := y.kvBytes + 32768 * fs.length })

/-- One page of the reserve mapped at the invalid entry `e` of stream `st`, which is set valid in place (R165). -/
def mapEntry (a : AeId) (q : Nat) (e : Nat) (s : State) (st : Nat) : State :=
  match s.kv a q with
  | none => s
  | some x => match x.spare with
    | [] => s
    | f :: fs =>
      let s := putBytes (s.upMem (fun m => { m with dram := m.dram.clear f 32768 })) [(dirAddr x.tables st + 8 * e, leBytes 8 (f + 1))]
      s.setKv a q (some { x with tree := tset 0 x.tree (2048 * st + e) (f + 1), spare := fs })

/-- The entry that the next page of every stream takes is still valid: it is set only once it is not (R157, R165). -/
def entryTaken (x : KvSeq) : Bool :=
  (List.range x.streams).any (fun st => tget 0 x.tree (2048 * st + entryOf x x.capacity) != 0)

/-- One further page of the reserve for every stream (R161): CAPACITY rises by T_p, at most to MAX_TOKENS. -/
def mapNext (s : State) (a : AeId) (q : Nat) : State :=
  match s.kv a q with
  | none => s
  | some x =>
    let e := entryOf x x.capacity
    let s := (List.range x.streams).foldl (mapEntry a q e) s
    match s.kv a q with
    | none => s
    | some y => s.setKv a q (some { y with capacity := min y.maxTokens (y.capacity + y.tp) })

/-- The pages of a class 2 or 3 sequence, all at once (R160): the entries mapped per stream. -/
def fullNeed (x : KvSeq) : Nat :=
  if x.sparse then (x.window + x.tp - 1) / x.tp + 2 + 64 else (x.maxTokens + x.tp - 1) / x.tp

/-- How many of them are mapped from the start: the global pages of a sparse sequence stay reserved. -/
def firstMapped (x : KvSeq) : Nat := if x.sparse then min (fullNeed x - 64) ((x.maxTokens + x.tp - 1) / x.tp) else fullNeed x

def mapMany : Nat → State → AeId → Nat → State
  | 0, s, _, _ => s
  | k + 1, s, a, q => mapMany k (mapNext s a q) a q

/-! ### Swapping (R163) -/

/-- Bytes of one KV page with its trailer of 512 carried checks. -/
def swapPageSize : Nat := 32768 + 1024

/-- The image of a page: contents and the checks of its 512 granules. -/
def swapImage (s : State) (f : Nat) : Bytes :=
  let bs := s.mem.dram.read f 32768
  bs ++ (List.range 512).flatMap (fun g => leBytes 2 (carriedCheck ((bs.drop (64 * g)).take 64)).toNat)

/-- The first address of the swap area where `size` bytes are free. -/
def swapPlace (x : Slice) (size : Nat) : Option Nat :=
  match x.swapArea with
  | none => none
  | some (va, len) =>
    let ends := va :: x.swapSlots.map (fun k => k.va + k.size)
    (ends.filter (fun b => decide (b + size ≤ va + len) &&
      x.swapSlots.all (fun k => decide (b + size ≤ k.va) || decide (k.va + k.size ≤ b)))).min?

/-- A sequence starts to be swapped out (R163 step 1), under the EPOCH read after the write. -/
def startSwapOut (s : State) (a : AeId) (q : Nat) : State :=
  match s.kv a q with
  | some x => s.setKv a q (some { x with state := .swapOut, swapTag := (s.ae a).epoch })
  | none => s

/-- The KV notice 0x0006. -/
def kvNotice (s : State) (a : AeId) (q ev : Nat) (n : SliceId) : State :=
  notify s n 0x06 1 (payload [(0, 1, a.toNat), (2, 2, q), (4, 1, ev)])

/-- No slice is asked for, or this one. -/
def ofSlice (only : Option SliceId) (n : SliceId) : Bool := match only with
  | some m => m == n
  | none => true

/-- A sequence is chosen before another (R162). -/
def victimFirst (p r : Nat × KvSeq) : Bool :=
  decide (p.2.cls.toNat < r.2.cls.toNat) ||
    (p.2.cls == r.2.cls && (decide (p.2.lastCue < r.2.lastCue) || (p.2.lastCue == r.2.lastCue && decide (r.1 < p.1))))

/-- The victims of an AE in the order of R162. -/
def victims (s : State) (a : AeId) (only : Option SliceId) : List Nat :=
  let xs := (s.ae a).seqs.filterMap (fun p => p.2.map (fun x => (p.1, x)))
  let ok := xs.filter (fun p => p.2.state = .resident ∧ p.2.cls.toNat < 2 ∧ ¬ latchedNow s a p.1 ∧
    ofSlice only p.2.slice)
  (ok.mergeSort (fun p r => !victimFirst r p)).map (·.1)

def allAes : List AeId := (List.range 16).map (BitVec.ofNat 4)

/-- The victims of a slice on every engine, in the order of R162; equals are taken by rising engine (log entry 130). -/
def sliceVictims (s : State) (n : SliceId) : List (AeId × Nat) :=
  let xs := allAes.flatMap (fun a => (victims s a (some n)).filterMap (fun q => (s.kv a q).map (fun x => (a, q, x))))
  (xs.mergeSort (fun p r => !victimFirst r.2 p.2)).map (fun p => (p.1, p.2.1))

/-- Bytes of a slice that leave its usage once the epochs have passed: its sequences that swap out, and pages held (R163, R166). -/
def leavingBytes (s : State) (n : SliceId) : Nat :=
  ((s.aes.map (·.2)).flatMap (fun e =>
    (e.seqs.filterMap (fun p => p.2)).filterMap (fun x => if x.slice = n ∧ x.state = .swapOut then some x.bytes else none) ++
    (e.held.filter (fun h => h.slice == n)).map (·.bytes))).foldl (· + ·) 0

/-- RECLAIM of R274: victims of the slice start to swap out, one after the other, until what leaves brings its usage within the
quota. -/
def reclaimNow (n : SliceId) (s : State) : State :=
  if ¬ (s.slice n).reclaim then s
  else (sliceVictims s n).foldl (fun s v => if dramUsage s n ≤ quotaOf s n 0 + leavingBytes s n then s else startSwapOut s v.1 v.2) s

/-- Every sequence of a slice is freed (R352). -/
def freeSliceSeqs (s : State) (n : SliceId) : State :=
  allAes.foldl (fun s a => (((s.ae a).seqs.filter (fun p => match p.2 with
    | some x => x.slice == n
    | none => false)).map (·.1)).foldl (fun s q => freeSeq s a q) s) s

end Sys2Proof.Machine
end

