-- ==== Sys2Proof/Machine/JobOps.lean ====
section
/-! DEFINITION. The end of a job: its records, its completion and the safety checks that precede it
(R101, R358, R401, R421 to R426, R524). -/

namespace Sys2Proof.Machine

/-- The 128-byte entry's first bytes a unit writes: the record of Table 3-11. -/
def recordBytes (q : Seq) (cue : DWord) (state reason : Byte) : Bytes :=
  [state, reason] ++ leBytes 2 q.tag.toNat ++ [q.flags, 0, 0, 0] ++ leBytes 8 cue.toNat ++ leBytes 4 q.done.toNat
    ++ leBytes 2 q.retries.toNat ++ leBytes 2 q.flagLog ++ zeros 40

/-- A write into a job's status area; a job without one (a known-answer run) writes nothing. -/
def statusWrite (s : State) (j : Job) (k off : Nat) (bs : Bytes) : State :=
  if j.kaf.isSome then s else writeBy s midStagehand j.slice (.slice j.slice) (j.statusVa + 128 * k + off) bs

/-- The sequencer as an enclave job's record shows it (R382). -/
def shownSeq (j : Job) (q : Seq) : Seq := if j.enclave.isSome then { q with tag := 0, done := 0, flagLog := 0 } else q

/-- The sequencer a unit's record shows: until its context is restored, the saved one (R101, R103). -/
def recordSeq (s : State) (u : UnitId) (j : Job) : Seq :=
  let x := s.unit u
  if (j.entries.getD x.entry {}).saved then ((tget none s.saved (128 * j.id + x.entry)).map (·.seq)).getD x.seq else x.seq

/-- A unit writes its status record and UNIT (R101, R358). -/
def writeRecord (s : State) (u : UnitId) (j : Job) (state reason : Byte) : State :=
  let x := s.unit u
  let s := statusWrite s j x.entry 0 (recordBytes (shownSeq j (recordSeq s u j)) s.cue.count state reason)
  let s := statusWrite s j x.entry 96 (leBytes 2 (UnitId.code u))
  s.upJob j.id (fun j => { j with entries := setEntry j.entries x.entry (fun e => { e with state := state, reason := reason, unit := some u }) })

/-- Pending tokens of a step are discarded (R142). -/
def dropStep (x : KvSeq) : KvSeq := { x with pending := 0, nextLayer := 0, step := none }

/-- An operation is no longer in flight: OLDEST may rise (R166). -/
def endOp (s : State) (o : Option AeOp) : State := match o with
  | some o => { s with aes := tup {} s.aes o.home.toNat (fun e => { e with ops := e.ops.filter (· ≠ o.epoch) }) }
  | none => s

/-- An attention engine's operation has ended. -/
def aeOpEnd (s : State) (u : UnitId) : State := match u with
  | .ae a =>
    let s := endOp s (tget {} s.aes a.toNat).op
    { s with aes := tup {} s.aes a.toNat (fun e => { e with op := none }) }
  | _ => s

/-- What a step is known by: the job and the entry of it that takes the step. -/
def stepKey (j k : Nat) : Nat := 128 * j + k

/-- The tokens of the steps that a job's entry has not completed in every layer are discarded (R142, R168). -/
def dropSteps (s : State) (key : Nat) : State :=
  { s with aes := s.aes.map (fun p => (p.1, { p.2 with
      seqs := p.2.seqs.map (fun r => (r.1, r.2.map (fun x => if x.step = some key then dropStep x else x))) })) }

/-- An attention engine's job stops: its operation ends, and its incomplete steps are discarded (R142, R168). -/
def aeStop (s : State) (u : UnitId) (j : Nat) : State := match u with
  | .ae _ => dropSteps (aeOpEnd s u) (stepKey j (s.unit u).entry)
  | _ => s

/-- A unit is released: no job, no sequencer, waits and transactions gone (R106, R255). A SUSPECT unit
stays out of placement until its self-test (R416). -/
def releaseUnit (s : State) (u : UnitId) : State :=
  let x := s.unit u
  let s := dropTxns s u
  let s := match x.seq.wait with
    | some w => leaveCtr s w.ctr (Waiter.isUnit u)
    | none => s
  let s := match u with
    | .core c => { s with cores := tup {} s.cores c.toNat (fun x => { x with ve := { x.ve with running := false, driver := none, conv := none, tex := none } }) }
    | _ => s
  s.upUnit u (fun x => { x with job := none, entry := 0, phase := .idle, seq := {} })

/-- Units that still hold a core for job j: at work, stopping or saving. -/
def onCore (s : State) (j : Nat) : Bool :=
  allUnits.any (fun u => (s.unit u).job == some j && (s.unit u).phase != .finished)

/-- The chosen entry of RESULT (R358): the lowest not completed whose REASON is not ABORTED, or the
lowest not completed. -/
def chosenEntry (es : List Entry) : Option (Entry × Nat) :=
  let bad := es.zipIdx.filter (fun p => p.1.state ≠ 1)
  match bad.find? (fun p => p.1.reason ≠ 0x0B) with
  | some p => some p
  | none => bad.head?

/-- RESULT of a JOB_START (R358). -/
def jobResult (j : Job) : BitVec 128 := match chosenEntry j.entries with
  | none => payload [(0, 1, 1), (8, 8, j.endCue.toNat)]
  | some p => payload [(0, 1, p.1.state.toNat), (1, 1, p.1.reason.toNat), (2, 2, p.2), (8, 8, j.endCue.toNat)]

/-- SAFETY_FLAGS of a job (R401). -/
def safetyFlags (s : State) (j : Job) : Byte :=
  let us := j.entries.filterMap (·.unit)
  let curtain := if s.saf.curtain then 1 else 0
  let unchecked := if s.saf.unchecked.contains j.id then 2 else 0
  let kaf := if s.saf.kafFailed.contains (j.slice, j.handle) then 4 else 0
  let dbg := if bitAt s.saf.nonSafety.toNat 1 ∨ us.any (fun u => s.saf.debugUnits.contains (UnitId.code u)) then 8 else 0
  let uses (k : Checker) : Bool := match k with
    | .te c => us.contains (.core c)
    | .ve c => us.contains (.core c)
    | .store c => us.contains (.core c)
    | .ae a => us.contains (.ae a)
    | .rfe r => us.contains (.rfe r)
    | _ => true
  let starved := if 2 ≤ j.e.cls.toNat ∧ s.saf.starvedNow.any uses then 16 else 0
  BitVec.ofNat 8 (curtain + unchecked + kaf + dbg + starved)

/-- The final SAFETY_FLAGS in every entry, before the completion (R401). -/
def writeSafetyFlags (s : State) (j : Job) : State :=
  (List.range j.entries.length).foldl (fun s k => statusWrite s j k 5 [safetyFlags s j]) s

/-- A JOB_START completes. -/
def completeStart (s : State) (n : SliceId) (tag pos : Word) (status : Half) (result : BitVec 128) : State :=
  complete s n { tag := tag, pos := pos, op := 0x0301, wait := .nothing } status.toNat 0 result

/-- The FetchAdd of a JOB_START's host semaphore fails: notice 0x0016, and the completion all the same (R358). -/
def semaphoreFailed (cause : Nat) (s : State) (n : SliceId) (tag pos : Word) (status : Half) (result : BitVec 128) : State :=
  completeStart (notify s n 0x16 1 (payload [(0, 4, tag.toNat), (4, 1, cause)])) n tag pos status result

/-- A job's JOB_START completes with a status and RESULT; the FetchAdd of 1 on its host semaphore completes first (R358). -/
def finishStart (s : State) (j : Job) (status : Half) (result : BitVec 128) : State :=
  if j.semVa = 0 then completeStart s j.slice j.tag j.pos status result
  else match translate s j.slice (.slice j.slice) .write j.semVa with
    | some (.host a) =>
      if linkOk s then
        let r : HostRead := { addr := a, len := 8, src := .semaphore j.slice j.tag j.pos status result, pasid := (s.slice j.slice).pasid, since := s.now }
        (s.emit (.fetchAdd (s.slice j.slice).pasid a)).upHost (fun h => { h with reads := h.reads ++ [r] })
      else semaphoreFailed 2 s j.slice j.tag j.pos status result
    | _ => semaphoreFailed 0 (meetEntry s portW j.slice (.slice j.slice) j.semVa) j.slice j.tag j.pos status result

/-- The save area of a job is released (R104). -/
def releaseSave (s : State) (j : Job) : State :=
  let s := releasePages s j.savePages
  let s := { s with saved := s.saved.filter (fun p => p.1 / 128 ≠ j.id), jobs := s.jobs.filter (fun x => x.id ≠ j.id) }
  checkQuota s j.slice

/-- A known-answer run ends: it passes, or the event of R424 is raised. -/
def endKaf (s : State) (j : Job) (k : Nat) (sig : DWord) : State :=
  let ok := j.entries.all (fun e => e.state = 1)
  match s.saf.kafs[k]? with
  | none => s
  | some r =>
    if ok ∧ sig = r.expect then
      s.upSaf (fun f => { f with
        kafs := f.kafs.zipIdx.map (fun p => if p.2 = k then { p.1 with since := some 0, running := none } else p.1)
        kafFailed := f.kafFailed.filter (· ≠ (r.slice, r.handle)) })
    else
      let s := s.upSaf (fun f => { f with kafs := f.kafs.zipIdx.map (fun p => if p.2 = k then { p.1 with running := none } else p.1) })
      raise s .a { code := if ok then 0x11 else 0x12, pkg := some (r.slice, r.handle) }

/-- Registrations leave with their pages, and the runs under way keep theirs; the run of one that left belongs to none. -/
def removeKafs (s : State) (gone : Kaf → Bool) : State :=
  let old := s.saf.kafs
  let place (k : Nat) : Nat := match old[k]? with
    | some r => if gone r then 1000000 else ((old.take k).filter (fun x => !gone x)).length
    | none => k
  let s := releasePages s ((old.filter gone).flatMap (·.pages))
  { s with
    saf := { s.saf with kafs := old.filter (fun x => !gone x) }
    jobs := s.jobs.map (fun j => { j with kaf := j.kaf.map place }) }

/-- The JOB_START of an ended job completes, and the job is gone (R358, R401, R104). -/
def finishJob (s : State) (j : Job) : State :=
  let s := writeSafetyFlags s j
  let s := releaseSave s j
  let s := s.upSaf (fun f => { f with unchecked := f.unchecked.filter (· ≠ j.id) })
  if j.kaf.isSome then s
  else finishStart s j (if j.entries.all (fun e => e.state = 1) then 0 else 0x12) (jobResult j)

/-- A queued job leaves its queue before it held any unit: ABORTED or DESCHEDULED (R247, R358). -/
def dequeueJob (s : State) (j : Job) (status : Nat) : State :=
  let s := releaseSave s j
  if j.kaf.isSome then s
  else complete s j.slice { tag := j.tag, pos := j.pos, op := 0x0301, wait := .job j.id } status 0 (payload [(8, 8, s.cue.count.toNat)])

/-- A job is aborted (R356): a queued one that never held a unit leaves its queue, any other terminates. -/
def abortJob (s : State) (j : Job) : State :=
  if j.phase = .queued ∧ j.entries.all (fun e => e.unit.isNone) then dequeueJob s j 0x13
  else if j.phase = .ended then s
  else terminateJob s j.id none 0x0B 0x0B

/-- The job needs the paired cross-check of R425. -/
def crossChecked (s : State) (j : Job) : Bool := s.fab.twinMode == 2 && j.e.cls == 3 && j.kaf.isNone

/-- The record of R425 for a job. -/
def crossRecord (j : Job) (sig : DWord) : CrossRecord :=
  { startCue := j.startCue, scene := j.scene.toNat, name := j.e.name, completed := j.entries.all (fun e => e.state = 1), sig := sig }

def sameKey (a b : CrossRecord) : Bool := a.startCue == b.startCue && a.scene == b.scene && a.name == b.name

/-- An outcome of a cross-check: UNCHECKED unless it passed, then the completion (R426). -/
def settleCross (s : State) (j : Job) (passed : Bool) (code : Option Byte) : State :=
  let s := if passed then s else s.upSaf (fun f => { f with unchecked := f.unchecked ++ [j.id] })
  let s := match code with
    | some c => raiseCode s .a c
    | none => s
  let s := s.upSaf (fun f => { f with crossMine := f.crossMine.filter (fun p => p.2 ≠ j.id) })
  finishJob s j

/-- Both records of a key are present (R425). -/
def compareCross (s : State) (j : Job) (mine theirs : CrossRecord) : State :=
  let s := s.upSaf (fun f => { f with crossTheirs := f.crossTheirs.filter (fun r => ¬ sameKey r mine) })
  if ¬ mine.completed ∨ ¬ theirs.completed then settleCross s j false (some 0x14)
  else if mine.sig = theirs.sig then settleCross s j true none
  else settleCross s j false (some 0x13)

/-- The jobs that have ended and wait for their cross-check. -/
def pendingCross (s : State) : List Job := s.jobs.filter (fun j => j.phase == .ended && j.kaf.isNone)

/-- Every job whose comparison is pending completes with UNCHECKED (R426, link loss). -/
def failPendingCross (s : State) : State := (pendingCross s).foldl (fun s j => settleCross s j false none) s

/-- At the end of the cue after a job's end, with no record of the partner, CROSS_MISSING is raised (R425). -/
def missCross (s : State) : State :=
  let late (j : Job) : Bool :=
    decide (j.endCue + 2 ≤ s.cue.count) && !s.saf.crossTheirs.any (fun r => sameKey r (crossRecord j 0))
  ((pendingCross s).filter late).foldl (fun s j => settleCross s j false (some 0x14)) s

/-! ### Overruns (R25, R244 to R246) -/

/-- A unit asked to stop for a suspension or a pre-emption. -/
def askUnit (suspend : Bool) (s : State) (u : UnitId) : State :=
  s.upUnit u (fun x => { x with phase := match x.phase with
    | .running => .preemptWanted suspend
    | .saved => .preemptStopped suspend
    | .preemptWanted b => .preemptWanted (b || suspend)
    | .preemptAsked t b => .preemptAsked t (b || suspend)
    | .preemptStopped b => .preemptStopped (b || suspend)
    | p => p })

/-- The OVERRUN notice, and its count. -/
def overrunNotice (s : State) (j : Job) (action : Nat) : State :=
  let s := s.upSlice j.slice (fun x => { x with diag := tup 0 x.diag 2 (· + 1) })
  let d := payload [(0, 4, j.tag.toNat), (4, 1, j.scene.toNat), (5, 1, action)]
  if j.kaf.isSome then s
  else if s.cue.atEdge then s.upCue (fun c => { c with owed := c.owed ++ [{ slice := j.slice, payload := d }] })
  else notify s j.slice 0x01 1 d

/-- The notices of the closed cue's overruns that are for some slices are written (step 9 of Table 1-4). -/
def writeOwed (s : State) (mine : SliceId → Bool) : State :=
  (s.cue.owed.filter (fun x => mine x.slice)).foldl (fun s x => notify s x.slice 0x01 1 x.payload)
    (s.upCue (fun c => { c with owed := c.owed.filter (fun x => !mine x.slice) }))

/-- A job terminated as an overrun (R245). -/
def overrunEnd (s : State) (j : Job) (action : Nat) : State :=
  jobSafety (overrunNotice (terminateJob s j.id none 0x07 0x07) j action) j 0x01 0 none

/-- One suspension more would exceed the carry limit (R246). -/
def carrySpent (j : Job) : Bool := j.carryLimit != 0 && decide (j.carryLimit < j.suspensions + 1)

end Sys2Proof.Machine
end

