-- ==== Sys2Proof/Machine/Numbers.lean ====
section
/-! DEFINITION. Element formats, rounding, conversion and Pip blocks (R45 to R53), exact and rounded
arithmetic (R56, R57, R116) and the flags of Table 2-3. -/

namespace Sys2Proof.Machine

/-! ### Flags (Table 2-3, as bits 4:0 of Table 3-10) -/

def fSat : Byte := 1
def fUfl : Byte := 2
def fNan : Byte := 4
def fTol : Byte := 8
def fRetry : Byte := 16

/-- A result with the flags it sets. -/
abbrev Flagged (α : Type) := α × Byte

/-- Several results with the union of their flags. -/
def gather {α : Type} (xs : List (Flagged α)) : Flagged (List α) := (xs.map (·.1), xs.foldl (fun f x => f ||| x.2) 0)

/-! ### Rounding -/

/-- Number of significant bits. -/
def bitLen (n : Nat) : Nat := if n = 0 then 0 else Nat.log2 n + 1

/-- rne of n / 2^k: to nearest, ties to even. -/
def rneShift (n k : Nat) : Nat :=
  let q := n / 2 ^ k
  let r := n % 2 ^ k
  if 2 * r > 2 ^ k ∨ (2 * r = 2 ^ k ∧ q % 2 = 1) then q + 1 else q

/-- rne of the quotient of two integers, the divisor positive. -/
def rneDiv (n : Int) (d : Nat) : Int :=
  let a := n.natAbs
  let q := a / d
  let r := a % d
  let m := if 2 * r > d ∨ (2 * r = d ∧ q % 2 = 1) then q + 1 else q
  if n < 0 then -(m : Int) else m

/-- rne of v × 2^e for an integer v. -/
def rneScale (v : Int) (e : Int) : Int :=
  if 0 ≤ e then v * (2 ^ e.toNat : Nat) else rneDiv v (2 ^ (-e).toNat)

/-- floor of v × 2^e. -/
def floorScale (v : Int) (e : Int) : Int :=
  if 0 ≤ e then v * (2 ^ e.toNat : Nat) else v.fdiv ((2 ^ (-e).toNat : Nat) : Int)

/-- Saturation to a range: the value and whether it was outside. -/
def clampTo (lo hi v : Int) : Int × Bool := if v < lo then (lo, true) else if hi < v then (hi, true) else (v, false)

/-- Saturation to n-bit two's complement. -/
def satS (n : Nat) (v : Int) : Int × Bool := clampTo (-(2 ^ (n - 1) : Nat)) (((2 ^ (n - 1) : Nat) : Int) - 1) v

/-- Saturation to n bits unsigned. -/
def satU (n : Nat) (v : Int) : Int × Bool := clampTo 0 (((2 ^ n : Nat) : Int) - 1) v

/-! ### Values -/

/-- A floating-point value: a NaN, an infinity, or sign and magnitude m × 2^e. -/
inductive FVal where
  | nan
  | inf (neg : Bool)
  | fin (neg : Bool) (m : Nat) (e : Int)
  deriving DecidableEq, Repr

/-- A floating-point format: exponent bits, fraction bits, and whether it has infinities (Table 2-1). -/
structure FFmt where
  ew : Nat
  mw : Nat
  hasInf : Bool
  deriving DecidableEq, Repr

def fp32 : FFmt := { ew := 8, mw := 23, hasInf := true }
/-- The format of a 64-bit check accumulator of float rows (R62). -/
def fp64 : FFmt := { ew := 11, mw := 52, hasInf := true }
def fp16 : FFmt := { ew := 5, mw := 10, hasInf := true }
def bf16 : FFmt := { ew := 8, mw := 7, hasInf := true }
def e5m2 : FFmt := { ew := 5, mw := 2, hasInf := true }
def e4m3 : FFmt := { ew := 4, mw := 3, hasInf := false }

def FFmt.width (f : FFmt) : Nat := 1 + f.ew + f.mw

/-- The exponent of the last place of a subnormal. -/
def FFmt.emin (f : FFmt) : Int := 2 - (2 ^ (f.ew - 1) : Nat) - (f.mw : Int)

/-- The canonical NaN (R46). -/
def FFmt.nan (f : FFmt) : Nat :=
  if f.hasInf then (2 ^ f.ew - 1) * 2 ^ f.mw + 2 ^ (f.mw - 1) else 2 ^ (f.ew + f.mw) - 1

/-- The largest finite magnitude. -/
def FFmt.maxBits (f : FFmt) : Nat := if f.hasInf then (2 ^ f.ew - 1) * 2 ^ f.mw - 1 else 2 ^ (f.ew + f.mw) - 2

def FFmt.infBits (f : FFmt) : Nat := (2 ^ f.ew - 1) * 2 ^ f.mw

def signBit (f : FFmt) (neg : Bool) (w : Nat) : Nat := if neg then w + 2 ^ (f.ew + f.mw) else w

/-- The value of a bit pattern (Table 2-1). -/
def decodeF (f : FFmt) (w : Nat) : FVal :=
  let neg := bitAt w (f.ew + f.mw)
  let x := bits w (f.ew + f.mw - 1) f.mw
  let fr := w % 2 ^ f.mw
  if x = 2 ^ f.ew - 1 ∧ f.hasInf then (if fr = 0 then .inf neg else .nan)
  else if w % 2 ^ (f.ew + f.mw) = 2 ^ (f.ew + f.mw) - 1 ∧ ¬ f.hasInf then .nan
  else if x = 0 then .fin neg fr f.emin
  else .fin neg (fr + 2 ^ f.mw) (f.emin + (x - 1 : Nat))

/-- A magnitude rounded to the format, to nearest with ties to even, with the exponent unbounded above:
the bit pattern without its sign, which exceeds `maxBits` on overflow. -/
def roundMag (f : FFmt) (m : Nat) (e : Int) : Nat :=
  let q := max f.emin (e + bitLen m - (f.mw + 1 : Nat))
  let r := if q ≤ e then m * 2 ^ (e - q).toNat else rneShift m (q - e).toNat
  if r < 2 ^ f.mw then r else r - 2 ^ f.mw + ((q - f.emin).toNat + 1) * 2 ^ f.mw

/-- Conversion into a floating-point format (R51). Whether a value saturates is judged after it is rounded (DESIGN CHOICE,
log entry 96). -/
def convertF (f : FFmt) (v : FVal) : Flagged Nat := match v with
  | .nan => (f.nan, fNan)
  | .inf neg => if f.hasInf then (signBit f neg f.infBits, 0) else (signBit f neg f.maxBits, fSat ||| fNan)
  | .fin neg m e =>
    let w := roundMag f m e
    if f.maxBits < w then (signBit f neg f.maxBits, fSat)
    else (signBit f neg w, if w = 0 ∧ m ≠ 0 then fUfl else 0)

/-- The result of an IEEE 754-2019 operation in a format (R116): overflow gives an infinity; SAT and UFL
as in R120, when the operands were finite. -/
def resultF (f : FFmt) (finite : Bool) (v : FVal) : Flagged Nat := match v with
  | .nan => (f.nan, 0)
  | .inf neg => (signBit f neg f.infBits, if finite then fSat else 0)
  | .fin neg m e =>
    let w := roundMag f m e
    if f.maxBits < w then (signBit f neg f.infBits, if finite then fSat else 0)
    else (signBit f neg w, if w = 0 ∧ m ≠ 0 then fUfl else 0)

/-- The exact integer of a finite value times 2^k, rounded by rne. -/
def rneVal (neg : Bool) (m : Nat) (e : Int) : Int := rneScale (if neg then -(m : Int) else m) e

/-- Conversion into an n-bit signed integer (R51). -/
def convertI (n : Nat) (v : FVal) : Flagged Int := match v with
  | .nan => (0, fNan)
  | .inf neg => ((if neg then -(2 ^ (n - 1) : Nat) else ((2 ^ (n - 1) : Nat) : Int) - 1), fSat ||| fNan)
  | .fin neg m e =>
    let r := rneVal neg m e
    let c := satS n r
    (c.1, (if c.2 then fSat else 0) ||| (if r = 0 ∧ m ≠ 0 then fUfl else 0))

/-- Conversion into an n-bit unsigned integer. -/
def convertU (n : Nat) (v : FVal) : Flagged Int := match v with
  | .nan => (0, fNan)
  | .inf neg => ((if neg then 0 else ((2 ^ n : Nat) : Int) - 1), fSat ||| fNan)
  | .fin neg m e =>
    let r := rneVal neg m e
    let c := satU n r
    (c.1, (if c.2 then fSat else 0) ||| (if r = 0 ∧ m ≠ 0 then fUfl else 0))

/-- narrow() of R52: rne(v × 2^−s), saturated to n bits. A value other than 0 that becomes 0 sets UFL (Table 2-3; DEDUCED, log
entry 97). -/
def narrow (n s : Nat) (v : Int) : Flagged Int :=
  let r := rneDiv v (2 ^ s)
  let c := satS n r
  (c.1, (if c.2 then fSat else 0) ||| (if r = 0 ∧ v ≠ 0 then fUfl else 0))

def intVal (v : Int) : FVal := .fin (decide (v < 0)) v.natAbs 0

/-! ### Exact arithmetic on values -/

def FVal.isFin : FVal → Bool
  | .fin _ _ _ => true
  | _ => false

def FVal.isZero : FVal → Bool
  | .fin _ m _ => m == 0
  | _ => false

def negV : FVal → FVal
  | .nan => .nan
  | .inf n => .inf (!n)
  | .fin n m e => .fin (!n) m e

/-- The signed significand at the exponent `q`, which is at most `e`. -/
def atExp (neg : Bool) (m : Nat) (e q : Int) : Int :=
  let v := m * 2 ^ (e - q).toNat
  if neg then -(v : Int) else v

/-- The exact sum (IEEE 754-2019: a sum of zeros of unlike sign, or a cancellation, is +0). -/
def addV : FVal → FVal → FVal
  | .nan, _ => .nan
  | _, .nan => .nan
  | .inf a, .inf b => if a = b then .inf a else .nan
  | .inf a, _ => .inf a
  | _, .inf b => .inf b
  | .fin a m e, .fin b n f =>
    let q := min e f
    let v := atExp a m e q + atExp b n f q
    if v = 0 then .fin (a && b) 0 0 else .fin (decide (v < 0)) v.natAbs q

def subV (a b : FVal) : FVal := addV a (negV b)

/-- The exact product. -/
def mulV : FVal → FVal → FVal
  | .nan, _ => .nan
  | _, .nan => .nan
  | .inf a, .inf b => .inf (a ^^ b)
  | .inf a, .fin b n _ => if n = 0 then .nan else .inf (a ^^ b)
  | .fin a m _, .inf b => if m = 0 then .nan else .inf (a ^^ b)
  | .fin a m e, .fin b n f => .fin (a ^^ b) (m * n) (e + f)

/-- The quotient to more than 64 significant bits, its last bit sticky. -/
def divV : FVal → FVal → FVal
  | .nan, _ => .nan
  | _, .nan => .nan
  | .inf _, .inf _ => .nan
  | .inf a, .fin b _ _ => .inf (a ^^ b)
  | .fin a _ _, .inf b => .fin (a ^^ b) 0 0
  | .fin a m e, .fin b n f =>
    if n = 0 then (if m = 0 then .nan else .inf (a ^^ b))
    else
      let k := 66 + bitLen n
      let q := (m * 2 ^ k) / n
      let st := if (m * 2 ^ k) % n = 0 then 0 else 1
      .fin (a ^^ b) (2 * q + st) (e - f - k - 1)

/-- The integer square root, bit by bit from bit k. -/
def isqrtFrom (n : Nat) : Nat → Nat → Nat
  | 0, r => r
  | k + 1, r => if (r + 2 ^ k) * (r + 2 ^ k) ≤ n then isqrtFrom n k (r + 2 ^ k) else isqrtFrom n k r

def isqrt (n : Nat) : Nat := isqrtFrom n (bitLen n / 2 + 1) 0

/-- The square root to more than 64 significant bits, its last bit sticky. -/
def sqrtV : FVal → FVal
  | .nan => .nan
  | .inf neg => if neg then .nan else .inf false
  | .fin neg m e =>
    if m = 0 then .fin neg 0 0
    else if neg then .nan
    else
      let m := if e % 2 = 0 then m else 2 * m
      let e := if e % 2 = 0 then e else e - 1
      let x := m * 2 ^ 132
      let r := isqrt x
      .fin false (2 * r + (if r * r = x then 0 else 1)) (e / 2 - 67)

/-- Comparison of finite values and infinities: `none` with a NaN operand. -/
def cmpV : FVal → FVal → Option Ordering
  | .nan, _ => none
  | _, .nan => none
  | .inf a, .inf b => some (if a = b then .eq else if a then .lt else .gt)
  | .inf a, _ => some (if a then .lt else .gt)
  | _, .inf b => some (if b then .gt else .lt)
  | .fin a m e, .fin b n f =>
    let q := min e f
    some (compare (atExp a m e q) (atExp b n f q))

def negOf : FVal → Bool
  | .nan => false
  | .inf n => n
  | .fin n _ _ => n

/-- a orders strictly below b, −0 below +0 (R116). -/
def belowV (a b : FVal) : Bool := match cmpV a b with
  | some .lt => true
  | some .eq => negOf a && !negOf b
  | _ => false

/-- minimumNumber and maximumNumber of IEEE 754-2019 (R116). -/
def minV (a b : FVal) : FVal := if a = .nan then b else if b = .nan then a else if belowV b a then b else a
def maxV (a b : FVal) : FVal := if a = .nan then b else if b = .nan then a else if belowV a b then b else a

/-- The largest integral value at most v. -/
def floorV : FVal → FVal
  | .fin n m e =>
    if 0 ≤ e ∨ m = 0 then .fin n m e
    else
      let v := floorScale (if n then -(m : Int) else m) e
      .fin n v.natAbs 0
  | v => v

/-- Rounded to an integral value, ties to even. -/
def roundV : FVal → FVal
  | .fin n m e => if 0 ≤ e ∨ m = 0 then .fin n m e else .fin n (rneVal n m e).natAbs 0
  | v => v

/-! ### FP32 steps of the engines (R57, R154) -/

/-- A value rounded to FP32. -/
def r32 (v : FVal) : FVal := decodeF fp32 (resultF fp32 true v).1

def add32 (a b : FVal) : FVal := r32 (addV a b)
def mul32 (a b : FVal) : FVal := r32 (mulV a b)
def zeroV : FVal := .fin false 0 0

/-- An exact sum. -/
def sumV (vs : List FVal) : FVal := vs.foldl addV zeroV

/-- One addition into an FP32 accumulator: beyond the largest finite magnitude it saturates and sets SAT (R57); a sum that is
not 0 and becomes 0 sets UFL (Table 2-3). -/
def accStep (a v : FVal) : Flagged FVal :=
  let c := convertF fp32 (addV a v)
  (decodeF fp32 c.1, c.2)

/-- A group sum rounded once to FP32, then added (R57). -/
def accumulate (a g : FVal) : Flagged FVal :=
  let x := convertF fp32 g
  let r := accStep a (decodeF fp32 x.1)
  (r.1, r.2 ||| x.2)

/-- A value rounded into a 64-bit check accumulator. -/
def r64 (v : FVal) : FVal := decodeF fp64 (resultF fp64 true v).1

/-- A list cut in runs of n. -/
def runs {α : Type} (n : Nat) : Nat → List α → List (List α)
  | 0, _ => []
  | fuel + 1, xs => if xs.isEmpty then [] else xs.take n :: runs n fuel (xs.drop n)

def groupsOf {α : Type} (n : Nat) (xs : List α) : List (List α) := runs n (xs.length / n + 1) xs

/-- A float sum in a 64-bit check accumulator: the exact sum of each group of 32 rounded once, and each addition (R57, R62; log
entry 99). -/
def checkSum (vs : List FVal) : FVal := (groupsOf 32 vs).foldl (fun r g => r64 (addV r (r64 (sumV g)))) zeroV

/-- One output of a floating-point reduction (R57). -/
def fpReduce (a b : List FVal) : Flagged FVal :=
  let bad := (a ++ b).any (fun v => !v.isFin)
  let acc := (groupsOf 32 (List.zipWith mulV a b)).foldl
    (fun (r : Flagged FVal) g => let x := accumulate r.1 (sumV g); (x.1, r.2 ||| x.2)) (zeroV, 0)
  if bad then (.nan, fNan) else acc

/-! ### Pip blocks (R47 to R50) -/

/-- A Pip block: its exponent code and 32 mantissas. -/
structure PipBlock where
  e : Nat
  ms : List Int
  deriving DecidableEq, Repr

/-- The value of a mantissa (R47). -/
def pipVal (n e : Nat) (m : Int) : FVal := .fin (decide (m < 0)) m.natAbs ((e : Int) - 127 - (n - 1 : Nat))

def PipBlock.vals (n : Nat) (b : PipBlock) : List FVal := b.ms.map (pipVal n b.e)

/-- m_i of R49 for exponent code e. -/
def pipMant (n e : Nat) : FVal → Int
  | .fin neg m x => rneVal neg m (x + 127 + (n - 1 : Nat) - e)
  | _ => 0

/-- Does code e hold every value? -/
def pipFits (n : Nat) (vs : List FVal) (e : Nat) : Bool :=
  vs.all (fun v => match v with
    | .inf _ => false
    | .nan => true
    | v => decide ((pipMant n e v).natAbs ≤ 2 ^ (n - 1) - 1))

/-- A saturated mantissa of step 3. -/
def pipSat (n : Nat) (v : FVal) : Int :=
  let top : Int := ((2 ^ (n - 1) : Nat) : Int) - 1
  match v with
  | .nan => 0
  | .inf neg => if neg then -top else top
  | v => (clampTo (-top) top (pipMant n 255 v)).1

/-- Conversion of 32 values into a block (R49). A NaN or an infinity, which Pip cannot hold, sets NAN (Table 2-3). -/
def toPip (n : Nat) (vs : List FVal) : Flagged PipBlock :=
  let nan := if vs.any (fun v => !v.isFin) then fNan else 0
  if vs.all (fun v => v == .nan || v.isZero) then ({ e := 0, ms := vs.map (fun _ => 0) }, nan)
  else
    let b : PipBlock × Byte := match (List.range 256).find? (pipFits n vs) with
      | some e => ({ e := e, ms := vs.map (pipMant n e) }, 0)
      | none => ({ e := 255, ms := vs.map (pipSat n) }, fSat)
    let ufl := (vs.zip b.1.ms).any (fun p => p.1.isFin && !p.1.isZero && p.2 == 0)
    (b.1, b.2 ||| nan ||| (if ufl then fUfl else 0))

/-- The packed mantissas of a block (Table 2-2). -/
def pipPack (n : Nat) (ms : List Int) : Bytes :=
  leBytes (4 * n) (ms.foldr (fun m acc => wrapBits n m + 2 ^ n * acc) 0)

/-- The 32 mantissas of a packed block. -/
def pipUnpack (n : Nat) (bs : Bytes) : List Int := (List.range 32).map (fun i => signed n (leNat bs / 2 ^ (n * i)))

/-! ### Format codes (Table 3-8) -/

/-- Bits of an element or mantissa of a format code. -/
def fmtBits (c : Nat) : Nat :=
  [4, 8, 16, 32, 4, 6, 8, 8, 8, 16, 16, 32].getD c 0

def isPip (c : Nat) : Bool := decide (4 ≤ c ∧ c ≤ 6)
def isInt (c : Nat) : Bool := decide (c ≤ 3)

def floatFmt (c : Nat) : FFmt :=
  if c = 7 then e4m3 else if c = 8 then e5m2 else if c = 9 then bf16 else if c = 10 then fp16 else fp32

/-- Element i of a run of bits of a format code, as raw bits. -/
def elemBits (w : Nat) (bs : Bytes) (i : Nat) : Nat :=
  if w % 8 = 0 then fieldOf bs (i * (w / 8)) (w / 8) else leNat bs / 2 ^ (w * i) % 2 ^ w

/-- The value of raw element bits of an integer or floating format. -/
def elemVal (c raw : Nat) : FVal := if isInt c then intVal (signed (fmtBits c) raw) else decodeF (floatFmt c) raw

/-- Raw elements packed into bytes; the bits of the last byte that no element takes are 0 (DESIGN CHOICE, log entry 98). -/
def packElems (w : Nat) (xs : List Nat) : Bytes :=
  leBytes ((xs.length * w + 7) / 8) (xs.foldr (fun x acc => x % 2 ^ w + 2 ^ w * acc) 0)

/-- One value converted into an integer or floating format code. -/
def convertTo (c : Nat) (v : FVal) : Flagged Nat :=
  if isInt c then let r := convertI (fmtBits c) v; (wrapBits (fmtBits c) r.1, r.2) else convertF (floatFmt c) v

end Sys2Proof.Machine
end

