-- ==== Sys2Proof/Machine/CoreOps.lean ====
section
/-! DEFINITION. Core store accesses with their checks (R59 to R61, R72), the flag log, status words and
engine queues (R76, R100). -/

namespace Sys2Proof.Machine

def State.core (s : State) (c : CoreId) : CoreSt := tget {} s.cores c.toNat
def State.upCore (s : State) (c : CoreId) (f : CoreSt → CoreSt) : State := { s with cores := tup {} s.cores c.toNat f }
def State.ve (s : State) (c : CoreId) : VeSt := (s.core c).ve
def State.upVe (s : State) (c : CoreId) (f : VeSt → VeSt) : State := s.upCore c (fun x => { x with ve := f x.ve })

def tagOf (d : Line) : Half := BitVec.ofNat 16 (fld d 2 2)

/-- The unit stops at descriptor d: TAG of its status record (Table 3-11). -/
def atDesc (s : State) (u : UnitId) (d : Line) : State := s.upSeq u (fun q => { q with tag := tagOf d })

/-- A descriptor fails its unit (R524). -/
def failDesc (s : State) (u : UnitId) (d : Line) (reason : Byte) : State := failUnit (atDesc s u d) u reason

/-! ### The core store -/

/-- The size of a core store (R71). -/
def storeSize : Nat := 0x400000

/-- The first granule of a store range that fails its check: whether it is poisoned. -/
def storeBad (s : State) (c : CoreId) (off len : Nat) : Option Bool :=
  ((s.mem.store.bad (storeBase c + off) len).head?).map (fun g => tget 0 s.mem.store.syn g == 0xFFFF)

def storeRead (s : State) (c : CoreId) (off len : Nat) : Bytes := s.mem.store.read (storeBase c + off) len

/-- The stored granules a write covers in part and that fail (R60, R61). -/
def storeMergeBad (s : State) (c : CoreId) (off len : Nat) : List Half :=
  let a := storeBase c + off
  ((s.mem.store.bad a len).filter (fun g => ¬ (a ≤ 64 * g ∧ 64 * g + 64 ≤ a + len))).map (fun g => tget 0 s.mem.store.syn g)

/-- Single-bit errors corrected and written back are counted (R65, R72). -/
def eccCount (s : State) (u : UnitId) (n : Nat) : State := s.upUnit u (fun x => { x with eccCorrected := x.eccCorrected + n })

/-- The granules that some writes into a core's store touch. -/
def touched (base : Nat) (ws : List (Nat × Bytes)) : List Nat := (ws.flatMap (fun w => granules (base + w.1) w.2.length)).eraseDups

/-- The writes cover every byte of a granule. -/
def coversGranule (base : Nat) (ws : List (Nat × Bytes)) (g : Nat) : Bool :=
  (List.range 64).all (fun i => ws.any (fun w => decide (base + w.1 ≤ 64 * g + i) && decide (64 * g + i < base + w.1 + w.2.length)))

/-- Several writes stored as one: a granule they cover gets a valid check, another keeps a valid check only if its stored
contents passed (R60, R61). -/
def Ram.writeParts (m : Ram) (base : Nat) (ws : List (Nat × Bytes)) : Ram :=
  { (ws.foldl (fun m w => m.poke (base + w.1) w.2) m) with
    syn := (touched base ws).foldl (fun t g => if coversGranule base ws g ∨ tget 0 t g = 0 then tset 0 t g 0 else tset 0 t g 0xFFFF) m.syn }

/-- How a write of unit u ends that merged onto granules of these checks (R61). -/
def mergeEnd (s : State) (u : UnitId) (bad : List Half) : State :=
  if bad.any (fun x => x != 0xFFFF) then failCheck s u 3 false
  else if bad.isEmpty then s
  else match jobOf s u with
    | some j => reportMerge s u j 6
    | none => s

/-- A write into a core's store by unit u, after which no kept buffer counts as resident there (R239): a merge that meets a corrupt granule stores it poisoned and
fails the writing job; one that meets a poisoned granule is reported as poisoned (R61). -/
def storeWrite (s : State) (u : UnitId) (c : CoreId) (off : Nat) (bs : Bytes) : State :=
  let bad := storeMergeBad s c off bs.length
  let s := s.upMem (fun m => { m with store := m.store.write (storeBase c + off) bs })
  mergeEnd (s.upUnit (.core c) (fun x => { x with resident := [] })) u bad

/-- The writes of one step of unit u's vector engine into its store: a granule that they cover together is written whole, and
another is verified once; one that fails, poisoned or not, is stored poisoned and ends the job (R61, R122). -/
def storeParts (s : State) (u : UnitId) (c : CoreId) (ws : List (Nat × Bytes)) : State :=
  let base := storeBase c
  let bad := ((touched base ws).filter (fun g => tget 0 s.mem.store.syn g ≠ 0 && !coversGranule base ws g)).map (fun g => tget 0 s.mem.store.syn g)
  let s := s.upMem (fun m => { m with store := m.store.writeParts base ws })
  let s := s.upUnit (.core c) (fun x => { x with resident := [] })
  match bad.head? with
  | some x => if x = 0xFFFF then failCheck s u 6 true else failCheck s u 3 false
  | none => s

/-! ### Slice memory as a unit's work reaches it -/

/-- The granules of slice memory that a write covers in part and whose stored check fails: a DRAM re-read
fails again, so the merged granule is stored poisoned and reported; the writing job goes on (R61). -/
def mergeReport (s : State) (u : UnitId) (j : Job) (va len : Nat) : State :=
  (mergesBad s j.slice (actorOf j) va len).foldl (fun s x => reportMerge s u j (if x = 0xFFFF then 6 else 2)) s

/-- A write of a job's data into slice memory, drawn on its account (R275). -/
def jobWrite (s : State) (u : UnitId) (j : Job) (va : Nat) (bs : Bytes) : State :=
  unitAccess (writeVa (mergeReport s u j va bs.length) j.slice (actorOf j) va bs) u true .write va bs.length false

def jobRead (s : State) (j : Job) (va len : Nat) : ReadRes := readVa s j.slice (actorOf j) .read va len

/-- A job's access that does not translate, or is denied: TRANSLATION (R84, R264). -/
def failAccess (s : State) (u : UnitId) (va : Nat) : State :=
  failUnit (match jobOf s u with
    | some j => meetEntry s (UnitId.die u) j.slice (actorOf j) va
    | none => s) u 0x04

/-- What a job does on a failed read: TRANSLATION (R84), or the check rows of Table 2-7. -/
def failRead (s : State) (u : UnitId) : ReadRes → State
  | .fault va => failAccess s u va
  | .check _ p => failCheck s u (if p then 6 else 2) p
  | .ok _ => s

/-! ### Retries (R67) -/

/-- An operation as R67 names it: the job, its unit unless a granule's address names the operation, and the key. -/
def retryKey (s : State) (u : UnitId) (key : Nat) : Nat × Option UnitId × Nat := (((s.unit u).job).getD 0, some u, key)

/-- The outcome of a check when the same operation has already been retried in this cue (R67). -/
def chkOutcome (s : State) (u : UnitId) (key : Nat) (k : Chk) : Chk :=
  if k = .transient ∧ retryKey s u key ∈ s.cue.retried then .fail else k

/-- A retry that passed is remembered for the cue. -/
def noteRetry (s : State) (u : UnitId) (key : Nat) : State :=
  s.upCue (fun c => { c with retried := retryKey s u key :: c.retried })

/-- A check's outcome applied: go on with `t`, go on after a reported retry, or fail under `row`. -/
def checkedBy (s t : State) (u : UnitId) (key row : Nat) (k : Chk) : State :=
  match chkOutcome s u key k with
  | .pass => t
  | .transient => transientCheck (noteRetry t u key) u row
  | .fail => failCheck s u row false
  | .corrected => eccCount t u 1
  | .double => failCheck s u 3 false

/-- A job's read of the granule at `va` in DRAM, on which the reader's check answered `k` (Table 2-7, R67);
a read of host memory has no such check. -/
def readBy (s t : State) (u : UnitId) (j : Job) (va : Nat) (k : Chk) : State :=
  match translate s j.slice (actorOf j) .read va with
  | some (.dram a) =>
    let key : Nat × Option UnitId × Nat := (j.id, none, a / 64)
    match k with
    | .pass => t
    | .transient => if key ∈ s.cue.retried then failCheck s u 2 false
      else transientCheck ((evictLine t a).upCue (fun c => { c with retried := key :: c.retried })) u 2
    | .corrected => eccCount t u 1
    | _ => failCheck s u 2 false
  | _ => t

/-- A job's merge onto the granule at `va`, on which the floor's check answered `k` (R61, R67): a re-read that passes counts as
transient; one that fails, or that may not be made again in this cue, leaves the merged granule poisoned, and the job goes on. -/
def mergeBy (s t : State) (u : UnitId) (j : Job) (va len : Nat) (k : Chk) : State :=
  match translate s j.slice (actorOf j) .write va with
  | some (.dram a) =>
    let key : Nat × Option UnitId × Nat := (j.id, none, a / 64)
    let bad := reportMerge (t.upMem (fun m => { m with dram := m.dram.poison a 1 })) u j 2
    if a % 64 = 0 ∧ 64 ≤ len then t
    else match k with
      | .transient => if key ∈ s.cue.retried then bad
        else transientCheck ((evictLine t a).upCue (fun c => { c with retried := key :: c.retried })) u 2
      | .fail => bad
      | _ => t
  | _ => t

/-! ### Status words and the flag log (R100) -/

/-- A status word of Table 3-10. -/
def statusWord (tag : Half) (engine : Nat) (flags : Byte) : Word :=
  BitVec.ofNat 32 (tag.toNat * 65536 + engine * 256 + flags.toNat % 32)

/-- A status word with flags enters the flag log of its unit (R100); an enclave's entries stay in its own save
area (R382). -/
def logFlags (s : State) (u : UnitId) (w : Word) : State :=
  let f : Byte := BitVec.ofNat 8 (w.toNat % 32)
  if f = 0 then s
  else
    let q := (s.unit u).seq
    let s := match jobOf s u with
      | none => s
      | some j =>
        if j.flagVa = 0 ∨ j.enclave.isSome ∨ 256 ≤ q.flagLog then s
        else writeBy s (midUnit u) j.slice (.slice j.slice) (j.flagVa + 2048 * (s.unit u).entry + 8 * q.flagLog)
          (leBytes 4 w.toNat ++ leBytes 4 s.cue.count.toNat)
    s.upSeq u (fun q => { q with flags := q.flags ||| f, flagLog := q.flagLog + 1 })

/-! ### Engine queues (R76) -/

/-- The queue of an engine. -/
def Seq.queue (q : Seq) : EngineId → List QItem
  | .se => q.se
  | .te => q.te
  | .ve => q.ve
  | .own => q.own

def Seq.setQueue (q : Seq) (e : EngineId) (xs : List QItem) : Seq := match e with
  | .se => { q with se := xs }
  | .te => { q with te := xs }
  | .ve => { q with ve := xs }
  | .own => { q with own := xs }

/-- The descriptor an engine is to perform: the head of its queue, not yet performed. -/
def headOf (s : State) (u : UnitId) (e : EngineId) : Option Line :=
  if ¬ working s u then none
  else match (s.unit u).seq.queue e with
    | x :: _ => if x.ran then none else some x.d
    | [] => none

/-- The head of an engine's queue has been performed with a status word. -/
def ran (s : State) (u : UnitId) (e : EngineId) (status : Word) : State :=
  s.upSeq u (fun q => { q with asked := false }.setQueue e (match q.queue e with
    | x :: xs => { x with ran := true, status := status } :: xs
    | [] => []))

/-- The head of an engine's queue, and a change of it. -/
def headItem (s : State) (u : UnitId) (e : EngineId) : QItem := ((s.unit u).seq.queue e).headD { d := 0, ran := false, status := 0 }
def upHead (s : State) (u : UnitId) (e : EngineId) (f : QItem → QItem) : State :=
  s.upSeq u (fun q => q.setQueue e (match q.queue e with
    | x :: xs => f x :: xs
    | [] => []))

def typeOf (d : Line) : Nat := fld d 0 1

/-- The pre-emption request a unit has, if any: whether it is a suspension. -/
def requestOf : UnitPhase → Option Bool
  | .preemptWanted b => some b
  | .preemptAsked _ b => some b
  | _ => none

/-- Every engine of a unit has nothing left in its queue. -/
def enginesIdle (q : Seq) : Bool := q.se.isEmpty && q.te.isEmpty && q.ve.isEmpty && q.own.isEmpty

end Sys2Proof.Machine
end

