-- ==== Sys2Proof/Machine/Ve.lean ====
section
/-! DEFINITION. The vector engine: registers and lanes (R107 to R109), instruction fields (R111, R112),
which fields an operation may use (R113, R131), exceptions (R131, R132) and the step every vector
instruction takes. -/

namespace Sys2Proof.Machine

/-! ### Fields (Table 4-2) -/

/-- A decoded instruction word. -/
structure VI where
  w : DWord
  op : Nat
  et : Nat
  d : Nat
  a : Nat
  b : Nat
  c : Nat
  p : Nat
  pe : Bool
  zm : Bool
  bsel : Nat
  mod : Nat
  imm : Int
  deriving DecidableEq, Repr

def decodeVi (w : DWord) : VI :=
  let n := w.toNat
  { w := w, op := bits n 63 57, et := bits n 56 54, d := bits n 53 49, a := bits n 48 44, b := bits n 43 39, c := bits n 38 34,
    p := bits n 33 31, pe := bitAt n 30, zm := bitAt n 29, bsel := bits n 28 27, mod := bits n 26 24, imm := signed 24 (n % 2 ^ 24) }

/-- Lane width in bits of an element type (Table 4-3). -/
def etBits (et : Nat) : Nat := [8, 16, 32, 16, 16, 32].getD et 8

/-- Lanes of an element type (Table 4-3). -/
def etLanes (et : Nat) : Nat := 2048 / etBits et

def etFmt (et : Nat) : FFmt := if et = 3 then fp16 else if et = 4 then bf16 else fp32

/-! ### Registers (R107, R108, R128) -/

def VeSt.vr (x : VeSt) (n : Nat) : BitVec 2048 := tget 0 x.v n
def VeSt.pr (x : VeSt) (n : Nat) : BitVec 256 := tget 0 x.p n

/-- S0 reads as zero (Table 4-1). -/
def VeSt.s (x : VeSt) (n : Nat) : DWord := if n = 0 then 0 else tget 0 x.sr n

def VeSt.setV (x : VeSt) (n : Nat) (w : BitVec 2048) : VeSt := { x with v := tset 0 x.v n w }
def VeSt.setP (x : VeSt) (n : Nat) (w : BitVec 256) : VeSt := { x with p := tset 0 x.p n w }

/-- S0 ignores writes (Table 4-1). -/
def VeSt.setS (x : VeSt) (n : Nat) (w : DWord) : VeSt := if n = 0 then x else { x with sr := tset 0 x.sr n w }

def VeSt.flag (x : VeSt) (f : Byte) : VeSt := { x with flags := x.flags ||| f }

/-- The lanes of a vector register at width b (R108). -/
def lanesOf (b : Nat) (v : BitVec 2048) : List Nat := (List.range (2048 / b)).map (fun i => v.toNat / 2 ^ (b * i) % 2 ^ b)

/-- A vector register from its lanes. -/
def ofLanes (b : Nat) (xs : List Nat) : BitVec 2048 := BitVec.ofNat 2048 (xs.foldr (fun x acc => x % 2 ^ b + 2 ^ b * acc) 0)

/-- Lane i of a predicate at a width of b bits: bit i·b/8 (R108). -/
def predLane (b : Nat) (p : BitVec 256) (i : Nat) : Bool := p.getLsbD (i * (b / 8))

/-- A predicate written lane by lane: all the bits of each lane (R108). -/
def predOf (b : Nat) (xs : List Bool) : BitVec 256 :=
  BitVec.ofNat 256 (xs.foldr (fun x acc => (if x then 2 ^ (b / 8) - 1 else 0) + 2 ^ (b / 8) * acc) 0)

/-- The active lanes of an instruction over `n` lanes (R109). -/
def activeLanes (x : VeSt) (i : VI) (n : Nat) : List Bool :=
  (List.range n).map (fun k => !i.pe || predLane (etBits i.et) (x.pr i.p) k)

/-- The B operand in every lane (R111, R112). -/
def bLanes (x : VeSt) (i : VI) : List Nat :=
  let b := etBits i.et
  if i.bsel = 0 then lanesOf b (x.vr i.b)
  else
    let v := if i.bsel = 1 then (x.s i.b).toNat % 2 ^ b
      else if i.et ≤ 2 then wrapBits b i.imm
      else if i.et = 5 then wrapBits 24 i.imm * 256 else wrapBits 24 i.imm % 65536
    List.replicate (2048 / b) v

def aLanes (x : VeSt) (i : VI) : List Nat := lanesOf (etBits i.et) (x.vr i.a)
def cLanes (x : VeSt) (i : VI) : List Nat := lanesOf (etBits i.et) (x.vr i.c)

/-- The B operand of a scalar operation (R112). -/
def bScalar (x : VeSt) (i : VI) : Nat := if i.bsel = 2 then wrapBits 64 i.imm else (x.s i.b).toNat

/-- Results written to V[n] under the predicate (R109): kept or zeroed in inactive lanes. -/
def putLanes (x : VeSt) (i : VI) (b n : Nat) (act : List Bool) (rs : List (Flagged Nat)) : VeSt :=
  let old := lanesOf b (x.vr n)
  let new := (old.zip (act.zip rs)).map (fun p => if p.2.1 then p.2.2.1 else if i.zm then 0 else p.1)
  let fl := (act.zip rs).foldl (fun f p => if p.1 then f ||| p.2.2 else f) 0
  (x.setV n (ofLanes b new)).flag fl

/-- A vector operation of one lane width over lists of lane results. -/
def putV (x : VeSt) (i : VI) (rs : List (Flagged Nat)) : VeSt :=
  putLanes x i (etBits i.et) i.d (activeLanes x i (etLanes i.et)) rs

/-! ### What an operation may use (Table 4-4, ILLEGAL of Table 4-7) -/

/-- A register field: unused, or a V, P or S register. -/
inductive VReg where
  | no
  | v
  | p
  | s
  deriving DecidableEq, Repr

/-- The B operand: unused, broadcast (BSEL 0 to 2), scalar (BSEL 0 or 2), a named register (BSEL 0), or
a scalar broadcast (BSEL 1 or 2). -/
inductive VB where
  | no
  | any
  | sc
  | reg (r : VReg)
  | rot
  deriving DecidableEq, Repr

/-- The C field: unused, a V register, one option bit, or a type code. -/
inductive VC where
  | no
  | v
  | bit
  | typ
  deriving DecidableEq, Repr

/-- The IMM field: unused but for BSEL 2, used whole, its low n bits, or a lane number. -/
inductive VImm where
  | no
  | full
  | low (n : Nat)
  | lane
  deriving DecidableEq, Repr

/-- One row of Table 4-4 as fields: the types, the operands and the MOD bits it allows. -/
structure VeShape where
  op : Nat
  et : List Nat
  d : VReg := .no
  a : VReg := .no
  b : VB := .no
  c : VC := .no
  imm : VImm := .no
  mod : Nat := 0

def etZ : List Nat := [0]
def etI : List Nat := [0, 1, 2]
def etF : List Nat := [3, 4, 5]
def etAny : List Nat := [0, 1, 2, 3, 4, 5]

def regOk (r : VReg) (n : Nat) : Bool := match r with
  | .no => n == 0
  | .p => decide (n < 8)
  | _ => true

def bOk (b : VB) (i : VI) : Bool := match b with
  | .no => i.bsel == 0 && i.b == 0
  | .any => decide (i.bsel ≤ 2) && (i.bsel != 2 || i.b == 0)
  | .sc => i.bsel == 0 || (i.bsel == 2 && i.b == 0)
  | .reg r => i.bsel == 0 && regOk r i.b
  | .rot => i.bsel == 1 || (i.bsel == 2 && i.b == 0)

def cOk (c : VC) (i : VI) : Bool := match c with
  | .no => i.c == 0
  | .v => true
  | .bit => decide (i.c < 2)
  | .typ => decide (i.c < 6)

def immOk (m : VImm) (i : VI) : Bool := match m with
  | .no => i.imm == 0 || i.bsel == 2
  | .full => true
  | .low n => decide (wrapBits 24 i.imm < 2 ^ n) || i.bsel == 2
  | .lane => decide (0 ≤ i.imm) && decide (i.imm < etLanes i.et)

/-- Every field is one the operation allows. P and ZM of a vector operation with PE 0 are no unused fields (log entry 123). -/
def VeShape.ok (z : VeShape) (i : VI) : Bool :=
  z.et.contains i.et && regOk z.d i.d && regOk z.a i.a && bOk z.b i && cOk z.c i && immOk z.imm i && (i.mod &&& z.mod) == i.mod

/-- The OP values of Table 4-4. -/
def veOps : List Nat :=
  List.range 9 ++ (List.range 12).map (0x10 + ·) ++ (List.range 18).map (0x20 + ·) ++ (List.range 12).map (0x34 + ·)
  ++ (List.range 23).map (0x40 + ·) ++ (List.range 6).map (0x60 + ·) ++ (List.range 10).map (0x68 + ·) ++ (List.range 5).map (0x74 + ·)

/-! ### Exceptions (R131, R132) -/

/-- How an instruction ends: registers written, a jump, an exception with its lane and INFO, a store
granule that fails its check, writes into the store, or the end of the grid point. -/
inductive VeRes where
  | ok (x : VeSt)
  | jump (x : VeSt) (pc : Int)
  | exc (code lane info : Nat)
  | chk (poisoned : Bool)
  | store (x : VeSt) (ws : List (Nat × Bytes))
  | halt
  | sample

/-- The exception record of Table 4-8 and the end of the job (R106, R524); enclave work hides PC, INSTR and
INFO (R382). -/
def veException (s : State) (c : CoreId) (code : Nat) (instr : Nat) (lane info : Nat) : State :=
  let u := UnitId.core c
  let x := s.ve c
  match jobOf s u with
  | none => s
  | some j =>
    let shown (v : Nat) : Nat := if j.enclave.isSome then 0 else v
    let rec_ := [BitVec.ofNat 8 code, BitVec.ofNat 8 (fld x.d 4 1)] ++ leBytes 2 (tagOf x.d).toNat ++ leBytes 2 (shown (wrapBits 16 x.pc)) ++ zeros 2
      ++ leBytes 8 (shown instr) ++ leBytes 2 x.gx ++ leBytes 2 x.gy ++ leBytes 2 lane ++ zeros 2 ++ leBytes 4 (shown info) ++ zeros 4
    let s := statusWrite s j (s.unit u).entry 64 rec_
    failDesc (s.upVe c (fun x => { x with running := false, driver := none })) u x.d 0x08

/-- The word at PC, if PC lies in the loaded code (R127). -/
def veWord (x : VeSt) : Option DWord := if x.pc < 0 then none else x.code[x.pc.toNat]?

/-! ### Launch and grid points (R126 to R129) -/

/-- Registers at the start of a grid point (R128). -/
def startPoint (s : State) (c : CoreId) (gx gy : Nat) (x : VeSt) : VeSt :=
  let x := [1, 2, 3, 4, 5].foldl (fun (x : VeSt) k => x.setS k (BitVec.ofNat 64 (fld x.d (16 + 8 * k) 8))) { x with gx := gx, gy := gy, pc := 0 }
  let x := x.setS 6 (BitVec.ofNat 64 gx)
  let x := x.setS 7 (BitVec.ofNat 64 gy)
  let x := x.setS 8 (BitVec.ofNat 64 c.toNat)
  x.setS 9 (BitVec.ofNat 64 (s.cue.count.toNat % 2 ^ 32))

/-- HALT: the next grid point, or the launch has run (R128, R129). -/
def veHalt (s : State) (c : CoreId) : State :=
  let x := s.ve c
  if x.gx + 1 < fld x.d 6 2 then s.upVe c (startPoint s c (x.gx + 1) x.gy)
  else if x.gy + 1 < fld x.d 8 2 then s.upVe c (startPoint s c 0 (x.gy + 1))
  else
    let w := statusWord (tagOf x.d) 2 x.flags
    let s' := s.upVe c (fun x => { x with running := false })
    if x.driver.isSome then logFlags s' (.core c) w else ran s' (.core c) .ve w

/-! ### The step of a vector instruction -/

/-- One instruction at one PC, at one grid point of one launch (R67). -/
def veKey (x : VeSt) : Nat :=
  4 * ((((x.launches * 65536 + x.gy) * 65536 + x.gx) * 65536) + x.pc.toNat) + 1

/-- An instruction has run: counted, and PC moved on. -/
def VeSt.next (x : VeSt) (pc : Int) : VeSt := { x with pc := pc, count := x.count + 1 }

/-- The linear-feedback register of core c selects its next instruction for duplication, n steps on: one of 8 (R65, log
entry 106). -/
def veSelected (s : State) (c : CoreId) (n : Nat) : Bool :=
  let x := s.unit (.core c)
  (Config.samplingRegister c.toNat x.lfsrCue.toNat (x.lfsrSteps + n)).toNat % 8 == 0

/-- The register steps once for each instruction that sampling covers. -/
def veDraw (s : State) (c : CoreId) (n : Nat) : State := s.upUnit (.core c) (fun x => { x with lfsrSteps := x.lfsrSteps + n })

/-- The state after an instruction that passed its checks. -/
def veApply (s : State) (c : CoreId) (i : VI) (x : VeSt) : VeRes → State
  | .ok y => s.upVe c (fun _ => y.next (x.pc + 1))
  | .jump y pc => s.upVe c (fun _ => y.next pc)
  | .exc code lane info => veException s c code i.w.toNat lane info
  | .chk p => failCheck (atDesc s (.core c) x.d) (.core c) (if p then 6 else 3) p
  | .store y ws =>
    storeParts (s.upVe c (fun _ => y.next (x.pc + 1))) (.core c) c ws
  | .halt => veHalt (s.upVe c (fun x => { x with count := x.count + 1 })) c
  | .sample => s.upVe c (fun x => { x with tex := some i.w })

/-- What the checkers of an instruction show: an instruction of the sampled row that is not selected is executed once, so
that only the error correction of the registers answers (R65). -/
def veShows (s : State) (c : CoreId) (row : Nat) (k : Chk) : Chk :=
  if row = 5 ∧ ¬ veSelected s c 0 ∧ (k = .transient ∨ k = .fail) then .pass else k

/-- The check of an instruction of row 4 or 5 that leads from s to t. -/
def veCheck (s t : State) (c : CoreId) (x : VeSt) (row : Nat) (k : Chk) : State :=
  let k := veShows s c row k
  let t := if chkOutcome s (.core c) (veKey x) k = .transient then t.upVe c (fun x => x.flag fRetry) else t
  veDraw (checkedBy (atDesc s (.core c) x.d) t (.core c) (veKey x) row k) c (if row = 5 then 1 else 0)

/-- A partly covered granule whose stored contents fail for good is stored poisoned with its merged bytes (R61, R122). -/
def mergeLost (s : State) (c : CoreId) : VeRes → State
  | .store _ ws =>
    let cut := (touched (storeBase c) ws).filter (fun g => !coversGranule (storeBase c) ws g)
    s.upMem (fun m => { m with store := cut.foldl (fun r g => r.poison (64 * g) 64) (m.store.writeParts (storeBase c) ws) })
  | _ => s

/-- An instruction that no check of Table 2-6 covers and that leads from s to t: the error correction of what it reads
corrects, or meets an error that it cannot correct, which is a carried-check failure in core store (R65, R72, R122). -/
def plainCheck (s t : State) (c : CoreId) (x : VeSt) (r : VeRes) : Chk → State
  | .corrected => eccCount t (.core c) 1
  | .double => failCheck (mergeLost (atDesc s (.core c) x.d) c r) (.core c) 3 false
  | _ => t

/-- A check applies to what the instruction did; one that raised an exception or met a bad granule did
not execute (R131), and that of a sample is held until the sample ends. -/
def veChecked (s : State) (c : CoreId) (i : VI) (x : VeSt) (row : Nat) (k : Chk) (r : VeRes) : State :=
  let t := veApply s c i x r
  match r with
  | .exc _ _ _ => t
  | .chk _ => t
  | .sample => t.upVe c (fun x => { x with texChk := k })
  | _ => if row = 0 then plainCheck s t c x r k else veCheck s t c x row k

/-- The vector engine is at the boundary before an instruction. -/
def veReady (s : State) (c : CoreId) : Bool := (s.ve c).running && (s.ve c).tex.isNone && working s (.core c)

/-- The step of a vector instruction: PC, budget, OP and fields are checked, then it runs under its check
(`row` of Table 2-7 by the instruction's fields, 0 for none). Another instruction at PC is no effect of
this row. PC_RANGE comes before BUDGET (log entry 123). -/
def veStep (z : VeShape) (extra : VI → Bool) (row : VI → Nat) (k : Chk) (f : State → VeSt → VI → VeRes) (c : CoreId) (s : State) : Ans :=
  let x := s.ve c
  doWhen (veReady s c) s (match veWord x with
    | none =>
      let word := leNat ((List.range 8).map (Config.freeByte s.free))
      veException { s with free := s.free + 1 } c 4 word 0xFFFF 0
    | some w =>
      let i := decodeVi w
      if fld x.d 16 4 ≤ x.count then veException s c 5 0 0xFFFF 0
      else if ¬ veOps.contains i.op then veException s c 1 w.toNat 0xFFFF 0
      else if i.op ≠ z.op then s
      else if ¬ z.ok i ∨ ¬ extra i then veException s c 1 w.toNat 0xFFFF 0
      else veChecked s c i x (row i) k (f s x i))

def always (_ : VI) : Bool := true
def noCheck (_ : VI) : Nat := 0

/-- An instruction that reads registers alone has no failure but theirs; the carried check of a core store is not made again
(Table 2-7). -/
def regChk : Chk → Chk
  | .transient => .pass
  | .fail => .pass
  | k => k
def storeChk : Chk → Chk
  | .transient => .pass
  | .fail => .double
  | k => k

def residue (_ : VI) : Nat := 4
def sampled (_ : VI) : Nat := 5

/-- A vector instruction that only writes registers. -/
def veReg (z : VeShape) (extra : VI → Bool) (row : VI → Nat) (k : Chk) (f : VeSt → VI → VeSt) (c : CoreId) (s : State) : Ans :=
  veStep z extra row k (fun _ x i => .ok (f x i)) c s

/-- cond codes of R114. -/
def condOk (int : Bool) (i : VI) : Bool := decide (i.mod ≤ (if int then 5 else 6))

/-- A comparison under a cond code (R114). -/
def cond (m : Nat) (o : Option Ordering) : Bool := match o with
  | none => m == 1 || m == 6
  | some .lt => m == 1 || m == 2 || m == 3
  | some .eq => m == 0 || m == 3 || m == 5
  | some .gt => m == 1 || m == 4 || m == 5

/-- A lane as a signed or unsigned integer. -/
def laneInt (uns : Bool) (b v : Nat) : Int := if uns then (v : Int) else signed b v

/-- Saturation or wrapping of R115. -/
def intResult (sat uns : Bool) (b : Nat) (v : Int) : Flagged Nat :=
  if sat then
    let c := if uns then satU b v else satS b v
    (wrapBits b c.1, if c.2 then fSat else 0)
  else (wrapBits b v, 0)

end Sys2Proof.Machine
end

