-- ==== Sys2Proof/Machine/Window.lean ====
section
/-! DEFINITION. The window unroller (R87 to R89) and output conversion (R97). -/

namespace Sys2Proof.Machine

/-- A window context (Table 3-6), with the derived values of R88. -/
structure Win where
  fmt : Nat
  pad : Nat
  addr : Nat
  expAddr : Nat
  h : Nat
  w : Nat
  c : Nat
  pixStride : Nat
  rowStride : Nat
  kh : Nat
  kw : Nat
  strideH : Nat
  strideW : Nat
  dilH : Nat
  dilW : Nat
  padT : Nat
  padB : Nat
  padL : Nat
  padR : Nat
  fh : Nat
  fw : Nat
  gh : Nat
  gw : Nat
  outH : Nat
  outW : Nat
  outPixStride : Nat
  deriving DecidableEq, Repr

def decodeWin (d : Line) : Win :=
  let b o := fld d o 1
  { fmt := b 5, pad := fld d 6 2, addr := fld d 8 4, expAddr := fld d 12 4, h := fld d 16 2, w := fld d 18 2, c := fld d 20 2,
    pixStride := fld d 24 4, rowStride := fld d 28 4, kh := b 32, kw := b 33, strideH := b 34 % 16 + 1, strideW := b 34 / 16 + 1,
    dilH := b 35 % 16 + 1, dilW := b 35 / 16 + 1, padT := b 36 % 16, padB := b 36 / 16, padL := b 37 % 16, padR := b 37 / 16,
    fh := b 38 % 4 + 1, fw := b 38 / 4 % 4 + 1, gh := b 39 % 4 + 1, gw := b 39 / 4 % 4 + 1, outH := fld d 40 2, outW := fld d 42 2,
    outPixStride := fld d 44 4 }

def Win.hr (z : Win) : Nat := (z.h + z.fh - 1) / z.fh
def Win.wr (z : Win) : Nat := (z.w + z.fw - 1) / z.fw
def Win.cr (z : Win) : Nat := z.c * z.fh * z.fw
def Win.kLen (z : Win) : Nat := z.kh * z.kw * z.cr

/-- out_h and out_w of R88; the division rounds down. -/
def Win.outH' (z : Win) : Int := ((z.hr + z.padT + z.padB : Nat) - (z.dilH * (z.kh - 1) : Nat) - 1 : Int).fdiv z.strideH + 1
def Win.outW' (z : Win) : Int := ((z.wr + z.padL + z.padR : Nat) - (z.dilW * (z.kw - 1) : Nat) - 1 : Int).fdiv z.strideW + 1

/-- The input pixel and channel behind element k of an A row: `none` in the padding (R89). -/
def winSource (z : Win) (oy ox k : Nat) : Option (Nat × Nat × Nat) :=
  let ky := k / (z.kw * z.cr)
  let kx := k / z.cr % z.kw
  let cq := k % z.cr
  let gy : Int := (oy * z.strideH + ky * z.dilH : Nat) - z.padT
  let gx : Int := (ox * z.strideW + kx * z.dilW : Nat) - z.padL
  if gy < 0 ∨ (z.hr : Int) ≤ gy ∨ gx < 0 ∨ (z.wr : Int) ≤ gx then none
  else
    let y := gy.toNat * z.fh + cq / z.c / z.fw
    let x := gx.toNat * z.fw + cq / z.c % z.fw
    if z.h ≤ y ∨ z.w ≤ x then none else some (y, x, cq % z.c)

/-- Element k of the A row of output pixel (oy, ox), as raw bits (R89). -/
def winElem (s : State) (c : CoreId) (z : Win) (oy ox k : Nat) : Nat :=
  let b := fmtBits z.fmt
  match winSource z oy ox k with
  | none => if isPip z.fmt then 0 else z.pad % 2 ^ b
  | some (y, x, ch) =>
    let a := z.addr + y * z.rowStride + x * z.pixStride
    if b % 8 = 0 then leNat (storeRead s c (a + ch * (b / 8)) (b / 8))
    else leNat (storeRead s c (a + ch * b / 8) 2) / 2 ^ (ch * b % 8) % 2 ^ b

/-- The exponent code of the Pip block of element k (R89). -/
def winExp (s : State) (c : CoreId) (z : Win) (oy ox k : Nat) : Nat :=
  match winSource z oy ox k with
  | none => 0
  | some (y, x, ch) => byteAt (storeRead s c (z.expAddr + (y * z.w + x) * (z.c / 32) + ch / 32) 1) 0

/-- The store ranges that the elements of the A row of output pixel (oy, ox) lie in: one run of channels for each tap and each
pixel that FH and FW fold into it (R88, R89). -/
def winReads (z : Win) (oy ox : Nat) : List (Nat × Nat) :=
  (List.range (z.kh * z.kw * z.fh * z.fw)).flatMap (fun t => match winSource z oy ox (t * z.c) with
    | none => []
    | some (y, x, _) =>
      (z.addr + y * z.rowStride + x * z.pixStride, (z.c * fmtBits z.fmt + 7) / 8) ::
        (if isPip z.fmt then [(z.expAddr + (y * z.w + x) * (z.c / 32), z.c / 32)] else []))

/-- Store ranges that lie in the store (R71). -/
def rangesFit (rs : List (Nat × Nat)) : Bool := rs.all (fun r => decide (r.1 + r.2 ≤ storeSize))

/-- The conversion of an accumulator into an output format (R97, R58): integers by bias, multiplier and
shift, floats under R51. SCALE and TABLE_ADDR as in Table 3-9. -/
def convertOut (s : State) (c : CoreId) (fmt scale table col : Nat) (acc : FVal) : Flagged Nat :=
  if isInt fmt then
    let e := storeRead s c (table + 8 * col) 8
    let bias : Int := if bitAt scale 30 then signed 32 (fieldOf e 0 4) else 0
    let mul := if bitAt scale 31 then fieldOf e 4 2 else scale % 65536
    let sh := if bitAt scale 31 then byteAt e 6 % 32 else bits scale 20 16
    let v : Int := match acc with
      | .fin neg m x => rneVal neg m x
      | _ => 0
    let r := narrow (fmtBits fmt) sh ((v + bias) * mul)
    (wrapBits (fmtBits fmt) r.1, r.2)
  else convertF (floatFmt fmt) acc

/-- The offset from OUT_ADDR of the highest of the pixels FIRST to FIRST + COUNT − 1: the last one, or the end of the row
before its row (R134). -/
def convTop (d : Line) (z : Win) : Nat :=
  let a := fld d 36 4
  let b := a + fld d 40 4 - 1
  let at_ (p : Nat) : Nat := p / z.outW * fld d 20 4 + p % z.outW * fld d 24 4
  max (at_ b) (if a / z.outW < b / z.outW then at_ (b / z.outW * z.outW - 1) else 0)

/-- The rules of R134 that need the window context; a context that breaks one makes the launch INVALID_DESCRIPTOR (log entry
60). -/
def convFits (d win : Line) : Bool :=
  let z := decodeWin win
  let gi := fld d 9 1
  let cout := z.c / gi * fld d 10 1
  let w := fmtBits (fld d 7 1) / 8
  let o := fmtBits (fld d 8 1) / 8
  z.fh == 1 && z.fw == 1 && z.fmt == fld d 7 1 && decide (gi ≠ 0 ∧ z.c % gi = 0) && decide (1 ≤ cout ∧ cout ≤ 4096) &&
  decide (fld d 36 4 + fld d 40 4 ≤ z.outH * z.outW) &&
  decide (fld d 12 4 + z.kh * z.kw * cout * gi * w ≤ storeSize) &&
  decide (fld d 16 4 + convTop d z + cout * o ≤ storeSize)

end Sys2Proof.Machine
end

