-- ==== Sys2Proof/Machine/Descriptors.lean ====
section
/-! DEFINITION. The static checks of descriptors (R75, R80): the layouts of core, attention-engine and
raster programs (Tables 3-2 to 3-6, 3-9, 4-6, 4-9, 5-2, 5-7 to 5-9, 6-1), used by the sequencers and by
GRAPH_LOAD. -/

namespace Sys2Proof.Machine

/-- The program a descriptor stands in. -/
inductive ProgKind where
  | core
  | ae
  | rfe
  deriving DecidableEq, Repr

def kindOf : UnitId → ProgKind
  | .core _ => .core
  | .ae _ => .ae
  | .rfe _ => .rfe

/-- A number lies in a range. -/
def inR (lo x hi : Nat) : Bool := decide (lo ≤ x) && decide (x ≤ hi)

/-- A rule on the field at a byte offset of a descriptor. -/
abbrev Rule := Nat × Bool

/-- Bytes a to b − 1 are zero (R8), each a rule of its own. -/
def zeroIn (d : Line) (a b : Nat) : List Rule := (List.range (b - a)).map (fun i => (a + i, fld d (a + i) 1 == 0))

/-- The header of Table 3-2: WAIT must be zero outside core programs (R139, R170). -/
def headerRules (k : ProgKind) (d : Line) : List Rule := ([(1, if k = .core then fld d 1 1 < 8 else fld d 1 1 == 0)] : List Rule)

/-- A live range (Table 3-4), its fields at offsets b and z. -/
def liveRules (k : ProgKind) (pre : Bool) (d : Line) (b z : Nat) : List Rule :=
  let base := fld d b 2
  let size := fld d z 2
  if k = .core then [(b, decide (base ≤ 63)), (z, inR 1 size (if pre then 13 else 64)), (z, decide (base + size ≤ 64))]
  else [(b, base == 0), (z, size == 0)]

def beginRules (k : ProgKind) (d : Line) : List Rule :=
  ([(4, fld d 4 2 == 1), (6, fld d 6 2 < 2)] : List Rule) ++ liveRules k (fld d 6 2 == 1) d 8 10 ++ zeroIn d 12 64

def endRules (d : Line) : List Rule := zeroIn d 4 64

def syncWaitRules (d : Line) : List Rule :=
  ([(4, fld d 4 2 < 8192), (6, fld d 6 1 < 2)] : List Rule) ++ zeroIn d 7 8 ++ ([(8, fld d 8 4 != 0)] : List Rule) ++ zeroIn d 12 64

def syncSignalRules (d : Line) : List Rule :=
  ([(4, fld d 4 2 < 8192)] : List Rule) ++ zeroIn d 6 8 ++ ([(8, fld d 8 4 != 0)] : List Rule) ++ zeroIn d 12 64

/-- YIELD: LIVE_BASE is ignored when LIVE_SIZE is 0 in a core program, and must be 0 elsewhere (R140, R170). -/
def yieldRules (k : ProgKind) (pre : Bool) (d : Line) : List Rule :=
  (if fld d 6 2 = 0 ∧ k = .core then [] else liveRules k pre d 4 6) ++ ([(8, fld d 8 4 ≤ 200000)] : List Rule) ++ zeroIn d 12 64

/-- SE_MOVE (Table 3-5, R83). -/
def seMoveRules (d : Line) : List Rule :=
  let ctrl := fld d 4 2
  ([(4, ctrl < 32), (4, bitAt ctrl 1 || bits ctrl 3 2 == 0), (6, fld d 6 2 != 0),
   (8, decide (fld d 8 8 < (if bitAt ctrl 1 then 2 ^ 22 else 2 ^ 48))), (16, decide (fld d 16 3 < 2 ^ 22))] : List Rule) ++
  (List.range 5).map (fun i => (19 + 2 * i, fld d (19 + 2 * i) 2 != 0))

def aFormats : List Nat := [0, 1, 4, 5, 6, 7, 8, 9, 10]

/-- SE_WINDOW (Table 3-6, R88); that PAD_VALUE has no bits above the element's width is DESIGN CHOICE, log entry 103. -/
def seWindowRules (d : Line) : List Rule :=
  let z := decodeWin d
  ([(4, fld d 4 1 < 4), (5, aFormats.contains z.fmt), (6, decide (z.pad < 2 ^ fmtBits z.fmt)), (6, !isPip z.fmt || z.pad == 0),
   (12, isPip z.fmt || z.expAddr == 0), (16, z.h != 0), (18, z.w != 0), (20, z.c != 0), (20, z.fmt != 0 || z.c % 2 == 0),
   (20, !isPip z.fmt || z.c % 32 == 0)] : List Rule) ++ zeroIn d 22 24 ++
  ([(32, inR 1 z.kh 32), (33, inR 1 z.kw 32), (38, fld d 38 1 < 16), (39, fld d 39 1 < 16),
   (40, decide (1 ≤ z.outH' ∧ z.outH' = z.outH)), (42, decide (1 ≤ z.outW' ∧ z.outW' = z.outW)), (20, decide (z.kLen ≤ 65536))] : List Rule) ++
  zeroIn d 48 64

/-- The operand pairs of Table 2-4. -/
def pairOk (a b : Nat) : Bool :=
  (a == 1 && b == 1) || (a == 1 && b == 0) || (a == 0 && b == 0) || (isPip a && isPip b) ||
  ((a == 7 || a == 8) && (b == 7 || b == 8)) || (a == 9 && b == 9) || (a == 10 && b == 10)

/-- SCALE and TABLE_ADDR (R97), their fields at offsets a and b. -/
def scaleRules (out : Nat) (d : Line) (a b : Nat) : List Rule :=
  let scale := fld d a 4
  if isInt out then [(a, bits scale 15 0 != 0 && bits scale 29 21 == 0)] else [(a, scale == 0), (b, fld d b 4 == 0)]

/-- TE_OP (Table 3-9, R94, R96 to R98), but for what depends on the window context. -/
def teOpRules (d : Line) : List Rule :=
  let fa := fld d 4 1
  let fb := fld d 5 1
  let fo := fld d 6 1
  let post := fld d 7 1
  let k := fld d 12 4
  let argmax := post % 4
  let d2s := bitAt post 2
  let sparse := bitAt post 3
  let win := bitAt post 4
  ([(4, pairOk fa fb), (6, fo ≤ 11 && (isInt fa == isInt fo)), (7, post < 128 && argmax != 3), (7, !d2s || win),
   (7, argmax != 2 || (!isPip fo && !d2s)), (7, !sparse || [1, 5, 6, 7, 8].contains fb), (8, inR 1 (fld d 8 4) 16777216),
   (12, inR 1 k 65536), (12, !sparse || k % 4 == 0), (16, fld d 16 2 != 0)] : List Rule) ++ zeroIn d 18 20 ++ scaleRules fo d 56 60

/-- VE_LAUNCH in kernel mode (Table 4-6, R126). -/
def veKernelRules (d : Line) : List Rule :=
  ([(5, fld d 5 1 < 2), (6, fld d 6 2 != 0), (8, fld d 8 2 != 0), (10, inR 1 (fld d 10 2) 2048), (12, fld d 12 4 % 64 == 0),
   (12, decide (fld d 12 4 + 8 * fld d 10 2 ≤ storeSize)), (16, fld d 16 4 != 0)] : List Rule) ++ zeroIn d 20 24

/-- VE_LAUNCH in convolution mode (Table 4-9), but for what depends on the window context. -/
def veConvRules (d : Line) : List Rule :=
  let w := fld d 7 1
  let o := fld d 8 1
  zeroIn d 5 6 ++ ([(6, fld d 6 1 < 4), (7, w == 1 || w == 9 || w == 10), (8, if w = 1 then inR 1 o 3 else inR 9 o 11),
   (9, inR 1 (fld d 9 1) 16), (10, inR 1 (fld d 10 1) 16)] : List Rule) ++ zeroIn d 11 12 ++ scaleRules o d 28 32 ++
  ([(40, inR 1 (fld d 40 4) 16777216)] : List Rule) ++ zeroIn d 44 64

def veLaunchRules (d : Line) : List Rule :=
  if fld d 4 1 = 0 then veKernelRules d else if fld d 4 1 = 1 then veConvRules d else ([(4, false)] : List Rule)

/-- The KV formats (Table 5-3). -/
def kvFormats : List Nat := [4, 6, 7, 9]

/-- AE_APPEND (Table 5-7). -/
def aeAppendRules (d : Line) : List Rule :=
  ([(4, fld d 4 2 < 1024), (8, inR 1 (fld d 8 4) 65536), (12, fld d 12 1 ≤ 4), (13, kvFormats.contains (fld d 13 1))] : List Rule) ++
  zeroIn d 14 16 ++ zeroIn d 48 64

/-- AE_GATHER (Table 5-8). -/
def aeGatherRules (d : Line) : List Rule :=
  ([(4, fld d 4 2 < 1024), (9, fld d 9 1 < 16), (9, !bitAt (fld d 9 1) 1 || bitAt (fld d 9 1) 0), (10, kvFormats.contains (fld d 10 1)),
   (10, !bitAt (fld d 9 1) 1 || fld d 10 1 != 4)] : List Rule) ++ zeroIn d 11 12 ++
  ([(16, inR 1 (fld d 16 4) 65536), (28, fld d 28 4 % 64 == 0)] : List Rule) ++ zeroIn d 32 64

/-- AE_DECODE (Table 5-9). -/
def aeDecodeRules (d : Line) : List Rule :=
  ([(6, inR 1 (fld d 6 2) 1024), (8, fld d 8 8 % 64 == 0), (20, inR 1 (fld d 20 1) 16), (21, [6, 9].contains (fld d 21 1)),
   (22, [9, 11].contains (fld d 22 1)), (23, fld d 23 1 ≤ 4)] : List Rule) ++ zeroIn d 24 64

/-- RFE_RENDER, RFE_CLEAR and RFE_RESOLVE (R171). -/
def rfeRules (d : Line) : List Rule :=
  ([(4, fld d 4 1 < (if fld d 0 1 = 0x21 then 4 else 1))] : List Rule) ++ zeroIn d 5 8 ++ ([(8, fld d 8 8 % 64 == 0)] : List Rule) ++ zeroIn d 16 64

/-- The rules of the table a descriptor's TYPE names; a TYPE its program does not have fails. -/
def bodyRules (k : ProgKind) (pre : Bool) (d : Line) : List Rule :=
  let t := fld d 0 1
  let none : List Rule := [(0, false)]
  if t = 1 then beginRules k d
  else if t = 2 then endRules d
  else if t = 7 then syncWaitRules d
  else if t = 8 then syncSignalRules d
  else if t = 9 then yieldRules k pre d
  else match k with
    | .core => if t = 3 then seMoveRules d else if t = 4 then seWindowRules d else if t = 5 then teOpRules d else if t = 6 then veLaunchRules d else none
    | .ae => if t = 0x10 then aeAppendRules d else if t = 0x11 then aeGatherRules d else if t = 0x12 then aeDecodeRules d else none
    | .rfe => if inR 0x20 t 0x22 then rfeRules d else none

/-- The rules of a descriptor at place i of a program of n descriptors (R75, R80); `pre` is PREEMPTIBLE of its BEGIN. -/
def descRules (k : ProgKind) (pre : Bool) (i n : Nat) (d : Line) : List Rule :=
  [(0, ((fld d 0 1 == 1) == (i == 0)) && ((fld d 0 1 == 2) == (i + 1 == n)))] ++ headerRules k d ++ bodyRules k pre d

/-- The offset of the field that fails first, if any. -/
def descBad (k : ProgKind) (pre : Bool) (i n : Nat) (d : Line) : Option Nat :=
  ((descRules k pre i n d).find? (fun r => !r.2)).map (·.1)

def descOk (k : ProgKind) (pre : Bool) (i n : Nat) (d : Line) : Bool := (descBad k pre i n d).isNone

/-- PREEMPTIBLE of a BEGIN. -/
def preOf (d : Line) : Bool := bitAt (fld d 6 2) 0

/-- 64 bytes as a descriptor. -/
def lineOf (bs : Bytes) : Line := BitVec.ofNat 512 (leNat bs)

end Sys2Proof.Machine
end

