-- ==== Sys2Proof/Machine/Sequencer.lean ====
section
/-! DEFINITION. The sequencers of cores, attention engines and raster front ends (R75 to R81, R105,
R137, R139, R140, R170, R252 to R256). -/

namespace Sys2Proof.Machine

/-- The engines a descriptor's WAIT bits name have completed all their earlier descriptors (R76). -/
def waitsDone (q : Seq) (d : Line) : Bool :=
  let w := fld d 1 1
  (!bitAt w 0 || q.se.isEmpty) && (!bitAt w 1 || q.te.isEmpty) && (!bitAt w 2 || q.ve.isEmpty)

/-- An earlier TE_OP or convolution that uses window context c has not completed (R79, R137). -/
def contextBusy (q : Seq) (c : Nat) : Bool :=
  q.te.any (fun x => bitAt (fld x.d 7 1) 4 && bits (fld x.d 7 1) 6 5 == c) ||
  q.ve.any (fun x => fld x.d 4 1 == 1 && fld x.d 6 1 % 4 == c)

/-- The queue a descriptor type goes to; `none` for the sequencer itself (R76, R139, R170). -/
def routeOf (u : UnitId) (t : Nat) : Option EngineId :=
  match u with
  | .core _ => if t = 3 ∨ t = 4 then some .se else if t = 5 then some .te else if t = 6 then some .ve else none
  | _ => if 0x10 ≤ t then some .own else none

/-- The descriptor may issue: its WAIT engines are done, its queue has room, its context is free. An
attention engine or raster front end runs one descriptor at a time. -/
def mayIssue (u : UnitId) (q : Seq) (d : Line) : Bool :=
  waitsDone q d &&
  (match routeOf u (typeOf d) with
    | some e => decide ((q.queue e).length < 8)
    | none => true) &&
  (match u with
    | .core _ => typeOf d != 4 || !contextBusy q (fld d 4 1)
    | _ => q.own.isEmpty)

/-- The next descriptor is taken: into its engine's queue, or by the sequencer itself. -/
def takeDesc (s : State) (u : UnitId) (d : Line) : State :=
  s.upSeq u (fun q =>
    let q := { q with idx := q.idx + 1, tag := tagOf d }
    match routeOf u (typeOf d) with
    | some e => q.setQueue e (q.queue e ++ [{ d := d, ran := false, status := 0 }])
    | none => { q with cur := some d })

/-- DESCRIPTOR_ISSUE (R66, R75, R76, R79, R80, R137): the next descriptor is fetched, checked and issued. -/
def execDescriptorIssue (u : UnitId) (k : Chk) (s : State) : Ans :=
  let q := (s.unit u).seq
  match jobOf s u with
  | none => did s
  | some j =>
    doWhen (working s u && q.cur.isNone && q.wait.isNone && decide (q.idx < q.len)) s
      (match readVa s j.slice (actorOf j) .fetch (q.base + 64 * q.idx) 64 with
      | .ok bs =>
        let d := lineOf bs
        if ¬ descOk (kindOf u) q.preemptible q.idx q.len d then failDesc s u d 0x01
        else if mayIssue u q d then readBy s (unitAccess (takeDesc s u d) u false .fetch (q.base + 64 * q.idx) 64 false) u j (q.base + 64 * q.idx) k
        else s
      | r => failRead s u r)

/-- The sequencer's own descriptor, of one type. -/
def curOf (s : State) (u : UnitId) (t : Nat) : Option Line :=
  if ¬ working s u then none
  else match (s.unit u).seq.cur with
    | some d => if typeOf d = t then some d else none
    | none => none

/-- The sequencer's own descriptor is done. -/
def curDone (s : State) (u : UnitId) : State := s.upSeq u (fun q => { q with cur := none, done := q.done + 1 })

/-- BEGIN (R75, R81). -/
def execBegin (u : UnitId) (s : State) : Ans :=
  match curOf s u 1 with
  | none => did s
  | some d => did ((curDone s u).upSeq u (fun q => { q with preemptible := preOf d, liveBase := fld d 8 2, liveSize := fld d 10 2 }))

/-- A unit's program has completed: its status record shows STATE 1 (R101). -/
def finishUnit (s : State) (u : UnitId) : State :=
  match jobOf s u with
  | none => s
  | some j => (writeRecord (aeStop s u j.id) u j 1 0).upUnit u (fun x => { x with phase := .finished })

/-- The raster front ends of a job that hold no program: they finish with the lead (R170). -/
def helperRfes (s : State) (u : UnitId) (j : Nat) : List UnitId := match u with
  | .rfe r => ((List.range 4).map (fun k => UnitId.rfe (BitVec.ofNat 2 k))).filter (fun x => x != .rfe r && (s.unit x).job == some j)
  | _ => []

/-- END (R77, R101): completes when every engine is idle. -/
def execEnd (u : UnitId) (s : State) : Ans :=
  match curOf s u 2, jobOf s u with
  | some d, some j =>
    doWhen (enginesIdle (s.unit u).seq) s ((helperRfes s u j.id).foldl finishUnit (finishUnit (atDesc (curDone s u) u d) u))
  | _, _ => did s

/-- SYNC_WAIT (R81, R252): the wait is issued to its counter and blocks later descriptors. -/
def execSyncWait (u : UnitId) (s : State) : Ans :=
  match curOf s u 7, jobOf s u with
  | some d, some j =>
    let w : SyncWait := { who := .unit u j.id, ctr := BitVec.ofNat 13 (fld d 4 2), mode1 := fld d 6 1 == 1, value := BitVec.ofNat 32 (fld d 8 4) }
    did ((atDesc s u d).upSeq u (fun q => { q with cur := none, wait := some w, arrived := false }))
  | _, _ => did s

/-- SYNC_SIGNAL_DESCRIPTOR (R81, R253, R256): the signal is issued; a counter that is not the job's own
terminates the job. -/
def execSyncSignalDescriptor (u : UnitId) (s : State) : Ans :=
  match curOf s u 8, jobOf s u with
  | some d, some j =>
    let c := BitVec.ofNat 13 (fld d 4 2)
    did (if (s.ctr c).slice ≠ some j.slice then failDesc s u d 0x06
      else issueSignal (curDone s u) c { value := BitVec.ofNat 32 (fld d 8 4), src := .program u j.id })
  | _, _ => did s

/-- Nanoseconds until the job's scene closes. -/
def untilClose (s : State) (j : Job) : Nat := match sceneOf s j.scene with
  | some sc => sc.start + sc.duration - intoCue s
  | none => 0

/-- Every other unit of the job is asked to suspend, one whose context is not yet restored among them (R105). -/
def suspendOthers (s : State) (u : UnitId) (j : Nat) : State :=
  (allUnits.filter (fun x => x != u && (s.unit x).job == some j)).foldl (askUnit true) s

/-- What YIELD does once its live range is applied (R105). -/
def yieldPoint (s : State) (u : UnitId) (j : Job) (horizon : Nat) : State :=
  match requestOf (s.unit u).phase with
  | some b => s.upUnit u (fun x => { x with phase := .preemptStopped b })
  | none =>
    if j.carryOver ∧ horizon ≠ 0 ∧ untilClose s j ≤ 1000 * horizon then
      if carrySpent j then overrunEnd s j 0
      else
        let s := s.upJob j.id (fun x => { x with suspensions := x.suspensions + 1, susCue := some s.cue.count })
        suspendOthers (s.upUnit u (fun x => { x with phase := .preemptStopped true })) u j.id
    else s

/-- YIELD (R105): waits until the engines are idle, applies the live range, then yields, suspends or goes on. -/
def execYield (u : UnitId) (s : State) : Ans :=
  let x := s.unit u
  match x.seq.cur, jobOf s u with
  | some d, some j =>
    let s1 := (atDesc (curDone s u) u d).upSeq u (fun q => if fld d 6 2 = 0 then q else { q with liveBase := fld d 4 2, liveSize := fld d 6 2 })
    doWhen (typeOf d == 9 && (working s u || (requestOf x.phase).isSome) && enginesIdle x.seq) s (yieldPoint s1 u j (fld d 8 4))
  | _, _ => did s

/-- No far write of the unit waits for its acknowledgement (R77). -/
def writesAcked (s : State) (u : UnitId) : Bool := s.mem.txns.all (fun t => t.src ≠ .job u)

/-- A performed descriptor leaves its queue. -/
def popDesc (s : State) (u : UnitId) (e : EngineId) (x : QItem) (xs : List QItem) : State :=
  aeOpEnd (logFlags (s.upSeq u (fun q => { (q.setQueue e xs) with done := q.done + 1 })) u x.status) u

/-- DESCRIPTOR_COMPLETE (R76, R77, R100): the head of an engine's queue, performed and visible, leaves it;
its status word enters the flag log. -/
def execDescriptorComplete (u : UnitId) (e : EngineId) (s : State) : Ans :=
  match (s.unit u).seq.queue e with
  | x :: xs =>
    doWhen (working s u && x.ran && (e != .se || writesAcked s u)) s
      (popDesc s u e x xs)
  | [] => did s

end Sys2Proof.Machine
end

