-- ==== Sys2Proof/Machine/Elementary.lean ====
section
/-! DEFINITION. The elementary functions of R117, each to within 2^−70 in fixed point, and the FP32 results that its bounds
allow. -/

namespace Sys2Proof.Machine

/-! ### Fixed point with 80 fraction bits -/

/-- A value in units of 2^−80, rounded down. -/
def fixV : FVal → Int
  | .fin neg m e => floorScale (if neg then -(m : Int) else m) (e + 80)
  | _ => 0

/-- Units of 2^−80 as a value. -/
def ofFix (v : Int) : FVal := .fin (decide (v < 0)) v.natAbs (-80)

/-- 2^f in units of 2^−96, bit by bit: c runs through the square roots of 2. -/
def exp2Bits : Nat → Nat → Nat → Nat → Nat
  | 0, _, _, acc => acc
  | k + 1, c, f, acc =>
    let r := isqrt (c * 2 ^ 96)
    exp2Bits k r f (if bitAt f k then acc * r / 2 ^ 96 else acc)

/-- 2^v for v in units of 2^−80. -/
def exp2Fix (v : Int) : FVal :=
  let n := v.fdiv (2 ^ 80 : Nat)
  .fin false (exp2Bits 80 (2 ^ 97) (v - n * (2 ^ 80 : Nat)).toNat (2 ^ 96)) (n - 96)

/-- Bits of a logarithm, most significant first, by squaring a number of [1, 2) in units of 2^−96. -/
def log2Bits : Nat → Nat → Nat → Nat
  | 0, _, acc => acc
  | k + 1, y, acc =>
    let z := y * y / 2 ^ 96
    if 2 ^ 97 ≤ z then log2Bits k (z / 2) (2 * acc + 1) else log2Bits k z (2 * acc)

/-- log2 of m × 2^e, m above 0, in units of 2^−80. -/
def log2Fix (m : Nat) (e : Int) : Int :=
  (e + bitLen m - 1) * (2 ^ 80 : Nat) + log2Bits 80 (m * 2 ^ 96 / 2 ^ (bitLen m - 1)) 0

/-- 2π and log2 e in units of 2^−80. -/
def twoPi : Int := 7595904947272677161575987
def log2eFix : Int := 1744111284760651037637903

/-- Σ of a power series with alternating signs from term t of degree k, in units of 2^−80; q is the square of the argument. -/
def series : Nat → Nat → Int → Int → Int
  | 0, _, _, _ => 0
  | n + 1, k, t, q => t + series n (k + 2) (-(t * q / (2 ^ 80 : Nat) / ((k + 1) * (k + 2) : Nat))) q

/-- A in turns brought to [−1/2, 1/2) by its integral part, in units of 2^−80 (R117). -/
def turns (v : FVal) : Int :=
  let f : Int := match v with
    | .fin neg m e => if e < 0 then (floorScale (if neg then -(m : Int) else m) (e + 80)) % (2 ^ 80 : Nat) else 0
    | _ => 0
  if (2 ^ 79 : Nat) ≤ f then f - (2 ^ 80 : Nat) else f

/-- sin and cos of 2πA. -/
def sinFix (v : FVal) : FVal :=
  let t := turns v * twoPi / (2 ^ 80 : Nat)
  ofFix (series 24 1 t (t * t / (2 ^ 80 : Nat)))
def cosFix (v : FVal) : FVal :=
  let t := turns v * twoPi / (2 ^ 80 : Nat)
  ofFix (series 24 0 (2 ^ 80 : Nat) (t * t / (2 ^ 80 : Nat)))

/-- e^x, its exponent held within ±2^10. -/
def expFix (v : FVal) : FVal := exp2Fix (max (-(2 ^ 90 : Nat)) (min (2 ^ 90 : Nat) (fixV v * log2eFix / (2 ^ 80 : Nat))))

/-- tanh A and 1 / (1 + e^−A). -/
def tanhFix (v : FVal) : FVal :=
  let y := expFix (addV v v)
  divV (subV y (intVal 1)) (addV y (intVal 1))
def sigmFix (v : FVal) : FVal := divV (intVal 1) (addV (intVal 1) (expFix (negV v)))

/-! ### The results that the bounds of R117 allow -/

def absV : FVal → FVal
  | .nan => .nan
  | .inf _ => .inf false
  | .fin _ m e => .fin false m e

/-- The last place of an FP32 result near a value. -/
def ulp32 : FVal → FVal
  | .fin _ m e => .fin false 1 (max fp32.emin (e + bitLen m - 24))
  | _ => zeroV

/-- The FP32 result of an operation whose exact value is `a`: any within the bound (`Config.transcend` says which), or `a`
rounded; beyond the largest finite magnitude an infinity (R116, R117). -/
def pickWithin (op w : Nat) (a bound : FVal) : Nat :=
  let t := Config.transcend op w % 2 ^ 32
  let v := decodeF fp32 t
  if v.isFin ∧ cmpV (absV (subV v a)) bound ≠ some .gt then t else (resultF fp32 true a).1

/-- 2 ulp, and 2^−22. -/
def twoUlp (a : FVal) : FVal := mulV (intVal 2) (ulp32 a)
def absBound : FVal := .fin false 1 (-22)

/-- FEXP2, FLOG2, FSIN, FCOS, FTANH or FSIGM (by OP) of a finite value that is no special input. -/
def elementary (op w : Nat) (v : FVal) : Nat :=
  if op = 0x4E then
    let a := exp2Fix (max (-(2 ^ 90 : Nat)) (min (2 ^ 90 : Nat) (fixV v)))
    pickWithin op w a (twoUlp a)
  else if op = 0x4F then (match v with
    | .fin _ m e => let a := ofFix (log2Fix m e); pickWithin op w a (twoUlp a)
    | _ => 0)
  else pickWithin op w (if op = 0x50 then sinFix v else if op = 0x51 then cosFix v else if op = 0x52 then tanhFix v else sigmFix v) absBound

/-- The exact result of a finite input is 0: log2 1, a sine of whole half turns, a cosine of odd quarter turns, tanh 0. -/
def exactZero (op : Nat) : FVal → Bool
  | .fin neg m e =>
    let quarters := if e + 2 < 0 then m % 2 ^ (-(e + 2)).toNat == 0 else true
    let q := (floorScale (if neg then -(m : Int) else m) (e + 2)).natAbs
    if op = 0x4F then cmpV (.fin neg m e) (intVal 1) == some .eq
    else if op = 0x50 then quarters && q % 2 == 0
    else if op = 0x51 then quarters && q % 2 == 1
    else op == 0x52 && m == 0
  | _ => true

end Sys2Proof.Machine
end

