-- ==== Sys2Proof/Machine/VeInt.lean ====
section
/-! DEFINITION. The integer vector instructions of Table 4-4 (R113 to R115). -/

namespace Sys2Proof.Machine

/-- An integer operation of A and B lane by lane; `f` has the fields, the lane width and both lanes. -/
def intOp2 (f : VI → Nat → Nat → Nat → Flagged Nat) (x : VeSt) (i : VI) : VeSt :=
  putV x i (List.zipWith (f i (etBits i.et)) (aLanes x i) (bLanes x i))

/-- An integer operation of A alone. -/
def intOp1 (f : VI → Nat → Nat → Flagged Nat) (x : VeSt) (i : VI) : VeSt :=
  putV x i ((aLanes x i).map (f i (etBits i.et)))

/-- An integer operation of A, B and C. -/
def intOp3 (f : VI → Nat → Nat → Nat → Nat → Flagged Nat) (x : VeSt) (i : VI) : VeSt :=
  putV x i (List.zipWith (fun (ab : Nat × Nat) c => f i (etBits i.et) ab.1 ab.2 c) ((aLanes x i).zip (bLanes x i)) (cLanes x i))

def intShape (op mod : Nat) : VeShape := { op := op, et := etI, d := .v, a := .v, b := .any, mod := mod }

/-- A sum or difference with the saturation of R115: MOD[0] takes the operands unsigned (Table 4-4). -/
def arith2 (f : Int → Int → Int) (i : VI) (b x y : Nat) : Flagged Nat :=
  intResult (bitAt i.mod 1) (bitAt i.mod 0) b (f (laneInt (bitAt i.mod 0) b x) (laneInt (bitAt i.mod 0) b y))

/-- An operation of signed lanes whose saturation range MOD[0] picks (R115). -/
def arith1 (f : Int → Int) (i : VI) (b x : Nat) : Flagged Nat := intResult (bitAt i.mod 1) (bitAt i.mod 0) b (f (signed b x))

/-- VADD (R113, R115). -/
def execVadd (c : CoreId) (k : Chk) (s : State) : Ans :=
  veReg (intShape 0x20 3) always residue k (intOp2 (arith2 (· + ·))) c s

/-- VSUB (R113, R115). -/
def execVsub (c : CoreId) (k : Chk) (s : State) : Ans :=
  veReg (intShape 0x21 3) always residue k (intOp2 (arith2 (· - ·))) c s

/-- VMUL (R113, R115). -/
def execVmul (c : CoreId) (k : Chk) (s : State) : Ans :=
  veReg (intShape 0x22 3) always residue k (intOp2 (fun i b x y => arith1 (signed b y * ·) i b x)) c s

/-- VMULH (R113): the high half. -/
def execVmulh (c : CoreId) (k : Chk) (s : State) : Ans :=
  veReg (intShape 0x23 1) always residue k
    (intOp2 (fun i b x y => (wrapBits b (laneInt (bitAt i.mod 0) b x * laneInt (bitAt i.mod 0) b y / (2 ^ b : Nat)), 0))) c s

/-- VMAD (R113): wraps (R115). -/
def execVmad (c : CoreId) (k : Chk) (s : State) : Ans :=
  veReg { intShape 0x24 0 with c := .v } always residue k (intOp3 (fun _ b x y z => ((x * y + z) % 2 ^ b, 0))) c s

/-- Byte n of a lane as an integer. -/
def byteOf (uns : Bool) (x n : Nat) : Int := laneInt uns 8 (x / 2 ^ (8 * n) % 256)

/-- VDOT4 (R113): wraps (R115). -/
def execVdot4 (c : CoreId) (k : Chk) (s : State) : Ans :=
  veReg { intShape 0x25 1 with et := [2], c := .v } always residue k
    (intOp3 (fun i _ x y z => (wrapBits 32 ((z : Int) + ((List.range 4).map (fun n => byteOf (bitAt i.mod 0) x n * byteOf (bitAt i.mod 0) y n)).foldl (· + ·) 0), 0))) c s

/-- VABS (R113, R115). -/
def execVabs (c : CoreId) (k : Chk) (s : State) : Ans :=
  veReg { intShape 0x26 3 with b := .no } always residue k (intOp1 (arith1 (fun v => (v.natAbs : Int)))) c s

/-- VNEG (R113, R115). -/
def execVneg (c : CoreId) (k : Chk) (s : State) : Ans :=
  veReg { intShape 0x27 3 with b := .no } always residue k (intOp1 (arith1 (fun v => -v))) c s

/-- VMIN (R113). -/
def execVmin (c : CoreId) (k : Chk) (s : State) : Ans :=
  veReg (intShape 0x28 1) always sampled k
    (intOp2 (fun i b x y => (if laneInt (bitAt i.mod 0) b y < laneInt (bitAt i.mod 0) b x then y else x, 0))) c s

/-- VMAX (R113). -/
def execVmax (c : CoreId) (k : Chk) (s : State) : Ans :=
  veReg (intShape 0x29 1) always sampled k
    (intOp2 (fun i b x y => (if laneInt (bitAt i.mod 0) b x < laneInt (bitAt i.mod 0) b y then y else x, 0))) c s

/-- VAND (R113). -/
def execVand (c : CoreId) (k : Chk) (s : State) : Ans :=
  veReg (intShape 0x2A 0) always sampled k (intOp2 (fun _ _ x y => (x &&& y, 0))) c s

/-- VOR (R113). -/
def execVor (c : CoreId) (k : Chk) (s : State) : Ans :=
  veReg (intShape 0x2B 0) always sampled k (intOp2 (fun _ _ x y => (x ||| y, 0))) c s

/-- VXOR (R113). -/
def execVxor (c : CoreId) (k : Chk) (s : State) : Ans :=
  veReg (intShape 0x2C 0) always sampled k (intOp2 (fun _ _ x y => (x ^^^ y, 0))) c s

/-- VNOT (R113). -/
def execVnot (c : CoreId) (k : Chk) (s : State) : Ans :=
  veReg { intShape 0x2D 0 with b := .no } always sampled k (intOp1 (fun _ b x => (2 ^ b - 1 - x, 0))) c s

/-- VSHL (R113): the shift modulo the lane width. -/
def execVshl (c : CoreId) (k : Chk) (s : State) : Ans :=
  veReg (intShape 0x2E 0) always residue k (intOp2 (fun _ b x y => ((x <<< (y % b)) % 2 ^ b, 0))) c s

/-- VSHR (R113): logical with MOD[0]; that the shift is modulo the lane width is DESIGN CHOICE, log entry 104. -/
def execVshr (c : CoreId) (k : Chk) (s : State) : Ans :=
  veReg (intShape 0x2F 1) always sampled k
    (intOp2 (fun i b x y => (wrapBits b (laneInt (bitAt i.mod 0) b x / (2 ^ (y % b) : Nat)), 0))) c s

/-- Lanes of a predicate destination written under the predicate (R108, R109). -/
def putPred (x : VeSt) (i : VI) (rs : List Bool) : VeSt :=
  let b := etBits i.et
  let old := (List.range (etLanes i.et)).map (fun n => (x.pr i.d).toNat / 2 ^ (n * (b / 8)) % 2 ^ (b / 8))
  let new := (old.zip ((activeLanes x i (etLanes i.et)).zip rs)).map
    (fun p => if p.2.1 then (if p.2.2 then 2 ^ (b / 8) - 1 else 0) else if i.zm then 0 else p.1)
  x.setP i.d (BitVec.ofNat 256 (new.foldr (fun v acc => v + 2 ^ (b / 8) * acc) 0))

/-- VCMP (R113, R114). -/
def execVcmp (c : CoreId) (k : Chk) (s : State) : Ans :=
  veReg { intShape 0x30 7 with d := .p, c := .bit } (condOk true) sampled k
    (fun x i => putPred x i (List.zipWith (fun a b => cond i.mod (some (compare (laneInt (i.c == 1) (etBits i.et) a) (laneInt (i.c == 1) (etBits i.et) b))))
      (aLanes x i) (bLanes x i))) c s

/-- VCLZ (R113). -/
def execVclz (c : CoreId) (k : Chk) (s : State) : Ans :=
  veReg { intShape 0x31 0 with b := .no } always sampled k (intOp1 (fun _ b x => (b - bitLen x, 0))) c s

end Sys2Proof.Machine
end

