-- ==== Sys2Proof/Machine/VeFloat.lean ====
section
/-! DEFINITION. The floating-point vector instructions of Table 4-4 (R113, R114, R116, R117, R120). -/

namespace Sys2Proof.Machine

/-- NAN of R120: an active lane reads a NaN or an infinity. -/
def readFlags (vs : List FVal) : Byte := if vs.all FVal.isFin then 0 else fNan

/-- The result of an operation over exact values in a format (R116, R120). -/
def floatRes (f : FFmt) (vs : List FVal) (v : FVal) : Flagged Nat :=
  let r := resultF f (vs.all FVal.isFin) v
  (r.1, r.2 ||| readFlags vs)

/-- A float operation of A and B. -/
def floatOp2 (g : FVal → FVal → FVal) (x : VeSt) (i : VI) : VeSt :=
  let f := etFmt i.et
  putV x i (List.zipWith (fun a b => let u := decodeF f a; let v := decodeF f b; floatRes f [u, v] (g u v)) (aLanes x i) (bLanes x i))

/-- A float operation of A alone. -/
def floatOp1 (g : FVal → FVal) (x : VeSt) (i : VI) : VeSt :=
  let f := etFmt i.et
  putV x i ((aLanes x i).map (fun a => let u := decodeF f a; floatRes f [u] (g u)))

/-- A float operation of A, B and C. -/
def floatOp3 (g : FVal → FVal → FVal → FVal) (x : VeSt) (i : VI) : VeSt :=
  let f := etFmt i.et
  putV x i (List.zipWith (fun (ab : Nat × Nat) c =>
    let u := decodeF f ab.1; let v := decodeF f ab.2; let w := decodeF f c; floatRes f [u, v, w] (g u v w))
    ((aLanes x i).zip (bLanes x i)) (cLanes x i))

def floatShape2 (op : Nat) : VeShape := { op := op, et := etF, d := .v, a := .v, b := .any }
def floatShape1 (op : Nat) : VeShape := { op := op, et := etF, d := .v, a := .v }
def floatShape3 (op : Nat) : VeShape := { op := op, et := etF, d := .v, a := .v, b := .any, c := .v }

/-- FADD (R116). -/
def execFadd (c : CoreId) (k : Chk) (s : State) : Ans := veReg (floatShape2 0x40) always sampled k (floatOp2 addV) c s

/-- FSUB (R116). -/
def execFsub (c : CoreId) (k : Chk) (s : State) : Ans := veReg (floatShape2 0x41) always sampled k (floatOp2 subV) c s

/-- FMUL (R116). -/
def execFmul (c : CoreId) (k : Chk) (s : State) : Ans := veReg (floatShape2 0x42) always sampled k (floatOp2 mulV) c s

/-- FFMA (R116): one rounding. -/
def execFfma (c : CoreId) (k : Chk) (s : State) : Ans :=
  veReg (floatShape3 0x43) always sampled k (floatOp3 (fun a b d => addV (mulV a b) d)) c s

/-- FFMS (R116): one rounding. -/
def execFfms (c : CoreId) (k : Chk) (s : State) : Ans :=
  veReg (floatShape3 0x44) always sampled k (floatOp3 (fun a b d => subV (mulV a b) d)) c s

/-- FMIN (R116). -/
def execFmin (c : CoreId) (k : Chk) (s : State) : Ans := veReg (floatShape2 0x45) always sampled k (floatOp2 minV) c s

/-- FMAX (R116). -/
def execFmax (c : CoreId) (k : Chk) (s : State) : Ans := veReg (floatShape2 0x46) always sampled k (floatOp2 maxV) c s

/-- FABS (R116). -/
def execFabs (c : CoreId) (k : Chk) (s : State) : Ans := veReg (floatShape1 0x47) always sampled k (floatOp1 absV) c s

/-- FNEG (R116). -/
def execFneg (c : CoreId) (k : Chk) (s : State) : Ans := veReg (floatShape1 0x48) always sampled k (floatOp1 negV) c s

/-- FCMP (R114). -/
def execFcmp (c : CoreId) (k : Chk) (s : State) : Ans :=
  veReg { floatShape2 0x49 with d := .p, mod := 7 } (condOk false) sampled k
    (fun x i =>
      let f := etFmt i.et
      let ab := ((aLanes x i).map (decodeF f)).zip ((bLanes x i).map (decodeF f))
      let fl := (ab.zip (activeLanes x i (etLanes i.et))).foldl (fun acc p => if p.2 then acc ||| readFlags [p.1.1, p.1.2] else acc) 0
      (putPred x i (ab.map (fun p => cond i.mod (cmpV p.1 p.2)))).flag fl) c s

/-- FDIV (R116). -/
def execFdiv (c : CoreId) (k : Chk) (s : State) : Ans := veReg (floatShape2 0x4A) always sampled k (floatOp2 divV) c s

/-- FSQRT (R116). -/
def execFsqrt (c : CoreId) (k : Chk) (s : State) : Ans := veReg (floatShape1 0x4B) always sampled k (floatOp1 sqrtV) c s

/-! ### Transcendental operations (R117) -/

/-- One of the FP32 results within 1 ulp of an exact value: its two neighbours, or an exact result and
both its neighbours; R117 gives the bound only, and `Config.pick` the choice. -/
def within1 (op w : Nat) (v : FVal) : Nat := match v with
  | .fin neg m e =>
    let q := max fp32.emin (e + bitLen m - 24)
    let r := if q ≤ e then m * 2 ^ (e - q).toNat else m / 2 ^ (q - e).toNat
    let exact := decide (q ≤ e) || m % 2 ^ (q - e).toNat == 0
    let lo := if r < 2 ^ 23 then r else r - 2 ^ 23 + ((q - fp32.emin).toNat + 1) * 2 ^ 23
    let n := if exact then lo - 1 + Config.pick op w % 3 else lo + Config.pick op w % 2
    if m = 0 then signBit fp32 neg 0 else signBit fp32 neg (min n fp32.infBits)
  | v => (resultF fp32 false v).1

/-- The argument of FSIN and FCOS less its integral part, which is exact (R117), with its sign. -/
def fracV : FVal → FVal
  | .fin neg m e => if 0 ≤ e then .fin neg 0 0 else .fin neg (m % 2 ^ (-e).toNat) e
  | v => v

/-- An FP32 transcendental of a bit pattern: special inputs as IEEE 754-2019, other results within R117. A sine of whole half
turns is 0 with the sign of A, and a cosine of odd quarter turns +0. -/
def trans32 (op w : Nat) : Nat :=
  let turning := op = 0x50 ∨ op = 0x51
  let v := if turning then fracV (decodeF fp32 w) else decodeF fp32 w
  let w := if turning ∧ v.isFin then (resultF fp32 true v).1 else w
  let one := (resultF fp32 false (intVal 1)).1
  let opq := elementary op w v
  if v = .nan then fp32.nan
  else if op = 0x4C then within1 op w (divV (intVal 1) v)
  else if op = 0x4D then
    (match sqrtV v with
    | .nan => fp32.nan
    | r => within1 op w (divV (intVal 1) r))
  else if op = 0x4E then (match v with
    | .inf neg => if neg then 0 else fp32.infBits
    | v => if v.isZero then one else opq)
  else if op = 0x4F then
    (if v.isZero then signBit fp32 true fp32.infBits
     else if negOf v then fp32.nan
     else if v = .inf false then fp32.infBits
     else if w = one then 0 else opq)
  else if op = 0x50 then (if ¬ v.isFin then fp32.nan else if exactZero op v then signBit fp32 (negOf v) 0 else opq)
  else if op = 0x51 then (if ¬ v.isFin then fp32.nan else if v.isZero then one else if exactZero op v then 0 else opq)
  else if op = 0x52 then (if v.isZero then w else if v.isFin then opq else signBit fp32 (negOf v) one)
  else (if v.isFin then opq else if negOf v then 0 else one)

/-- A transcendental of a lane: an FP16 or BF16 one is computed in FP32 and rounded once (R116); a 0 that is not the exact
result sets UFL (R120). -/
def transLane (op : Nat) (f : FFmt) (a : Nat) : Flagged Nat :=
  let v := decodeF f a
  let r := decodeF fp32 (trans32 op (resultF fp32 false v).1)
  let x := resultF f v.isFin r
  (x.1, (if v.isFin then x.2 ||| (if r = .inf false ∨ r = .inf true then fSat else 0) ||| (if r.isZero ∧ ¬ exactZero op v then fUfl else 0) else 0)
    ||| readFlags [v])

def transOp (op : Nat) (x : VeSt) (i : VI) : VeSt := putV x i ((aLanes x i).map (transLane op (etFmt i.et)))

/-- FRCP (R117). -/
def execFrcp (c : CoreId) (k : Chk) (s : State) : Ans := veReg (floatShape1 0x4C) always sampled k (transOp 0x4C) c s

/-- FRSQ (R117). -/
def execFrsq (c : CoreId) (k : Chk) (s : State) : Ans := veReg (floatShape1 0x4D) always sampled k (transOp 0x4D) c s

/-- FEXP2 (R117). -/
def execFexp2 (c : CoreId) (k : Chk) (s : State) : Ans := veReg (floatShape1 0x4E) always sampled k (transOp 0x4E) c s

/-- FLOG2 (R117). -/
def execFlog2 (c : CoreId) (k : Chk) (s : State) : Ans := veReg (floatShape1 0x4F) always sampled k (transOp 0x4F) c s

/-- FSIN (R117). -/
def execFsin (c : CoreId) (k : Chk) (s : State) : Ans := veReg (floatShape1 0x50) always sampled k (transOp 0x50) c s

/-- FCOS (R117). -/
def execFcos (c : CoreId) (k : Chk) (s : State) : Ans := veReg (floatShape1 0x51) always sampled k (transOp 0x51) c s

/-- FTANH (R117). -/
def execFtanh (c : CoreId) (k : Chk) (s : State) : Ans := veReg (floatShape1 0x52) always sampled k (transOp 0x52) c s

/-- FSIGM (R117). -/
def execFsigm (c : CoreId) (k : Chk) (s : State) : Ans := veReg (floatShape1 0x53) always sampled k (transOp 0x53) c s

/-- FFLOOR (R113). -/
def execFfloor (c : CoreId) (k : Chk) (s : State) : Ans := veReg (floatShape1 0x54) always sampled k (floatOp1 floorV) c s

/-- FROUND (R113). -/
def execFround (c : CoreId) (k : Chk) (s : State) : Ans := veReg (floatShape1 0x55) always sampled k (floatOp1 roundV) c s

/-- FCLAMP (R113). -/
def execFclamp (c : CoreId) (k : Chk) (s : State) : Ans :=
  veReg (floatShape3 0x56) always sampled k (floatOp3 (fun a b d => minV (maxV a b) d)) c s

end Sys2Proof.Machine
end

