-- ==== Sys2Proof/Machine/Attention.lean ====
section
/-! DEFINITION. The attention engine's operations: append, gather and decode (R141 to R156, R164 to R169). -/

namespace Sys2Proof.Machine

/-! ### Operands -/

/-- The cluster core a SPACE of 1 to 4 names. -/
def spaceCore (a : AeId) (space : Nat) : CoreId := BitVec.ofNat 6 (4 * a.toNat + space - 1)

/-- A SPACE the job may use (R235, R236). -/
def spaceOk (s : State) (a : AeId) (j : Job) (space : Nat) : Bool :=
  space == 0 || (s.unit (.core (spaceCore a space))).job == some j.id

/-- How an operand access ends. -/
inductive AeIo where
  | ok (bs : Bytes)
  | fault (va : Nat)
  | range
  | check (poisoned : Bool)
  deriving DecidableEq, Repr

/-- An operand read (chapter 05, operand layouts). -/
def aeRead (s : State) (a : AeId) (j : Job) (space addr len : Nat) : AeIo :=
  if space = 0 then
    match jobRead s j addr len with
    | .ok bs => .ok bs
    | .fault va => .fault va
    | .check _ p => .check p
  else
    let off := addr % 2 ^ 22
    if storeSize < off + len then .range
    else match storeBad s (spaceCore a space) off len with
      | some p => .check p
      | none => .ok (storeRead s (spaceCore a space) off len)

/-- An operand write that has been found possible. -/
def aeWrite (s : State) (a : AeId) (j : Job) (space addr : Nat) (bs : Bytes) : State :=
  if space = 0 then jobWrite s (.ae a) j addr bs else storeWrite s (.ae a) (spaceCore a space) (addr % 2 ^ 22) bs

/-- Where a write would go: writable, in the store, or not. -/
def aeWritable (s : State) (j : Job) (space addr len : Nat) : AeIo :=
  if space = 0 then (if reachable s j.slice (actorOf j) .write addr len then .ok [] else .fault ((firstUnreachable s j.slice (actorOf j) .write addr len).getD addr))
  else if storeSize < addr % 2 ^ 22 + len then .range else .ok []

/-- A failed access ends the job (R84, Table 2-7). -/
def aeFail (s : State) (u : UnitId) (space : Nat) : AeIo → State
  | .fault va => failAccess s u va
  | .range => failUnit s u 0x05
  | .check p => failCheck s u (if p then 6 else if space = 0 then 2 else 3) p
  | .ok _ => s

/-- An operand read whose failure ends the job. -/
def withOperand (s : State) (a : AeId) (j : Job) (space addr len : Nat) (k : Bytes → State) : State :=
  match aeRead s a j space addr len with
  | .ok bs => k bs
  | r => aeFail s (.ae a) space r

/-- The traffic of an operand read from slice memory. -/
def aeDraw (s : State) (a : AeId) (space addr len : Nat) : State := if space = 0 then unitAccess s (.ae a) false .read addr len false else s

/-! ### KV pages (R143 to R147) -/

/-- A MAP_FAULT is reported to island A (R147). -/
def mapFault (s : State) (u : UnitId) : State := raiseUnit s 0x0D u

/-- A write into a KV page: a merge onto a granule that fails is stored poisoned and reported (R61, R143). -/
def kvWrite (u : UnitId) (j : Job) (s : State) (pa : Nat) (bs : Bytes) : State :=
  let bad := (s.mem.dram.bad pa bs.length).filter (fun g => ¬ (pa ≤ 64 * g ∧ 64 * g + 64 ≤ pa + bs.length))
  let rep (s : State) (g : Nat) : State :=
    reportMerge s u j (if tget 0 s.mem.dram.syn g = 0xFFFF then 6 else 2)
  let s := bad.foldl rep s
  unitPhys (s.upMem (fun m => { m with dram := m.dram.write pa bs })) u true pa bs.length

/-- One token of one plane as bytes: values and exponents. -/
def kvBytesAt (s : State) (x : KvSeq) (f t : Nat) (v : Bool) : Bytes × Bytes :=
  let o := slotOffsets x (t % x.tp)
  let m := kvM x.fmt.toNat x.headDim
  let e := kvX x.fmt.toNat x.headDim
  if v then (s.mem.dram.read (f + o.2.2.1) m, s.mem.dram.read (f + o.2.2.2) e)
  else (s.mem.dram.read (f + o.1) m, s.mem.dram.read (f + o.2.1) e)

/-- The traffic of reading a token's plane. -/
def kvDraw (s : State) (u : UnitId) (x : KvSeq) (f t : Nat) (v : Bool) : State :=
  let o := slotOffsets x (t % x.tp)
  let m := kvM x.fmt.toNat x.headDim
  let e := kvX x.fmt.toNat x.headDim
  unitPhys (unitPhys s u false (f + (if v then o.2.2.1 else o.1)) m) u false (f + (if v then o.2.2.2 else o.2.1)) e

/-- The first granule of a token's plane that fails its check. -/
def kvBad (s : State) (x : KvSeq) (f t : Nat) (v : Bool) : Option Bool :=
  let o := slotOffsets x (t % x.tp)
  let m := kvM x.fmt.toNat x.headDim
  let e := kvX x.fmt.toNat x.headDim
  let a := if v then o.2.2.1 else o.1
  let b := if v then o.2.2.2 else o.2.1
  ((s.mem.dram.bad (f + a) m ++ s.mem.dram.bad (f + b) e).head?).map (fun g => tget 0 s.mem.dram.syn g == 0xFFFF)

/-- Elements of a format from value and exponent bytes. -/
def kvVals (fmt : Nat) (n : Nat) (bs es : Bytes) : List FVal :=
  if isPip fmt then
    let w := fmtBits fmt
    (List.range (n / 32)).flatMap (fun b => (pipUnpack w ((bs.drop (4 * w * b)).take (4 * w))).map (pipVal w (byteAt es b)))
  else (List.range n).map (fun i => decodeF (floatFmt fmt) (fieldOf bs (i * (fmtBits fmt / 8)) (fmtBits fmt / 8)))

/-- Values put into a format: bytes and exponents, with flags (R49, R51). -/
def kvEncode (fmt : Nat) (vs : List FVal) : Flagged (Bytes × Bytes) :=
  if isPip fmt then
    let w := fmtBits fmt
    let r := gather ((groupsOf 32 vs).map (fun g => let b := toPip w g; (b.1, b.2)))
    ((r.1.flatMap (fun b => pipPack w (b.ms ++ List.replicate (32 - b.ms.length) 0)), r.1.map (fun b => BitVec.ofNat 8 b.e)), r.2)
  else
    let r := gather (vs.map (convertF (floatFmt fmt)))
    ((r.1.flatMap (leBytes (fmtBits fmt / 8)), []), r.2)

/-! ### Sequences -/

/-- The descriptor's state for an operation of job j: OK, or the entry status of Table 5-11. -/
def seqStatus (j : Job) (x : Option KvSeq) : Nat := match x with
  | none => 3
  | some x =>
    if x.slice ≠ j.slice ∨ x.cls ≠ j.e.cls then 3
    else if x.state = .resident then 0 else if x.state = .free then 3 else 2

/-- Layer order (R142): the layer is NEXT_LAYER, and beyond layer 0 the count is PENDING. -/
def layerOk (x : KvSeq) (layer count : Nat) : Bool := layer == x.nextLayer && (layer == 0 || count == x.pending)

/-- The descriptor after a layer's append (R142). -/
def advanceLayer (s : State) (key layer count : Nat) (x : KvSeq) : KvSeq :=
  let p := if layer = 0 then count else x.pending
  if x.nextLayer + 1 = x.layers then { x with length := x.length + p, pending := 0, nextLayer := 0, lastCue := s.cue.count, step := none }
  else { x with pending := p, nextLayer := x.nextLayer + 1, step := some key }

/-- The layer is complete: the live descriptor advances, and a refill is asked for when a layer-0 step leaves
less than a page (R142, R161). -/
def stepSeq (s : State) (a : AeId) (key q layer count : Nat) : State :=
  match s.kv a q with
  | none => s
  | some x =>
    let s := s.setKv a q (some (advanceLayer s key layer count x))
    if layer = 0 ∧ (x.cls.toNat < 2 ∨ x.sparse) ∧ x.capacity < x.length + count + x.tp then
      s.upAe a (fun e => { e with refills := if BitVec.ofNat 10 q ∈ e.refills then e.refills else e.refills ++ [BitVec.ofNat 10 q] })
    else s

/-- A step that meets CAPACITY: the slice hears that its KV memory is exhausted (R162). -/
def kvFull (s : State) (a : AeId) (q : Nat) (n : SliceId) : State :=
  if BitVec.ofNat 10 q ∈ (s.ae a).exhausted then
    kvNotice (s.upAe a (fun e => { e with exhausted := e.exhausted.filter (· ≠ BitVec.ofNat 10 q) })) a q 0 n
  else s

/-! ### An operation's place and its checks (R67, R155, R164, R167) -/

/-- The sequence as the operation sees it: latched, but for the step that the AE itself keeps in the live descriptor. -/
def opSeq (s : State) (o : AeOp) (q : Nat) : Option KvSeq :=
  match o.latch.find? (fun p => p.1.toNat = q), s.kv o.home q with
  | some p, some y => some { p.2 with pending := y.pending, nextLayer := y.nextLayer, step := y.step }
  | _, _ => none

/-- The operation that engine b has under way. -/
def setOp (s : State) (b : AeId) (o : AeOp) : State := s.upAe b (fun e => { e with op := some o })

/-- The row of Table 2-7 that a check belongs to. -/
def aeRow : AeCheck → Nat
  | .residue => 4
  | .sampled => 5
  | .carried _ => 2

/-- What R67 counts as the same operation: an entry, or the granule a job reads. -/
def aeKey (s : State) (u : UnitId) (i : Nat) : AeCheck → Nat × Option UnitId × Nat
  | .carried g => (((s.unit u).job).getD 0, none, g)
  | _ => retryKey s u (4 * ((s.unit u).seq.done.toNat + 2 ^ 32 * i) + 3)

/-- A check's answer, a second failure in the cue being lasting (R67). -/
def aeOutcome (s : State) (u : UnitId) (i : Nat) (c : EntryChk) : Chk :=
  if c.chk = .transient ∧ aeKey s u i c.kind ∈ s.cue.retried then .fail else c.chk

/-- A retry that passed: remembered for the cue, counted and reported (R66, R67); the line of a granule that was read again has
left the cache (Table 2-7). -/
def aeRetried (s : State) (u : UnitId) (i : Nat) (c : EntryChk) : State :=
  let s := match c.kind with
    | .carried g => evictLine s (64 * g)
    | _ => s
  transientCheck (s.upCue (fun x => { x with retried := aeKey s u i c.kind :: x.retried })) u (aeRow c.kind)

/-- The flag of a retry. -/
def retryFlag (k : Chk) : Byte := if k = .transient then fRetry else 0

/-- An append or gather under its check: its failure ends the job (R155). -/
def aeChecked (s t : State) (u : UnitId) (c : EntryChk) : State :=
  match aeOutcome s u 0 c with
  | .pass => t
  | .transient => aeRetried t u 0 c
  | .fail => failCheck s u (aeRow c.kind) false
  | .corrected => eccCount t u 1
  | .double => failCheck s u 3 false

/-- Some of a list from a place on: so many, or all. -/
def fromPlace {α : Type} (xs : List α) (pos : Nat) : Option Nat → List α
  | none => xs.drop pos
  | some n => (xs.drop pos).take n

/-- Bytes at an address cut at granule boundaries. -/
def cutGranules (a : Nat) (bs : Bytes) : List (Nat × Bytes) :=
  (chunks (chunkFuel bs.length) a bs.length).map (fun c => (c.1, (bs.drop (c.1 - a)).take c.2))

/-- The first walk that does not reach a page: `some none` is a MAP_FAULT. -/
def walksBad (s : State) (a : AeId) (q : Nat) (x : KvSeq) (keys : List (Nat × Nat)) : Option (Option Bool) :=
  keys.findSome? (fun k => match walk s a q x k.1 k.2 with
    | .at_ _ => none
    | .fault => some none
    | .check p => some (some p))

/-- The page a walk reached. -/
def pageAt (s : State) (a : AeId) (q : Nat) (x : KvSeq) (stream entry : Nat) : Nat :=
  match walk s a q x stream entry with
  | .at_ f => f
  | _ => 0

/-- A walk that failed ends the job (R147, Table 2-7). -/
def walkFail (s : State) (u : UnitId) : Option Bool → State
  | none => failUnit (mapFault s u) u 0x0E
  | some p => failCheck s u (if p then 6 else 2) p

/-- A run of bytes that an append puts into one plane of one page, with the flags of their conversion. -/
structure KvRun where
  pa : Nat
  bs : Bytes
  flags : Byte

/-! ### AE_APPEND (R148, R149) -/

/-- Slices of a plane: the bytes of (token u, head h), of `m` bytes each. -/
def planeAt (bs : Bytes) (m i : Nat) : Bytes := (bs.drop (i * m)).take m

/-- Token u, head h in the sequence's format: copied, or converted from BF16. -/
def appendItem (x : KvSeq) (src : Nat) (bs es : Bytes) (i : Nat) : Flagged (Bytes × Bytes) :=
  let fmt := x.fmt.toNat
  if src = fmt then ((planeAt bs (kvM fmt x.headDim) i, planeAt es (kvX fmt x.headDim) i), 0)
  else kvEncode fmt (kvVals 9 x.headDim (planeAt bs (kvM 9 x.headDim) i) [])

/-- The pages of tokens that `count` tokens from `first` lie in: each with its first token and how many it holds of them. -/
def tokenPages (x : KvSeq) (first count : Nat) : List (Nat × Nat) :=
  if count = 0 then []
  else (List.range ((first + count - 1) / x.tp - first / x.tp + 1)).map (fun i =>
    let p := first / x.tp + i
    let t := max first (p * x.tp)
    (t, min (first + count) ((p + 1) * x.tp) - t))

/-- The four planes of some tokens and one head as runs in their page (R143). -/
def planeRuns (x : KvSeq) (f t : Nat) (k v : Flagged (List (Bytes × Bytes))) : List KvRun :=
  let o := slotOffsets x (t % x.tp)
  ([ { pa := f + o.1, bs := k.1.flatMap (·.1), flags := k.2 }, { pa := f + o.2.1, bs := k.1.flatMap (·.2), flags := 0 },
     { pa := f + o.2.2.1, bs := v.1.flatMap (·.1), flags := v.2 }, { pa := f + o.2.2.2, bs := v.1.flatMap (·.2), flags := 0 } ] : List KvRun).filter (fun r => !r.bs.isEmpty)

/-- The runs of an append, page by page and head by head. -/
def appendRuns (s : State) (a : AeId) (q : Nat) (x : KvSeq) (layer src count : Nat) (kb vb ke ve : Bytes) : List KvRun :=
  (tokenPages x x.length count).flatMap (fun p => (List.range x.kvHeads).flatMap (fun h =>
    let item (i : Nat) : Nat := (p.1 - x.length + i) * x.kvHeads + h
    planeRuns x (pageAt s a q x (layer * x.kvHeads + h) (entryOf x p.1)) p.1
      (gather ((List.range p.2).map (fun i => appendItem x src kb ke (item i))))
      (gather ((List.range p.2).map (fun i => appendItem x src vb ve (item i))))))

/-- Every stream of a layer with the entries of some tokens. -/
def layerKeys (x : KvSeq) (layer : Nat) (entries : List Nat) : List (Nat × Nat) :=
  (List.range x.kvHeads).flatMap (fun h => entries.eraseDups.map (fun e => (layer * x.kvHeads + h, e)))

def treeKeys (ks : List (Nat × Nat)) : List Nat := ks.map (fun k => 2048 * k.1 + k.2)

/-- The append of a valid descriptor from its place: granule after granule (R148, R167). The tokens take positions LENGTH
onwards in every layer (log entry 62). -/
def runAppend (s : State) (b : AeId) (k : AeChk) (j : Job) (d : Line) (q : Nat) (x : KvSeq) (o : AeOp) : State :=
  let u := UnitId.ae b
  let layer := fld d 6 2
  let count := fld d 8 4
  let space := fld d 12 1
  let src := fld d 13 1
  let n := count * x.kvHeads
  let m := kvM src x.headDim
  let e := kvX src x.headDim
  withOperand s b j space (fld d 16 8) (n * m) (fun kb =>
  withOperand s b j space (fld d 24 8) (n * m) (fun vb =>
  withOperand s b j space (fld d 32 8) (n * e) (fun ke =>
  withOperand s b j space (fld d 40 8) (n * e) (fun ve =>
    let keys := layerKeys x layer ((tokenPages x x.length count).map (fun p => entryOf x p.1))
    match walksBad s o.home q x keys with
    | some r => walkFail s u r
    | none =>
      let all := (appendRuns s o.home q x layer src count kb vb ke ve).flatMap (fun r => (cutGranules r.pa r.bs).map (fun g => (g, r.flags)))
      let part := fromPlace all o.pos k.blocks
      let c := k.entries.getD 0 {}
      let f := part.foldl (fun f g => f ||| g.2) (o.flags ||| retryFlag (aeOutcome s u 0 c))
      let t := cacheWalks (part.foldl (fun s g => kvWrite u j s g.1.1 g.1.2) s) o.home q x (treeKeys keys)
      let t := aeDraw (aeDraw (aeDraw (aeDraw t b space (fld d 16 8) (n * m)) b space (fld d 24 8) (n * m)) b space (fld d 32 8) (n * e)) b space (fld d 40 8) (n * e)
      let t := setOp t b { o with pos := o.pos + part.length, flags := f }
      aeChecked s (if o.pos + part.length < all.length then t else ran (stepSeq t o.home (stepKey j.id (s.unit u).entry) q layer count) u .own (statusWord (tagOf d) 3 f)) u c))))

/-- Why an append is refused (R149, R235): the REASON. -/
def appendErr (s : State) (a : AeId) (j : Job) (d : Line) (x : Option KvSeq) : Option Byte :=
  if ¬ spaceOk s a j (fld d 12 1) then some 0x06
  else if seqStatus j x ≠ 0 then some 0x0D
  else match x with
    | none => some 0x0D
    | some x =>
      if ¬ layerOk x (fld d 6 2) (fld d 8 4) then some 0x0D
      else if fld d 13 1 ≠ 9 ∧ fld d 13 1 ≠ x.fmt.toNat then some 0x01
      else if fld d 6 2 = 0 ∧ x.capacity < x.length + fld d 8 4 then some 0x0C
      else none

/-- An operation on one sequence goes on from its place, or starts: latched, and refused with a REASON or run. -/
def withOp (s : State) (b : AeId) (d : Line) (q : Nat) (err : State → Option KvSeq → Option Byte) (run : State → KvSeq → AeOp → State) : State :=
  let u := UnitId.ae b
  match (s.ae b).op with
  | some o => (match opSeq s o q with
    | some x => run s x o
    | none => failUnit s u 0x0D)
  | none =>
    let s1 := startOp (atDesc s u d) b [q]
    match err s1 (s.kv b q) with
    | some r => failUnit (if r = 0x0C then kvFull s1 b q (((s.kv b q).map (·.slice)).getD 0) else s1) u r
    | none => match (s1.ae b).op, s.kv b q with
      | some o, some x => run s1 x o
      | _, _ => s1

/-- AE_APPEND (R148, R149, R155, R167). -/
def execAeAppend (a : AeId) (k : AeChk) (s : State) : Ans :=
  let u := UnitId.ae a
  match headOf s u .own, jobOf s u with
  | some d, some j =>
    let q := fld d 4 2
    doWhen (typeOf d == 0x10) s (withOp s a d q (fun s1 x => appendErr s1 a j d x) (fun s1 x o => runAppend s1 a k j d q x o))
  | _, _ => did s

/-! ### AE_GATHER (R150, R151) -/

/-- The entry a gather reads token t through: a global position below the window through its own entry (R146). -/
def gatherEntry (x : KvSeq) (t : Nat) : Nat :=
  if x.sparse ∧ t + x.window < x.length + 1 ∧ t ∈ x.globals then x.globals.idxOf t else entryOf x t

/-- The store ranges a gather writes: per row, and its exponents. -/
def gatherRows (d : Line) (x : KvSeq) : List (Nat × Nat) × (Nat × Nat) :=
  let w := fmtBits (fld d 10 1)
  let pip := isPip (fld d 10 1)
  let tr := bitAt (fld d 9 1) 1
  let count := fld d 16 4
  let stride := fld d 28 4
  let cols := if tr then (if pip then (count + 31) / 32 * 32 else count) else x.headDim
  let rows := if tr then x.headDim else count
  let xs := if pip then (if tr then (count + 31) / 32 else x.headDim / 32) else 0
  ((List.range rows).map (fun r => (fld d 20 4 + r * stride, cols * w / 8)), (fld d 24 4, rows * xs))

/-- The gathered plane: rows of value bytes and their exponent bytes, with flags (R151). -/
def gatherData (s : State) (d : Line) (x : KvSeq) (fs : List Nat) : Flagged (List (Bytes × Bytes)) :=
  let v := bitAt (fld d 9 1) 0
  let first := fld d 12 4
  let toks := fs.zipIdx.map (fun p => kvBytesAt s x p.1 (first + p.2) v)
  if ¬ bitAt (fld d 9 1) 1 then (toks, 0)
  else
    let vals := toks.map (fun b => kvVals x.fmt.toNat x.headDim b.1 b.2)
    gather ((List.range x.headDim).map (fun i => kvEncode (fld d 10 1) (vals.map (fun r => r.getD i zeroV))))

/-- What a gather writes into the store, granule by granule: the rows, then the exponents. -/
def gatherGranules (d : Line) (x : KvSeq) (rows : List (Bytes × Bytes)) : List (Nat × Bytes) :=
  let at_ := gatherRows d x
  ((rows.zip at_.1).flatMap (fun p => cutGranules p.2.1 p.1.1)) ++ cutGranules at_.2.1 (rows.flatMap (·.2))

/-- The gather of a valid descriptor from its place: granule after granule (R150, R167). -/
def runGather (s : State) (b : AeId) (k : AeChk) (d : Line) (q : Nat) (x : KvSeq) (o : AeOp) : State :=
  let u := UnitId.ae b
  let v := bitAt (fld d 9 1) 0
  let first := fld d 12 4
  let stream := fld d 6 2 * x.kvHeads + fld d 8 1
  let c := spaceCore b (bits (fld d 9 1) 3 2 + 1)
  match rootGlobals s x with
  | .error r => walkFail s u r
  | .ok gl =>
    let x := { x with globals := gl }
    let keys := (List.range (fld d 16 4)).map (fun i => (stream, gatherEntry x (first + i)))
    let rows := gatherRows d x
    match walksBad s o.home q x keys with
    | some r => walkFail s u r
    | none =>
      if ¬ (rows.1.all (fun r => decide (r.1 + r.2 ≤ storeSize)) && decide (rows.2.1 + rows.2.2 ≤ storeSize)) then failUnit s u 0x05
      else
        let fs := keys.map (fun k => pageAt s o.home q x k.1 k.2)
        match fs.zipIdx.findSome? (fun p => kvBad s x p.1 (first + p.2) v) with
        | some p => failCheck s u (if p then 6 else 2) p
        | none =>
          let r := gatherData s d x fs
          let all := gatherGranules d x r.1
          let part := fromPlace all o.pos k.blocks
          let e := k.entries.getD 0 {}
          let f := o.flags ||| retryFlag (aeOutcome s u 0 e)
          let t := cacheWalks (part.foldl (fun s g => storeWrite s u c g.1 g.2) s) o.home q x (treeKeys keys.eraseDups)
          let t := setOp t b { o with pos := o.pos + part.length, flags := f }
          aeChecked s (if o.pos + part.length < all.length then t
            else ran (fs.zipIdx.foldl (fun s p => kvDraw s u x p.1 (first + p.2) v) t) u .own (statusWord (tagOf d) 3 (f ||| r.2))) u e

/-- Fields of a gather that depend on the sequence (Table 5-8, R151). -/
def gatherFits (d : Line) (x : KvSeq) : Bool :=
  decide (fld d 6 2 < x.layers) && decide (fld d 8 1 < x.kvHeads) &&
  (if bitAt (fld d 9 1) 1 then true
   else fld d 10 1 == x.fmt.toNat && decide (64 * ((x.headDim * fmtBits x.fmt.toNat + 511) / 512) ≤ fld d 28 4))

/-- Why a gather is refused (R150, R151, R235): the REASON. -/
def gatherErr (s : State) (a : AeId) (j : Job) (d : Line) (x : Option KvSeq) : Option Byte :=
  if ¬ spaceOk s a j (bits (fld d 9 1) 3 2 + 1) then some 0x06
  else if seqStatus j x ≠ 0 then some 0x0D
  else match x with
    | none => some 0x0D
    | some x =>
      if ¬ gatherFits d x then some 0x01
      else if (if fld d 6 2 < x.nextLayer then x.length + x.pending else x.length) < fld d 12 4 + fld d 16 4 then some 0x0D
      else none

/-- AE_GATHER (R150, R151, R155, R167). -/
def execAeGather (a : AeId) (k : AeChk) (s : State) : Ans :=
  let u := UnitId.ae a
  match headOf s u .own, jobOf s u with
  | some d, some j =>
    let q := fld d 4 2
    doWhen (typeOf d == 0x11) s (withOp s a d q (fun s1 x => gatherErr s1 a j d x) (fun s1 x o => runGather s1 a k d q x o))
  | _, _ => did s

/-! ### Decode arithmetic (R154, R156) -/

/-- A(q): the attended positions with the entry each is read through (R153, R156). -/
def attended (x : KvSeq) (q : Nat) : List (Nat × Nat) :=
  if ¬ x.sparse then (List.range (q + 1)).map (fun t => (t, entryOf x t))
  else
    let w0 := q + 1 - x.window
    ((x.globals.zipIdx.filter (fun g => g.1 < w0)).map (fun g => (g.1, g.2)))
    ++ ((List.range (q + 1 - w0)).map (fun i => (w0 + i, entryOf x (w0 + i))))

/-- log2 e in FP32. -/
def log2e : FVal := decodeF fp32 0x3FB8AA3B

/-- exp2f of R154: the function of FEXP2 (R117). -/
def exp2f (v : FVal) : FVal := decodeF fp32 (trans32 0x4E (resultF fp32 true v).1)

/-- The dot product of R154. -/
def dot32 (a b : List FVal) : FVal :=
  match (groupsOf 32 (List.zipWith mulV a b)).map (fun g => r32 (sumV g)) with
  | [] => zeroV
  | g :: gs => gs.foldl add32 g

/-- m, l and the accumulators of R154. -/
structure AttnAcc where
  m : FVal
  l : FVal
  acc : List FVal
  deriving DecidableEq, Repr

/-- One member of a block: its weight enters l and every accumulator. -/
def attnItem (m2 : FVal) (r : AttnAcc) (x : FVal × List FVal) : AttnAcc :=
  let w := exp2f (mul32 (r32 (subV x.1 m2)) log2e)
  { r with l := add32 r.l w, acc := List.zipWith (fun a v => add32 a (mul32 w v)) r.acc x.2 }

/-- One block of at most 128 members: scores with value rows. -/
def attnBlock (r : AttnAcc) (b : List (FVal × List FVal)) : AttnAcc :=
  let mb := (b.map (·.1)).foldl maxV (.inf true)
  let m2 := maxV r.m mb
  let c := if r.m = .inf true then zeroV else exp2f (mul32 (r32 (subV r.m m2)) log2e)
  let r1 : AttnAcc := { m := m2, l := mul32 r.l c, acc := r.acc.map (fun a => mul32 a c) }
  b.foldl (attnItem m2) r1

/-- Running values as FP32 words, and back. -/
def wordV (v : FVal) : Word := BitVec.ofNat 32 (convertF fp32 v).1
def ofWordV (w : Word) : FVal := decodeF fp32 w.toNat

/-! ### AE_DECODE (R152 to R155) -/

/-- How a batch entry ends: its status, none when it goes on later; its flags; whether the job stops; and the blocks that
are left before the operation yields. -/
structure EntryEnd where
  st : State
  status : Option Nat
  flags : Byte := 0
  stop : Bool := false
  left : Option Nat := none

/-- How one block ends: the operation further on, a failed walk, or a granule that fails its check. -/
inductive BlockEnd where
  | ok (o : AeOp)
  | fault
  | check (poisoned : Bool)

/-- The next block of an entry: the query heads of a KV head in turn, each over its blocks; the last gives the query head's
output in FMT_O (R154). -/
def blockStep (s : State) (q : Nat) (d : Line) (x : KvSeq) (qb qx : Bytes) (bs : List (List (Nat × Nat))) (o : AeOp) : BlockEnd :=
  let g := fld d 20 1
  let fq := fld d 21 1
  let i := o.pos / bs.length
  let stream := fld d 4 2 * x.kvHeads + i / g
  let ms := bs.getD (o.pos % bs.length) []
  match walksBad s o.home q x (ms.map (fun p => (stream, p.2))) with
  | some none => .fault
  | some (some p) => .check p
  | none =>
    let fr := ms.map (fun p => (pageAt s o.home q x stream p.2, p.1))
    match fr.findSome? (fun p => (kvBad s x p.1 p.2 false) <|> (kvBad s x p.1 p.2 true)) with
    | some p => .check p
    | none =>
      let kv (v : Bool) : List (List FVal) := fr.map (fun p => let b := kvBytesAt s x p.1 p.2 v; kvVals x.fmt.toNat x.headDim b.1 b.2)
      let query := kvVals fq x.headDim (planeAt qb (kvM fq x.headDim) i) (planeAt qx (kvX fq x.headDim) i)
      let scale := decodeF fp32 (fld d 16 4)
      let out := floatFmt (fld d 22 1)
      let nan : Byte := if (query :: kv false ++ kv true).any (fun r => r.any (· == .nan)) then fNan else 0
      let r0 : AttnAcc := if o.pos % bs.length = 0 then { m := .inf true, l := zeroV, acc := List.replicate x.headDim zeroV }
        else { m := ofWordV o.m, l := ofWordV o.l, acc := o.acc.map ofWordV }
      let r := attnBlock r0 (((kv false).map (fun k => mul32 scale (dot32 query k))).zip (kv true))
      let o := { o with pos := o.pos + 1, m := wordV r.m, l := wordV r.l, acc := r.acc.map wordV, flags := o.flags ||| nan }
      if o.pos % bs.length ≠ 0 then .ok o
      else
        let w := gather ((r.acc.map (fun a => r32 (divV a r.l))).map (convertF out))
        .ok { o with out := o.out ++ w.1.flatMap (leBytes (out.width / 8)), flags := o.flags ||| w.2 }

/-- Several blocks in turn. -/
def blocksRun (s : State) (q : Nat) (d : Line) (x : KvSeq) (qb qx : Bytes) (bs : List (List (Nat × Nat))) : Nat → AeOp → BlockEnd
  | 0, o => .ok o
  | n + 1, o => match blockStep s q d x qb qx bs o with
    | .ok o => blocksRun s q d x qb qx bs n o
    | r => r

/-- A failed check of an entry: reported, an event for a class 0 or 1 sequence, and the entry's status (R66, R155,
Table 5-11). -/
def entryCheck (s : State) (u : UnitId) (j : Job) (row : Nat) (p : Bool) : EntryEnd :=
  let s := reportCheck s u j.slice j.tag (s.unit u).seq.tag.toNat row true
  { st := if j.e.cls.toNat < 2 then raiseUnit s 0x00 u else s, status := some (if p then 5 else 4) }

/-- An operand of an entry that cannot be read: a fault ends the job, a failed check the entry. -/
def entryIo (s : State) (u : UnitId) (j : Job) (space : Nat) (r : AeIo) : EntryEnd := match r with
  | .check p => entryCheck s u j (if p then 6 else if space = 0 then 2 else 3) p
  | r => { st := aeFail s u space r, status := none, stop := true }

/-- The new key and value of an entry written at position LENGTH (R153 step 2); the exponents that a batch entry names no
address of are free (log entry 63). -/
def entryAppend (s : State) (u : UnitId) (j : Job) (q layer : Nat) (x : KvSeq) (o : AeOp) (kv ex : Bytes) : State :=
  let m := kvM x.fmt.toNat x.headDim
  let e := kvX x.fmt.toNat x.headDim
  let runs := (List.range x.kvHeads).flatMap (fun h =>
    planeRuns x (pageAt s o.home q x (layer * x.kvHeads + h) (entryOf x x.length)) x.length
      ([(planeAt kv m h, planeAt ex e h)], 0) ([(planeAt kv m (x.kvHeads + h), planeAt ex e (x.kvHeads + h))], 0))
  (runs.flatMap (fun r => cutGranules r.pa r.bs)).foldl (fun s g => kvWrite u j s g.1 g.2) s

/-- The attention of an entry whose key and value are in place, and at its end the check and the outputs (R153 steps 3 and
4, R155, R167). -/
def entryAttend (s : State) (b : AeId) (j : Job) (d : Line) (k : AeChk) (left : Option Nat) (e : Bytes) (q : Nat) (x : KvSeq) (o : AeOp) (qb : Bytes) : EntryEnd :=
  let u := UnitId.ae b
  let space := fld d 23 1
  let fq := fld d 21 1
  let nx := 2 * x.kvHeads * kvX x.fmt.toNat x.headDim
  let qx := ((List.range (nx + x.kvHeads * fld d 20 1 * kvX fq x.headDim)).map (Config.freeByte o.free)).drop nx
  match rootGlobals s x with
  | .error none => { st := mapFault s u, status := some 6 }
  | .error (some p) => entryCheck s u j (if p then 6 else 2) p
  | .ok gl =>
    let x := { x with globals := gl }
    let ms := attended x x.length
    let bs := groupsOf 128 ms
    let rest := x.kvHeads * fld d 20 1 * bs.length - o.pos
    let n := match left with
      | none => rest
      | some n => min n rest
    match blocksRun s q d x qb qx bs n o with
    | .fault => { st := mapFault s u, status := some 6 }
    | .check p => entryCheck s u j (if p then 6 else 2) p
    | .ok o =>
      let left := left.map (· - n)
      if n < rest then { st := setOp s b o, status := none, left := left }
      else
        let c := k.entries.getD o.entry {}
        match aeOutcome s u o.entry c with
        | .fail => entryCheck s u j (aeRow c.kind) false
        | .double => entryCheck s u j 3 false
        | r =>
          let s := if r = .transient then aeRetried s u o.entry c else if r = .corrected then eccCount s u 1 else s
          let s := cacheWalks s o.home q x (treeKeys (layerKeys x (fld d 4 2) (ms.map (·.2))))
          let s := aeWrite s b j space (fieldOf e 24 8) o.out
          let s := (layerKeys x (fld d 4 2) [0]).foldl (fun s h => ms.foldl (fun s p =>
            let f := pageAt s o.home q x h.1 p.2
            kvDraw (kvDraw s u x f p.1 false) u x f p.1 true) s) s
          let s := aeDraw s b space (fieldOf e 8 8) (x.kvHeads * fld d 20 1 * kvM fq x.headDim)
          { st := s, status := some 0, flags := o.flags ||| retryFlag r, left := left }

/-- The check of an entry is one of its inputs, and fails: a store granule, or a granule of its query, key or value in memory.
Nothing is written then (R60). -/
def inputFails (s : State) (b : AeId) (j : Job) (d : Line) (k : AeChk) (e : Bytes) (x : KvSeq) (o : AeOp) : Bool :=
  let c := k.entries.getD o.entry {}
  let reads (va len g : Nat) : Bool := (chunks (chunkFuel len) va len).any (fun r =>
    translate s j.slice (actorOf j) .read r.1 == some (.dram (64 * g + r.1 % 64)))
  let input : Bool := match c.kind with
    | .carried g => fld d 23 1 == 0 && (reads (fieldOf e 8 8) (x.kvHeads * fld d 20 1 * kvM (fld d 21 1) x.headDim) g ||
        reads (fieldOf e 16 8) (2 * x.kvHeads * kvM x.fmt.toNat x.headDim) g)
    | _ => false
  match aeOutcome s (.ae b) o.entry c with
  | .fail => input
  | .double => true
  | _ => false

/-- The append and attention of a valid entry, from its place (R153 steps 2 to 4, but for STATUS and GEN). -/
def entryRun (s : State) (b : AeId) (j : Job) (d : Line) (k : AeChk) (left : Option Nat) (e : Bytes) (q : Nat) (x : KvSeq) (o : AeOp) : EntryEnd :=
  let u := UnitId.ae b
  let space := fld d 23 1
  let layer := fld d 4 2
  let heads := x.kvHeads * fld d 20 1
  let m := kvM x.fmt.toNat x.headDim
  let olen := heads * x.headDim * ((floatFmt (fld d 22 1)).width / 8)
  match aeRead s b j space (fieldOf e 8 8) (heads * kvM (fld d 21 1) x.headDim), aeRead s b j space (fieldOf e 16 8) (2 * x.kvHeads * m),
      aeWritable s j space (fieldOf e 24 8) olen with
  | .ok qb, .ok kv, .ok _ =>
    if o.begun then entryAttend s b j d k left e q x o qb
    else if inputFails s b j d k e x o then
      entryCheck s u j (if aeOutcome s u o.entry (k.entries.getD o.entry {}) = .double then 3 else 2) false
    else match walksBad s o.home q x (layerKeys x layer [entryOf x x.length]) with
      | some none => { st := mapFault s u, status := some 6 }
      | some (some p) => entryCheck s u j (if p then 6 else 2) p
      | none =>
        let ex := (List.range (2 * x.kvHeads * kvX x.fmt.toNat x.headDim)).map (Config.freeByte s.free)
        let o := { o with begun := true, free := s.free }
        entryAttend (aeDraw (entryAppend { s with free := s.free + 1 } u j q layer x o kv ex) b space (fieldOf e 16 8) (2 * x.kvHeads * m)) b j d k left e q x o qb
  | .ok _, .ok _, r => entryIo s u j space r
  | .ok _, r, _ => entryIo s u j space r
  | r, _, _ => entryIo s u j space r

/-- The validation of an entry (R153 step 1): its status. -/
def entryStatus (j : Job) (d : Line) (x : Option KvSeq) (dup : Bool) : Nat :=
  let st := seqStatus j x
  if dup then 3
  else if st ≠ 0 then st
  else match x with
    | none => 3
    | some x =>
      if ¬ layerOk x (fld d 4 2) 1 then 3
      else if fld d 4 2 = 0 ∧ x.capacity < x.length + 1 then 1 else 0

/-- STATUS and GEN of a batch entry. -/
def putStatus (s : State) (a : AeId) (j : Job) (d : Line) (i st gen : Nat) : State :=
  let at_ := fld d 8 8 + 32 * i
  jobWrite (jobWrite s (.ae a) j (at_ + 2) [BitVec.ofNat 8 st]) (.ae a) j (at_ + 4) (leBytes 4 gen)

/-- A batch entry of a class 2 or 3 sequence that is not OK: one event, and the notice to its slice and to slice 0 (R153,
Table 12-12). -/
def entrySafety (s : State) (u : UnitId) (j : Job) (x : Option KvSeq) : State := match x with
  | none => s
  | some x =>
    if x.cls.toNat < 2 then s
    else
      let s := raiseUnit s 0x02 u
      let p := payload [(0, 1, x.cls.toNat), (1, 1, 2), (4, 4, j.tag.toNat)]
      let s := notify s j.slice 0x04 3 p
      if j.slice = 0 then s else notify s 0 0x04 3 p

/-- The end of an entry that is not OK: pending tokens go, and a class 2 or 3 sequence is an event (R142, R153). -/
def entryFailed (s : State) (u : UnitId) (a : AeId) (j : Job) (q st : Nat) (dup : Bool) : State :=
  match s.kv a q with
  | none => s
  | some x =>
    let s := if st = 1 then kvFull s a q j.slice else s
    let s := if ¬ dup ∧ x.step = some (stepKey j.id (s.unit u).entry) then s.setKv a q (some (dropStep x)) else s
    entrySafety s u j (some x)

/-- The run of a batch: the state, whether the job has stopped or the operation yields, and the blocks left before it does. -/
structure BatchRun where
  st : State
  halt : Bool
  left : Option Nat

/-- Entry i is over: its STATUS and GEN are written, and the operation stands at the next. -/
def entryOver (s : State) (b : AeId) (j : Job) (d : Line) (o : AeOp) (i st gen : Nat) (flags : Byte) : State :=
  setOp (putStatus s b j d i st gen) b { o with
    entry := i + 1, begun := false, pos := 0, m := 0, l := 0, acc := [], out := [], flags := o.flags ||| flags }

/-- Entry i of a batch; its reserved bits are ignored (log entry 124). -/
def decodeEntry (b : AeId) (j : Job) (d : Line) (k : AeChk) (r : BatchRun) (i : Nat) : BatchRun :=
  match (r.st.ae b).op with
  | none => r
  | some o =>
    if r.halt then r
    else if r.left = some 0 then { r with halt := true }
    else
      let u := UnitId.ae b
      let e := (o.table.drop (32 * i)).take 32
      let q := fieldOf e 0 2 % 1024
      let dup := (List.range i).any (fun i' => fieldOf o.table (32 * i') 2 % 1024 == q)
      let x := opSeq r.st o q
      let gen := (x.map (fun x => x.gen.toNat)).getD 0
      let st := if o.begun then 0 else entryStatus j d x dup
      match st, x with
      | 0, some x =>
        let f := entryRun r.st b j d k r.left e q x o
        match f.status with
        | none => { st := f.st, halt := true, left := f.left }
        | some 0 => { st := entryOver (stepSeq f.st o.home (stepKey j.id (r.st.unit u).entry) q (fld d 4 2) 1) b j d o i 0 gen f.flags, halt := false, left := f.left }
        | some st => { st := entryOver (entryFailed f.st u o.home j q st false) b j d o i st gen f.flags, halt := false, left := r.left }
      | _, _ => { r with st := entryOver (entryFailed r.st u o.home j q st dup) b j d o i st gen 0 }

/-- The sequences a batch names. -/
def batchSeqs (tbl : Bytes) (n : Nat) : List Nat := ((List.range n).map (fun i => fieldOf tbl (32 * i) 2 % 1024)).eraseDups

/-- A decode from its place to its end, or to where it yields (R153, R167). -/
def runBatch (s : State) (b : AeId) (k : AeChk) (j : Job) (d : Line) (o : AeOp) : State :=
  let n := fld d 6 2
  let r := ((List.range n).filter (o.entry ≤ ·)).foldl (decodeEntry b j d k) { st := s, halt := false, left := k.blocks }
  match (r.st.ae b).op with
  | some o => if n ≤ o.entry then ran r.st (.ae b) .own (statusWord (tagOf d) 3 o.flags) else r.st
  | none => r.st

/-- A decode starts: the batch table is read, and its sequences are latched (R152, R164). -/
def startBatch (s : State) (b : AeId) (d : Line) (tbl : Bytes) : State :=
  (startOp s b (batchSeqs tbl (fld d 6 2))).upAe b (fun e => { e with op := e.op.map (fun o => { o with table := tbl }) })

/-- A decode's operation goes on, if there is one. -/
def goBatch (s : State) (b : AeId) (k : AeChk) (j : Job) (d : Line) : State := match (s.ae b).op with
  | some o => runBatch s b k j d o
  | none => s

/-- AE_DECODE (R152 to R156, R167). -/
def execAeDecode (a : AeId) (k : AeChk) (s : State) : Ans :=
  let u := UnitId.ae a
  match headOf s u .own, jobOf s u with
  | some d, some j =>
    let s1 := atDesc s u d
    let len := 32 * fld d 6 2
    doWhen (typeOf d == 0x12) s
      (if (s.ae a).op.isSome then goBatch s a k j d
      else if ¬ spaceOk s a j (fld d 23 1) then failUnit s1 u 0x06
      else match firstUnreachable s j.slice (actorOf j) .write (fld d 8 8) len with
      | some va => failAccess s1 u va
      | none => match jobRead s j (fld d 8 8) len with
        | .ok tbl => goBatch (startBatch (unitAccess s1 u false .read (fld d 8 8) len false) a d tbl) a k j d
        | r => failRead s1 u r)
  | _, _ => did s

/-- The entries of a decode that have not executed are marked so, and those of class 2 and 3 sequences are events (R153,
R168, Table 5-11). -/
def notRunOp (s : State) (b : AeId) (j : Job) (own : List QItem) (o : Option AeOp) : State :=
  own.foldl (fun s x =>
    if typeOf x.d ≠ 0x12 ∨ x.ran then s
    else
      let n := fld x.d 6 2
      let tbl := match o with
        | some o => o.table
        | none => match jobRead s j (fld x.d 8 8) (32 * n) with
          | .ok bs => bs
          | _ => []
      let home := (o.map (·.home)).getD b
      ((List.range n).filter (((o.map (·.entry)).getD 0) ≤ ·)).foldl (fun s i =>
        let q := fieldOf tbl (32 * i) 2 % 1024
        entrySafety (putStatus s b j x.d i 7 0) (.ae b) j (if tbl.isEmpty then none else s.kv home q)) s) s

end Sys2Proof.Machine
end

