-- ==== Sys2Proof/Machine/Dice.lean ====
section
/-! DEFINITION. The dice function (R226 to R229). -/

namespace Sys2Proof.Machine

/-- rotl() of R226. -/
def rotl32 (v : Word) (n : Nat) : Word := v <<< n ||| v >>> (32 - n)

/-- c[r] of R227. -/
def diceConst (r : Nat) : Word := BitVec.ofNat 32 ((r + 1) * 0x9E3779B9)

/-- One round of R226 on (x, y). -/
def diceRound (seed : DWord) (p : Word × Word) (r : Nat) : Word × Word :=
  let k : Word := if r % 2 = 0 then seed.extractLsb' 0 32 else seed.extractLsb' 32 32
  let x := p.1 + (p.2 ^^^ (k + diceConst r))
  (x, rotl32 p.2 (if r % 2 = 0 then 7 else 13) ^^^ x)

/-- dice() of R226. -/
def dice (seed : DWord) (s d : Word) : Word := ((List.range 10).foldl (diceRound seed) (s, d)).2

/-- The same over numbers, which wrap. -/
def diceNat (seed s d : Nat) : Nat := (dice (BitVec.ofNat 64 seed) (BitVec.ofNat 32 s) (BitVec.ofNat 32 d)).toNat

end Sys2Proof.Machine
end

