-- ==== Sys2Proof/Machine/VeMem.lean ====
section
/-! DEFINITION. The vector engine's memory instructions (R122 to R124). -/

namespace Sys2Proof.Machine

/-- S[A] + IMM, as 64 bits. -/
def baseAddr (x : VeSt) (i : VI) : Nat := wrapBits 64 ((x.s i.a).toNat + i.imm)

/-- The first access, by lane, that is out of range or misaligned (R122, Table 4-7); a lane that is both is out of range (log
entry 123). -/
def badAccess (align len : Nat) : List (Nat × Nat) → Option VeRes
  | [] => none
  | (lane, a) :: as =>
    if storeSize < a + len then some (.exc 2 lane (a % 2 ^ 32))
    else if a % align ≠ 0 then some (.exc 3 lane (a % 2 ^ 32))
    else badAccess align len as

/-- The first granule of the accesses that fails its check. -/
def badGranule (s : State) (c : CoreId) (len : Nat) (as : List Nat) : Option Bool := as.findSome? (fun a => storeBad s c a len)

/-- Active lanes with their addresses. -/
def laneAddrs (act : List Bool) (addr : Nat → Nat) : List (Nat × Nat) :=
  (act.zipIdx.filter (·.1)).map (fun p => (p.2, addr p.2))

/-- A load of one element per active lane. -/
def loadLanes (s : State) (c : CoreId) (x : VeSt) (i : VI) (addr : Nat → Nat) : VeRes :=
  let n := etBits i.et / 8
  let act := activeLanes x i (etLanes i.et)
  let as := laneAddrs act addr
  match badAccess n n as with
  | some e => e
  | none => match badGranule s c n (as.map (·.2)) with
    | some p => .chk p
    | none => .ok (putV x i (act.zipIdx.map (fun p => (if p.1 then leNat (storeRead s c (addr p.2) n) else 0, 0))))

/-- A store of one element per active lane, the higher lane last (R123). -/
def storeLanes (x : VeSt) (i : VI) (addr : Nat → Nat) : VeRes :=
  let n := etBits i.et / 8
  let act := activeLanes x i (etLanes i.et)
  let as := laneAddrs act addr
  match badAccess n n as with
  | some e => e
  | none => .store x (as.map (fun a => (a.2, leBytes n ((lanesOf (etBits i.et) (x.vr i.d)).getD a.1 0))))

/-- Consecutive elements from a base, as one run of bytes when every lane is active. -/
def consecutive (x : VeSt) (i : VI) (n : Nat) : Nat := baseAddr x i + n * (etBits i.et / 8)

/-- lane i of V[B] added to the base (VGATH, VSCAT), as an unsigned number (log entry 123). -/
def indexed (x : VeSt) (i : VI) (n : Nat) : Nat := (baseAddr x i + (lanesOf 32 (x.vr i.b)).getD n 0) % 2 ^ 64

/-- i·S[B] added to the base (VLDS, VSTS). -/
def strided (x : VeSt) (i : VI) (n : Nat) : Nat := (baseAddr x i + n * (x.s i.b).toNat) % 2 ^ 64

/-- VLD (R113, R122). -/
def execVld (x : CoreChk) (s : State) : Ans :=
  veStep { op := 0x34, et := etAny, d := .v, a := .s, imm := .full } always noCheck (storeChk x.k) (fun s v i => loadLanes s x.c v i (consecutive v i)) x.c s

/-- VST (R113, R122). -/
def execVst (x : CoreChk) (s : State) : Ans :=
  veStep { op := 0x35, et := etAny, d := .v, a := .s, imm := .full } always noCheck (storeChk x.k)
    (fun _ v i => storeLanes v i (consecutive v i)) x.c s

/-- VLDS (R113, R122). -/
def execVlds (x : CoreChk) (s : State) : Ans :=
  veStep { op := 0x36, et := etAny, d := .v, a := .s, b := .reg .s, imm := .full } always noCheck (storeChk x.k) (fun s v i => loadLanes s x.c v i (strided v i)) x.c s

/-- VSTS (R113, R122, R123). -/
def execVsts (x : CoreChk) (s : State) : Ans :=
  veStep { op := 0x37, et := etAny, d := .v, a := .s, b := .reg .s, imm := .full } always noCheck (storeChk x.k) (fun _ v i => storeLanes v i (strided v i)) x.c s

/-- VGATH (R113, R122). -/
def execVgath (x : CoreChk) (s : State) : Ans :=
  veStep { op := 0x38, et := [2, 5], d := .v, a := .s, b := .reg .v, imm := .full } always noCheck (storeChk x.k) (fun s v i => loadLanes s x.c v i (indexed v i)) x.c s

/-- VSCAT (R113, R122, R123). -/
def execVscat (x : CoreChk) (s : State) : Ans :=
  veStep { op := 0x39, et := [2, 5], d := .v, a := .s, b := .reg .v, imm := .full } always noCheck (storeChk x.k) (fun _ v i => storeLanes v i (indexed v i)) x.c s

/-- VLDBC (R113, R122). -/
def execVldbc (x : CoreChk) (s : State) : Ans :=
  veStep { op := 0x3A, et := etAny, d := .v, a := .s, imm := .full } always noCheck (storeChk x.k) (fun s v i => loadLanes s x.c v i (fun _ => baseAddr v i)) x.c s

/-- Mantissa bits of MOD (VLDPIP, VSTPIP): 0 Pip8, 1 Pip6, 2 Pip4. -/
def modPip (i : VI) : Nat := [8, 6, 4].getD i.mod 8

def pipOk (i : VI) : Bool := !i.pe && decide (i.mod ≤ 2)

/-- Both runs of a Pip access lie in the store (R122, R124); neither address need be aligned (log entry 123). -/
def pipRange (x : VeSt) (i : VI) : Option VeRes :=
  if storeSize < baseAddr x i + 8 * modPip i then some (.exc 2 0xFFFF (baseAddr x i % 2 ^ 32))
  else if storeSize < (x.s i.b).toNat + 2 then some (.exc 2 0xFFFF ((x.s i.b).toNat % 2 ^ 32))
  else none

/-- VLDPIP (R124). -/
def execVldpip (x : CoreChk) (s : State) : Ans :=
  veStep { op := 0x3B, et := [5], d := .v, a := .s, b := .reg .s, imm := .full, mod := 3 } pipOk noCheck (storeChk x.k)
    (fun s v i =>
      let n := modPip i
      match pipRange v i with
      | some e => e
      | none => match (storeBad s x.c (baseAddr v i) (8 * n)) <|> (storeBad s x.c (v.s i.b).toNat 2) with
        | some p => .chk p
        | none =>
          let es := storeRead s x.c (v.s i.b).toNat 2
          let block q := (pipUnpack n (storeRead s x.c (baseAddr v i + 4 * n * q) (4 * n))).map (fun m => (resultF fp32 true (pipVal n (byteAt es q) m)).1)
          .ok (putV v i ((block 0 ++ block 1).map (fun v => (v, 0))))) x.c s

/-- VSTPIP (R49, R124). -/
def execVstpip (c : CoreId) (k : Chk) (s : State) : Ans :=
  veStep { op := 0x3C, et := [5], d := .v, a := .s, b := .reg .s, imm := .full, mod := 3 } pipOk sampled k
    (fun _ x i =>
      let n := modPip i
      match pipRange x i with
      | some e => e
      | none =>
        let vs := (lanesOf 32 (x.vr i.d)).map (decodeF fp32)
        let b0 := toPip n (vs.take 32)
        let b1 := toPip n (vs.drop 32)
        .store (x.flag (b0.2 ||| b1.2)) [(baseAddr x i, pipPack n b0.1.ms ++ pipPack n b1.1.ms), ((x.s i.b).toNat, [BitVec.ofNat 8 b0.1.e, BitVec.ofNat 8 b1.1.e])]) c s

/-- SLD (R113, R122). -/
def execSld (x : CoreChk) (s : State) : Ans :=
  veStep { op := 0x3D, et := etZ, d := .s, a := .s, imm := .full } always noCheck (storeChk x.k)
    (fun s v i =>
      let a := baseAddr v i
      match badAccess 8 8 [(0xFFFF, a)] with
      | some e => e
      | none => match storeBad s x.c a 8 with
        | some p => .chk p
        | none => .ok (v.setS i.d (BitVec.ofNat 64 (leNat (storeRead s x.c a 8))))) x.c s

/-- SST (R113, R122). -/
def execSst (x : CoreChk) (s : State) : Ans :=
  veStep { op := 0x3E, et := etZ, d := .s, a := .s, imm := .full } always noCheck (storeChk x.k)
    (fun _ v i =>
      match badAccess 8 8 [(0xFFFF, baseAddr v i)] with
      | some e => e
      | none => .store v [(baseAddr v i, leBytes 8 (v.s i.d).toNat)]) x.c s

end Sys2Proof.Machine
end

