-- ==== Sys2Proof/Machine/Texture.lean ====
section
/-! DEFINITION. The texture unit (R125, R186 to R189). -/

namespace Sys2Proof.Machine

def State.raster (s : State) (r : RfeId) : RasterSt := tget {} s.rasters r.toNat
def State.upRaster (s : State) (r : RfeId) (f : RasterSt → RasterSt) : State := { s with rasters := tup {} s.rasters r.toNat f }

/-- The raster front end that leads a job: the unit of its first RFE entry (R170, R358). -/
def leadOf (j : Job) : Option RfeId := match j.entries[j.e.cores + j.e.aes]? with
  | some e => match e.unit with
    | some (.rfe r) => some r
    | _ => none
  | none => none

/-- The render context latched by a core's job, while an RFE drives the core (R186). A core restored before the lead front end's
context finds none (log entry 123). -/
def boundCtx (s : State) (c : CoreId) : Option (BitVec 1024 × Job) :=
  if (s.ve c).driver.isNone then none
  else match jobOf s (.core c) with
    | none => none
    | some j => match leadOf j with
      | none => none
      | some r => (s.raster r).ctx.map (fun x => (x, j))

/-! ### Slots and formats (Tables 6-7 and 6-8) -/

/-- A texture slot. -/
structure Slot where
  base : Nat
  w : Nat
  h : Nat
  fmt : Nat
  levels : Nat
  wrapU : Nat
  wrapV : Nat
  min : Nat
  mag : Nat
  aniso : Nat
  border : Nat
  bias : Int
  minLod : Nat
  maxLod : Nat
  deriving DecidableEq, Repr

def slotOf (bs : Bytes) : Slot :=
  let b o := byteAt bs o
  { base := fieldOf bs 0 8, w := fieldOf bs 8 2, h := fieldOf bs 10 2, fmt := b 12, levels := b 13, wrapU := b 14 % 4,
    wrapV := b 14 / 4 % 4, min := b 15 % 4, mag := b 15 / 4 % 2, aniso := b 15 / 8, border := fieldOf bs 16 4, bias := signed 16 (fieldOf bs 20 2),
    minLod := b 22, maxLod := b 23 }

/-- The side of a block in texels and its bytes (Table 6-8). -/
def blockOf (fmt : Nat) : Nat × Nat :=
  if fmt = 0 then (1, 1) else if fmt = 1 ∨ fmt = 5 then (1, 2) else if fmt = 6 then (1, 8)
  else if fmt = 8 then (4, 8) else if fmt = 9 ∨ fmt = 10 then (4, 16) else if fmt = 11 then (8, 16) else (1, 4)

def blocks (n side : Nat) : Nat := (n + side - 1) / side

/-- Width and height of level l, and the bytes of one of its rows (R186). -/
def levelW (z : Slot) (l : Nat) : Nat := max 1 (z.w >>> l)
def levelH (z : Slot) (l : Nat) : Nat := max 1 (z.h >>> l)
def rowBytes (z : Slot) (l : Nat) : Nat := (blocks (levelW z l) (blockOf z.fmt).1 * (blockOf z.fmt).2 + 63) / 64 * 64

/-- Where level l begins. -/
def levelBase (z : Slot) (l : Nat) : Nat :=
  (List.range l).foldl (fun a k => a + rowBytes z k * blocks (levelH z k) (blockOf z.fmt).1) z.base

/-- FP32 bits of a UNORM code of n bits. -/
def unorm (n v : Nat) : Nat := (convertF fp32 (divV (intVal v) (intVal ((2 ^ n - 1 : Nat) : Int)))).1

/-- FP32 bits of an FP16 code. -/
def half32 (v : Nat) : Nat := (convertF fp32 (decodeF fp16 v)).1

def one32 : Nat := 0x3F800000

/-- R, G, B and A of a texel as FP32 bits, from its bytes as a number; x and y lie in its block (R186). -/
def texel (fmt w x y : Nat) : List Nat :=
  let c8 k := w / 256 ^ k % 256
  if fmt = 0 then [unorm 8 (c8 0), 0, 0, one32]
  else if fmt = 1 then [unorm 8 (c8 0), unorm 8 (c8 1), 0, one32]
  else if fmt = 2 then [unorm 8 (c8 0), unorm 8 (c8 1), unorm 8 (c8 2), unorm 8 (c8 3)]
  else if fmt = 3 then [Config.srgb (c8 0), Config.srgb (c8 1), Config.srgb (c8 2), unorm 8 (c8 3)]
  else if fmt = 4 then [unorm 10 (bits w 9 0), unorm 10 (bits w 19 10), unorm 10 (bits w 29 20), unorm 2 (bits w 31 30)]
  else if fmt = 5 then [half32 w, 0, 0, one32]
  else if fmt = 6 then [half32 (bits w 15 0), half32 (bits w 31 16), half32 (bits w 47 32), half32 (bits w 63 48)]
  else if fmt = 7 then [w, 0, 0, one32]
  else (List.range 3).map (Config.texelBlock fmt w x y) ++ [if fmt = 8 then one32 else Config.texelBlock fmt w x y 3]

/-- A coordinate brought into 0 to n − 1; `none` is the border. -/
def wrapTexel (mode n : Nat) (i : Int) : Option Nat :=
  if mode = 0 then some (i % n).toNat
  else if mode = 1 then
    let m := (i % (2 * n : Nat)).toNat
    some (if m < n then m else 2 * n - 1 - m)
  else if mode = 2 then some (min (n - 1) i.toNat)
  else if 0 ≤ i ∧ i < n then some i.toNat else none

/-- A texel coordinate u·W, less a half for a filter that weighs texels, in units of 1/256; a NaN is taken as 0 (R187). How it
is quantised between two units is open. -/
def texelFix (u n : Nat) (half : Bool) : Int :=
  let v := decodeF fp32 u
  let v := if v = .nan then zeroV else v
  match (if half then subV (mulV v (intVal n)) (.fin false 1 (-1)) else mulV v (intVal n)) with
  | .fin neg m e =>
    let x : Int := if neg then -(m : Int) else m
    let f := floorScale x (e + 8)
    if cmpV (.fin neg m e) (.fin (decide (f < 0)) f.natAbs (-8)) = some .eq then f else f + (Config.wholeOf 4 u) % 2
  | _ => 256 * Config.wholeOf 0 u

/-- The whole part of a texel coordinate, rounded down. -/
def texelInt (u n : Nat) : Int :=
  let v := decodeF fp32 u
  match floorV (mulV (if v = .nan then zeroV else v) (intVal n)) with
  | .fin neg m e => rneVal neg m e
  | _ => Config.wholeOf 0 u

/-! ### Sampling (R187, R189) -/

/-- Where a texel of a level lies in memory, and its place in its block: `none` is the border. -/
def texelAt (z : Slot) (p : Nat × Int × Int) : Option (Nat × Nat × Nat) :=
  match wrapTexel z.wrapU (levelW z p.1) p.2.1, wrapTexel z.wrapV (levelH z p.1) p.2.2 with
  | some px, some py =>
    let b := blockOf z.fmt
    some (levelBase z p.1 + py / b.1 * rowBytes z p.1 + px / b.1 * b.2, px % b.1, py % b.1)
  | _, _ => none

/-- One texel of a level, or why it could not be read. -/
def readTexel (s : State) (j : Job) (z : Slot) (p : Nat × Int × Int) : Except (Option Bool) (List Nat) :=
  match texelAt z p with
  | some (a, x, y) =>
    match jobRead s j a (blockOf z.fmt).2 with
    | .ok bs => .ok (texel z.fmt (leNat bs) x y)
    | .fault _ => .error none
    | .check _ p => .error (some p)
  | none => .ok ((List.range 4).map (fun k => unorm 8 (z.border / 256 ^ k % 256)))

/-- Every texel of a list, or an error: a texel that cannot be read comes before one that fails its check (R131). -/
def readTexels (s : State) (j : Job) (z : Slot) : List (Nat × Int × Int) → Except (Option Bool) (List (List Nat))
  | [] => .ok []
  | p :: ps => match readTexel s j z p, readTexels s j z ps with
    | .error none, _ => .error none
    | _, .error none => .error none
    | .error e, _ => .error e
    | _, .error e => .error e
    | .ok t, .ok ts => .ok (t :: ts)

/-- The 2 × 2 texels round a position of a level, each with its weight of 1/65,536 (R187). -/
def around (z : Slot) (u v l : Nat) : List ((Nat × Int × Int) × Nat) :=
  let fx := texelFix u (levelW z l) true
  let fy := texelFix v (levelH z l) true
  let x := fx / 256
  let y := fy / 256
  let wx := (fx % 256).toNat
  let wy := (fy % 256).toNat
  [((l, x, y), (256 - wx) * (256 - wy)), ((l, x + 1, y), wx * (256 - wy)), ((l, x, y + 1), (256 - wx) * wy), ((l, x + 1, y + 1), wx * wy)]

/-- λ of a lane in units of 2^−80, and the number of its probes (R187): from C, or from the footprint of its quad. -/
def lambdaOf (x : VeSt) (i : VI) (z : Slot) (zw lane : Nat) : Int × Nat :=
  let far : Int := (2 ^ 100 : Nat)
  let q := lane / 4 * 4
  let quad := (List.range 4).flatMap (fun k => [(aLanes x i).getD (q + k) 0, (bLanes x i).getD (q + k) 0])
  if bitAt i.mod 0 then
    (match decodeF fp32 ((cLanes x i).getD lane 0) with
    | .nan => 0
    | .inf neg => if neg then -far else far
    | v => fixV v, (1 : Nat))
  else match decodeF fp32 (Config.footprint quad zw).1, decodeF fp32 (Config.footprint quad zw).2 with
    | .fin _ m e, .fin _ n f =>
      let lo := min e f
      let a := m * 2 ^ (e - lo).toNat
      let b := n * 2 ^ (f - lo).toNat
      let probes := if z.min ≠ 3 then 1 else if b = 0 then max 1 z.aniso else max 1 (min z.aniso ((a + b - 1) / b))
      ((if m = 0 then -far else log2Fix m e - log2Fix probes 0), probes)
    | _, _ => (far, if z.min ≠ 3 then 1 else max 1 z.aniso)

/-- λ + LOD_BIAS, clamped, in units of 1/256 rounded down. -/
def lodOf (z : Slot) (lam : Int) : Int :=
  let top : Int := min z.maxLod (z.levels - 1)
  max ((z.minLod : Int) * 256) (min (top * 256) (lam / (2 ^ 72 : Nat) + z.bias))

/-- The filter in force: 0 nearest, 1 bilinear, 2 trilinear, 3 anisotropic; MAG when λ ≤ 0. -/
def filterOf (z : Slot) (lam : Int) : Nat := if lam ≤ 0 then z.mag else z.min

/-- The level of a filter that reads one: λ itself when whole, one of its neighbours otherwise. -/
def levelOf (lod : Int) : Nat :=
  let l := (lod / 256).toNat
  if lod % 256 = 0 then l else if Config.wholeOf 1 lod.toNat % 2 = 0 then l else l + 1

/-- The levels a filter reads, each with its weight of 1/256. -/
def levelsOf (f : Nat) (lod : Int) : List (Nat × Nat) :=
  let w := (lod % 256).toNat
  if f ≤ 1 then [(levelOf lod, 256)]
  else ((lod / 256).toNat, 256 - w) :: (if w = 0 then [] else [((lod / 256).toNat + 1, w)])

/-- The texels that one lane reads, each with its weight; the weights add up to 2^24 × N (R187). -/
def placesOf (z : Slot) (quad : List Nat) (u v : Nat) (lam : Int × Nat) : List ((Nat × Int × Int) × Nat) :=
  let lod := lodOf z lam.1
  let f := filterOf z lam.1
  if f = 0 then let l := levelOf lod; [((l, texelInt u (levelW z l), texelInt v (levelH z l)), 2 ^ 24)]
  else
    let probes := if f = 3 ∧ lam.2 ≠ 1 then (List.range lam.2).map (Config.probe quad u v lam.2) else [(u, v)]
    probes.flatMap (fun p => (levelsOf f lod).flatMap (fun l => (around z p.1 p.2 l.1).map (fun a => (a.1, a.2 * l.2))))

/-- What one lane returns: the weighted sum of its texels, exact and rounded once to FP32 (log entry 107). -/
def weigh (ps : List ((Nat × Int × Int) × Nat)) (ts : List (List Nat)) : List Nat :=
  match ps, ts with
  | [_], [t] => t
  | _, _ =>
    let total : Nat := (ps.map (·.2)).foldl (· + ·) 0
    (List.range 4).map (fun ch =>
      (resultF fp32 true (divV (sumV ((ps.zip ts).map (fun p => mulV (intVal p.1.2) (decodeF fp32 (p.2.getD ch 0))))) (intVal total))).1)

/-- TSAMPLE (R125, R189): the sample goes to the texture unit; a slot that is not bound raises TEXTURE. -/
def execTsample (c : CoreId) (k : Chk) (s : State) : Ans :=
  veStep { op := 0x3F, et := [5], d := .v, a := .v, b := .any, c := .v, imm := .low 8, mod := 1 }
    (fun i => decide (i.d ≤ 28) && (bitAt i.mod 0 || i.c == 0)) sampled k
    (fun s _ i => match boundCtx s c with
      | none => .exc 6 0xFFFF 0
      | some x => if wrapBits 24 i.imm % 256 < fld x.1 88 2 then .sample else .exc 6 0xFFFF 0) c s

/-- The texels that lane n reads. -/
def lanePlaces (z : Slot) (zw : Nat) (x : VeSt) (i : VI) (n : Nat) : List ((Nat × Int × Int) × Nat) :=
  let q := n / 4 * 4
  let quad := (List.range 4).flatMap (fun k => [(aLanes x i).getD (q + k) 0, (bLanes x i).getD (q + k) 0])
  placesOf z quad ((aLanes x i).getD n 0) ((bLanes x i).getD n 0) (lambdaOf x i z zw n)

/-- The lanes sampled in turn: the results, or the lane and the kind of the error; the lowest lane that raises TEXTURE comes
before a lane whose granule fails its check (R131). -/
def sampleLanes (s : State) (j : Job) (z : Slot) (zw : Nat) (x : VeSt) (i : VI) : List (Bool × Nat) → Except (Nat × Option Bool) (List (List Nat))
  | [] => .ok []
  | p :: ps =>
    let places := if p.1 then lanePlaces z zw x i p.2 else []
    match readTexels s j z (places.map (·.1)) with
    | .error none => .error (p.2, none)
    | .error e => match sampleLanes s j z zw x i ps with
      | .error (n, none) => .error (n, none)
      | _ => .error (p.2, e)
    | .ok ts => match sampleLanes s j z zw x i ps with
      | .error e => .error e
      | .ok rest => .ok ((if p.1 then weigh places ts else [0, 0, 0, 0]) :: rest)

/-- The virtual addresses a sample reads, its slot first. -/
def sampleReads (z : Slot) (zw : Nat) (x : VeSt) (i : VI) (slot : Nat) : List Nat :=
  slot :: ((activeLanes x i 64).zipIdx.filter (·.1)).flatMap (fun p => (lanePlaces z zw x i p.2).filterMap (fun q => (texelAt z q.1).map (·.1)))

/-- R, G, B and A written to V[D] to V[D+3]. -/
def putSample (x : VeSt) (i : VI) (rs : List (List Nat)) : VeSt :=
  let y := (List.range 4).foldl (fun (y : VeSt) ch =>
    putLanes y i 32 (i.d + ch) (activeLanes x i 64) (rs.map (fun t => ((t.getD ch 0, 0) : Flagged Nat)))) x
  { y with tex := none, texChk := .pass, pc := x.pc + 1, count := x.count + 1 }

/-- The slot that an instruction names, and where it lies (R125, R186). -/
def slotNo (i : VI) : Nat := wrapBits 24 i.imm % 256
def texSlotVa (ctx : BitVec 1024) (i : VI) : Nat := fld ctx 80 8 + 32 * slotNo i

/-- The end of a sample: TEXTURE, a check failure, or the four registers under the checks of the instruction and of one
granule read (R131, R189). -/
def sampleEnd (s : State) (c : TexDone) (i : VI) (x : VeSt) (ctx : BitVec 1024) (j : Job) : State :=
  let u := UnitId.core c.core
  let drop (s : State) : State := s.upVe c.core (fun x => { x with tex := none, texChk := .pass })
  let failed (p : Bool) : State := failCheck (atDesc s u x.d) u (if p then 6 else 2) p
  match jobRead s j (texSlotVa ctx i) 32 with
  | .fault _ => veException (drop s) c.core 6 i.w.toNat 0xFFFF 0
  | .check _ p => failed p
  | .ok bs =>
    if 0x0B < (slotOf bs).fmt then veException (drop s) c.core 6 i.w.toNat 0xFFFF 0
    else match sampleLanes s j (slotOf bs) (leNat (bs.take 16)) x i ((activeLanes x i 64).zipIdx) with
      | .ok rs =>
        let t := veCheck s (s.upVe c.core (fun x => putSample x i rs)) c.core x 5 x.texChk
        match (sampleReads (slotOf bs) (leNat (bs.take 16)) x i (texSlotVa ctx i))[c.granule]? with
        | some va => readBy (atDesc s u x.d) t u j va c.read
        | none => t
      | .error (lane, none) => veException (drop s) c.core 6 i.w.toNat lane 0
      | .error (_, some p) => failed p

/-- A vector engine that its sample kept from its yield point has reached it (R133). -/
def reachPoint (s : State) (u : UnitId) : State := match (s.unit u).phase with
  | .preemptAsked _ b => s.upUnit u (fun x => { x with phase := .preemptStopped b })
  | _ => s

/-- TSAMPLE_RESULT (R129, R133, R187 to R189): the texture unit returns the lanes of the sample in flight, also while a
pre-emption waits for the instruction to end. -/
def execTsampleResult (c : TexDone) (s : State) : Ans :=
  let x := s.ve c.core
  match x.tex, boundCtx s c.core with
  | some w, some b => doWhen (x.running && (working s (.core c.core) || (requestOf (s.unit (.core c.core)).phase).isSome)) s
      (reachPoint (sampleEnd s c (decodeVi w) x b.1 b.2) (.core c.core))
  | _, _ => did s

end Sys2Proof.Machine
end

