-- ==== Sys2Proof/Machine/VeLaunch.lean ====
section
/-! DEFINITION. VE_LAUNCH in kernel mode and in convolution mode (R126 to R136). -/

namespace Sys2Proof.Machine

/-- Instructions of a run of bytes (R111). -/
def codeOf (bs : Bytes) : List DWord := (List.range (bs.length / 8)).map (fun i => BitVec.ofNat 64 (fieldOf bs (8 * i) 8))

/-- A kernel starts on core c: the code copied or reused, the registers zero, the first grid point (R127, R128). A convolution
between two kernels leaves the buffer as it is (log entry 123). -/
def startKernel (s : State) (c : CoreId) (d : Line) (driver : Option RfeId) : State :=
  let u := UnitId.core c
  let addr := fld d 12 4
  let len := fld d 10 2
  let key := ((s.unit u).job.getD 0, addr, len)
  let reuse := bitAt (fld d 5 1) 0 && decide ((s.ve c).codeKey = some key)
  match if reuse then none else storeBad s c addr (8 * len) with
  | some p => failCheck (atDesc s u d) u (if p then 6 else 3) p
  | none =>
    let code := if reuse then (s.ve c).code else codeOf (storeRead s c addr (8 * len))
    let x : VeSt := { running := true, d := d, driver := driver, code := code, codeKey := some key, launches := (s.ve c).launches + 1 }
    s.upVe c (fun _ => startPoint s c 0 0 x)

/-- VE_LAUNCH (R126 to R128): the head of the VE queue, MODE 0, starts its kernel. -/
def execVeLaunch (c : CoreId) (s : State) : Ans :=
  match headOf s (.core c) .ve with
  | none => did s
  | some d => doWhen (!(s.ve c).running && fld d 4 1 == 0) s (startKernel s c d none)

/-! ### Convolution mode (R134, R135) -/

/-- One weight, w(t, co, i), as raw bits. -/
def convWeight (s : State) (c : CoreId) (d : Line) (cout t co i : Nat) : Nat :=
  let w := fmtBits (fld d 7 1)
  let off := ((t * cout + co) * fld d 9 1 + i) * (w / 8)
  leNat (storeRead s c (fld d 12 4 + off) (w / 8))

/-- Output channels of a convolution, and its taps (R134). -/
def convOuts (d win : Line) : Nat := (decodeWin win).c / fld d 9 1 * fld d 10 1
def convTaps (win : Line) : Nat := (decodeWin win).kh * (decodeWin win).kw

/-- One FP32 step of R135: the accumulator saturates, and one that a NaN or an infinity touches stays the canonical NaN, as in R57
(log entry 123). -/
def convStep (r : Flagged FVal) (p : FVal × FVal) : Flagged FVal :=
  if ¬ r.1.isFin ∨ ¬ p.1.isFin ∨ ¬ p.2.isFin then (.nan, r.2 ||| fNan)
  else let x := accStep r.1 (mulV p.1 p.2); (x.1, r.2 ||| x.2)

/-- Tap t of one output channel added to its accumulator (R135). -/
def convTapOf (s : State) (c : CoreId) (d win : Line) (oy ox t co : Nat) (acc : Word) : Flagged Word :=
  let z := decodeWin win
  let gi := fld d 9 1
  let fmt := fld d 7 1
  let terms := (List.range gi).map (fun i =>
    (elemVal fmt (winElem s c z oy ox (t * z.cr + co / fld d 10 1 * gi + i)), elemVal fmt (convWeight s c d (convOuts d win) t co i)))
  if isInt fmt then
    (match sumV (terms.map (fun p => mulV p.1 p.2)) with
    | .fin neg m e => (acc + BitVec.ofInt 32 (rneVal neg m e), 0)
    | _ => (acc, 0))
  else
    let r := terms.foldl convStep (decodeF fp32 acc.toNat, 0)
    (BitVec.ofNat 32 (convertF fp32 r.1).1, r.2)

/-- The outputs of a pixel converted from its accumulators (R97, R135). -/
def convOut (s : State) (c : CoreId) (d win : Line) (acc : List Word) : Flagged (List Nat) :=
  gather ((List.range (convOuts d win)).map (fun co =>
    let a := acc.getD co 0
    convertOut s c (fld d 8 1) (fld d 28 4) (fld d 32 4) co (if isInt (fld d 7 1) then intVal a.toInt else decodeF fp32 a.toNat)))

/-- The next tap of the next pixel; after the last tap the pixel is written (R135, R138). -/
def convTap (c : CoreId) (d win : Line) (s : State) : State :=
  match (s.ve c).conv with
  | none => s
  | some p =>
    let z := decodeWin win
    let n := fld d 36 4 + p.pixel
    let rs := gather ((List.range (convOuts d win)).map (fun co => convTapOf s c d win (n / z.outW) (n % z.outW) p.tap co (p.acc.getD co 0)))
    let s := s.upVe c (fun x => x.flag rs.2)
    if p.tap + 1 < convTaps win then s.upVe c (fun x => { x with conv := some { p with tap := p.tap + 1, acc := rs.1 } })
    else
      let o := convOut s c d win rs.1
      let s := s.upVe c (fun x => { x.flag o.2 with conv := some { pixel := p.pixel + 1, tap := 0, acc := [] } })
      storeParts s (.core c) c [(fld d 16 4 + n / z.outW * fld d 20 4 + n % z.outW * fld d 24 4, packElems (fmtBits (fld d 8 1)) o.1)]

/-- Several taps in turn. -/
def convRun (c : CoreId) (d win : Line) : Nat → State → State
  | 0, s => s
  | n + 1, s => convRun c d win n (convTap c d win s)

/-- The store ranges of the input that a convolution's pixels read. -/
def convReads (d : Line) (z : Win) : List (Nat × Nat) :=
  (List.range (fld d 40 4)).flatMap (fun n => let p := fld d 36 4 + n; winReads z (p / z.outW) (p % z.outW))

/-- The granules that a convolution reads, whose check fails: the weights, the table, and the input of its pixels. One of any
pixel ends the job before the first pixel is written (log entry 123). -/
def convBad (s : State) (c : CoreId) (d win : Line) : Option Bool :=
  let z := decodeWin win
  let scale := fld d 28 4
  (storeBad s c (fld d 12 4) (convTaps win * convOuts d win * fld d 9 1 * (fmtBits (fld d 7 1) / 8)))
    <|> (if bitAt scale 30 ∨ bitAt scale 31 then storeBad s c (fld d 32 4) (8 * convOuts d win) else none)
    <|> (convReads d z).findSome? (fun r => storeBad s c r.1 r.2)

/-- The table of a convolution lies in the store. -/
def convTableFits (d win : Line) : Bool :=
  let scale := fld d 28 4
  !(bitAt scale 30 || bitAt scale 31) || decide (fld d 32 4 + 8 * convOuts d win ≤ storeSize)

/-- The row of Table 2-7 that a convolution's check belongs to: integer sums are under the residue check, and float steps and
the conversions of outputs are sampled (R135). -/
def convRow (d : Line) (out : Bool) : Nat := if isInt (fld d 7 1) ∧ ¬ out then 4 else 5

/-- The steps of taps a to b − 1 that sampling covers: every tap of a float launch, and the conversion at the end of each pixel
of an integer one (R135). -/
def convDrawn (d win : Line) (a b : Nat) : Nat := if isInt (fld d 7 1) then b / convTaps win - a / convTaps win else b - a

/-- A convolution at its place, or at its first tap. -/
def convBegin (s : State) (c : CoreId) : State :=
  if (s.ve c).conv.isSome then s else s.upVe c (fun x => { x with flags := 0, conv := some { pixel := 0, tap := 0, acc := [] } })

/-- Taps done of a launch. -/
def convDone (s : State) (c : CoreId) (win : Line) : Nat := match (s.ve c).conv with
  | some p => p.pixel * convTaps win + p.tap
  | none => 0

/-- What the checkers of a convolution show: a sampled step that is not selected is executed once (R65, R135). -/
def convShows (s : State) (c : CoreId) (row n : Nat) (k : Chk) : Chk :=
  if row = 5 ∧ ¬ veSelected s c n ∧ (k = .transient ∨ k = .fail) then .pass else k

/-- The status word of a convolution that has taken its last tap (R130); one that has not yields there (R138). -/
def convEnd (s : State) (c : CoreId) (d win : Line) : State :=
  if convDone s c win < fld d 40 4 * convTaps win then s
  else ran (s.upVe c (fun x => { x with conv := none })) (.core c) .ve (statusWord (tagOf d) 2 (s.ve c).flags)

/-- A convolution goes on from its place over the taps it takes, under its check (R67, R130, R135, R138). -/
def runConv (s : State) (c : CoreId) (k : ConvChk) (d win : Line) : State :=
  let u := UnitId.core c
  let a := convDone s c win
  let b := match k.taps with
    | none => fld d 40 4 * convTaps win
    | some n => min (fld d 40 4 * convTaps win) (a + n)
  let drawn (t : State) : State := veDraw t c (convDrawn d win a b)
  let row := convRow d k.out
  let all := convRun c d win (b - a) s
  if k.tap < a ∨ b ≤ k.tap then drawn (convEnd all c d win)
  else
    let key := 4 * ((s.unit u).seq.done.toNat + 2 ^ 32 * k.tap) + 2
    let shown := convShows s c row (convDrawn d win a k.tap) k.chk
    let done := convEnd (if chkOutcome s u key shown = .transient then all.upVe c (fun x => x.flag fRetry) else all) c d win
    drawn (checkedBy (convRun c d win (k.tap - a) s) done u key row shown)

/-- VE_LAUNCH_CONV (R134, R135, R138): the head of the VE queue, MODE 1, runs over its window context, from its first tap or
from where it yielded. -/
def execVeLaunchConv (c : CoreId) (k : ConvChk) (s : State) : Ans :=
  let u := UnitId.core c
  match headOf s u .ve with
  | none => did s
  | some d =>
    doWhen (!(s.ve c).running && fld d 4 1 == 1) s
      (match tget none (s.core c).win (fld d 6 1 % 4) with
      | none => failDesc s u d 0x01
      | some win =>
        if ¬ convFits d win then failDesc s u d 0x01
        else if ¬ rangesFit (convReads d (decodeWin win)) ∨ ¬ convTableFits d win then failDesc s u d 0x05
        else match convBad s c d win with
          | some p => failCheck (atDesc s u d) u (if p then 6 else 3) p
          | none => runConv (convBegin (atDesc s u d) c) c k d win)

end Sys2Proof.Machine
end

