-- ==== Sys2Proof/Machine/RasterOps.lean ====
section
/-! DEFINITION. Render contexts, draw records, clipping, coverage and binning (R172 to R177). -/

namespace Sys2Proof.Machine

/-- A render context (Table 6-2). -/
abbrev Rc := BitVec 1024

def Rc.tx (x : Rc) : Nat := (fld x 0 2 + 31) / 32
def Rc.ty (x : Rc) : Nat := (fld x 2 2 + 31) / 32
/-- T of R172. -/
def Rc.tiles (x : Rc) : Nat := x.tx * x.ty
def Rc.depthFmt (x : Rc) : Nat := fld x 5 1
def Rc.drop (x : Rc) : Bool := bitAt (fld x 6 1) 0
def Rc.depthStore (x : Rc) : Bool := bitAt (fld x 6 1) 1
def Rc.flip (x : Rc) : Bool := bitAt (fld x 6 1) 2
def Rc.colorAddr (x : Rc) : Nat := fld x 8 8
def Rc.depthAddr (x : Rc) : Nat := fld x 16 8
def Rc.metaAddr (x : Rc) : Nat := fld x 24 8
def Rc.tlmAddr (x : Rc) : Nat := fld x 32 8
def Rc.tlmBytes (x : Rc) : Nat := 65536 * fld x 40 4
def Rc.drawAddr (x : Rc) : Nat := fld x 64 8
def Rc.drawCount (x : Rc) : Nat := fld x 72 4
/-- Bytes of a pixel of the colour target (R173). -/
def Rc.colorSize (x : Rc) : Nat := if fld x 4 1 = 3 then 8 else 4
/-- Bytes of a pixel of the depth target. -/
def Rc.depthSize (x : Rc) : Nat := if x.depthFmt = 1 then 2 else 4
/-- Where the primitive records begin (R176). -/
def Rc.recBase (x : Rc) : Nat := c64 (8 * x.tiles)
/-- The four words of VIEWPORT. -/
def Rc.view (x : Rc) : List Nat := [fld x 96 4, fld x 100 4, fld x 104 4, fld x 108 4]
/-- Where the tile work area lies in a core's store (R178). -/
def Rc.area (x : Rc) : Nat := 65536 * fld x 76 2

/-- FP32 0.0 to 1.0. -/
def unit32 (w : Nat) : Bool :=
  let v := decodeF fp32 w
  v.isFin && !belowV v zeroV && !belowV (intVal 1) v

/-- The rules of Table 6-2 and R176. -/
def ctxOk (x : Rc) : Bool :=
  let needDepth := x.depthFmt != 0 && (x.depthStore || !x.drop)
  inR 1 (fld x 0 2) 16384 && inR 1 (fld x 2 2) 16384 && fld x 4 1 < 4 && x.depthFmt < 3 && fld x 6 1 < 8 && fld x 7 1 < 32 &&
  x.colorAddr % 64 == 0 && (!needDepth || x.depthAddr != 0) && x.tlmAddr % 65536 == 0 && fld x 46 2 == 0 && unit32 (fld x 56 4) &&
  fld x 60 4 == 0 && x.drawAddr % 64 == 0 && inR 1 x.drawCount 65536 && fld x 76 2 < 64 && fld x 78 2 < 8192 && fld x 88 2 ≤ 256 &&
  fld x 90 6 == 0 && fld x 120 8 == 0 && decide (x.recBase + 448 + 512 * x.tiles ≤ x.tlmBytes)

/-- The rules of Table 6-3. -/
def drawOk (d : Line) : Bool :=
  fld d 0 8 % 64 == 0 && inR 1 (fld d 16 4) 16777216 && fld d 20 1 < 3 && fld d 21 1 < 128 && fld d 21 1 % 4 != 3 &&
  inR 1 (fld d 22 2) 2048 && fld d 24 8 % 64 == 0 && fld d 40 4 != 0 && fld d 44 2 ≤ 4096 && fld d 46 2 == 0 && fld d 48 8 % 64 == 0 && fld d 56 8 == 0

/-! ### Screen positions (R175) -/

/-- The clip-space words x, y, z, w of three vertex records. -/
def clipWords (vs : Bytes) : List Nat := (List.range 3).flatMap (fun k => (List.range 4).map (fun i => fieldOf vs (64 * k + 4 * i) 4))

/-- A vertex in clip space: x, y, z and w, exact. -/
abbrev ClipVtx := List FVal

def ClipVtx.at (v : ClipVtx) (i : Nat) : FVal := v.getD i .nan

/-- How far a vertex lies inside a clip plane: w − 2^−20 of plane 0, then 65,536·w ∓ x and 65,536·w ∓ y (R175 step 1). -/
def planeDist (v : ClipVtx) (i : Nat) : FVal :=
  let g := mulV (v.at 3) (intVal 65536)
  if i = 0 then subV (v.at 3) (.fin false 1 (-20)) else if i = 1 then subV g (v.at 0) else if i = 2 then addV g (v.at 0)
  else if i = 3 then subV g (v.at 1) else addV g (v.at 1)

/-- A vertex lies on the inner side of clip plane i. -/
def insidePlane (i : Nat) (v : ClipVtx) : Bool := !belowV (planeDist v i) zeroV

/-- Where the edge from a, inside plane i, to b, outside, meets the plane: the point in homogeneous coordinates, exact, times
the positive sum of the two distances (R175, log entry 113). -/
def crossing (i : Nat) (a b : ClipVtx) : ClipVtx :=
  (List.range 4).map (fun k => subV (mulV (planeDist a i) (b.at k)) (mulV (planeDist b i) (a.at k)))

/-- What a polygon leaves inside clip plane i: each edge that crosses it gives the point where they meet. -/
def clipPlane (ps : List ClipVtx) (i : Nat) : List ClipVtx :=
  (ps.zip (ps.drop 1 ++ ps.take 1)).flatMap (fun e =>
    match insidePlane i e.1, insidePlane i e.2 with
    | true, true => [e.1]
    | true, false => [e.1, crossing i e.1 e.2]
    | false, true => [crossing i e.2 e.1]
    | false, false => [])

/-- A polygon fanned from its first vertex. -/
def fan : List ClipVtx → List (List ClipVtx)
  | v :: ps => (ps.zip (ps.drop 1)).map (fun e => [v, e.1, e.2])
  | [] => []

/-- The three vertices of twelve words x, y, z, w. -/
def vtxOf (ws : List Nat) : List ClipVtx := (List.range 3).map (fun k => ((ws.drop (4 * k)).take 4).map (decodeF fp32))

/-- The pieces a triangle leaves after clipping. -/
def clipped (ws : List Nat) : List (List ClipVtx) :=
  if ws.all (fun w => (decodeF fp32 w).isFin) then (fan ((List.range 5).foldl clipPlane (vtxOf ws))).take 7
  else ((Config.clipFan ws).take 7).map vtxOf

/-- A screen coordinate snapped to 1/256 pixel: origin + a·size/2 in FP32 steps. -/
def snapTo (origin size : Nat) (a : FVal) : Int :=
  let h := r32 (divV (mul32 a (decodeF fp32 size)) (intVal 2))
  match add32 (decodeF fp32 origin) h with
  | .fin neg m e => rneVal neg m (e + 8)
  | v => Config.wholeOf 2 (convertF fp32 v).1

/-- A coordinate of a vertex over its w, in FP32. -/
def overW (v : ClipVtx) (i : Nat) : FVal := r32 (divV (v.at i) (v.at 3))

/-- The snapped position of a vertex of a piece (R175 step 2). -/
def screenOf (view : List Nat) (v : ClipVtx) : Int × Int :=
  (snapTo (view.getD 0 0) (view.getD 2 0) (add32 (overW v 0) (intVal 1)),
   snapTo (view.getD 1 0) (view.getD 3 0) (r32 (subV (intVal 1) (overW v 1))))

/-- sz of a vertex of a piece, an FP32 word (R175 step 2). -/
def depthOf (v : ClipVtx) : Nat := (convertF fp32 (overW v 2)).1

/-- Twice the signed area: positive when the vertices run clockwise on the screen (y down). -/
def area2 (p : List (Int × Int)) : Int :=
  let a := p.getD 0 (0, 0)
  let b := p.getD 1 (0, 0)
  let c := p.getD 2 (0, 0)
  (b.1 - a.1) * (c.2 - a.2) - (c.1 - a.1) * (b.2 - a.2)

/-- The piece is kept: some area, and not culled (R175 step 3). -/
def keeps (raster : Nat) (p : List (Int × Int)) : Bool :=
  let front := decide (0 < area2 p) == bitAt raster 2
  area2 p != 0 && !(raster % 4 == 1 && !front) && !(raster % 4 == 2 && front)

/-! ### Coverage (R175) -/

/-- A point is on the inner side of a clockwise edge, or on it when it is a top or left edge. -/
def inEdge (a b : Int × Int) (x y : Int) : Bool :=
  let e := (b.1 - a.1) * (y - a.2) - (b.2 - a.2) * (x - a.1)
  decide (0 < e) || (e == 0 && ((b.2 == a.2 && decide (a.1 < b.1)) || decide (b.2 < a.2)))

/-- The centre of pixel (px, py) lies inside the piece. -/
def inPiece (p : List (Int × Int)) (px py : Nat) : Bool :=
  let x : Int := 256 * px + 128
  let y : Int := 256 * py + 128
  let a := p.getD 0 (0, 0)
  let b := p.getD (if 0 < area2 p then 1 else 2) (0, 0)
  let c := p.getD (if 0 < area2 p then 2 else 1) (0, 0)
  inEdge a b x y && inEdge b c x y && inEdge c a x y

/-- Pixel (px, py) lies in the target and in the draw's scissor. -/
def inScissor (x : Rc) (d : Line) (px py : Nat) : Bool :=
  decide (px < fld x 0 2) && decide (py < fld x 2 2) && decide (fld d 32 2 ≤ px) && decide (px < fld d 36 2) &&
  decide (fld d 34 2 ≤ py) && decide (py < fld d 38 2)

/-- The pixels y·32 + x of tile t that a piece covers. -/
def covered (x : Rc) (d : Line) (p : Piece) (t : Nat) : List Nat :=
  (List.range 1024).filter (fun i =>
    let px := t % x.tx * 32 + i % 32
    let py := t / x.tx * 32 + i / 32
    inScissor x d px py && inPiece p.pos px py)

/-! ### Interpolation (R175, R179) -/

/-- A value of three coordinates as a determinant's row. -/
abbrev Row := FVal × FVal × FVal

/-- The exact determinant of three rows. -/
def det3 (a b c : Row) : FVal :=
  let m (x y z w : FVal) : FVal := subV (mulV x w) (mulV y z)
  addV (subV (mulV a.1 (m b.2.1 b.2.2 c.2.1 c.2.2)) (mulV a.2.1 (m b.1 b.2.2 c.1 c.2.2))) (mulV a.2.2 (m b.1 b.2.1 c.1 c.2.1))

/-- The ray of a pixel's centre through the viewport, in clip space, times VW·VH. -/
def rayOf (view : List Nat) (px py : Nat) : Row :=
  let v i := decodeF fp32 (view.getD i 0)
  let mid (p : Nat) : FVal := .fin false (2 * p + 1) (-1)
  (mulV (subV (mulV (intVal 2) (subV (mid px) (v 0))) (v 2)) (v 3), mulV (subV (v 3) (mulV (intVal 2) (subV (mid py) (v 1)))) (v 2), mulV (v 2) (v 3))

/-- B1 and B2 of a pixel: the perspective-correct barycentrics of vertices 1 and 2 of the original triangle, each rounded
once to FP32 (log entry 113). -/
def interpOf (view : List Nat) (vs : Bytes) (px py : Nat) : Nat × Nat :=
  let ws := clipWords vs
  let v (k i : Nat) : FVal := decodeF fp32 (ws.getD (4 * k + i) 0)
  let row (k : Nat) : Row := (v k 0, v k 1, v k 3)
  let ray := rayOf view px py
  let d0 := det3 ray (row 1) (row 2)
  let d1 := det3 (row 0) ray (row 2)
  let d2 := det3 (row 0) (row 1) ray
  let out (a : FVal) : Nat := (resultF fp32 true (divV a (sumV [d0, d1, d2]))).1
  (out d1, out d2)

/-- Twice the signed area that an edge of snapped positions spans with a pixel's centre. -/
def edgeAt (a b : Int × Int) (px py : Nat) : Int := area2 [a, b, (256 * px + 128, 256 * py + 128)]

/-- The depth of a pixel of a piece: the sz of its vertices, linear over the piece's snapped screen positions, exact and
rounded once to FP32 (R175 step 2, log entry 113). -/
def depthAt (p : Piece) (px py : Nat) : Nat :=
  let v (k : Nat) : Int × Int := p.pos.getD (k % 3) (0, 0)
  let part (k : Nat) : FVal := mulV (intVal (edgeAt (v (k + 1)) (v (k + 2)) px py)) (decodeF fp32 (p.sz.getD k 0))
  (resultF fp32 true (divV (sumV [part 0, part 1, part 2]) (intVal (area2 p.pos)))).1

/-! ### Binning (R175 to R177) -/

/-- How binning ends: at the last triangle, at a yield between two triangles (R180), at an overflow, or at a read or a record
that fails. -/
inductive BinRes where
  | go (b : RasterSt)
  | stop (b : RasterSt)
  | full (b : RasterSt)
  | bad (b : RasterSt) (r : ReadRes)
  | invalid (b : RasterSt)

/-- The vertex records of triangle i of a draw. -/
def triVerts (s : State) (j : Job) (d : Line) (i : Nat) : ReadRes :=
  let index (k : Nat) : ReadRes :=
    if fld d 20 1 = 2 then .ok (leBytes 8 (3 * i + k))
    else
      let n := if fld d 20 1 = 0 then 2 else 4
      jobRead s j (fld d 8 8 + n * (3 * i + k)) n
  (List.range 3).foldl (fun acc k => match acc, index k with
    | .ok bs, .ok ib => match jobRead s j (fld d 0 8 + 64 * leNat ib) 64 with
      | .ok v => .ok (bs ++ v)
      | e => e
    | .ok _, e => e
    | e, _ => e) (.ok [])

/-- The pieces of a triangle that survive clipping, area and culling. -/
def piecesOf (x : Rc) (d : Line) (k : Nat) (vs : Bytes) : List Piece :=
  let ps : List Piece := (clipped (clipWords vs)).map (fun vtx =>
    { draw := k, verts := vs, pos := vtx.map (screenOf x.view), sz := vtx.map depthOf })
  ps.filter (fun p => keeps (fld d 21 1) p.pos)

/-- One entry appended to a tile's list, opening a chunk when its last is full. -/
def addEntry (b : RasterSt) (t r : Nat) : RasterSt :=
  let l := tget [] b.lists t
  { b with lists := tset [] b.lists t (r :: l), chunks := if l.length % 127 = 0 then b.chunks ++ [(t, l.length)] else b.chunks }

/-- A piece takes the next record and an entry in every tile it covers. -/
def addPiece (x : Rc) (d : Line) (b : RasterSt) (p : Piece) : RasterSt :=
  let r := b.recs.length
  let ts := (List.range x.tiles).filter (fun t => !(covered x d p t).isEmpty)
  ts.foldl (fun b t => addEntry b t r) { b with recs := b.recs ++ [p], pieces := b.pieces + 1 }

/-- Bytes of tile-list memory in use. -/
def tlmUse (x : Rc) (b : RasterSt) : Nat := x.recBase + 64 * b.recs.length + 512 * b.chunks.length

/-- The front end yields before the next triangle when it has read as many as the limit says (R180). -/
def yieldsAt (lim : Option Nat) (b : RasterSt) : Bool := match lim with
  | some n => decide (n ≤ b.triangles)
  | none => false

/-- One triangle binned whole, or not at all (R177). -/
def binTri (s : State) (j : Job) (x : Rc) (lim : Option Nat) (d : Line) (k : Nat) (r : BinRes) (i : Nat) : BinRes :=
  match r with
  | .go b =>
    if k = b.draw ∧ i < b.tri then r
    else if yieldsAt lim b then .stop { b with draw := k, tri := i }
    else match triVerts s j d i with
      | .ok vs =>
        let c := (piecesOf x d k vs).foldl (addPiece x d) b
        if x.tlmBytes < tlmUse x c then .full { b with draw := k, tri := i }
        else .go { c with triangles := c.triangles + 1, peak := max c.peak (tlmUse x c) }
      | e => .bad b e
  | _ => r

/-- One draw binned. -/
def binDraw (s : State) (j : Job) (x : Rc) (lim : Option Nat) (r : BinRes) (k : Nat) : BinRes :=
  match r with
  | .go b =>
    if k < b.draw then r
    else match jobRead s j (x.drawAddr + 64 * k) 64 with
      | .ok bs =>
        let d := lineOf bs
        if drawOk d then (List.range (fld d 16 4)).foldl (binTri s j x lim d k) r else .invalid b
      | e => .bad b e
  | _ => r

/-- Every draw from the place the binning has reached. -/
def binAll (s : State) (j : Job) (x : Rc) (lim : Option Nat) (b : RasterSt) : BinRes :=
  (List.range x.drawCount).foldl (binDraw s j x lim) (.go b)

/-- The tile heads, the primitive records and the chunks as tile-list memory holds them (R176): what a record holds is
private to the RFE, so that its bytes are values the spec does not state, the k-th of them. -/
def tlmWrites (x : Rc) (b : RasterSt) (k : Nat) : List (Nat × Bytes) :=
  let place (t i : Nat) : Nat := (b.chunks.idxOf (t, i))
  let heads := (List.range x.tiles).map (fun t =>
    let n := (tget [] b.lists t).length
    (x.tlmAddr + 8 * t, leBytes 4 (if n = 0 then 0xFFFFFFFF else place t 0) ++ leBytes 4 n))
  let chunk (p : (Nat × Nat) × Nat) : Nat × Bytes :=
    let l := (tget [] b.lists p.1.1).reverse
    let es := (l.drop p.1.2).take 127
    let next := if p.1.2 + 127 < l.length then place p.1.1 (p.1.2 + 127) else 0xFFFFFFFF
    (x.tlmAddr + x.tlmBytes - 512 * (p.2 + 1), es.flatMap (leBytes 4) ++ zeros (508 - 4 * es.length) ++ leBytes 4 next)
  let record (r : Nat) : Nat × Bytes := (x.tlmAddr + x.recBase + 64 * r, (List.range 64).map (fun i => Config.freeByte k (64 * r + i)))
  heads ++ (List.range b.recs.length).map record ++ b.chunks.zipIdx.map chunk

end Sys2Proof.Machine
end

