-- ==== Sys2Proof/Machine/Display.lean ====
section
/-! DEFINITION. Display heads: layers, composition, scanout and what a frame's end records (R190 to R196). -/

namespace Sys2Proof.Machine

def State.head (s : State) (h : HeadId) : HeadSt := tget {} s.heads h.toNat
def State.upHead (s : State) (h : HeadId) (f : HeadSt → HeadSt) : State := { s with heads := tup {} s.heads h.toNat f }

/-- The head's committed set (group HEAD): settings at 0, layer i at 64 + 64i. -/
def headSet (s : State) (h : HeadId) : BitVec 4608 := committed s 6 h.toNat

/-- A head is on: enabled, and its pipeline not taken over by a JOINED head (R190). -/
def headOn (s : State) (h : HeadId) : Bool :=
  bitAt (fld (headSet s h) 0 1) 0 && !(h.toNat % 2 == 1 && fld (headSet s (h - 1)) 0 1 % 4 == 3)
def hActive (w : BitVec 4608) : Nat := fld w 12 2
def vActive (w : BitVec 4608) : Nat := fld w 20 2
def layerOf (w : BitVec 4608) (i : Nat) : BitVec 512 := BitVec.ofNat 512 (fld w (64 + 64 * i) 64)

/-- The slice that owns a head (ASSIGN). -/
def headSlice (s : State) (h : HeadId) : SliceId := ownerSlice s 0 h.toNat

/-- A DISPLAY notice (Table 12-12). -/
def displayNotice (s : State) (h : HeadId) (ev : Nat) (flip : Half) : State :=
  notify s (headSlice s h) 0x09 1 (payload [(0, 1, h.toNat), (1, 1, ev), (2, 2, flip.toNat), (4, 4, (s.head h).frame)])

/-! ### Layers (R191, R192) -/

/-- Where a surface's bytes are read: slice memory, or a fallback surface's pages. -/
inductive Surface where
  | slice (n : SliceId)
  | pages (f : Fallback)

/-- Some bytes of a surface; an error says whether a check failed or nothing is there. -/
def surfaceRead (s : State) (p : Surface) (a n : Nat) : Except Bool Bytes := match p with
  | .slice m => match readVa s m (.slice m) .read a n with
    | .ok bs => .ok bs
    | .fault _ => .error false
    | .check _ _ => .error true
  | .pages f =>
    let o := a - f.base
    match f.pages[o / 65536]? with
    | none => .error false
    | some g =>
      if s.fab.floorLost then .error false
      else if (s.mem.dram.bad (65536 * g + o % 65536) n).isEmpty then .ok (s.mem.dram.read (65536 * g + o % 65536) n) else .error true

/-- An FP32 value held to 0 to 1. -/
def unitRat (w : Nat) : Rat := match decodeF fp32 w with
  | .fin neg m e =>
    if neg then 0 else min 1 ((m : Rat) * (if 0 ≤ e then (2 : Rat) ^ e.toNat else 1 / (2 : Rat) ^ (-e).toNat))
  | .inf neg => if neg then 0 else 1
  | .nan => (((Config.wholeOf 3 w) % 4096 : Int) : Rat) / 4095

/-- R, G, B and A of a pixel, each 0 to 1. -/
abbrev Rgba := List Rat

def code8 (w k : Nat) : Rat := ((w / 256 ^ k % 256 : Nat) : Rat) / 255

/-- A pixel of a layer from its bytes (Table 6-11, R173). -/
def pixelOf (fmt w : Nat) : Rgba :=
  if fmt = 0 then [code8 w 0, code8 w 1, code8 w 2, code8 w 3]
  else if fmt = 1 then [0, 1, 2].map (fun k => unitRat (Config.srgbLayer (w / 256 ^ k % 256))) ++ [code8 w 3]
  else if fmt = 2 then [((bits w 9 0 : Nat) : Rat) / 1023, ((bits w 19 10 : Nat) : Rat) / 1023, ((bits w 29 20 : Nat) : Rat) / 1023, ((bits w 31 30 : Nat) : Rat) / 3]
  else [0, 1, 2, 3].map (fun k => unitRat (half32 (w / 65536 ^ k % 65536)))

def pixelSize (fmt : Nat) : Nat := if fmt = 3 then 8 else 4

/-- The offset of pixel (x, y): linear rows of PITCH, or the tile order of R173 with PITCH the bytes of a row. -/
def pixelOffset (l : BitVec 512) (x y : Nat) : Nat :=
  let b := pixelSize (fld l 1 1)
  if bitAt (fld l 0 1) 1 then
    let tx := fld l 4 4 / (32 * b)
    (y / 32 * tx + x / 32) * 1024 * b + (y % 32 * 32 + x % 32) * b
  else y * fld l 4 4 + x * b

/-- Whether the tile of a pixel has COLOR_CLEAR set (R192): a metadata granule that fails its check is an error, as one of
pixels is (R195). -/
def tileClear (s : State) (p : Surface) (l : BitVec 512) (aux x y : Nat) : Except Bool Bool :=
  let tx := fld l 4 4 / (32 * pixelSize (fld l 1 1))
  if bitAt (fld l 0 1) 3 ∧ bitAt (fld l 0 1) 1 then
    match surfaceRead s p (aux + y / 32 * tx + x / 32) 1 with
    | .ok bs => .ok (bitAt (byteAt bs 0) 0)
    | .error e => .error e
  else .ok false

/-- Two values mixed by a weight. -/
def mix (t a b : Rat) : Rat := a * (1 - t) + b * t

/-- Bilinear sampling at a position, clamped to a rectangle, of texels that may fail. -/
def bilinear (x0 y0 w h : Nat) (px py : Rat) (f : Nat → Nat → Except Bool Rgba) : Except Bool Rgba :=
  let cl (lo n : Nat) (v : Int) : Nat := (max (lo : Int) (min ((lo + n : Nat) - 1) v)).toNat
  let ix := px.floor
  let iy := py.floor
  let fx := px - ix
  let fy := py - iy
  let at_ (dx dy : Int) := f (cl x0 w (ix + dx)) (cl y0 h (iy + dy))
  match at_ 0 0, at_ 1 0, at_ 0 1, at_ 1 1 with
  | .ok a, .ok b, .ok c, .ok d =>
    .ok ((List.range 4).map (fun k => mix fy (mix fx (a.getD k 0) (b.getD k 0)) (mix fx (c.getD k 0) (d.getD k 0))))
  | .error e, _, _, _ => .error e
  | _, .error e, _, _ => .error e
  | _, _, .error e, _ => .error e
  | _, _, _, .error e => .error e

/-- The colour of luma and chroma codes: Kr and Kb of BT.709 or BT.601, limited or full (Table 6-11). -/
def cscOf (csc : Nat) (y cb cr : Rat) : Rgba :=
  let kr : Rat := if csc < 2 then 2126 / 10000 else 299 / 1000
  let kb : Rat := if csc < 2 then 722 / 10000 else 114 / 1000
  let full := csc % 2 == 1
  let l : Rat := if full then y / 255 else (y - 16) / 219
  let u : Rat := (cb - 128) / (if full then 255 else 224)
  let v : Rat := (cr - 128) / (if full then 255 else 224)
  let cl (z : Rat) : Rat := max 0 (min 1 z)
  [cl (l + 2 * (1 - kr) * v), cl (l - (2 * kb * (1 - kb) * u + 2 * kr * (1 - kr) * v) / (1 - kr - kb)), cl (l + 2 * (1 - kb) * u), 1]

/-- One source pixel of a layer. -/
def sourcePixel (s : State) (p : Surface) (l : BitVec 512) (addr aux x y : Nat) : Except Bool Rgba :=
  let fmt := fld l 1 1
  if fmt = 4 then
    let chroma (cx cy : Nat) : Except Bool Rgba := match surfaceRead s p (aux + cy * fld l 4 4 + 2 * cx) 2 with
      | .ok bs => .ok [(byteAt bs 0 : Rat), (byteAt bs 1 : Rat), 0, 0]
      | .error e => .error e
    let half (n : Nat) : Rat := ((n : Rat) + 1 / 2) / 2 - 1 / 2
    let w := (fld l 24 2 + fld l 28 2 + 1) / 2
    let h := (fld l 26 2 + fld l 30 2 + 1) / 2
    match surfaceRead s p (addr + y * fld l 4 4 + x) 1, bilinear 0 0 w h (half x) (half y) chroma with
    | .ok ys, .ok c => .ok (cscOf (bits (fld l 0 1) 5 4) (byteAt ys 0 : Rat) (c.getD 0 0) (c.getD 1 0))
    | .error e, _ => .error e
    | _, .error e => .error e
  else match tileClear s p l aux x y with
    | .error e => .error e
    | .ok true => .ok (pixelOf fmt (fld l 40 8))
    | .ok false => match surfaceRead s p (addr + pixelOffset l x y) (pixelSize fmt) with
      | .ok bs => .ok (pixelOf fmt (leNat bs))
      | .error e => .error e

/-- A layer's colour at an output pixel that its DST covers, scaled by DST/SRC (R192). -/
def layerPixel (s : State) (p : Surface) (l : BitVec 512) (addr aux ox oy : Nat) : Except Bool Rgba :=
  let pos (o dst src sw dw : Nat) : Rat := ((o - dst : Nat) + 1 / 2 : Rat) * sw / dw - 1 / 2 + src
  bilinear (fld l 24 2) (fld l 26 2) (fld l 28 2) (fld l 30 2)
    (pos ox (fld l 32 2) (fld l 24 2) (fld l 28 2) (fld l 36 2)) (pos oy (fld l 34 2) (fld l 26 2) (fld l 30 2) (fld l 38 2))
    (sourcePixel s p l addr aux)

/-- DST of an enabled layer covers the pixel. -/
def covers (l : BitVec 512) (ox oy : Nat) : Bool :=
  bitAt (fld l 0 1) 0 && decide (fld l 32 2 ≤ ox) && decide (ox < fld l 32 2 + fld l 36 2) && decide (fld l 34 2 ≤ oy) &&
  decide (oy < fld l 34 2 + fld l 38 2)

/-- A channel in 12-bit fixed point, 4,095 standing for 1 (R192, log entry 112). -/
def fix12 (v : Rat) : Rat :=
  let x := max 0 (min 1 v) * 4095
  let up : Int := if x = (x.floor : Rat) ∨ Config.fixedPoint x.num x.den % 2 = 0 then 0 else 1
  ((x.floor + up : Int) : Rat) / 4095

/-- One layer over a colour, each step in 12-bit fixed point (R192). -/
def blend (l : BitVec 512) (c : Rgba) (q : Rgba) : Rgba :=
  let p : Rat := fix12 ((fld l 2 1 : Rat) / 255)
  let src (k : Nat) : Rat := fix12 (q.getD k 0)
  let a := fix12 (src 3 * p)
  (List.range 3).map (fun k => fix12 ((if bitAt (fld l 0 1) 2 then src k * p else src k * a) + fix12 (c.getD k 0) * (1 - a)))

/-- A 10-bit R, G, B word as a colour (Table 12-11). -/
def colour10 (w : Nat) : Rgba := [((bits w 29 20 : Nat) : Rat) / 1023, ((bits w 19 10 : Nat) : Rat) / 1023, ((bits w 9 0 : Nat) : Rat) / 1023]

/-- A colour as one pixel of the link: rounded once to BPC bits a channel, R in the top bits. -/
def outPixel (bpc : Nat) (c : Rgba) : Nat :=
  c.foldl (fun a v => a * 2 ^ bpc + min (2 ^ bpc - 1) (v * ((2 ^ bpc - 1 : Nat) : Rat) + 1 / 2).floor.toNat) 0

/-- The buffers a layer shows: the current one and, after it, the retained one (R195). -/
def buffersOf (x : HeadSt) (i : Nat) : List LayerBuf :=
  let cur := (tget none x.cur i).toList
  let kept := (tget none x.kept i).toList
  if x.back.contains i then kept else cur ++ kept

/-- The first buffer of a list that gives the pixel without a check failure; whether one failed. -/
def firstGood (s : State) (n : SliceId) (l : BitVec 512) (ox oy : Nat) : List LayerBuf → Option Rgba × Bool
  | [] => (none, false)
  | b :: bs => match layerPixel s (.slice n) l b.addr b.aux ox oy with
    | .ok c => (some c, false)
    | .error true => ((firstGood s n l ox oy bs).1, true)
    | .error false => (none, false)

/-- One output pixel, and the layers whose current buffer failed a check there. -/
def composePixel (s : State) (h : HeadId) (w : BitVec 4608) (oy ox : Nat) : Rgba × List Nat :=
  (List.range 8).foldl (fun (r : Rgba × List Nat) i =>
    let l := layerOf w i
    if covers l ox oy then
      let g := firstGood s (headSlice s h) l ox oy (buffersOf (s.head h) i)
      ((match g.1 with
        | some c => blend l r.1 c
        | none => r.1), if g.2 then i :: r.2 else r.2)
    else r) (colour10 (fld w 32 4), [])

/-- SAFE_FRAME of a head's settings (Table 12-11). -/
def safeFrame (w : BitVec 4608) : Nat := bits (fld w 0 1) 4 3

/-- A pixel under the curtain or not, and the layers that failed there, 8 standing for the fallback surface (R192, R195, R196). -/
def headPixel (s : State) (h : HeadId) (w : BitVec 4608) (oy ox : Nat) : Rgba × List Nat :=
  if s.saf.curtain ∧ safeFrame w = 1 then (colour10 (fld w 36 4), [])
  else if s.saf.curtain ∧ safeFrame w = 2 then
    match (s.head h).fallback with
    | none => (colour10 (fld w 36 4), [])
    | some f =>
      if covers f.layer ox oy then
        match layerPixel s (.pages f) f.layer (fld f.layer 8 8) (fld f.layer 16 8) ox oy with
        | .ok c => (blend f.layer (colour10 (fld w 32 4)) c, [])
        | .error bad => (colour10 (fld w 32 4), if bad then [8] else [])
      else (colour10 (fld w 32 4), [])
  else composePixel s h w oy ox

/-- The bytes of a line's layers, which scanout draws on the real-time account (Table 9-7). -/
def lineBytesOf (w : BitVec 4608) (oy : Nat) : Nat :=
  (((List.range 8).map (layerOf w)).filter (fun l => bitAt (fld l 0 1) 0 && decide (fld l 34 2 ≤ oy) && decide (oy < fld l 34 2 + fld l 38 2))).foldl
    (fun a l => a + fld l 28 2 * pixelSize (fld l 1 1)) 0

/-- The link trains, and the head sends its background colour: 100 ms at most (R191). -/
def trains (s : State) (x : HeadSt) : Bool := match x.training with
  | some t => decide (s.now < t)
  | none => false

/-- LINE_SEND (R66, R191 to R193, R195): the next line is sent with `complete` pixels fetched in time; a layer of the frame
that fails its check is reported once. -/
def execLineSend (h : HeadId) (complete : Nat) (s : State) : Ans :=
  let w := headSet s h
  let x := s.head h
  let bg := outPixel (fld w 3 1) (colour10 (fld w 32 4))
  let ps := (List.range (hActive w)).map (fun ox => if trains s x ∨ complete ≤ ox then (colour10 (fld w 32 4), []) else headPixel s h w x.line ox)
  let failed := (ps.flatMap (·.2)).eraseDups
  let pixels := ps.map (fun p => outPixel (fld w 3 1) p.1)
  let under := decide (complete < hActive w) && !trains s x
  let s1 := (s.emit (.line h (if trains s x then pixels.map (fun _ => bg) else pixels))).upHead h (fun y => { y with
    line := y.line + 1
    check := y.check || !failed.isEmpty
    back := (y.back ++ failed).eraseDups
    underrun := y.underrun || under
    scanned := y.scanned && !under && !trains s x && !(s.saf.curtain && (safeFrame w == 1 || safeFrame w == 2))
    underruns := if under then y.underruns + 1 else y.underruns })
  let s2 := (failed.filter (fun i => !x.back.contains i)).foldl (fun s _ => reportCheckOf s .b midDisplay (headSlice s h) false) s1
  doWhen (headOn s h && decide (x.line < vActive w)) s (drawTokens (if under then displayNotice s2 h 1 x.lastFlip else s2) (.realTime (rtRank 0 midDisplay)) (lineBytesOf w x.line))

/-- HEAD_LINK_TRAINED (R191): the link is trained and the head sends its layers again. -/
def execHeadLinkTrained (h : HeadId) (s : State) : Ans := did (s.upHead h (fun x => { x with training := none }))

/-! ### Latching (R191, R194, R195) -/

/-- The buffer of a layer that goes when another comes: a current one that failed its check and is not shown, or the one
retained until then (R195). -/
def goingBuf (x : HeadSt) (i : Nat) : Option LayerBuf :=
  if x.back.contains i && (tget none x.kept i).isSome then tget none x.cur i else tget none x.kept i

/-- A layer's new buffer becomes current, and the buffer shown until then is retained until the new one has been
scanned. A layer retains one buffer: the other is released (R195, log entry 129). -/
def showBuf (h : HeadId) (i : Nat) (b : LayerBuf) (s : State) : State :=
  let x := s.head h
  let failed := x.back.contains i && (tget none x.kept i).isSome
  let s := match goingBuf x i with
    | some c => displayNotice s h 2 c.flip
    | none => s
  s.upHead h (fun x => { x with
    kept := if failed then x.kept else tset none x.kept i (tget none x.cur i)
    cur := tset none x.cur i (some b)
    back := x.back.filter (· ≠ i)
    lastFlip := b.flip })

/-- A buffer takes the place of one that a set brought at this very safe point and that was never shown (R191). -/
def swapBuf (h : HeadId) (i : Nat) (b : LayerBuf) (s : State) : State :=
  let s := match tget none (s.head h).cur i with
    | some c => displayNotice s h 3 c.flip
    | none => s
  s.upHead h (fun x => { x with cur := tset none x.cur i (some b), lastFlip := b.flip })

/-- The flips accepted at least 2 us before the latch point apply; a flip that a later one replaces was never
shown, nor was the buffer of a layer that the set applied here brought and a flip replaces (R191). -/
def latchFlip (h : HeadId) (fresh : List Nat) (all : List Flip) (s : State) (p : Flip × Nat) : State :=
  if all.zipIdx.any (fun q => p.2 < q.2 && q.1.layer == p.1.layer) then displayNotice s h 3 p.1.buf.flip
  else
    let i := p.1.layer.toNat
    let l := layerOf (headSet s h) i
    let b := if bitAt (fld l 0 1) 3 then p.1.buf else { p.1.buf with aux := fld l 16 8 }
    if fresh.contains i then swapBuf h i b s else showBuf h i b s

/-- The layers whose buffer a set has just replaced. -/
def freshLayers (x y : HeadSt) : List Nat :=
  (List.range 8).filter (fun i => (tget none y.cur i).isSome && tget none y.cur i != tget none x.cur i)

/-- A retained buffer is released after one whole scan of the new one (R195). -/
def releaseBuf (h : HeadId) (s : State) (i : Nat) : State :=
  match tget none (s.head h).kept i with
  | some b =>
    if (s.head h).back.contains i ∨ ¬ (s.head h).scanned ∨ (s.head h).line ≠ vActive (headSet s h) then s
    else displayNotice (s.upHead h (fun x => { x with kept := tset none x.kept i none })) h 2 b.flip
  | none => s

/-- A render context that will flip the head. -/
def flipsHead (h : HeadId) (b : RasterSt) : Bool := match b.ctx with
  | some (x : Rc) => x.flip && fld x 7 1 % 4 == h.toNat
  | none => false

/-- The slices of the renders that will flip this head and have not: at work, pre-empted, or finished too late for
this latch point, or dropped (R183, R194). -/
def renderBound (s : State) (h : HeadId) : List SliceId :=
  let jobs := (s.rasters.filter (fun p => flipsHead h p.2)).filterMap (fun p => jobOf s (.rfe (BitVec.ofNat 2 p.1)))
    ++ (s.saved.filter (fun p => (p.2.map (fun c => flipsHead h c.rfe)).getD false)).filterMap (fun p => s.job (p.1 / 128))
  (jobs.map (·.slice) ++ (s.head h).flips.map (·.buf.slice) ++ (s.head h).dropped).eraseDups

end Sys2Proof.Machine
end

