-- ==== Sys2Proof/Machine/NetConfig.lean ====
section
/-! DEFINITION. The static network configuration block (R430, R431, R485, Tables 15-1 and 15-2). -/

namespace Sys2Proof.Machine

/-- The records after the header: TYPE and bytes, as far as they are whole. -/
def recordsFrom : Nat → Bytes → List (Nat × Bytes)
  | 0, _ => []
  | n + 1, bs =>
    let size := fieldOf bs 2 2
    if bs.length < 4 ∨ size < 4 ∨ bs.length < size then []
    else (fieldOf bs 0 2, bs.take size) :: recordsFrom n (bs.drop size)

def records (net : Bytes) : List (Nat × Bytes) := recordsFrom (fieldOf net 6 2) (net.drop 64)

/-- The records of one TYPE. -/
def recs (net : Bytes) (t : Nat) : List Bytes := ((records net).filter (fun r => r.1 == t)).map (·.2)

def ethRec (net : Bytes) (p : Nat) : Option Bytes := (recs net 1).find? (fun r => byteAt r 4 == p)
def canRec (net : Bytes) (c : Nat) : Option Bytes := (recs net 0x10).find? (fun r => byteAt r 4 == c)
def gclRec (net : Bytes) (i : Nat) : Option Bytes := (recs net 2).find? (fun r => fieldOf r 4 2 == i)

/-- MODE of a port; off without a record (Table 15-1). -/
def ethMode (net : Bytes) (p : Nat) : Nat := ((ethRec net p).map (fun r => byteAt r 5)).getD 0

/-- MODE of a CAN controller: 0 off, 1 classic, 2 FD, 3 listen-only. -/
def canMode (net : Bytes) (c : Nat) : Nat := ((canRec net c).map (fun r => byteAt r 5)).getD 0

def canOneShot (net : Bytes) (c : Nat) : Bool := ((canRec net c).map (fun r => bitAt (byteAt r 6) 0)).getD false

def gwMac (net : Bytes) : Bytes := (net.drop 8).take 6
def gwIp (net : Bytes) : Bytes := ((net.drop 16).take 4).reverse

/-! ### Validation (R431) -/

/-- SIZE and count limit of a record TYPE (Table 15-1). -/
def recordShape (t : Nat) : Option (Nat × Nat) :=
  ([(0x01, 40, 12), (0x02, 16, 2048), (0x03, 16, 24), (0x04, 16, 256), (0x05, 16, 4096), (0x06, 24, 512), (0x07, 16, 512), (0x08, 24, 128),
    (0x09, 24, 256), (0x0A, 24, 256), (0x10, 24, 16), (0x11, 16, 2), (0x20, 16, 1)].find? (fun x => x.1 == t)).map (·.2)

/-- The named fields of a record TYPE, from byte 4. -/
def recordNamed (t : Nat) : List (Nat × Nat) :=
  match t with
  | 0x01 => [(4, 1), (5, 1), (6, 1), (7, 1), (8, 6), (14, 2), (16, 2), (18, 1), (20, 2), (22, 2), (24, 4), (32, 8)]
  | 0x02 => [(4, 2), (6, 1), (8, 4)]
  | 0x03 => [(4, 1), (5, 1), (8, 4)]
  | 0x04 => [(4, 2), (6, 2), (8, 2)]
  | 0x05 => [(4, 6), (10, 2), (12, 2)]
  | 0x06 => [(4, 1), (6, 2), (8, 6), (14, 2), (16, 2)]
  | 0x07 => [(4, 2), (6, 1), (7, 1), (8, 2), (10, 2)]
  | 0x08 => [(4, 1), (5, 1), (6, 2), (8, 2), (12, 4), (16, 8)]
  | 0x09 => [(4, 2), (6, 1), (8, 4), (12, 4), (16, 4), (20, 4)]
  | 0x0A => [(4, 1), (6, 2), (8, 2), (10, 1), (12, 4)]
  | 0x10 => [(4, 1), (5, 1), (6, 1), (8, 1), (9, 1), (10, 1), (11, 1), (12, 1), (13, 1), (14, 1), (15, 1), (16, 1)]
  | 0x20 => [(4, 1), (6, 2)]
  | _ => [(4, 1), (5, 1), (6, 1), (7, 1), (8, 1), (9, 1), (10, 1), (11, 1), (12, 2)]

def inRange (lo v hi : Nat) : Bool := decide (lo ≤ v) && decide (v ≤ hi)

/-- A gate control list's records exist and fill its cycle. -/
def gclOk (net : Bytes) (first len cycle : Nat) : Bool :=
  let rs := (List.range len).map (fun i => gclRec net (first + i))
  rs.all (·.isSome) && decide ((rs.map (fun r => (r.map (fun b => fieldOf b 8 4)).getD 0)).foldl (· + ·) 0 = cycle)

/-- Kilobits per second of a port MODE (Table 15-2). -/
def modeKbps (m : Nat) : Nat := [0, 10000000, 5000000, 2500000, 1000000, 100000, 1000000, 100000, 2500000].getD m 0

/-- Signed byte. -/
def sByte (v : Nat) : Int := signed 8 v

/-- The values of one record (Table 15-1). -/
def recordValues (net : Bytes) (t : Nat) (r : Bytes) : Bool :=
  let b := byteAt r
  let h (o : Nat) := fieldOf r o 2
  let w (o : Nat) := fieldOf r o 4
  match t with
  | 0x01 => inRange 0 (b 4) 11 && (b 5 == 0 || (if b 4 ≤ 3 then inRange 1 (b 5) 5 else inRange 6 (b 5) 8)) && decide (b 6 < 8) &&
      inRange 64 (h 14) 9216 && decide (h 16 ≤ 4094) && decide (b 18 ≤ 3) && decide (h 22 ≤ 256) &&
      (h 22 == 0 || (inRange 1000 (w 24) 1000000000 && gclOk net (h 20) (h 22) (w 24)))
  | 0x02 => decide (h 4 < 2048) && inRange 32 (w 8) 1000000000
  | 0x03 => inRange 0 (b 4) 11 && decide (b 5 ≤ 7) && decide (4 * w 8 ≤ 3 * modeKbps (ethMode net (b 4)))
  | 0x04 => inRange 1 (h 4) 4094 && decide (h 6 < 16384) && decide (h 8 < 16384)
  | 0x05 => inRange 1 (h 10) 4094 && decide (h 12 < 16384)
  | 0x06 => decide (b 4 ≤ 1) && decide (h 6 ≤ 511) && decide (h 14 ≤ 4094) && decide (h 16 < 16384)
  | 0x07 => decide (h 4 ≤ 511) && (decide (b 6 ≤ 7) || b 6 == 255) && (decide (b 7 ≤ 127) || b 7 == 255) && (decide (h 8 ≤ 255) || h 8 == 65535)
  | 0x08 => decide (b 4 ≤ 127) && decide (b 5 ≤ 3) && inRange 1 (h 8) 64 && gclOk net (h 6) (h 8) (w 12)
  | 0x09 => decide (h 4 ≤ 255) && decide (b 6 < 4)
  | 0x0A => decide (b 4 ≤ 1) && decide (h 6 ≤ 511) && decide (h 8 < 16384) && inRange 2 (b 10) 32 && inRange 1 (w 12) 10000
  | 0x10 => decide (b 4 ≤ 15) && decide (b 5 ≤ 3) && decide (b 6 ≤ 1) && inRange 1 (b 8) 32 && inRange 2 (b 9) 255 && inRange 1 (b 10) 128 &&
      inRange 1 (b 11) (b 10) && inRange 1 (b 12) 32 && inRange 1 (b 13) 32 && inRange 1 (b 14) 16 && inRange 1 (b 15) (b 14) && decide (b 16 ≤ 127)
  | 0x20 => inRange 1 (b 4) 5 && inRange 50 (h 6) 340
  | _ => decide (b 4 ≤ 1) && decide (b 5 ≤ 2) && decide (-5 ≤ sByte (b 6)) && decide (sByte (b 6) ≤ 0) && decide (-3 ≤ sByte (b 7)) && decide (sByte (b 7) ≤ 3) &&
      (decide (b 11 ≤ 11) || b 11 == 255) && decide (h 12 < 4096)

/-- What two records of one TYPE may not share. -/
def recordKey (t : Nat) (r : Bytes) : Option Nat :=
  if t = 0x01 ∨ t = 0x10 ∨ t = 0x11 then some (byteAt r 4) else if t = 0x02 then some (fieldOf r 4 2) else none

/-- A record holds to its row. -/
def recordOk (net : Bytes) (x : Nat × Bytes) : Bool := match recordShape x.1 with
  | none => false
  | some (size, _) => x.2.length == size && (structReserved x.2 ((0, 4) :: recordNamed x.1)).isNone && recordValues net x.1 x.2

/-- The count limits of Table 15-1. -/
def countsOk (net : Bytes) : Bool :=
  let rs := records net
  [0x01, 0x02, 0x03, 0x04, 0x05, 0x06, 0x07, 0x08, 0x09, 0x0A, 0x10, 0x11, 0x20].all (fun t =>
    let xs := recs net t
    let keys := xs.filterMap (recordKey t)
    decide (xs.length ≤ ((recordShape t).map (·.2)).getD 0) && keys.eraseDups.length == keys.length) &&
  (List.range 12).all (fun p => decide ((rs.filter (fun r => r.1 == 3 && byteAt r.2 4 == p)).length ≤ 2))

/-- The block passes R431. -/
def netOk (net : Bytes) : Bool :=
  decide (64 ≤ net.length) && fieldOf net 0 4 == 0x4B42434E && fieldOf net 4 2 == 1 && (structReserved (net.take 64) [(0, 8), (8, 6), (16, 4)]).isNone &&
  (records net).length == fieldOf net 6 2 && (64 + ((records net).map (fun r => r.2.length)).foldl (· + ·) 0) == net.length &&
  (records net).all (recordOk net) && countsOk net

end Sys2Proof.Machine
end

