-- ==== Sys2Proof/Machine/Memory.lean ====
section
/-! DEFINITION. Bandwidth regulation, translation changes and the memory's error handling (chapter 09). -/

namespace Sys2Proof.Machine

/-! ### REGULATION_WINDOW (R275 to R280) -/

/-- The refresh multiple that governs the deliverable rate: the highest any controller runs at (R260). -/
def refreshMax (s : State) : RefreshRate :=
  if s.mem.refresh.any (fun p => p.2 == .x4) then .x4
  else if s.mem.refresh.any (fun p => p.2 == .x2) then .x2 else .x1

/-- MT/s of the rate in force (Table 11-4). -/
def rateOf (s : State) : Nat := match s.host.dramRate.toNat with
  | 1 => 6400
  | 2 => 7500
  | 3 => 8533
  | 4 => 9600
  | _ => 10667

/-- Bytes deliverable in a window: 942, 900 or 816 GB/s by refresh rate (R260), scaled to the data rate (R259). -/
def deliverable (s : State) (ns : Nat) : Nat :=
  let g := match refreshMax s with
    | .x1 => 942
    | .x2 => 900
    | .x4 => 816
  g * ns * rateOf s / 10667

/-- Bytes of some requests. -/
def reqBytes (rs : List BwReq) : Nat := (rs.map (·.bytes)).foldl (· + ·) 0

/-- Bytes of some requests under a LABEL. -/
def labelBytes (l : Nat) (rs : List BwReq) : Nat := reqBytes (rs.filter (fun r => r.label == l))

/-- What waits after `k` bytes under a LABEL are admitted, the oldest request first. -/
def admitLabelled (l : Nat) : Nat → List BwReq → List BwReq
  | _, [] => []
  | k, r :: rs =>
    if r.label ≠ l then r :: admitLabelled l k rs
    else if r.bytes ≤ k then admitLabelled l (k - r.bytes) rs
    else { r with bytes := r.bytes - k } :: admitLabelled l 0 rs

/-- What waits after `k` bytes are admitted, in an order of LABELs. -/
def admitInOrder (order : List Nat) (k : Nat) (rs : List BwReq) : List BwReq :=
  (order.foldl (fun (r : Nat × List BwReq) l =>
    let m := min r.1 (labelBytes l r.2)
    (r.1 - m, admitLabelled l m r.2)) (k, rs)).2

/-- The LABELs of a scene's account from high to low (log entry 121), and the ranks of the real-time account from first to last
(R31, R277 step 1). -/
def labelOrder : List Nat := [7, 6, 5, 4, 3, 2, 1, 0]
def rankOrder : List Nat := List.range 12

/-- An account that admits its waiting requests out of `cap`: what is left of the cap, and the account. -/
def grantTokens (order : List Nat) (cap : Nat) (a : BwAccount) : Nat × BwAccount :=
  let k := min cap (reqBytes a.reqs)
  (cap - k, { a with reqs := admitInOrder order k a.reqs, tokens := a.tokens - min a.tokens k, drawn := a.drawn + min a.tokens k })

/-- The bytes of a window that non-real-time traffic may take: at most half the share of a controller whose MR4 reports
an over-temperature (R497). -/
def nonRealTime (s : State) (cap : Nat) : Nat :=
  let hot := ((List.range 12).filter (fun k => s.pwr.overTemp.getLsbD k)).length
  cap - hot * (cap / 12 - cap / 24)

/-- Scene accounts in the order of R31: class from high to low, then scene index. -/
def rankedScenes (s : State) : List Nat :=
  let xs := (activeScenes s).zipIdx
  [3, 2, 1, 0].flatMap (fun c => (xs.filter (fun p => p.1.cls.toNat = c)).map (·.2))

/-- R277 over the accounts of a window: the real-time account, then scenes by rank. -/
def admitAll (s : State) (cap : Nat) : Nat × Tbl BwAccount :=
  let rt := grantTokens rankOrder cap (tget {} s.mem.acct 32)
  (rankedScenes s).foldl (fun r k =>
    let a := tget {} r.2 k
    let x := grantTokens labelOrder (min r.1 a.tokens) a
    (r.1 - (min r.1 a.tokens - x.1), tset {} r.2 k x.2)) (min rt.1 (nonRealTime s cap), tset {} s.mem.acct 32 rt.2)

/-- What step 3 of R277 works on: bytes of the window that are left, the requests outside any account by slice, the accounts,
and what each slice has had in this step. -/
structure Leftover where
  cap : Nat
  excess : Tbl Nat
  acct : Tbl BwAccount
  used : Tbl Nat

/-- The scenes of a slice, or of Pyotos, which has none. -/
def scenesOf (s : State) (n : Nat) : List Nat := ((activeScenes s).zipIdx.filter (fun p => p.1.slice.toNat == n)).map (·.2)

/-- The LABEL of what a slice, or Pyotos, asks for outside any account (Table 9-7). -/
def ownLabel (s : State) (n : Nat) : Nat := if n = pyotosKey then 6 else (s.slice (BitVec.ofNat 7 n)).label.toNat

/-- Bytes of a slice that wait under a LABEL for step 3: its requests outside any account, and those of its scenes' jobs
that found no tokens. -/
def waitsUnder (s : State) (r : Leftover) (l n : Nat) : Nat :=
  ((scenesOf s n).map (fun k => labelBytes l (tget {} r.acct k).reqs)).foldl (· + ·) (if ownLabel s n = l then tget 0 r.excess n else 0)

/-- The bytes of a window that the excess cap of a slice allows, as the cap stood when the window began; a slice without a cap
has no limit (R274, R277, R280). -/
def excessCap (s : State) (ns n : Nat) : Option Nat := match tget none s.mem.caps n with
  | some g => if g = 0 then none else some (g * ns)
  | none => none

/-- What a slice may have of what it waits for under a LABEL. -/
def wantsUnder (s : State) (ns : Nat) (r : Leftover) (l n : Nat) : Nat := match excessCap s ns n with
  | none => waitsUnder s r l n
  | some c => min (waitsUnder s r l n) (c - tget 0 r.used n)

/-- Round robin: the most that each gets of `cap` bytes, when those that ask for less leave the rest to the others. -/
def evenShare : Nat → Nat → List Nat → Nat
  | 0, cap, _ => cap
  | fuel + 1, cap, ds =>
    let m := cap / max 1 ds.length
    let small := ds.filter (· ≤ m)
    if small = [] then m else evenShare fuel (cap - small.foldl (· + ·) 0) (ds.filter (m < ·))

/-- A scene's requests without tokens are admitted, up to `k` bytes under a LABEL. -/
def admitScene (l : Nat) (x : Nat × Tbl BwAccount) (k : Nat) : Nat × Tbl BwAccount :=
  let a := tget {} x.2 k
  let m := min x.1 (labelBytes l a.reqs)
  (x.1 - m, tset {} x.2 k { a with reqs := admitLabelled l m a.reqs })

/-- `k` bytes of a slice are admitted under a LABEL: those outside any account first. -/
def admitUnder (s : State) (l : Nat) (r : Leftover) (n k : Nat) : Leftover :=
  let own := if ownLabel s n = l then min k (tget 0 r.excess n) else 0
  { cap := r.cap - k
    excess := tset 0 r.excess n (tget 0 r.excess n - own)
    acct := ((scenesOf s n).foldl (admitScene l) (k - own, r.acct)).2
    used := tup 0 r.used n (· + k) }

/-- Step 3 of R277 at one LABEL, at which Pyotos takes its turn with the slices (log entry 121). -/
def admitLabel (s : State) (ns : Nat) (r : Leftover) (l : Nat) : Leftover :=
  let ws := ((s.slices.map (·.1) ++ [pyotosKey]).map (fun n => (n, wantsUnder s ns r l n))).filter (fun p => p.2 ≠ 0)
  let m := evenShare ws.length r.cap (ws.map (·.2))
  ws.foldl (fun r p => admitUnder s l r p.1 (min p.2 m)) r

/-- Step 3 of R277: every other request, by LABEL from high to low (log entry 121). -/
def admitOthers (s : State) (ns : Nat) (r : Nat × Tbl BwAccount) : Leftover :=
  [7, 6, 5, 4, 3, 2, 1, 0].foldl (admitLabel s ns) { cap := r.1, excess := s.mem.excess, acct := r.2, used := [] }

/-- The excess cap of a slice limits it in a window: it waits for more than the cap allows (R280). -/
def overCap (s : State) (ns : Nat) (acct : Tbl BwAccount) (n : Nat) : Bool := match excessCap s ns n with
  | none => false
  | some c => decide (c < ((scenesOf s n).map (fun k => reqBytes (tget {} acct k).reqs)).foldl (· + ·) (tget 0 s.mem.excess n))

/-- The account of the window that ended has missed its guarantee (R278). -/
def missed (s : State) (a : BwAccount) : Bool :=
  decide (64 ≤ a.tokens) && a.reqs.any (fun r => decide (r.since + 100 ≤ s.now))

/-- The reports of a miss (R32, R278). -/
def reportMiss (s : State) (k : Nat) : State :=
  let a := tget {} s.mem.acct k
  let owner : SliceId := match (activeScenes s)[k]? with
    | some sc => if k = 32 then 0 else sc.slice
    | none => 0
  let s := s.upSlice owner (fun x => { x with diag := tup 0 (tup 0 x.diag 0 (· + 1)) 1 (· + 1) })
  let s := s.upMem (fun m => { m with acct := tset {} m.acct k { a with missedThisCue := true, violations := a.violations + 1 } })
  let s := if k = 32 then raiseCode s .a 0x23 else s
  if a.missedThisCue then s
  else notify s owner 0x02 2 (payload [(0, 1, if k = 32 then 0xFF else k), (4, 4, s.mem.window), (8, 4, a.tokens)])

/-- The tokens an account receives for a window of `ns` (R276): the reservation times the time held. -/
def tokensOf (s : State) (k ns : Nat) : Nat :=
  if k = 32 then Config.realTimeGbps s.groups * ns / 64 * 64
  else match (activeScenes s)[k]? with
    | none => 0
    | some sc =>
      let t0 := intoCue s
      let lo := max t0 sc.start
      let hi := min (t0 + ns) (sc.start + sc.duration)
      if s.cue.running then sc.gbps * (hi - lo) / 64 * 64 else 0

/-- The next window: tokens issued anew, under the caps that stand now (R274, R276). -/
def issueTokens (s : State) (ns : Nat) : State :=
  s.upMem (fun m => { m with
    caps := s.slices.foldl (fun t p => tset none t p.1 (tget none p.2.quota 5)) []
    acct := (List.range 33).foldl (fun t k => tup {} t k (fun a => { a with tokens := tokensOf s k ns, issued := tokensOf s k ns, drawn := 0 })) m.acct })

/-- The length of a window that starts now: 1,000 ns, or what the cue has left (R276). -/
def windowNs (s : State) : Nat := if s.cue.running then min 1000 (s.cue.next - s.now) else 1000

/-- A window ends: waiting requests are admitted by rank, misses reported, tokens lapse (R276 to R280). Real-time bytes admitted
beyond the tokens are the excess of R279. -/
def endWindow (s : State) : State :=
  let ns := s.now - s.mem.windowStart
  let r := admitAll s (deliverable s ns)
  let rt := tget {} s.mem.acct 32
  let o := admitOthers s ns r
  let limited := (s.slices.map (·.1)).filter (overCap s ns r.2)
  let rtDone := reqBytes rt.reqs - reqBytes (tget {} r.2 32).reqs
  let s := s.upMem (fun m => { m with acct := o.acct, excess := o.excess, rtExcess := m.rtExcess + (rtDone - rt.tokens), byMid := [] })
  let s := limited.foldl (fun s n => s.upSlice (BitVec.ofNat 7 n) (fun x => { x with diag := tup 0 x.diag 6 (· + 1) })) s
  let s := ((List.range 33).filter (fun k => missed s (tget {} s.mem.acct k))).foldl reportMiss s
  s.upMem (fun m => { m with window := m.window + 1, windowStart := s.now })

/-- REGULATION_WINDOW (R276 to R280): a window of 1,000 ns ends and new tokens issue. -/
def execRegulationWindow (at_ : Nat) (s : State) : Ans :=
  let t := endWindow (s.at_ at_)
  doWhen (outOfReset s && decide (s.mem.windowStart + 1000 ≤ at_)) s (issueTokens t (windowNs t))

/-! ### The metadata region (R262) -/

/-- The device physical address of a controller-local address (R261 inverted). -/
def dpaOfLocal (s : State) (k loc : Nat) : Nat :=
  let m := top0 s / 12
  if loc < m then (loc / 2048 * 12 + k) * 2048 + loc % 2048
  else
    let nb := (bigControllers s).length
    top0 s + ((loc - m) / 2048 * nb + (bigControllers s).idxOf k) * 2048 + (loc - m) % 2048

/-- The byte at local address `a` of controller k's share of the metadata region (R262): the checks of its granules, the
owner entries of its pages, and zero elsewhere. -/
def metaByte (s : State) (k a : Nat) : Byte :=
  let d := dataBytes s k
  let cap := capGiB s k * 0x40000000
  let owners := cap - cap / 1024
  let page := 12 * ((a - owners) / 8) + k
  if a < d then 0
  else if a < d + d / 32 then byteAt (leBytes 2 (storedCheck s (dpaOfLocal s k (64 * ((a - d) / 2)) / 64)).toNat) ((a - d) % 2)
  else if owners ≤ a ∧ page < dataTop s / 65536 then byteAt (leBytes 8 (ownerEntry (ownerOf s page))) ((a - owners) % 8)
  else 0

/-! ### Scrubbers and page tests (R281 to R284) -/

/-- The owner of a page, for its notices: its slice, or slice 0 (R282). -/
def pageNoticeSlice (o : Owner) : SliceId := match o.typ with
  | .slice => o.id
  | .enclave => o.host
  | _ => 0

/-- A granule that fails for good is poisoned, reported, and its page marked for test: one that stands failed, or one whose
re-read fails as its read did (R282). -/
def scrubGranule (bad : List Nat) (s : State) (g : Nat) : State :=
  if tget 0 s.mem.dram.syn g = 0 ∧ ¬ bad.contains (g % 32) then s
  else
    let p := g / 1024
    let s := s.upMem (fun m => { m with dram := m.dram.poison (64 * g) 64, testPages := if p ∈ m.testPages then m.testPages else m.testPages ++ [p] })
    let s := raiseCode s .a 0x00
    notify s (pageNoticeSlice (ownerOf s p)) 0x0E 3 (payload [(0, 8, 64 * g)])

/-- PATROL_SCRUB_BLOCK (R282): a controller's scrubber reads its next 2 KiB block and the owner entry of its page; a page not
yet initialised is passed over, and a granule that fails once and passes when it is read again is left as it is. -/
def execPatrolScrubBlock (r : PatrolRead) (s : State) : Ans :=
  let k := r.controller
  let b := tget 0 s.mem.scrubBlock k.val
  let dpa := dpaOfLocal s k.val (2048 * b)
  let p := dpa / 65536
  let next := if 2048 * (b + 1) < dataBytes s k.val then b + 1 else 0
  let s1 := s.upMem (fun m => { m with scrubBlock := tset 0 m.scrubBlock k.val next, scrubCount := m.scrubCount + 1 })
  let s2 := if (ownerOf s1 p).typ = .uninit then s1
    else
      let s := ((List.range 32).map (dpa / 64 + ·)).foldl (scrubGranule (r.lasting.map (·.val))) s1
      if (ownerOf s p).echkOk then s else raiseCode s .a 0x0C
  doWhen (outOfReset s && !s.fab.floorLost) s s2

/-- The bytes an invalidated dirty set leaves in DRAM: what DRAM held before, which the spec does not
give (a free value, log entry 31). -/
def staleLine (s : State) (dpa : Nat) : State :=
  let old := (List.range 64).map (fun i => Config.freeByte s.free (64 * (dpa / 64) + i))
  { s with free := s.free + 1 }.upMem (fun m => { m with dram := m.dram.write (64 * (dpa / 64)) old })

/-- The entries of a translation unit for an address are invalidated, and will be walked again (Table 9-8). -/
def dropLookup (s : State) (port : Nat) (n : SliceId) (va : Nat) : State := s.upMem (fun m => { m with
  tlb := tup [] m.tlb port (fun es => es.filter (fun e => !(e.slice == n && decide (e.va ≤ va) && decide (va < e.va + e.size))))
  walks := tup [] m.walks port (fun es => es.filter (fun e => !(e.slice == n && e.pre == va / 2 ^ (48 - 9 * e.level)))) })

/-- A set of the system cache is invalidated: every dirty line in it is lost, and each is reported as a fault (Table 9-8). -/
def loseSet (s : State) (k : BitVec 17) : State :=
  let mine (l : CacheLine) : Bool := cacheSet l.granule == k.toNat
  let lost := s.mem.cache.filter (fun l => mine l && l.dirty)
  lost.foldl (fun s l => raiseCode (staleLine s (64 * l.granule)) .a 0x0E) (s.upMem (fun m => { m with cache := m.cache.filter (fun l => !mine l) }))

/-- The credits and the space that a twin channel's copy holds return to their pools (R308). -/
def returnCredits (s : State) (e : TwinEnd) : State := s.upFab (fun f => { f with
  twinSpace := f.twinSpace - e.space
  credits := f.credits.map (fun p => (p.1, if p.1 = 1000 then p.2.map (fun l => { l with
    held := l.held + e.credits, ct := l.ct + BitVec.ofNat 48 e.credits }) else p.2)) })

/-- A twin channel's copy has left the transmitter: its transaction and what it held return. -/
def closeCopy (s : State) (ch : Nat) : State :=
  let s := s.upMem (fun m => { m with txns := m.txns.filter (fun t => t.src ≠ .twin (BitVec.ofNat 6 ch)) })
  match tget none s.fab.channels ch with
  | none => s
  | some e => (returnCredits s e).upFab (fun f => { f with
      channels := tup none f.channels ch (fun x => x.map (fun e => { e with credits := 0, space := 0 })) })

/-- A twin-channel copy under way fails (R307): a notice to this end's slice, no signal. -/
def failChannel (cause : Nat) (s : State) (ch : Nat) : State :=
  match tget none s.fab.channels ch with
  | none => s
  | some e => notify (copyOver (closeCopy s ch) ch) e.slice 0x0D 1 (payload [(0, 1, ch), (1, 1, cause)])

/-- A transaction ends with an error and its tag returns: its job terminates with `reason`, or its twin channel fails with
`cause` (R289, R307). -/
def failTxn (s : State) (t : Txn) (reason : Byte) (cause : Nat) : State :=
  let s := s.upMem (fun m => { m with txns := m.txns.filter (fun x => x.tag ≠ t.tag) })
  match t.src with
  | .job u => failUnit s u reason
  | .twin ch => failChannel cause s ch.toNat
  | .semaphore .. => s

/-- FLOOR_SRAM_SCRUB (R284, Table 9-8). -/
def execFloorSramScrub (e : SramError) (s : State) : Ans :=
  let ev (s : State) : State := raiseCode (s.upMem (fun m => { m with sramEvents := m.sramEvents + 1 })) .a 0x0E
  doWhen (outOfReset s) s (match e with
    | .corrected => s.upMem (fun m => { m with eccCorrected := m.eccCorrected + 1 })
    | .cacheDataClean dpa => ev (evictLine s dpa)
    | .cacheDataDirty dpa =>
      let s := (evictLine s dpa).upMem (fun m => { m with dram := m.dram.poison (64 * (dpa / 64)) 64 })
      notify (ev s) (pageNoticeSlice (ownerOf s (dpa / 65536))) 0x0E 3 (payload [(0, 8, dpa)])
    | .cacheTagsOne => ev s
    | .cacheTagsBoth k => ev (loseSet s k)
    | .lookup p n va => ev (dropLookup s p.val n va)
    | .counter c => ev (s.upCtr c (fun x => { x with dead := true, waits := [] }))
    | .tracker tag => match s.mem.txns.find? (fun t => t.tag = tag) with
      | some t => ev (failTxn s t 0x10 2)
      | none => ev s)

/-- WRITE_LINK_ECC_ERROR (R281): the data is rewritten once; a second error goes to island A and the
page is marked for test. -/
def execWriteLinkEccError (page : Nat) (again : Bool) (s0 : State) : Ans :=
  let s := s0.upMem (fun m => { m with eccCorrected := m.eccCorrected + 1 })
  doWhen (outOfReset s0) s0 (if again then
    raiseCode (s.upMem (fun m => { m with testPages := if page ∈ m.testPages then m.testPages else m.testPages ++ [page] })) .a 0x00
  else s)

/-- PAGE_TEST (R283): a marked page that is FREE is tested, then freed as zeros or retired. -/
def execPageTest (page : Nat) (pass : Bool) (s : State) : Ans :=
  let s1 := s.upMem (fun m => { m with testPages := m.testPages.filter (· ≠ page) })
  let persist := decide (s.mem.retiredList.length < 1024)
  let bad :=
    let s := setOwner s1 page { typ := .retired, grants := (ownerOf s1 page).grants }
    let s := if persist then s.upMem (fun m => { m with retiredList := m.retiredList ++ [page] }) else s
    notify s 0 0x13 1 (payload [(0, 4, page), (4, 1, if persist then 1 else 0)])
  doWhen (s.mem.testPages.contains page && (ownerOf s page).typ == .free) s (if pass then releasePage s1 page else bad)

end Sys2Proof.Machine
end

