-- ==== Sys2Proof/Machine/Twin.lean ====
section
/-! DEFINITION. The twin link, far locks, the cue of two packages and twin channels (R302 to R312). -/

namespace Sys2Proof.Machine

/-- The package is strapped as one of a pair (R292). -/
def paired (s : State) : Bool := s.host.twinRole == 1 || s.host.twinRole == 2
def isLead (s : State) : Bool := s.host.twinRole == 1
def isFollower (s : State) : Bool := s.host.twinRole == 2

/-- The request and response pools of the twin link, 256 KiB in 64-byte credits each (R308). -/
def twinPools : List (Nat × Option CreditLoop) :=
  [(1000, some { total := 4096, held := 4096, ct := 0 }), (1001, some { total := 4096, held := 4096, ct := 0 })]

/-- The twin link has retrained for a failed audit: the loop's credits are initialised again, which is reported as the
fault is (R42, R43). -/
def retrainedTwin (s : State) (roundTrip key : Nat) : State :=
  let total := ((tget none s.fab.credits key).map (·.total)).getD 0
  let s := s.upFab (fun f => { f with
    twinRetrain := f.twinRetrain.filter (· ≠ key)
    oneWay := roundTrip / 2
    auditFaults := f.auditFaults + 1
    credits := twinPools.foldl (fun t p => if p.1 = key then tset none t p.1 p.2 else t) f.credits })
  conservationNotice (raiseCode s .b 0x09) 1 1 key total total

/-- TWIN_LINK_UP (R43, R305, R311): training completes. A link that was down is up, its pools initialised, and half the
round trip measured; one that retrained for failed audits has the credits of those loops initialised again. -/
def execTwinLinkUp (roundTrip : Nat) (s : State) : Ans :=
  let s1 := s.upFab (fun f => { f with
    twinUp := true
    oneWay := roundTrip / 2
    twinUncorrectableCue := 0
    twinSent := 0
    twinReceived := 0
    twinSpace := 0
    credits := twinPools.foldl (fun t p => tset none t p.1 p.2) f.credits })
  let s2 := s1.upSaf (fun f => { f with twinLostRaised := false })
  match s.fab.twinRetrain with
  | [] => doWhen (paired s && !s.fab.twinUp) s (sideBand s2 4 0)
  | keys => did (keys.foldl (fun s key => retrainedTwin s roundTrip key) s)

/-- The channels with a copy under way. -/
def copying (s : State) : List Nat :=
  (s.fab.channels.filter (fun p => match p.2 with
    | some e => e.copying
    | none => false)).map (·.1)

/-- Commits that span both packages and are not agreed fail when the link is down (R355). -/
def failTwinCommits (s : State) (status : Nat) : State :=
  let bad := s.commits.filter (fun c => c.target.isSome ∧ ¬ c.twinAgreed)
  let s := { s with commits := s.commits.filter (fun c => ¬ (c.target.isSome ∧ ¬ c.twinAgreed)) }
  let s := s.upFab (fun f => { f with ops := [] })
  bad.foldl (fun s c => complete s c.slice { tag := c.tag, pos := c.pos, op := 2, wait := .twinAgree } status 0 0) s

/-- The link goes down (R305) and retrains: crossing transactions fail, far locks are released, pools are invalid, and
slice 0 and island B are told; in PAIRED mode TWIN_LOST is raised once and pending comparisons end
unchecked (R426). -/
def twinDown (s : State) : State :=
  let s := s.upCue (fun c => { c with hold := (tget {} s.net.bases c.tb.toNat).f })
  let s := s.upFab (fun f => { f with twinUp := false, twinRetrain := [], farHeld := [], credits := f.credits.filter (fun p => p.1 < 1000) })
  let s := (s.mem.txns.filter (·.crossing)).foldl (fun s t => failTxn s t 0x11 0) (s.emit .twinRetrain)
  let s := (copying s).foldl (failChannel 0) s
  let s := failTwinCommits s 0x0C
  let s := sideBand s 5 0
  if s.fab.twinMode = 2 then
    let s := if s.saf.twinLostRaised then s else (raiseCode s .b 0x15).upSaf (fun f => { f with twinLostRaised := true })
    failPendingCross s
  else raiseCode s .b 0x00

/-- TWIN_LINK_DOWN (R305). -/
def execTwinLinkDown (s : State) : Ans := doWhen s.fab.twinUp s (twinDown s)

/-- TWIN_CODEWORD_UNCORRECTABLE (R304): discarded and counted, and the first packet that is lacking is asked for again; more than
64 in a cue take the link down. -/
def execTwinCodewordUncorrectable (s : State) : Ans :=
  let s1 := (s.upFab (fun f => { f with
    twinUncorrectable := f.twinUncorrectable + 1, twinUncorrectableCue := f.twinUncorrectableCue + 1 })).emit (.twinNak s.fab.twinReceived)
  doWhen s.fab.twinUp s (if 64 < s1.fab.twinUncorrectableCue then twinDown s1 else s1)

/-- TWIN_ALIGNMENT_TIMEOUT (R304): alignment lost for 10 us takes the link down. -/
def execTwinAlignmentTimeout (s : State) : Ans := doWhen s.fab.twinUp s (twinDown s)

/-! ### The follower's cue (R311, R312) -/

/-- floor(P / 10,000) of R20. -/
def slewStep (p : Nat) : Nat := p / 10000

/-- The multiple of P nearest to a value. -/
def nearestMultiple (v p : Int) : Int := (v + p / 2) / p * p

/-- The first multiple of P at or above a value. -/
def multipleAbove (v p : Int) : Int := (v + p - 1) / p * p

/-- The length of a transitional cue that begins at the value v of its time base: up to the first multiple of P that
lies at least P after it, so P to 2P - 1 (R23). -/
def transLength (v : Int) (p : Nat) : Nat := (multipleAbove (v + p) p - v).toNat

/-- The reference time of a period P of a time base held at the servo frequency f (R21, R439). -/
def heldPeriod (p : Nat) (f : Int) : Nat :=
  let one : Int := 4294967296 * 1000000000
  ((p : Int) * one / (one + 65536 * f)).toNat

/-- An offset limited to what one edge may move (R20). -/
def clampSlew (p : Nat) (o : Int) : Int := max (-(slewStep p : Int)) (min o (slewStep p : Int))

/-- The follower's offset is outside 50 ns: ALIGNED is lost, and a bound that it leaves is reported to island B (R312, R341). -/
def leaveBound (s : State) : State :=
  let held := s.cue.aligned || s.cue.alignRun != 0
  let s1 := s.upCue (fun c => { c with aligned := false, alignRun := 0 })
  let s2 := if held then raiseCode s1 .b 0x16 else s1
  if s.cue.aligned then sideBand s2 13 0 else s2

/-- A cue within the bound: the fourth in a row aligns the follower (R312). -/
def keepBound (s : State) : State :=
  s.upCue (fun c => { c with alignRun := c.alignRun + 1, aligned := c.aligned || decide (4 ≤ c.alignRun + 1) })

/-- CUE_STOP commands complete at the stopping edge (R18, R356). -/
def completeStops (s : State) : State :=
  allSlices.foldl (fun s n => ((s.slice n).flight.filter (fun f => f.wait = .cueStop)).foldl
    (fun s f => complete s n f 0 0 0) s) s

/-- The flight of a commit's command. -/
def commitFlight (c : Commit) : Flight := { tag := c.tag, pos := c.pos, op := 0x0002, wait := .commit }

/-- The cue has stopped: later commits wait for count 0, and a commit for a target that never comes is gone (R35). -/
def commitsOnStop (s : State) : State :=
  let s := s.upCtl (fun c => { c with waiting := c.waiting.map (fun x => { x with due := 0 }) })
  let gone := s.commits.filter (fun c => c.atCue && c.target.isSome)
  let s := { s with commits := (s.commits.filter (fun c => !(c.atCue && c.target.isSome))).map (fun c => if c.atCue then { c with due := 0 } else c) }
  gone.foldl (fun s c => if c.twinAgreed then s else complete s c.slice (commitFlight c) 0x0C 0 0) s

/-- A start has been cancelled: every pending AT_CUE commit stays pending, for count 0 of the next start unless it names a
target (R35, R359). -/
def startCancelled (s : State) : State :=
  let s := s.upCtl (fun c => { c with waiting := c.waiting.map (fun x => { x with due := 0 }) })
  { s with commits := s.commits.map (fun c => if c.atCue && c.target.isNone then { c with due := 0 } else c) }

/-- The cue has stopped (R18, R35, R441). -/
def cueStopped (s : State) : State :=
  let s := commitsOnStop (s.upIntake (fun x => { x with fsync := 0 }))
  completeStops (sideBand (s.upCue (fun c => { c with running := false, starting := false, stopping := false, slewing := false, slewLeft := 0, frame := none })) 10 0)

/-- The numbers of a CUE set. -/
structure CueNums where
  period : Nat
  beat : Nat
  tb : Nat
  bank : Nat

/-- The CUE set that the first edge after a start uses: that of a pending commit which applies there, at count 0, else the
committed one (R35, R359). -/
def startSet (s : State) : Option CueNums :=
  let pend := (s.commits.filter (fun c => c.atCue && decide (c.target.getD c.due = 0))).findSome? (fun c => ((c.groups.zip c.sets).find? (fun p => p.1 == (0x1000000 : Word))).map (·.2))
  match pend with
  | some w => some { period := fld w 0 4, beat := fld w 4 4, tb := fld w 8 1, bank := fld w 9 1 }
  | none => if s.cue.configured then some { period := s.cue.period, beat := s.cue.beat, tb := s.cue.tb.toNat, bank := s.cue.bank.toNat } else none

/-- The lead's edge plus the one-way delay, on this package's time scale: the control block that carries the frame left at its
timestamp and took the one-way delay (R311). -/
def leadEdge (s : State) (f : TwinCue) : Int :=
  let here : Int := (f.at_ : Int) - ((f.sent : Int) + s.fab.oneWay - f.lead)
  here + s.fab.oneWay

/-- A frame comes before the own edge that it tells of: the own edge nearest to the lead's is still to come (R311). -/
def frameEarly (s : State) (f : TwinCue) : Bool :=
  !s.cue.transitional && decide (((s.cue.next : Int) - leadEdge s f).natAbs < ((s.cue.last : Int) - leadEdge s f).natAbs)

/-- A lead's cue frame announces the edge at which the follower's cue starts (R312). -/
def followStart (s : State) (f : TwinCue) : State :=
  match startSet s with
  | none => s
  | some c =>
    if c.period = 0 then s
    else s.upCue (fun x => { x with starting := true, next := max s.now (leadEdge s f).toNat, adopt := some f.count, edgePeriod := c.period, edgeTb := BitVec.ofNat 2 c.tb })

/-- The follower's correction towards zero offset (R311, R312): the next edge moves by R20, and what the offset leaves is
a slew. The edge that ends a transitional cue is the lead's: its length is that of the lead's time scale (R23). A count that
differs is reported, and the lead's is adopted at the next edge. -/
def followCorrect (s : State) (f : TwinCue) : State :=
  let offset := (s.cue.last : Int) - leadEdge s f
  let d := clampSlew s.cue.period offset
  let len := transLength f.lead s.cue.period
  let own := if s.cue.transitional then s.cue.last + len else s.cue.next
  let moved := ((own : Int) - d).toNat
  let t := s.upCue (fun c => { c with
    next := moved
    length := if c.transitional then len else moved - c.last
    slewLeft := d - offset
    adopt := if f.count = c.count then none else some (f.count + 1) })
  let t := if offset.natAbs ≤ 50 then keepBound t else leaveBound t
  if f.count = s.cue.count then t else raiseCode t .b 0x16

/-- A cue whose frame did not arrive keeps its period on the last servo frequency of its time base, and is reported (R21,
R312). Its offset is not known, so that it is none of four consecutive cues within the bound. -/
def holdCue (s : State) : State :=
  let t := s.cue.last + heldPeriod s.cue.period (tget {} s.net.bases s.cue.tb.toNat).f
  let s1 := if s.cue.transitional then s else s.upCue (fun c => { c with next := max t s.now, length := max t s.now - c.last })
  raiseCode (s1.upCue (fun c => { c with alignRun := 0 })) .b 0x16

/-- A frame for a running follower (R311, R312): one that comes before the own edge is held until it; a stop takes effect at that
edge, or at once where the edge has passed. -/
def followFrame (s : State) (f : TwinCue) : State :=
  if frameEarly s f then s.upCue (fun c => if f.stops then { c with stopping := true } else { c with frame := some f })
  else if f.stops then cueStopped s
  else followCorrect s f

/-- TWIN_CUE_FRAME (R311, R312): `none` is an edge whose frame did not arrive. -/
def execTwinCueFrame (f : Option TwinCue) (s : State) : Ans :=
  match f with
  | none => doWhen (isFollower s && s.cue.running) s (holdCue s)
  | some f =>
    let s1 := s.at_ f.at_
    doWhen (isFollower s && s.fab.twinUp) s
      (if s.cue.running then followFrame s1 f else if f.stops then s1 else followStart s1 f)

/-! ### Far locks (R309, R310) -/

/-- The far lock of a line is granted here until its deadline (R309). -/
def grantFar (s : State) (line : Nat) : State :=
  (s.upFab (fun f => { f with farHeld := f.farHeld ++ [(line, s.now + 20000)] })).emit (.farLock line .grant)

/-- The package holds its own line for a pending locked operation. -/
def ownLock (s : State) (line : Nat) : Bool := s.fab.ops.any (fun o => o.line == line && o.locked)

/-- The own locked operations on a line change. -/
def State.upOps (s : State) (line : Nat) (g : FarOp → FarOp) : State :=
  s.upFab (fun f => { f with ops := f.ops.map (fun o => if o.line = line then g o else o) })

/-- FAR_LOCK_REQUEST (R310): granted; on a tie the lead refuses with RETRY, and the follower releases its own
lock and grants. -/
def execFarLockRequest (line : Nat) (s : State) : Ans :=
  let held := s.fab.farHeld.any (fun p => p.1 = line)
  doWhen s.fab.twinUp s
    (if held ∨ (ownLock s line ∧ isLead s) then s.emit (.farLock line .retry)
     else grantFar (s.upOps line (fun o => { o with locked := false })) line)

/-- Operations that gave their lock up start again, as new requests (R309, R310). -/
def retryOps (s : State) (line : Nat) : State :=
  if s.fab.ops.any (fun o => o.line == line && !o.locked) then
    (s.upOps line (fun o => { o with requested := s.now, locked := true })).emit (.farRequest line)
  else s

/-- FAR_LOCK_TIMEOUT (R309): a far lock held past its deadline is released; this package's own operation
past 20 us fails with TIMEOUT, writing nothing. -/
def execFarLockTimeout (line : Nat) (at_ : Nat) (s : State) : Ans :=
  let s1 := s.at_ at_
  let late := s.fab.ops.filter (fun o => o.line = line ∧ o.requested + 20000 ≤ at_)
  let s2 : State := s1.upFab (fun f => { f with
    farHeld := f.farHeld.filter (fun p => ¬ (p.1 = line ∧ p.2 ≤ at_))
    ops := f.ops.filter (fun o => ¬ (o.line = line ∧ o.requested + 20000 ≤ at_)) })
  let s3 := { s2 with commits := s2.commits.filter (fun (c : Commit) => ¬ late.any (fun o => o.pos = c.pos ∧ o.slice = c.slice)) }
  let s4 := late.foldl (fun s o => match (s.slice o.slice).flight.find? (fun f => f.pos = o.pos) with
    | some f => complete s o.slice f 0x0B 0 0
    | none => s) s3
  did (if s.fab.farHeld.any (fun p => decide (p.1 = line) && decide (p.2 ≤ at_)) then retryOps s4 line else s4)

/-- The next edge and its count, once a start or a run fixes one (R35). -/
def nextEdge (s : State) : Option (Nat × DWord) :=
  if s.cue.starting then some (s.cue.next, 0)
  else if s.cue.running then some (s.cue.next, s.cue.count + 1)
  else none

/-- An agreed commit is accepted on both packages and completes, or fails when the cut has passed (R35, R38, R355). -/
def agreeCommit (s : State) (o : FarOp) : State :=
  let tgt := match s.commits.find? (fun c => c.pos = o.pos ∧ c.slice = o.slice) with
    | some c => c.target.getD 0
    | none => 0
  let late := match nextEdge s with
    | some (t, k) => decide (tgt < k) || (tgt == k && decide (t < s.now + 50000))
    | none => false
  let mine (c : Commit) : Bool := c.pos == o.pos && c.slice == o.slice
  let s : State := if late then { s with commits := s.commits.filter (fun c => !mine c) }
    else { s with commits := s.commits.map (fun c => if mine c then { c with twinAgreed := true } else c) }
  let s := (s.upFab (fun f => { f with ops := f.ops.filter (fun x => x.line ≠ o.line) })).emit (.farLock o.line .release)
  match (s.slice o.slice).flight.find? (fun f => f.pos = o.pos) with
  | some f => if late then complete s o.slice f 0x0C 0 0 else complete s o.slice f 0 0 (payload [(0, 8, tgt.toNat)])
  | none => s

/-- FAR_LOCK_RESPONSE (R310): a grant lets the operation that holds its own line write and release; at RETRY it gives its own
lock up, and starts again at the partner's release. -/
def execFarLockResponse (line : Nat) (r : FarLockAnswer) (s : State) : Ans :=
  match r with
  | .grant => match s.fab.ops.find? (fun o => o.line == line && o.locked) with
    | some o => did (agreeCommit s o)
    | none => did s
  | .retry => did (s.upOps line (fun o => { o with locked := false }))
  | .release => did (retryOps (s.upFab (fun f => { f with farHeld := f.farHeld.filter (fun p => p.1 ≠ line) })) line)

/-! ### Twin channels (R307) -/

/-- Packets of a copy of `len` bytes, at most 2 KiB of data each (R303). -/
def packets (len : Nat) : Nat := (len + 2047) / 2048

/-- The length of a packet of `k` data bytes: a header of 24 bytes, and a check of 2 for each granule (R303). -/
def packetBytes (k : Nat) : Nat := 24 + k + 2 * ((k + 63) / 64)

/-- The credits of a packet (R308). -/
def packetCredits (k : Nat) : Nat := (packetBytes k + 63) / 64

/-- The credits of all packets of a copy. -/
def copyCredits (len : Nat) : Nat := ((List.range (packets len)).map (fun i => packetCredits (min 2048 (len - 2048 * i)))).foldl (· + ·) 0

/-- The request credits held at the transmitter. -/
def twinHeld (s : State) : Nat := ((tget none s.fab.credits 1000).map (·.held)).getD 0

/-- A copy may issue its first request: its credits are there, and space for the response, one credit (R308). -/
def copyFits (s : State) (len : Nat) : Bool := decide (packetCredits (min 2048 len) ≤ twinHeld s) && decide (s.fab.twinSpace < 4096)

/-- The credits of the Wings pool's tags, the channel's transaction (R288, R289, R308): a copy longer than the pool takes
credits again as they return, so that it holds no more than the pool had. -/
def openCopy (s : State) (ch : BitVec 6) (e : TwinEnd) (tag : BitVec 16) : State :=
  let k := min (twinHeld s) (copyCredits e.len)
  let r := min (4096 - s.fab.twinSpace) (packets e.len)
  let s := s.upFab (fun f => { f with
    twinSpace := f.twinSpace + r
    twinSent := f.twinSent + packets e.len
    credits := tup none f.credits 1000 (fun p => p.map (fun l => { l with held := l.held - k, ct := l.ct + BitVec.ofNat 48 (copyCredits e.len - k) })) })
  let s := s.upChannel ch.toNat (fun e => { e with triggered := false, copying := true, credits := k, space := r })
  openTxn s { tag := tag, pool := 4, src := .twin ch, mid := midTwin, write := true, crossing := true, issued := s.now, slice := e.slice }

/-- TWIN_CHANNEL_COPY (R288, R307, R308, R480): the trigger wait (MODE 1, VALUE 1) has been released, and the buffer is read
and sent once a tag, credits and the space for responses are there. A failing granule crosses unchanged, with its failing check
(R16, R70); a read that fails otherwise fails the channel. -/
def execTwinChannelCopy (ch : BitVec 6) (s : State) : Ans :=
  match tget none s.fab.channels ch.toNat with
  | none => did s
  | some e =>
    let ready := s.pwr.state == .active && s.fab.twinUp && s.fab.twinMode != 0 && !e.receive && !e.copying && e.triggered && copyFits s e.len
    doWhen ready s (match freeTag s 4 with
      | none => s.upMem (fun x => { x with tagStalls := tup 0 x.tagStalls 4 (· + 1) })
      | some g =>
        let s1 := openCopy s ch e g
        match carriedBytes s1 e.slice (.slice e.slice) e.va e.len with
        | some bs => s1.emit (.twinData ch bs (carriedBad s1 e.slice (.slice e.slice) e.va e.len))
        | none => failChannel 2 s1 ch.toNat)

/-- TWIN_CHANNEL_COPY_DONE (R307): at the receive end the visible bytes are written and the completion
counter is signalled with 1; a failure is a notice and no signal, and a check that fails at the destination is reported as any
other (R66). Nothing crosses while the link is down, or in SINGLE mode
(R306). -/
def execTwinChannelCopyDone (ch : BitVec 6) (r : TwinCopyResult) (data : Bytes) (s : State) : Ans :=
  match tget none s.fab.channels ch.toNat with
  | none => did s
  | some e =>
    match r with
    | .visible =>
      let got := (writeBy s midTwin e.slice (.slice e.slice) e.va data).upFab (fun f => { f with twinReceived := f.twinReceived + packets e.len })
      doWhen (s.fab.twinUp && s.fab.twinMode != 0) s
        (if e.receive then
          (if data.length = e.len ∧ reachable s e.slice (.slice e.slice) .write e.va e.len then
            issueSignal got e.ctr { value := 1, src := .twin } else s)
        else copyOver (closeCopy s ch.toNat) ch.toNat)
    | .link => did (failChannel 0 s ch.toNat)
    | .timeout => did (failChannel 1 s ch.toNat)
    | .check => did (failChannel 2 (if e.receive then reportCheckOf s .b midTwin e.slice false else s) ch.toNat)

end Sys2Proof.Machine
end

