-- ==== Sys2Proof/Machine/TimeOps.lean ====
section
/-! DEFINITION. The time bases and their servo, and where the cue's edges fall (R17, R20 to R24, R436 to R440). -/

namespace Sys2Proof.Machine

def State.tb (s : State) (n : Nat) : TimeBase := tget {} s.net.bases n
def State.setTb (s : State) (n : Nat) (b : TimeBase) : State := s.upNet (fun x => { x with bases := tset {} x.bases n b })

/-- The committed structure of a time base (Table 15-4). -/
def tbSet (s : State) (n : Nat) : BitVec 4608 := committed s 5 n

/-- What 10^9 ns of the reference add to a time base, in units of 2^-32 ns (R439). -/
def TimeBase.rate (b : TimeBase) : Int := 4294967296 * 1000000000 + 65536 * b.f

/-- The value at a reference instant, in units of 2^-32 ns. -/
def TimeBase.valAt (b : TimeBase) (t : Nat) : Int := b.val + ((t : Int) - (b.at_ : Int)) * b.rate / 1000000000

/-- The value at a reference instant, in ns. -/
def TimeBase.nsAt (b : TimeBase) (t : Nat) : Int := b.valAt t / 4294967296

/-- The first reference instant at which the value is at least `v` ns. -/
def TimeBase.reach (b : TimeBase) (v : Int) : Nat :=
  let need := (v * 4294967296 - b.val) * 1000000000
  ((b.at_ : Int) + (need + b.rate - 1) / b.rate).toNat

/-- The time base brought to a reference instant. -/
def TimeBase.upTo (b : TimeBase) (t : Nat) : TimeBase := { b with val := b.valAt t, at_ := t }

/-- A time base as its 64-bit count of ns now. -/
def tbNow (s : State) (n : Nat) : Nat := wrapBits 64 ((s.tb n).nsAt s.now)

/-! ### Where edges fall -/

/-- The first edge of a time base at a multiple of P, at or after a reference instant (R17). -/
def firstEdge (b : TimeBase) (lo p : Nat) : Nat :=
  let k := multipleAbove (b.nsAt lo) p
  let t := b.reach k
  if t < lo then b.reach (k + p) else t

/-- A start's first edge by a set: the first multiple of its period at least 1 ms from now, with the multiple (R17, R359). -/
def startEdge (s : State) (c : CueNums) : Nat × Int :=
  let t := firstEdge (s.tb c.tb) (s.now + 1000000) c.period
  (t, nearestMultiple ((s.tb c.tb).nsAt t) c.period)

/-- A start is placed by a set. -/
def placeStart (s : State) (c : CueNums) : State :=
  s.upCue (fun x => { x with starting := true, next := (startEdge s c).1, edgePeriod := c.period, edgeTb := BitVec.ofNat 2 c.tb })

/-- What the generator plans of a cue: its next edge, its length (that of a transitional cue on the scale it is
measured on), and what a slew leaves after it. -/
structure CuePlan where
  next : Nat
  length : Nat
  left : Int

/-- A cue that ends a period after the last edge. -/
def planAt (s : State) (t : Nat) (left : Int) : CuePlan := { next := t, length := t - s.cue.last, left := left }

/-- A transitional cue, whose length is measured on the time base (R23). -/
def planTransitional (s : State) (b : TimeBase) : CuePlan :=
  let v := b.nsAt s.cue.last
  { next := b.reach (v + transLength v s.cue.period), length := transLength v s.cue.period, left := s.cue.slewLeft }

/-- A follower's cue (R28, R29): its own period while the link is up, which the lead's frames correct (R311); while the
link is down the period on the servo frequency held. -/
def planFollower (s : State) : CuePlan :=
  if s.fab.twinUp then planAt s (s.cue.last + s.cue.period) s.cue.slewLeft
  else planAt s (s.cue.last + heldPeriod s.cue.period s.cue.hold) 0

/-- The lead's cue, or a single package's: the nearest multiple of P on the time base, moved to by R20. -/
def planLead (s : State) (b : TimeBase) : CuePlan :=
  let p := s.cue.period
  let loc := s.cue.last + p
  let diff : Int := (b.reach (nearestMultiple (b.nsAt loc) p) : Int) - (loc : Int)
  let d := clampSlew p diff
  planAt s ((loc : Int) + d).toNat (diff - d)

/-- The next edge of a running cue (R20, R23, R28, R29). -/
def planNext (s : State) : CuePlan :=
  let b := s.tb s.cue.tb.toNat
  if s.cue.transitional then planTransitional s b
  else if isFollower s then planFollower s
  else planLead s b

/-- The next edge planned. -/
def replan (s : State) : State :=
  let r := planNext s
  s.upCue (fun c => { c with
    next := max r.next s.now
    length := if c.transitional then r.length else max r.next s.now - c.last
    slewLeft := r.left })

/-- A time base has changed rate or value: the cue on it follows; a start keeps its multiple of P (R20, R359). The cue
of a follower is the lead's, and its own time bases do not move it (R28). -/
def retime (old s : State) (n : Nat) : State :=
  if isFollower s then s
  else if s.cue.starting then
    if s.cue.edgeTb.toNat ≠ n then s
    else
      let k := nearestMultiple ((old.tb n).nsAt s.cue.next) s.cue.edgePeriod
      s.upCue (fun x => { x with next := max s.now ((s.tb n).reach k) })
  else if s.cue.running ∧ s.cue.tb.toNat = n then replan s
  else s

/-- N beats in this cue (R23, R24). -/
def beatCount (s : State) : Nat :=
  if s.cue.transitional then s.cue.length / s.cue.beat else max 1 (s.cue.period / s.cue.beat)

/-! ### The servo (R437 to R440) -/

/-- SOURCE of a time base structure. -/
def tbSource (w : BitVec 4608) : Nat := fld w 0 1

/-- A time base stepped by an offset (R439, R440). -/
def stepBase (s : State) (n : Nat) (e : Int) : State :=
  let b := (s.tb n).upTo s.now
  retime s (s.setTb n { b with val := b.val + e * 4294967296, st := if tbSource (tbSet s n) = 0 then b.st else 1, good := 0 }) n

def clampInt (lim v : Int) : Int := max (-lim) (min v lim)

/-- The servo's step for a sample (R439): the new i and f. -/
def servo (w : BitVec 4608) (b : TimeBase) (e : Int) : Int × Int :=
  let lim : Int := 65536 * fld w 12 4
  let i := clampInt lim (b.i + fld w 8 4 * e)
  (i, clampInt lim (fld w 4 4 * e + i))

/-- The servo state after a sample that is no step (R440). -/
def servoState (w : BitVec 4608) (b : TimeBase) (e : Int) : BitVec 2 × Nat :=
  let ok := decide (e.natAbs ≤ fld w 20 4)
  let good := if ok then b.good + 1 else 0
  (if ok ∧ (8 ≤ good ∨ b.st = 2) then 2 else 1, good)

/-- An offset sample reaches the servo of a time base (R439, R440). -/
def takeSample (s : State) (n : Nat) (e : Int) : State :=
  let w := tbSet s n
  let s1 := s.setTb n { (s.tb n) with last := s.now, lastE := e, st := if (s.tb n).st = 3 then 1 else (s.tb n).st }
  if bitAt (fld w 3 1) 0 ∧ fld w 16 4 < e.natAbs then stepBase s1 n e
  else
    let b := (s1.tb n).upTo s.now
    let r := servo w b e
    let q := servoState w b e
    retime s1 (s1.setTb n { b with i := r.1, f := r.2, st := q.1, good := q.2 }) n

/-- A TIMEBASE set applies (R437): i restarts with a new SOURCE, FREE runs at the nominal rate, the capture ring
counts from 0. -/
def applyTimebase (s : State) (n : Nat) (old new : BitVec 4608) : State :=
  let b := (s.tb n).upTo s.now
  let free := tbSource new == 0
  let b := { b with
    i := if free ∨ tbSource new ≠ tbSource old then 0 else b.i
    f := if free then 0 else b.f
    st := if free then 0 else 1
    good := 0
    last := s.now
    capSeq := 0 }
  retime s (s.setTb n b) n

/-- The field rules of Table 15-4: the offset that fails, and whether it is reserved. -/
def timebaseErr (w : BitVec 4608) (n : Nat) : Option (Bool × Nat) :=
  let src := fld w 0 1
  if 3 < src ∨ (src = 1 ∧ 1 < n) then some (false, 0)
  else if bits (fld w 1 1) 6 3 ≠ 0 then some (true, 1)
  else if src = 3 ∧ (3 < fld w 2 1 ∨ fld w 2 1 = n) then some (false, 2)
  else if 1 < fld w 3 1 then some (true, 3)
  else if fld w 12 4 < 1 ∨ 500000 < fld w 12 4 then some (false, 12)
  else if fld w 16 4 < 1000 ∨ 1000000000 < fld w 16 4 then some (false, 16)
  else if fld w 20 4 < 1 ∨ 1000000 < fld w 20 4 then some (false, 20)
  else if fld w 24 4 < 10 ∨ 60000 < fld w 24 4 then some (false, 24)
  else if fld w 28 4 ≠ 0 then some (true, 28)
  else if fld w 41 1 ≠ 0 then some (true, 41)
  else if (if fld w 40 1 = 0 then fld w 42 2 ≠ 0 else fld w 42 2 < 16 ∨ 4096 < fld w 42 2) then some (false, 42)
  else if fld w 44 4 ≠ 0 then some (true, 44)
  else if fld w 40 1 ≠ 0 ∧ (fld w 48 8 % 64 ≠ 0 ∨ 2 ^ 48 ≤ fld w 48 8) then some (false, 48)
  else if fld w 56 8 ≠ 0 then some (true, 56)
  else none

end Sys2Proof.Machine
end

