-- ==== Sys2Proof/Machine/GatewayOps.lean ====
section
/-! DEFINITION. The signal gateway: fields, routes, frames and their sending (R444 to R453). -/

namespace Sys2Proof.Machine

/-! ### Fields (R447, R448) -/

/-- The bit positions of a field, least significant bit first; none when it leaves the payload. -/
def fieldBits (start len : Nat) (be : Bool) (bits : Nat) : Option (List Nat) :=
  let ps := if be then ((List.range (len - 1)).foldl (fun (l : List Nat) _ => match l with
      | p :: _ => (if p % 8 = 0 then p + 15 else p - 1) :: l
      | [] => []) [start])
    else (List.range len).map (start + ·)
  if ps.all (fun p => decide (p < bits)) then some ps else none

/-- The raw field of a payload. -/
def rawField (bs : Bytes) (start len : Nat) (be : Bool) : Option Nat :=
  (fieldBits start len be (8 * bs.length)).map (fun ps =>
    ps.zipIdx.foldl (fun v p => v + (if bitAt (byteAt bs (p.1 / 8)) (p.1 % 8) then 2 ^ p.2 else 0)) 0)

/-- One bit of a payload set or cleared. -/
def putBit (bs : Bytes) (p : Nat) (v : Bool) : Bytes :=
  bs.zipIdx.map (fun b => if b.2 = p / 8 then (if v then b.1 ||| BitVec.ofNat 8 (2 ^ (p % 8)) else b.1 &&& BitVec.ofNat 8 (255 - 2 ^ (p % 8))) else b.1)

/-- A value written into a field of a payload. -/
def putField (bs : Bytes) (start len : Nat) (be : Bool) (v : Int) : Bytes :=
  match fieldBits start len be (8 * bs.length) with
  | none => bs
  | some ps => ps.zipIdx.foldl (fun b p => putBit b p.1 (bitAt (wrapBits 64 v) p.2)) bs

/-- Saturation to a field of `len` bits. -/
def satField (len : Nat) (sgn : Bool) (v : Int) : Int :=
  if sgn then max (-(2 ^ (len - 1))) (min v (2 ^ (len - 1) - 1)) else max 0 (min v (2 ^ len - 1))

/-! ### Routes -/

/-- A committed route's structure (Tables 15-6 and 15-7). -/
def routeSet (s : State) (r : Nat) : BitVec 4608 := committed s 8 r

/-- Every committed route that is not unused. -/
def routes (s : State) : List (Nat × BitVec 4608) :=
  (s.groups.filter (fun p => groupKind p.1 == 8 && fld p.2.committed 0 1 != 0)).map (fun p => (groupIdx p.1, p.2.committed))

def State.route (s : State) (r : Nat) : RouteSt := tget {} s.net.routes r
def State.upRoute (s : State) (r : Nat) (f : RouteSt → RouteSt) : State := s.upNet (fun x => { x with routes := tup {} x.routes r f })

def isSignal (w : BitVec 4608) : Bool := fld w 0 1 == 2
def isFrame (w : BitVec 4608) : Bool := fld w 0 1 == 1
def dstLoop (w : BitVec 4608) : Bool := bitAt (fld w 3 1) 4

/-- The destination value of a raw field, and whether it was saturated (R448). -/
def sigValue (w : BitVec 4608) (raw : Nat) : Int × Bool :=
  let x : Int := if bitAt (fld w 3 1) 1 then signed (fld w 18 1) raw else (raw : Int)
  let y := rneDiv (signed 32 (fld w 24 4) * x) (2 ^ fld w 28 1) + signed 64 (fld w 32 8)
  let z := satField (fld w 19 1) (bitAt (fld w 3 1) 3) y
  (z, z != y)

/-- SUBST in the destination's range (R450). -/
def substOf (w : BitVec 4608) : Int := satField (fld w 19 1) (bitAt (fld w 3 1) 3) (signed 64 (fld w 40 8))

/-- A route shows SUBST: before its first event, or stale (R450). -/
def isStale (s : State) (r : Nat) : Bool := (s.route r).event.isNone || (s.route r).stale

/-- A value reaches a loop's gateway input (R448, R459). -/
def toLoop (s : State) (w : BitVec 4608) (y : Int) : State :=
  let l := fld w 22 2 % 32
  let i := bits (fld w 22 2) 7 5
  s.upCtl (fun c => { c with loops := tup {} c.loops l (fun x => { x with
    ins := tset 0 x.ins i (signed 32 (wrapBits 32 y)), given := if x.given.contains i then x.given else i :: x.given }) })

/-- A signal route takes a raw field (R448, R450). -/
def takeSignal (s : State) (r : Nat) (w : BitVec 4608) (raw : Nat) : State :=
  let v := sigValue w raw
  let s := s.upRoute r (fun x => { x with y := v.1, event := some s.now, stale := false, saturated := x.saturated + (if v.2 then 1 else 0) })
  if dstLoop w then toLoop s w v.1 else s

/-- A signal route of one source event: its field, or the count of R447. -/
def feedRoute (bs : Bytes) (s : State) (p : Nat × BitVec 4608) : State :=
  match rawField bs (fld p.2 16 2) (fld p.2 18 1) (bitAt (fld p.2 3 1) 0) with
  | some raw => takeSignal s p.1 p.2 raw
  | none => s.upRoute p.1 (fun x => { x with ignored := x.ignored + 1 })

/-! ### Status words (Table 15-8) -/

def State.can (s : State) (c : Nat) : CanSt := tget {} s.net.can c
def State.upCan (s : State) (c : Nat) (f : CanSt → CanSt) : State := s.upNet (fun x => { x with can := tup {} x.can c f })
def State.eth (s : State) (p : Nat) : EthSt := tget {} s.net.eth p
def State.upEth (s : State) (p : Nat) (f : EthSt → EthSt) : State := s.upNet (fun x => { x with eth := tup {} x.eth p f })

/-- The state field of a CAN controller: off, bus-off, error-passive or error-active. -/
def canState (s : State) (c : Nat) : Nat :=
  let x := s.can c
  if canMode s.pwr.net c = 0 then 3 else if x.busOff then 2 else if 127 < x.tec ∨ 127 < x.rec_ then 1 else 0

/-- A status word (Table 15-8). -/
def gwStatus (s : State) (i : Nat) : Nat :=
  if i < 16 then
    let x := s.can i
    canState s i + 256 * min x.tec 255 + 65536 * min x.rec_ 255 + 16777216 * min x.entries 255
  else if i < 28 then
    let x := s.eth (i - 16)
    (if x.linkUp then 1 else 0) + 16 * ethMode s.pwr.net (i - 16) + 65536 * min x.fcs 65535
  else
    let b := s.tb (i - 28)
    b.st.toNat + 256 * wrapBits 24 (satField 24 true b.lastE)

/-! ### Frames (R444, R451, R452) -/

/-- The signal routes that feed a frame. -/
def feeders (s : State) (r : Nat) : List (Nat × BitVec 4608) :=
  (routes s).filter (fun p => isSignal p.2 && !dstLoop p.2 && fld p.2 22 2 == r)

/-- What a signal route puts into its frame, and whether it is fresh (R449, R450). -/
def feedValue (s : State) (p : Nat × BitVec 4608) : Int × Bool :=
  if fld p.2 1 1 = 4 then
    match rawField (leBytes 4 (gwStatus s (fld p.2 4 4))) (fld p.2 16 2) (fld p.2 18 1) (bitAt (fld p.2 3 1) 0) with
    | some raw => ((sigValue p.2 raw).1, true)
    | none => (substOf p.2, false)
  else if isStale s p.1 then (substOf p.2, false)
  else ((s.route p.1).y, true)

/-- The payload of a frame route at its send instant (R451, R453). -/
def snapshot (s : State) (r : Nat) (w : BitVec 4608) : Bytes :=
  let fs := feeders s r
  let bs := fs.foldl (fun bs p => putField bs (fld p.2 20 2) (fld p.2 19 1) (bitAt (fld p.2 3 1) 2) (feedValue s p).1) (zeros (fld w 4 2))
  let ok := fs.all (fun p => (feedValue s p).2) && !s.saf.curtain && !fs.isEmpty
  if fld w 6 2 = 0xFFFF then bs else putBit bs (fld w 6 2) ok

/-- The CAN frame of a payload (Table 15-6). -/
def canOf (w : BitVec 4608) (bs : Bytes) : CanFrame :=
  let id := fld w 16 4
  { id := BitVec.ofNat 29 id, ext := bitAt id 31, fd := bitAt id 30, brs := bitAt id 29, rtr := false, data := bs }

/-- A frame enters a CAN queue: in place of its route's waiting one (R444). -/
def enqueueCan (s : State) (c r : Nat) (f : CanFrame) : State :=
  let x := s.can c
  if canMode s.pwr.net c = 0 ∨ canMode s.pwr.net c = 3 then s
  else if x.queue.any (fun q => q.1 == some r) then
    s.upCan c (fun x => { x with replaced := x.replaced + 1, queue := x.queue.map (fun q => if q.1 = some r then (q.1, f) else q) })
  else if x.queue.length < 256 then s.upCan c (fun x => { x with queue := x.queue ++ [(some r, f)] })
  else s.upCan c (fun x => { x with dropped := x.dropped + 1 })

/-- A number as `n` bytes, most significant first. -/
def netBytes (n v : Nat) : Bytes := (leBytes n v).reverse

/-- The Ethernet header of a frame route. -/
def ethHeader (s : State) (w : BitVec 4608) (ethertype : Nat) : Bytes :=
  let tag := if bitAt (fld w 21 1) 7 then netBytes 2 0x8100 ++ netBytes 2 (8192 * (fld w 21 1 % 8) + fld w 22 2) else []
  leBytes 6 (fld w 24 6) ++ gwMac s.pwr.net ++ tag ++ netBytes 2 ethertype

/-- An NTSCF AVTPDU with one ACF CAN message (R452, IEEE 1722-2016). -/
def ntscf (w : BitVec 4608) (seq : Nat) (bs : Bytes) : Bytes :=
  let id := fld w 16 4
  let pad := (4 - bs.length % 4) % 4
  let flags := 64 * pad + (if bitAt id 31 then 8 else 0) + (if bitAt id 29 then 4 else 0) + (if bitAt id 30 then 2 else 0)
  let quads := (16 + bs.length + pad) / 4
  let acf := netBytes 2 (512 * 1 + quads) ++ [BitVec.ofNat 8 flags, BitVec.ofNat 8 (fld w 30 2 % 32)] ++ zeros 8 ++ netBytes 4 (id % 2 ^ 29) ++ bs ++ zeros pad
  [0x82] ++ netBytes 2 (32768 + acf.length) ++ [BitVec.ofNat 8 seq] ++ netBytes 8 (fld w 32 8) ++ acf

/-- Big-endian half words of a byte string, padded. -/
def halfWords : Bytes → List Nat
  | [] => []
  | [a] => [256 * a.toNat]
  | a :: b :: t => (256 * a.toNat + b.toNat) :: halfWords t

/-- The ones' complement sum of the Internet checksum. -/
def onesSum (hs : List Nat) : Nat := hs.foldl (fun c h => let v := c + h; v % 65536 + v / 65536) 0

def inetChecksum (hs : List Nat) : Nat := 65535 - onesSum hs

/-- UDP over IPv4 (R452): TTL 64, DF, checksums computed. -/
def udpPacket (s : State) (w : BitVec 4608) (bs : Bytes) : Bytes :=
  let src := gwIp s.pwr.net
  let dst := netBytes 4 (fld w 40 4)
  let ulen := 8 + bs.length
  let u0 := netBytes 2 (fld w 44 2) ++ netBytes 2 (fld w 30 2) ++ netBytes 2 ulen
  let usum := inetChecksum (halfWords (src ++ dst ++ [0, 17] ++ netBytes 2 ulen ++ u0 ++ [0, 0] ++ bs))
  let h0 := [0x45, BitVec.ofNat 8 (Config.ipField 0 s.free)] ++ netBytes 2 (20 + ulen) ++ netBytes 2 (Config.ipField 1 s.free) ++ [0x40, 0, 64, 17]
  h0 ++ netBytes 2 (inetChecksum (halfWords (h0 ++ src ++ dst))) ++ src ++ dst
    ++ u0 ++ netBytes 2 (if usum = 0 then 65535 else usum) ++ bs

/-! ### Egress (R432 to R434) -/

/-- The gates of a port in force: open classes as a bit mask. -/
def gatesOf (s : State) (p : Nat) : Nat :=
  match ethRec s.pwr.net p with
  | none => 0
  | some r =>
    if fieldOf r 22 2 = 0 ∨ (s.eth p).gclAt.isNone then 255
    else ((gclRec s.pwr.net (fieldOf r 20 2 + (s.eth p).gcl)).map (fun g => byteAt g 6)).getD 255

/-- Nanoseconds a frame takes on the wire, its preamble, FCS and gap included. -/
def wireNs (s : State) (p len : Nat) : Nat := (len + 24) * 8 * 1000000 / max 1 (modeKbps (ethMode s.pwr.net p))

/-- What is left of the entry in force (R434). -/
def gateLeft (s : State) (p : Nat) : Option Nat :=
  match ethRec s.pwr.net p, (s.eth p).gclAt with
  | some r, some t =>
    if fieldOf r 22 2 = 0 then none
    else (gclRec s.pwr.net (fieldOf r 20 2 + (s.eth p).gcl)).map (fun g => t + fieldOf g 8 4 - s.now)
  | _, _ => none

/-- A frame of a class can leave now: the gate is open, and it completes before the gate closes. -/
def mayLeave (s : State) (p cls len : Nat) : Bool :=
  bitAt (gatesOf s p) cls && (match gateLeft s p with
    | some ns => decide (wireNs s p len ≤ ns)
    | none => true)

/-- A field of a frame, most significant byte first. -/
def beField (bs : Bytes) (off len : Nat) : Nat := leNat ((bs.drop off).take len).reverse

/-- The entry of NetSt.syncRx for a port and domain. -/
def syncKey (p dom : Nat) : Nat := 256 * p + dom

/-- The four time bases at an instant as a stamp latches them, each within `tol` ns of its value (R435, R442). -/
def stamps (s : State) (tol t : Nat) : List Int :=
  (List.range 4).map (fun n => (s.tb n).nsAt t + (((Config.freeByte s.free n).toNat % (2 * tol + 1) : Nat) : Int) - tol)

/-- Nanoseconds of a port's bytes on the MII boundary. -/
def bytesNs (s : State) (p len : Nat) : Nat := len * 8000000 / max 1 (modeKbps (ethMode s.pwr.net p))

/-- A frame whose last byte before the FCS arrives now is stamped as its start-frame delimiter passed (R435). -/
def stampRx (s : State) (p len : Nat) : State :=
  let t := stamps s 4 (s.now - bytesNs s p (len + 4))
  { (s.upEth p (fun e => { e with rxStamp := t })) with free := s.free + 1 }

/-- A frame that starts now is stamped as its start-frame delimiter passes (R435). -/
def stampTx (s : State) (p : Nat) : State :=
  let t := stamps s 4 (s.now + bytesNs s p 8)
  { (s.upEth p (fun e => { e with txStamp := t })) with free := s.free + 1 }

/-- A Follow_Up with the peer delay and the residence time added to its correction field (R435): the residence time is the
difference of the Sync's two stamps on the domain's own time base. -/
def corrected (f : FollowUp) (tx : Int) : Bytes :=
  let old := signed 64 (beField f.msg 8 8)
  f.msg.take 8 ++ netBytes 8 (wrapBits 64 (old + 65536 * (f.delay + (tx - f.rx)))) ++ f.msg.drop 16

/-- A gPTP message as the management port sends it on a port. -/
def ptpFrame (s : State) (p : Nat) (msg : Bytes) : Bytes :=
  netBytes 6 0x0180C200000E ++ (((ethRec s.pwr.net p).getD []).drop 8).take 6 ++ netBytes 2 0x88F7 ++ msg

/-- A frame leaves its port with its stamp, and its Follow_Up is queued; one with a granule that fails its check is not sent
and counted (R70). -/
def leaveEth (s : State) (p : Nat) (x : EthOut) : State :=
  let s := s.upEth p (fun e => { e with queue := e.queue.erase x })
  if ¬ x.good then reportCheckOf (s.upEth p (fun e => { e with unsent := e.unsent + 1 })) .b midSwitch 0 false
  else
    let s := (stampTx s p).emit (.ethFrame (Fin.ofNat 12 p) x.data false)
    match x.follow with
    | none => s
    | some f => s.upEth p (fun e => { e with queue := e.queue ++ [{ cls := x.cls, data := ptpFrame s p (corrected f (e.txStamp.getD f.dom 0)) }] })

/-- Waiting frames leave a port: the highest class first, within a class in order. -/
def drainEth : Nat → State → Nat → State
  | 0, s, _ => s
  | n + 1, s, p =>
    let q := (s.eth p).queue
    let best := [7, 6, 5, 4, 3, 2, 1, 0].findSome? (fun c => match q.find? (fun x => x.cls == c) with
      | some x => if mayLeave s p c x.data.length then some x else none
      | none => none)
    match best with
    | none => s
    | some x => drainEth n (leaveEth s p x) p

/-- Every frame that can leave a port leaves, the Follow_Ups that this queues among them. -/
def drainPort (s : State) (p : Nat) : State := drainEth (2 * (s.eth p).queue.length) s p

/-- A frame goes to an egress port. -/
def queueEth (s : State) (p : Nat) (x : EthOut) : State :=
  if ethMode s.pwr.net p = 0 ∨ ¬ (s.eth p).linkUp then s.upEth p (fun e => { e with drops := e.drops + 1 })
  else drainPort (s.upEth p (fun e => { e with queue := e.queue ++ [x] })) p

/-- A frame of the device's own goes to an egress port in a class. -/
def sendEth (s : State) (p cls : Nat) (bs : Bytes) : State := queueEth s p { cls := cls, data := bs }


/-- A frame route is sent (R444, R451 to R453). -/
def sendFrame (s : State) (r : Nat) : State :=
  let w := routeSet s r
  if ¬ isFrame w ∨ (s.saf.curtain ∧ fld w 6 2 = 0xFFFF) ∨ (s.route r).sent = some s.now then s
  else
    let bs := snapshot s r w
    let seq := (s.route r).seq
    let s := s.upRoute r (fun x => { x with sent := some s.now, due := none, seq := x.seq + 1 })
    if fld w 1 1 = 0 then enqueueCan s (fld w 20 1) r (canOf w bs)
    else if fld w 1 1 = 1 then sendEth s (fld w 20 1) (fld w 21 1 % 8) (ethHeader s w 0x22F0 ++ ntscf w seq bs)
    else
      let t := sendEth s (fld w 20 1) (fld w 21 1 % 8) (ethHeader s w 0x0800 ++ udpPacket s w bs)
      { t with free := t.free + 1 }

/-- An ON_UPDATE trigger of a frame route (R451). -/
def triggerFrame (s : State) (r : Nat) : State :=
  let w := routeSet s r
  if ¬ isFrame w ∨ ¬ bitAt (fld w 2 1) 1 then s
  else match (s.route r).sent with
    | none => sendFrame s r
    | some t =>
      if t + 1000 * fld w 12 4 ≤ s.now then sendFrame s r
      else s.upRoute r (fun x => { x with due := some (t + 1000 * fld w 12 4) })

/-- One source event: every signal route it feeds, as one step, then the frames it triggers (R449, R451). -/
def sourceEvent (s : State) (bs : Bytes) (p : Nat × BitVec 4608 → Bool) : State :=
  let rs := (routes s).filter (fun x => isSignal x.2 && p x)
  let s := rs.foldl (feedRoute bs) s
  let inside (x : Nat × BitVec 4608) : Bool := (rawField bs (fld x.2 16 2) (fld x.2 18 1) (bitAt (fld x.2 3 1) 0)).isSome
  ((rs.filter (fun x => !dstLoop x.2 && inside x)).map (fun x => fld x.2 22 2)).eraseDups.foldl triggerFrame s

/-- A sample of a loop's output is a source event; without VALID it makes its routes stale (R449, R462). -/
def loopEvent (s : State) (l o : Nat) (v : Int) (valid : Bool) : State :=
  let p (x : Nat × BitVec 4608) : Bool := fld x.2 1 1 == 3 && fld x.2 4 4 % 32 == l && bits (fld x.2 4 4) 7 5 == o
  if valid then sourceEvent s (leBytes 4 (wrapBits 32 v)) p
  else ((routes s).filter (fun x => isSignal x.2 && p x)).foldl (fun s x =>
    let s := s.upRoute x.1 (fun y => { y with stale := true })
    if dstLoop x.2 then toLoop s x.2 (substOf x.2) else s) s

/-- Periodic frames of a beat (R451). -/
def sendPeriodic (s : State) (b : Nat) : State :=
  ((routes s).filter (fun x => isFrame x.2 && bitAt (fld x.2 2 1) 0 &&
    decide (((b : Int) - (fld x.2 10 2 : Int)) % (fld x.2 8 2 : Int) = 0))).foldl (fun s x => sendFrame s x.1) s

/-- A route's group applies: stale until its first event (R450). -/
def applyRoute (s : State) (r : Nat) : State := s.upRoute r (fun _ => {})

/-! ### Rules of the tables (R445, R446) -/

/-- The byte of the lowest set bit from `lo` to `hi` of the field at byte `off`: bits its table does not name (R8). -/
def spareBit (w : BitVec 4608) (off lo hi : Nat) : Option Nat :=
  ((List.range (hi + 1 - lo)).find? (fun i => w.getLsbD (8 * off + lo + i))).map (fun i => off + (lo + i) / 8)

/-- The bits of a signal route's SRC_ID and SRC_STREAM that Table 15-7 does not name. -/
def spareSource (w : BitVec 4608) : Option Nat :=
  let kind := fld w 1 1
  if kind ≤ 1 then spareBit w 4 29 30 else if kind = 2 then spareBit w 8 32 63 else if kind = 3 then spareBit w 4 8 31 else none

/-- The rules of a frame route (Table 15-6): whether the failing field is reserved, and its offset. -/
def frameErr (w : BitVec 4608) : Option (Bool × Nat) :=
  let kind := fld w 1 1
  let len := fld w 4 2
  let lens := [0, 1, 2, 3, 4, 5, 6, 7, 8, 12, 16, 20, 24, 32, 48, 64]
  if 2 < kind then some (false, 1)
  else if 3 < fld w 2 1 then some (true, 2)
  else if fld w 2 1 = 0 then some (false, 2)
  else if 3 < fld w 3 1 then some (false, 3)
  else if (if kind = 2 then ¬ inRange 1 len 256 else ¬ lens.contains len ∨ (¬ bitAt (fld w 16 4) 30 ∧ 8 < len)) then some (false, 4)
  else if (if fld w 6 2 = 0xFFFF then fld w 3 1 ≠ 0 else 8 * len ≤ fld w 6 2) then some (false, 6)
  else if ¬ inRange 1 (fld w 8 2) 1024 then some (false, 8)
  else if fld w 8 2 ≤ fld w 10 2 then some (false, 10)
  else if 1000000 < fld w 12 4 then some (false, 12)
  else if ¬ bitAt (fld w 16 4) 31 ∧ 2048 ≤ fld w 16 4 % 2 ^ 29 then some (false, 16)
  else if (if kind = 0 then 15 else 11) < fld w 20 1 then some (false, 20)
  else if bits (fld w 21 1) 6 3 ≠ 0 then some (true, 21)
  else if bitAt (fld w 21 1) 7 ∧ ¬ inRange 1 (fld w 22 2) 4094 then some (false, 22)
  else if kind = 1 ∧ (spareBit w 30 5 15).isSome then (spareBit w 30 5 15).map (fun o => (true, o))
  else if fld w 46 18 ≠ 0 then some (true, 46)
  else none

/-- The rules of a signal route (Table 15-7). -/
def signalErr (w : BitVec 4608) : Option (Bool × Nat) :=
  let kind := fld w 1 1
  let lp := dstLoop w
  if 4 < kind then some (false, 1)
  else if (if kind = 0 then 15 < fld w 2 1 else if kind = 1 then 31 < fld w 2 1 else if kind = 2 then 11 < fld w 2 1 ∧ fld w 2 1 ≠ 255 else fld w 2 1 ≠ 0) then some (false, 2)
  else if 32 ≤ fld w 3 1 then some (true, 3)
  else if (spareSource w).isSome then (spareSource w).map (fun o => (true, o))
  else if (if kind ≤ 1 then ¬ bitAt (fld w 4 4) 31 ∧ 2048 ≤ fld w 4 4 else if kind = 2 then 65536 ≤ fld w 4 4
    else kind = 4 ∧ 31 < fld w 4 4) then some (false, 4)
  else if ¬ inRange 1 (fld w 18 1) 64 then some (false, 18)
  else if ¬ inRange 1 (fld w 19 1) (if lp then 32 else 64) then some (false, 19)
  else if (if lp then 256 else 4096) ≤ fld w 22 2 then some (false, 22)
  else if 63 < fld w 28 1 then some (false, 28)
  else if fld w 29 3 ≠ 0 then some (true, 29)
  else if fld w 48 4 ≠ 0 ∧ ¬ inRange 100 (fld w 48 4) 10000000 then some (false, 48)
  else if fld w 52 12 ≠ 0 then some (true, 52)
  else none

/-- The rules of a route alone (R445). -/
def routeErr (w : BitVec 4608) : Option (Bool × Nat) :=
  if fld w 0 1 = 0 then (if fld w 1 63 = 0 then none else ((List.range 63).map (· + 1)).findSome? (fun i => if fld w i 1 = 0 then none else some (true, i)))
  else if fld w 0 1 = 1 then frameErr w
  else if fld w 0 1 = 2 then signalErr w
  else some (false, 0)

/-- The bits of a frame that a signal route writes. -/
def dstBits (w : BitVec 4608) (len : Nat) : Option (List Nat) := fieldBits (fld w 20 2) (fld w 19 1) (bitAt (fld w 3 1) 2) (8 * len)

/-- A signal route against its frame (R446). -/
def feedsWell (all : List (Nat × BitVec 4608)) (owner : Nat → SliceId) (p : Nat × BitVec 4608) : Bool :=
  if dstLoop p.2 then true
  else match all.find? (fun f => f.1 == fld p.2 22 2) with
    | none => false
    | some f => isFrame f.2 && owner (f.1 / 256) == owner (p.1 / 256) && (match dstBits p.2 (fld f.2 4 2) with
      | none => false
      | some ps => !ps.contains (fld f.2 6 2) &&
        all.all (fun q => q.1 == p.1 || !isSignal q.2 || dstLoop q.2 || fld q.2 22 2 != f.1 || (match dstBits q.2 (fld f.2 4 2) with
          | some qs => ps.all (fun b => !qs.contains b)
          | none => true)))

/-- The committed routes, as a commit would leave them, pass R446. -/
def routesOk (all : List (Nat × BitVec 4608)) (owner : Nat → SliceId) : Bool :=
  (all.filter (fun p => isSignal p.2)).all (feedsWell all owner) &&
  decide ((((all.filter (fun p => isFrame p.2)).map (fun p => (fld p.2 4 2 + 7) / 8 * 8)).foldl (· + ·) 0) ≤ 524288)

end Sys2Proof.Machine
end

