-- ==== Sys2Proof/Machine/LoopOps.lean ====
section
/-! DEFINITION. The control engine's loops: structures, stages, samples, supervision and tuning (R454 to R470). -/

namespace Sys2Proof.Machine

def State.loop (s : State) (l : Nat) : LoopSt := tget {} s.ctl.loops l
def State.upLoop (s : State) (l : Nat) (f : LoopSt → LoopSt) : State := s.upCtl (fun c => { c with loops := tup {} c.loops l f })

/-- The committed structure of loop l (Table 16-1). -/
def loopSet (s : State) (l : Nat) : BitVec 4608 := committed s 9 l

/-! ### Fields of Table 16-1 -/

def lpEnabled (w : BitVec 4608) : Bool := bitAt (fld w 0 1) 0
def lpInternal (w : BitVec 4608) : Bool := bitAt (fld w 0 1) 1
def lpSide (w : BitVec 4608) : Nat := bits (fld w 0 1) 2 2
def lpClass (w : BitVec 4608) : Nat := fld w 1 1
def lpStages (w : BitVec 4608) : Nat := fld w 2 1
def lpPeriod (w : BitVec 4608) : Nat := fld w 6 2
def lpOffset (w : BitVec 4608) : Nat := fld w 8 2
def lpSubdiv (w : BitVec 4608) : Nat := fld w 10 1
def lpInt (w : BitVec 4608) (off : Nat) : Int := signed 32 (fld w off 4)
def lpOutMin (w : BitVec 4608) : Int := lpInt w 20
def lpOutMax (w : BitVec 4608) : Int := lpInt w 24
def lpSafeOut (w : BitVec 4608) : Int := lpInt w 28
def lpLo (w : BitVec 4608) (k : Nat) : Int := lpInt w (128 + 8 * k)
def lpHi (w : BitVec 4608) (k : Nat) : Int := lpInt w (132 + 8 * k)
def lpWord (w : BitVec 4608) (k : Nat) : BitVec 128 := BitVec.ofNat 128 (fld w (192 + 16 * k) 16)

/-! ### Stage words (Table 16-2) -/

def swType (x : BitVec 128) : Nat := bits (fld x 0 1) 2 0
def swOrder (x : BitVec 128) : Nat := bits (fld x 0 1) 4 3 + 1
def swSet (x : BitVec 128) : Nat := bits (fld x 0 1) 7 5
def swE (x : BitVec 128) : Nat := fld x 1 1
def swM (x : BitVec 128) (i : Nat) : Int := signed 16 (fld x (2 + 2 * i) 2)

/-- Mantissas that a word of a TYPE may use (Table 16-3); `q` is the order of its state-space stage. -/
def swUsed (x : BitVec 128) (q : Nat) : Nat :=
  match swType x with
  | 1 => 1
  | 2 => 4
  | 3 => 5
  | 4 => swOrder x + 3
  | _ => q + 2

/-- A stage word is valid in itself; a row is judged with the order of its stage (R456). -/
def wordOk (x : BitVec 128) (q : Nat) : Bool :=
  let t := swType x
  decide (1 ≤ t) && decide (t ≤ 5) && (t == 4 || swOrder x == 1) && (t == 4 || t == 5 || swSet x == 0) &&
  ((List.range 7).drop (swUsed x q)).all (fun i => swM x i == 0)

/-- The stages of a chain of words: the slot of each head with its number of slots; `none` when the words break
R456. -/
def stagesFrom (ws : List (BitVec 128)) : Nat → Nat → Option (List (Nat × Nat))
  | 0, _ => some []
  | fuel + 1, k => match ws[k]? with
    | none => some []
    | some x =>
      let q := if swType x = 4 then swOrder x else 1
      let rows := (List.range (q - 1)).map (fun j => ws[k + 1 + j]?)
      if wordOk x q ∧ swType x ≠ 5 ∧ rows.all (fun r => match r with
        | some y => swType y == 5 && wordOk y q
        | none => false) then (stagesFrom ws fuel (k + q)).map ((k, q) :: ·)
      else none

def stagesOf (ws : List (BitVec 128)) : Option (List (Nat × Nat)) := stagesFrom ws ws.length 0

/-- The words of a structure, slot by slot. -/
def lpWords (w : BitVec 4608) : List (BitVec 128) := (List.range (lpStages w)).map (lpWord w)

/-! ### Arithmetic (R457): coefficients times Q31.16 are exact at scale 2^-158 -/

/-- A coefficient times a Q31.16 value. -/
def coeff (x : BitVec 128) (i : Nat) (v : Int) : Int := swM x i * v * 2 ^ swE x

/-- A Q31.16 value at scale 2^-158. -/
def lift (v : Int) : Int := v * 2 ^ 142

/-- q(): to Q31.16, saturated to 48 bits, and whether it saturated. -/
def qOf (x : Int) : Int × Bool := satS 48 (rneDiv x (2 ^ 142))

/-- r(): to an integer. -/
def rOf (x : Int) : Int := rneDiv x (2 ^ 158)

/-- A stage's output, its new state, how many values were saturated and whether a PID integrator was. -/
structure StageOut where
  y : Int
  st : List Int
  sats : Nat
  iClamped : Bool

def countSat (bs : List Bool) : Nat := (bs.filter id).length

/-- One stage of R457: its words, limits, state and input. -/
def evalStage (ws : List (BitVec 128)) (lo hi : Int) (st : List Int) (u : Int) : StageOut :=
  let x := ws.headD 0
  let uq := u * 65536
  let at_ (i : Nat) : Int := st.getD i 0
  match swType x with
  | 1 =>
    let y := clampTo lo hi (rOf (coeff x 0 uq))
    { y := y.1, st := [], sats := countSat [y.2], iClamped := false }
  | 2 =>
    let i0 := qOf (lift (at_ 0) + coeff x 1 uq)
    let i := clampTo (lo * 65536) (hi * 65536) i0.1
    let d := qOf (coeff x 3 (at_ 1) + coeff x 2 (uq - at_ 2 * 65536))
    let y := clampTo lo hi (rOf (coeff x 0 uq + lift i.1 + lift d.1))
    { y := y.1, st := [i.1, d.1, u], sats := countSat [i0.2, i.2, d.2, y.2], iClamped := i.2 }
  | 3 =>
    let y := clampTo lo hi (rOf (coeff x 0 uq + lift (at_ 0)))
    let s1 := qOf (coeff x 1 uq - coeff x 3 (y.1 * 65536) + lift (at_ 1))
    let s2 := qOf (coeff x 2 uq - coeff x 4 (y.1 * 65536))
    { y := y.1, st := [s1.1, s2.1], sats := countSat [y.2, s1.2, s2.2], iClamped := false }
  | _ =>
    let q := ws.length
    let sum (f : Nat → Int) : Int := ((List.range q).map f).foldl (· + ·) 0
    let y := clampTo lo hi (rOf (sum (fun j => coeff (ws.getD j 0) (q + 1) (at_ j)) + coeff x (q + 2) uq))
    let xn := (List.range q).map (fun j => qOf (sum (fun k => coeff (ws.getD j 0) k (at_ k)) + coeff (ws.getD j 0) q uq))
    { y := y.1, st := xn.map (·.1), sats := countSat (y.2 :: xn.map (·.2)), iClamped := false }

/-- The chain of R457: the last output, the states by head slot, the outputs by slot, saturations, and
whether an integrator was clamped. -/
structure ChainOut where
  y : Int
  states : Tbl (List Int)
  outs : Tbl Int
  sats : Nat
  iClamped : Bool

def evalChain (w : BitVec 4608) (words : Tbl (BitVec 128)) (u : Int) (states : Tbl (List Int)) : ChainOut :=
  let all := (List.range (lpStages w)).map (tget 0 words)
  ((stagesOf all).getD []).foldl (fun c p =>
    let r := evalStage ((all.drop p.1).take p.2) (lpLo w p.1) (lpHi w p.1) (tget [] c.states p.1) c.y
    { y := r.y
      states := tset [] c.states p.1 r.st
      outs := (List.range p.2).foldl (fun t j => tset 0 t (p.1 + j) r.y) c.outs
      sats := c.sats + r.sats
      iClamped := c.iClamped || r.iClamped })
    { y := u, states := states, outs := [], sats := 0, iClamped := false }

/-! ### Sample instants (R459) -/

/-- Length of beat b of a cue of length `len` in `n` beats of B. -/
def beatLen (len bt n b : Nat) : Nat := if b + 1 < n then bt else len - (n - 1) * bt

/-- A loop samples in beat b. -/
def samplesIn (w : BitVec 4608) (b : Nat) : Bool := decide (((b : Int) - (lpOffset w : Int)) % (lpPeriod w : Int) = 0)

/-- The sample that a loop takes at an offset into the cue: its index within the cue. -/
def sampleAt (w : BitVec 4608) (len bt n off : Nat) : Option Nat :=
  let b := min (off / bt) (n - 1)
  let step := beatLen len bt n b / lpSubdiv w
  let r := off - b * bt
  if ¬ samplesIn w b ∨ step = 0 ∨ r % step ≠ 0 ∨ lpSubdiv w ≤ r / step then none
  else some (((List.range b).filter (samplesIn w)).length * lpSubdiv w + r / step)

/-- Offsets of every sample of a loop in a cue. -/
def sampleOffsets (w : BitVec 4608) (len bt n : Nat) : List Nat :=
  ((List.range n).filter (samplesIn w)).flatMap (fun b => (List.range (lpSubdiv w)).map (fun i => b * bt + i * (beatLen len bt n b / lpSubdiv w)))

/-- The loops in the order of evaluation: higher CLASS, then lower index (R460). -/
def loopOrder (ls : List (Nat × BitVec 4608)) : List (Nat × BitVec 4608) :=
  [3, 2, 1, 0].flatMap (fun c => ls.filter (fun p => lpClass p.2 == c))

/-- Every committed and enabled loop, by index. -/
def enabledLoops (s : State) : List (Nat × BitVec 4608) :=
  ((List.range 32).map (fun l => (l, loopSet s l))).filter (fun p => lpEnabled p.2)

/-! ### Admission (R460) -/

/-- S of a loop at an offset: its own slots and those of the loops before it at the same instant. -/
def slotsBefore (ls : List (Nat × BitVec 4608)) (l len bt n off : Nat) : Nat :=
  let order := (loopOrder ls).filter (fun p => (sampleAt p.2 len bt n off).isSome)
  let mine := (order.filter (fun p => p.1 == l)).map (fun p => lpStages p.2)
  ((order.takeWhile (fun p => p.1 != l)).map (fun p => lpStages p.2) ++ mine).foldl (· + ·) 0

/-- The least gap of a list of rising instants, the cue's repetition included. -/
def minGap (len : Nat) : List Nat → Nat
  | [] => len
  | t :: ts => (List.zipWith (fun a b => b - a) (t :: ts) (ts ++ [t + len])).foldl min len

/-- The delivery bound of a loop's sample, in ns (R460), with `extra` added. -/
def deliveryBound (ls : List (Nat × BitVec 4608)) (l len bt n off extra : Nat) : Nat := 1000 + 2500 * slotsBefore ls l len bt n off + extra

/-- Slots evaluated in a cue. -/
def slotsPerCue (ls : List (Nat × BitVec 4608)) (p bt n : Nat) : Nat :=
  (ls.map (fun x => lpStages x.2 * (sampleOffsets x.2 p bt n).length)).foldl (· + ·) 0

/-- The slots per second of some loops stay within a share. -/
def shareOk (ls : List (Nat × BitVec 4608)) (p bt limit : Nat) : Bool :=
  decide (slotsPerCue ls p bt (max 1 (p / bt)) * 1000000000 ≤ limit * p)

/-- A set of enabled loops is admitted under R460 at period P and beat B; a slewed cue is the shortest. -/
def admitted (ls : List (Nat × BitVec 4608)) (p bt : Nat) (split : Bool) : Bool :=
  let n := max 1 (p / bt)
  let short := p - slewStep p
  let side (k : Nat) := if split then ls.filter (fun x => lpSide x.2 == k) else ls
  ls.all (fun x =>
    let offs := sampleOffsets x.2 short bt n
    decide (20000 ≤ (bt - slewStep p) / lpSubdiv x.2) &&
    offs.all (fun o => decide (deliveryBound (side (lpSide x.2)) x.1 short bt n o 0 < minGap short offs))) &&
  (if split then shareOk (side 0) p bt 200000 && shareOk (side 1) p bt 200000 else shareOk ls p bt 400000)

/-- The period and beat that admission is judged by: those in force, else the committed CUE set's. -/
def loopTiming (s : State) : Nat × Nat :=
  if s.cue.period ≠ 0 then (s.cue.period, s.cue.beat) else (fld (committed s 1 0) 0 4, fld (committed s 1 0) 4 4)

/-! ### Inputs (R454, R459) -/

/-- Input i of loop l: gateway deliveries from the state `s0` of the instant, loop outputs as they stand. -/
def loopInput (s0 s : State) (l : Nat) (w : BitVec 4608) (i : Nat) : Int :=
  let src := fld w (32 + 8 * i) 1
  let sel := fld w (33 + 8 * i) 1
  let value := lpInt w (36 + 8 * i)
  if src = 0 then (if (s0.loop l).given.contains i then tget 0 (s0.loop l).ins i else value)
  else if src = 1 then value
  else if src = 2 then (if (s.loop (sel % 32)).sampled then tget 0 (s.loop (sel % 32)).outs (sel / 32) else value)
  else sensorOf s0 sel

/-- REF_IN or FB_IN (Table 16-1). -/
def loopRef (s0 s : State) (l : Nat) (w : BitVec 4608) (off : Nat) : Int :=
  if bitAt (fld w off 1) 7 then 0 else loopInput s0 s l w (fld w off 1 % 8)

/-! ### Conditions (Table 16-5, R463) -/

/-- The control engine is a non-safety path under R413. -/
def ceUntrusted (s : State) : Bool := bitAt s.saf.nonSafety.toNat 3

/-- The loop is in SAFE: a trip, or for a vehicle-class loop the curtain or a degraded engine. -/
def loopSafe (s : State) (l : Nat) (w : BitVec 4608) : Bool :=
  (s.loop l).tripped || (!lpInternal w && (s.saf.curtain || s.ctl.degraded))

/-- VALID (R463). -/
def loopValid (s : State) (l : Nat) (w : BitVec 4608) : Bool :=
  !loopSafe s l w && !s.saf.curtain && !ceUntrusted s && !s.ctl.degraded

/-- The status word (Table 16-4). -/
def loopStatus (s : State) (l : Nat) (w : BitVec 4608) (iClamped outClamped : Bool) : Nat :=
  let b (i : Nat) (c : Bool) : Nat := if c then 2 ^ i else 0
  b 0 (loopValid s l w) + b 1 (loopSafe s l w) + b 2 (s.loop l).tripped + b 3 outClamped + b 4 iClamped +
  b 5 ((s.loop l).tuning.isSome) + b 6 s.ctl.split + b 7 s.saf.curtain

/-- Notice 0x0015 (R464). -/
def loopNotice (s : State) (n : SliceId) (l ev : Nat) : State :=
  notify s n 0x15 1 (payload [(0, 1, l), (1, 1, ev), (4, 4, s.cue.count.toNat)])

/-- INTERNAL_DST of an internal loop receives a value (R461, R495, R496). -/
def driveInternal (s : State) (w : BitVec 4608) (v : Int) : State :=
  let dst := fld w 96 1
  if ¬ lpEnabled w ∨ ¬ lpInternal w then s
  else if dst = 1 then s.upCtl (fun c => { c with pump := some v })
  else if dst = 2 then s.upCtl (fun c => { c with cap := some v })
  else s

/-! ### Tuning (R468 to R470) -/

def int32Bytes (v : Int) : Bytes := leBytes 4 (wrapBits 32 v)

/-- A rational above zero as the smallest exponent code whose mantissas all fit 16 bits (R47). -/
def codeFor (xs : List (Nat × Nat)) : Nat :=
  ((List.range 256).find? (fun e => xs.all (fun x => decide (rneScaleQ x.1 x.2 e ≤ 32767)))).getD 255
where
  /-- rne of (a / b) × 2^(142 - e). -/
  rneScaleQ (a b e : Nat) : Int := if e ≤ 142 then rneDiv (a * 2 ^ (142 - e)) b else rneDiv a (b * 2 ^ (e - 142))

def mantFor (x : Nat × Nat) (e : Nat) : Int := min 32767 (codeFor.rneScaleQ x.1 x.2 e)

/-- π as a rational number. -/
def piNum : Nat := 314159265358979323846264338327950288
def piDen : Nat := 10 ^ 35

/-- The mean period of the last four cycles, in 1/16 sample. -/
def relayPeriod (t : Tuning) : Nat :=
  let k := min 4 (t.ups.length - 1)
  (rneDiv (16 * ((t.ups.headD 0 : Int) - (t.ups.getD k 0 : Int))) (max 1 k)).toNat

/-- Half the peak-to-peak of e over the last four cycles. -/
def relayAmpl (t : Tuning) : Nat :=
  let k := min 4 (t.ups.length - 1)
  let es := (t.es.filter (fun p => decide (t.ups.getD k 0 ≤ p.1))).map (·.2)
  let hi := es.foldl max (es.headD 0)
  let lo := es.foldl min (es.headD 0)
  (rneDiv (hi - lo) 2).toNat

/-- The record of Table 16-7. -/
def relayRecord (t : Tuning) (status : Nat) : Bytes :=
  let cycles := t.ups.length - 1
  if status ≠ 0 then leBytes 2 (status + 256 * (cycles % 256)) ++ zeros 30
  else
    let per := relayPeriod t
    let a := max 1 (relayAmpl t)
    let ku := (4 * fld t.w 36 4 * piDen, piNum * a)
    let kp := (6 * ku.1, 10 * ku.2)
    let ki := (12 * 16 * ku.1, 10 * ku.2 * max 1 per)
    let kd := (75 * ku.1 * per, 1000 * ku.2 * 16)
    let e1 := codeFor [ku]
    let e2 := codeFor [kp, ki, kd]
    let h (v : Int) : Bytes := leBytes 2 (wrapBits 16 v)
    leBytes 2 (256 * (cycles % 256)) ++ zeros 2 ++ leBytes 4 per ++ leBytes 4 a ++ h (mantFor ku e1) ++ leBytes 2 e1 ++
      leBytes 2 (2 + 256 * e2) ++ h (mantFor kp e2) ++ h (mantFor ki e2) ++ h (mantFor kd e2) ++ zeros 8

/-- A tuning ends with a STATUS of Table 16-7: its results are written, the notice sent, the command completed. -/
def endTuning (s : State) (l status : Nat) : State :=
  match (s.loop l).tuning with
  | none => s
  | some t =>
    let bs := if t.relay then relayRecord t status else t.recs.reverse.flatMap (fun r => r.flatMap int32Bytes)
    let s := writeBy s midControl t.slice (.slice t.slice) t.dest bs
    let s := realTimeAccess s midControl (lpClass (loopSet s l)) t.slice true t.dest bs.length
    let s := s.upLoop l (fun x => { x with tuning := none, mode := if x.tripped then .safe else if x.mode = .tune then .run else x.mode })
    let s := loopNotice s (ownerSlice s 3 l) l 3
    ((s.slice t.slice).flight.filter (fun f => f.wait = .tune (BitVec.ofNat 5 l))).foldl
      (fun s f => complete s t.slice f 0 0 (if t.relay then 0 else BitVec.ofNat 128 t.recs.length)) s

/-- Every tuning ends with STATUS 2 (R468: the curtain). -/
def endTunings (s : State) : State := (List.range 32).foldl (fun s l => endTuning s l 2) s

/-- The injected value of sample n and the next phi (R469). -/
def injection (l : Nat) (t : Tuning) : Int × Nat :=
  let amp := signed 32 (fld t.w 4 4)
  if fld t.w 0 1 = 0 then
    let inc := (fld t.w 12 4 : Int) + Int.tdiv (((fld t.w 16 4 : Int) - (fld t.w 12 4 : Int)) * t.n) (fld t.w 8 4)
    let arg := (resultF fp32 false (.fin false t.phi (-32))).1
    let w := match decodeF fp32 (trans32 0x50 arg) with
      | .fin neg m e => rneScale (amp * (if neg then -(m : Int) else (m : Int))) e
      | _ => 0
    (w, wrapBits 32 ((t.phi : Int) + inc))
  else (if 2147483648 ≤ diceNat (fld t.w 24 8) l (t.n / fld t.w 20 1) then amp else -amp, t.phi)

/-- What a relay sets u_out to, before its saturation (R470). -/
def relayOut (t : Tuning) (e : Int) : Int :=
  let u0 := signed 32 (fld t.w 32 4)
  let h : Int := fld t.w 36 4
  let eps : Int := fld t.w 40 4
  if eps < e then u0 + h else if e < -eps then u0 - h else t.last

/-- The relay's bookkeeping after a sample, and the STATUS with which it ends. -/
def relayNext (t : Tuning) (e u : Int) : Tuning × Option Nat :=
  let up := decide (t.last < u)
  let t := { t with n := t.n + 1, last := u, ups := if up then t.n :: t.ups else t.ups, es := (t.n, e) :: t.es }
  if fld t.w 44 1 < t.ups.length then (t, some 0)
  else if fld t.w 8 4 ≤ t.n then (t, some 1)
  else (t, none)

/-! ### Coefficient words (R465 to R467) -/

/-- The rows of a state-space stage apply together once they share a SET that is not the one in use. -/
def applyRows (w : BitVec 4608) (x : LoopSt) : LoopSt :=
  let n := lpStages w
  let all := (List.range n).map (tget 0 x.written)
  ((stagesOf all).getD []).foldl (fun x p =>
    let rows := (List.range p.2).map (fun j => tget 0 x.written (p.1 + j))
    let take := { x with words := (List.range p.2).foldl (fun t j => tset 0 t (p.1 + j) (tget 0 x.written (p.1 + j))) x.words }
    if swType (rows.headD 0) ≠ 4 then take
    else if rows.all (fun r => swSet r == swSet (rows.headD 0)) && swSet (rows.headD 0) != swSet (tget 0 x.words p.1) then take
    else x) x

/-- LOOP_COEFF words that have reached the engine 2 us before the sample take effect, in their order. -/
def applyCoeffs (s : State) (l : Nat) (w : BitVec 4608) (idx : Nat) : State :=
  let x := s.loop l
  let now := x.coeffs.takeWhile (fun c => decide (c.at_ + 2000 ≤ s.now))
  let s := s.upLoop l (fun x => { x with coeffs := x.coeffs.drop now.length, written := now.foldl (fun t c => tset 0 t c.stage c.word) x.written })
  let s := s.upLoop l (applyRows w)
  now.foldl (fun s c => complete s c.slice { tag := c.tag, pos := c.pos, op := 0x0906, wait := .commit } 0 0
    (BitVec.ofNat 128 (s.cue.count.toNat + 2 ^ 64 * idx))) s

/-! ### Applying a structure (R458) -/

/-- The states are set to zero: RESET_STATE, or a change of STAGES or of a slot's TYPE or order. -/
def statesReset (old new : BitVec 4608) : Bool :=
  bitAt (fld new 0 1) 3 || lpStages old != lpStages new ||
  (List.range (lpStages new)).any (fun k => swType (lpWord old k) != swType (lpWord new k) || swOrder (lpWord old k) != swOrder (lpWord new k))

/-- Words that can no longer take effect complete with REFUSED. -/
def dropCoeffs (s : State) (l : Nat) : State :=
  let cs := (s.loop l).coeffs
  cs.foldl (fun s c => complete s c.slice { tag := c.tag, pos := c.pos, op := 0x0906, wait := .commit } stRefused 0 0)
    (s.upLoop l (fun x => { x with coeffs := [] }))

/-- A LOOP set applies (R454, R458); `old` is the set before it. -/
def applyLoop (s : State) (l : Nat) (old new : BitVec 4608) : State :=
  let reset := statesReset old new
  let ws := (lpWords new).zipIdx.foldl (fun t p => tset (0 : BitVec 128) t p.2 p.1) []
  let s := if lpEnabled new then s else endTuning s l 2
  let s := if lpEnabled new ∧ ¬ reset then s else dropCoeffs s l
  let s := s.upLoop l (fun x => { x with
    mode := if ¬ lpEnabled new then .off else if x.tuning.isSome then .tune else .run
    words := ws
    written := ws
    states := if reset then [] else x.states
    exceeded := none
    tripped := false })
  let s := if lpInternal old ∧ fld old 96 1 = 1 then s.upCtl (fun c => { c with pump := none }) else s
  if lpInternal old ∧ fld old 96 1 = 2 then s.upCtl (fun c => { c with cap := none }) else s

/-! ### A sample (R457 to R464) -/

/-- Following-error supervision (R464): since when |e| has exceeded the limit, and whether the loop trips now. -/
def supervise (s : State) (l : Nat) (w : BitVec 4608) (e : Int) : State :=
  let lim := fld w 12 4
  let beyond := decide (lim ≠ 0) && decide ((lim : Int) < (e.natAbs : Int))
  let since := if beyond then some ((s.loop l).exceeded.getD s.now) else none
  let s := s.upLoop l (fun x => { x with exceeded := since })
  match since with
  | none => s
  | some t =>
    if (s.loop l).tripped ∨ s.now < t + 1000 * fld w 16 4 then s
    else
      let s := s.upLoop l (fun x => { x with tripped := true, mode := .safe })
      let s := loopNotice s (ownerSlice s 3 l) l 0
      let s := if 2 ≤ lpClass w then raiseCode s .b 0x24 else s
      endTuning s l 3

/-- The outputs of a sample become source events of the gateway (R462). -/
def deliverOuts (s : State) (l : Nat) (valid : Bool) : State :=
  (List.range 8).foldl (fun s o => loopEvent s l o (tget 0 (s.loop l).outs o) valid) s

/-- The outputs of a sample kept: u_out, e, the status word and y of slots 0 to 4 (R462). -/
def keepOuts (s : State) (l : Nat) (w : BitVec 4608) (u e : Int) (ys : Tbl Int) (iC oC : Bool) : State :=
  let st : Int := loopStatus s l w iC oC
  s.upLoop l (fun x => { x with
    sampled := true
    outs := (List.range 5).foldl (fun t k => tset 0 t (3 + k) (tget 0 ys k)) (tset 0 (tset 0 (tset 0 [] 0 u) 1 e) 2 st) })

/-- A sample in SAFE: u_out is SAFE_OUT and the states are held. -/
def sampleSafe (s : State) (l : Nat) (w : BitVec 4608) (e : Int) : State :=
  let ys := (List.range 5).foldl (fun t k => tset (0 : Int) t k (tget 0 (s.loop l).outs (3 + k))) []
  keepOuts s l w (lpSafeOut w) e ys false false

/-- A sample by the stages, with what an injection adds (R457, R469). -/
def sampleStages (s : State) (l : Nat) (w : BitVec 4608) (e we wu : Int) : State :=
  let u := satS 32 (e + we)
  let c := evalChain w (s.loop l).words u.1 (s.loop l).states
  let o := clampTo (lpOutMin w) (lpOutMax w) (c.y + wu)
  let s := s.upLoop l (fun x => { x with states := c.states, saturations := x.saturations + c.sats + countSat [u.2, o.2] })
  keepOuts s l w o.1 e c.outs c.iClamped o.2

/-- A sample while an injection runs: its record is kept, and the tuning ends after its last (R469). -/
def sampleInject (s0 s : State) (l : Nat) (w : BitVec 4608) (e : Int) (t : Tuning) : State :=
  let i := injection l t
  let s := if fld t.w 1 1 = 0 then sampleStages s l w e i.1 0 else sampleStages s l w e 0 i.1
  let rec_ := [i.1, tget 0 (s.loop l).outs 0, e, loopInput s0 s l w (fld t.w 2 1)]
  let s := s.upLoop l (fun x => { x with tuning := some { t with n := t.n + 1, phi := i.2, recs := rec_ :: t.recs } })
  if fld t.w 8 4 ≤ t.n + 1 then endTuning s l 0 else s

/-- A sample of a relay (R470). -/
def sampleRelay (s : State) (l : Nat) (w : BitVec 4608) (e : Int) (t : Tuning) : State :=
  let r := relayOut t e
  let o := clampTo (lpOutMin w) (lpOutMax w) r
  let ys := (List.range 5).foldl (fun x k => tset (0 : Int) x k (tget 0 (s.loop l).outs (3 + k))) []
  let s := s.upLoop l (fun x => { x with saturations := x.saturations + countSat [o.2] })
  let s := keepOuts s l w o.1 e ys false o.2
  let n := relayNext t e r
  let s := s.upLoop l (fun x => { x with tuning := some n.1 })
  match n.2 with
  | some st => endTuning s l st
  | none => s

/-- One loop's sample: inputs, words in effect, supervision, evaluation, delivery. -/
def sampleLoop (s0 s : State) (l idx : Nat) : State :=
  let w := loopSet s l
  let s := applyCoeffs s l w idx
  let e0 := satS 32 (loopRef s0 s l w 3 - loopRef s0 s l w 4)
  let e := e0.1
  let s := s.upLoop l (fun x => { x with saturations := x.saturations + countSat [e0.2] })
  let s := supervise s l w e
  let s := if loopSafe s l w then sampleSafe s l w e
    else match (s.loop l).tuning with
    | none => sampleStages s l w e 0 0
    | some t => if t.relay then sampleRelay s l w e t else sampleInject s0 s l w e t
  let s := s.upCtl (fun c => { c with samples := c.samples + 1 })
  deliverOuts (driveInternal s w (tget 0 (s.loop l).outs 0)) l (loopValid s l w)

/-! ### Rules of Table 16-1 (R454 to R456) -/

/-- The first reserved field of a loop structure that is not zero. -/
def loopReserved (w : BitVec 4608) : Option Nat :=
  if bits (fld w 0 1) 7 4 ≠ 0 then some 0
  else if bits (fld w 3 1) 6 3 ≠ 0 then some 3
  else if bits (fld w 4 1) 6 3 ≠ 0 then some 4
  else if fld w 5 1 ≠ 0 then some 5
  else if fld w 11 1 ≠ 0 then some 11
  else match (List.range 8).find? (fun i => fld w (34 + 8 * i) 2 ≠ 0) with
    | some i => some (34 + 8 * i)
    | none => if fld w 97 31 ≠ 0 then some 97 else none

/-- The first field of a loop structure that is reserved and not zero, or else that holds an encoding its table does not
define, with whether it is reserved (R8, R9, Tables 16-1 and 16-2). -/
def loopUndefined (w : BitVec 4608) : Option (Bool × Nat) :=
  match loopReserved w with
  | some o => some (true, o)
  | none =>
    if 3 < lpClass w then some (false, 1)
    else match (List.range 8).find? (fun i => decide (3 < fld w (32 + 8 * i) 1)) with
      | some i => some (false, 32 + 8 * i)
      | none =>
        if 2 < fld w 96 1 then some (false, 96)
        else ((List.range (min 8 (lpStages w))).find? (fun k => [0, 6, 7].contains (fld w (192 + 16 * k) 1 % 8))).map (fun k => (false, 192 + 16 * k))

/-- A loop structure keeps to Table 16-1 and its words to R456. -/
def loopFieldsOk (w : BitVec 4608) : Bool :=
  (loopReserved w).isNone && decide (lpClass w ≤ 3) && inRange 1 (lpStages w) 8 && inRange 1 (lpPeriod w) 1024 &&
  decide (lpOffset w < lpPeriod w) && inRange 1 (lpSubdiv w) 50 && decide (fld w 16 4 ≤ 10000000) &&
  decide (lpOutMin w ≤ lpOutMax w) && decide (lpOutMin w ≤ lpSafeOut w) && decide (lpSafeOut w ≤ lpOutMax w) &&
  (List.range 8).all (fun i => decide (fld w (32 + 8 * i) 1 ≤ 3) && (fld w (32 + 8 * i) 1 != 3 || decide (fld w (33 + 8 * i) 1 < 46))) &&
  decide (fld w 96 1 ≤ 2) && (lpInternal w || fld w 96 1 == 0) &&
  (List.range 8).all (fun k => if k < lpStages w then decide (lpLo w k ≤ lpHi w k) else fld w (128 + 8 * k) 8 == 0 && fld w (192 + 16 * k) 16 == 0) &&
  (stagesOf (lpWords w)).isSome

/-- A committed set of loops, as a commit would leave it: `mine` are the loops it names (R454, R460, R473, R496). -/
def loopsOk (s : State) (all : List (Nat × BitVec 4608)) (mine : List Nat) : Bool :=
  let on := all.filter (fun p => lpEnabled p.2)
  let t := loopTiming s
  let dst (k : Nat) := (on.filter (fun p => lpInternal p.2 && fld p.2 96 1 == k)).length
  (on.filter (fun p => mine.contains p.1)).all (fun p => loopFieldsOk p.2 &&
    !((s.ctl.split || s.ctl.degraded) && lpClass p.2 == 3) && !(s.ctl.split && lpSide p.2 == 1)) &&
  decide (dst 1 ≤ 1) && decide (dst 2 ≤ 1) &&
  (mine.isEmpty || t.1 == 0 || t.2 == 0 || admitted on t.1 t.2 s.ctl.split)

end Sys2Proof.Machine
end

