-- ==== Sys2Proof/Machine/Raster.lean ====
section
/-! DEFINITION. RFE_RENDER, RFE_CLEAR, RFE_RESOLVE and the finishing of tiles (R170, R178 to R185). -/

namespace Sys2Proof.Machine

/-- The render status record (Table 6-6). -/
def renderRecord (s : State) (b : RasterSt) (state : Byte) : Bytes :=
  [state, 0] ++ leBytes 2 b.flushes ++ leBytes 4 b.triangles ++ leBytes 4 b.pieces ++ leBytes 4 b.tiles ++ leBytes 4 b.peak
    ++ zeros 4 ++ leBytes 8 s.cue.count.toNat ++ zeros 32

/-- The record written at the end of a render whose front end's state is `b` (R181). -/
def writeRender (s : State) (r : RfeId) (j : Job) (b : RasterSt) (state : Byte) : State :=
  match b.ctx with
  | some x => jobWrite s (.rfe r) j (fld x 112 8) (renderRecord s b state)
  | none => s

/-- A job that terminates ends its render with STATE 3 (R181). -/
def stopRender (s : State) (u : UnitId) (j : Job) : State := match u with
  | .rfe r => if leadOf j = some r ∧ (s.raster r).ctx.isSome then (writeRender s r j (s.raster r) 3).upRaster r (fun _ => {}) else s
  | _ => s

/-- A flip of a finished render: its layer's next buffer, latched at the head's safe point (R175, R191). A
head of another slice takes none. -/
def postFlip (s : State) (x : Rc) (j : Job) : State :=
  let h := fld x 7 1 % 4
  if ownerSlice s 0 h ≠ j.slice then s
  else
    let buf : LayerBuf := { addr := x.colorAddr, aux := x.metaAddr, flip := BitVec.ofNat 16 (fld x 44 2), slice := j.slice }
    let f : Flip := { layer := BitVec.ofNat 3 (fld x 7 1 / 4), buf := buf, at_ := s.now }
    { s with heads := tup {} s.heads h (fun d => { d with flips := d.flips ++ [f] }) }

/-- The engine has performed the RFE's descriptor. -/
def rfeRan (s : State) (r : RfeId) : State := match headOf s (.rfe r) .own with
  | some d => ran s (.rfe r) .own (statusWord (tagOf d) 4 0)
  | none => s

/-- A metadata byte changed (R184). -/
def upMeta (s : State) (r : RfeId) (j : Job) (x : Rc) (f : Nat → Nat) (t : Nat) : State :=
  match jobRead s j (x.metaAddr + t) 1 with
  | .ok bs => jobWrite s (.rfe r) j (x.metaAddr + t) [BitVec.ofNat 8 (f (byteAt bs 0))]
  | e => failRead s (.rfe r) e

/-- A bit of a byte cleared. -/
def clearBit (i v : Nat) : Nat := if bitAt v i then v - 2 ^ i else v
def setBit (i v : Nat) : Nat := if bitAt v i then v else v + 2 ^ i

/-- A tile's DEPTH_SPILLED cleared, if it is set (R182). -/
def clearSpill (r : RfeId) (j : Job) (x : Rc) (s : State) (t : Nat) : State :=
  match jobRead s j (x.metaAddr + t) 1 with
  | .ok bs => if bitAt (byteAt bs 0) 2 then upMeta s r j x (clearBit 2) t else s
  | e => failRead s (.rfe r) e

/-- The end of a render whose every tile is written: every spill bit cleared (R182), HANDOFF signalled (R178), the
record, and the flip. -/
def endRender (s : State) (r : RfeId) (j : Job) (x : Rc) : State :=
  let s := (List.range x.tiles).foldl (clearSpill r j x) s
  let c : CtrId := BitVec.ofNat 13 (fld x 78 2)
  if (s.ctr c).slice ≠ some j.slice then failUnit s (.rfe r) 0x06
  else
    let s := issueSignal s c { value := BitVec.ofNat 32 j.e.cores, src := .program (.rfe r) j.id }
    let s := writeRender s r j (s.raster r) 1
    let s := if x.flip then postFlip s x j else s
    (rfeRan s r).upRaster r (fun _ => {})

/-- The front end's binning as far as it has come, with tile-list memory written (R176). -/
def binnedTo (s : State) (r : RfeId) (j : Job) (x : Rc) (b : RasterSt) : State :=
  ((tlmWrites x b s.free).foldl (fun s w => jobWrite s (.rfe r) j w.1 w.2) { s with free := s.free + 1 }).upRaster r (fun _ => b)

/-- The tiles to finish, in row-major order (R178). -/
def startTiles (s : State) (r : RfeId) (j : Job) (x : Rc) (b : RasterSt) (flush : Bool) : State :=
  (binnedTo s r j x b).upRaster r (fun _ => { b with
    finishing := true
    flushing := flush
    todo := (List.range x.tiles).filter (fun t => !(tget [] b.lists t).isEmpty) })

/-- A render dropped at an overflow (R183). -/
def dropRender (s : State) (r : RfeId) (j : Job) (x : Rc) (b : RasterSt) : State :=
  let h := fld x 7 1 % 4
  let s := writeRender (binnedTo s r j x b) r j b 2
  let s : State := if x.flip then { s with heads := tup {} s.heads h (fun d => { d with dropped := j.slice :: d.dropped }) } else s
  let s := notify s j.slice 0x09 1 (payload [(0, 1, h), (1, 1, 4), (2, 2, fld x 44 2), (4, 4, (tget {} s.heads h).frame)])
  (rfeRan s r).upRaster r (fun _ => {})

/-- Binning goes on: to a yield between two triangles, to the tiles of the whole list, to a flush, or to a drop (R175, R177,
R180, R182, R183). -/
def bin (s : State) (r : RfeId) (j : Job) (x : Rc) (lim : Option Nat) (b : RasterSt) : State :=
  match binAll s j x lim b with
  | .go b => startTiles s r j x b false
  | .stop b => binnedTo s r j x b
  | .full b => if x.drop then dropRender s r j x b else startTiles s r j x b true
  | .bad b e => failRead (binnedTo s r j x b) (.rfe r) e
  | .invalid b => failUnit (binnedTo s r j x b) (.rfe r) 0x01

/-- When no tile is left: the render ends, or, after a flush, tile heads and both allocation pointers are reset and binning
stands at the triangle that did not fit, to be taken up by the next RFE_RENDER (R182, log entry 43). -/
def settleTiles (s : State) (r : RfeId) (j : Job) (x : Rc) : State :=
  let b := s.raster r
  if ¬ b.finishing ∨ ¬ b.todo.isEmpty ∨ ¬ b.work.isEmpty then s
  else if b.flushing then s.upRaster r (fun b => { b with
    recs := [], lists := [], chunks := [], finishing := false, flushing := false, flushes := b.flushes + 1 })
  else endRender s r j x

/-- A context latched by the lead's descriptor (R172). -/
def withCtx (s : State) (r : RfeId) (j : Job) (d : Line) (k : Rc → State) : State :=
  match jobRead s j (fld d 8 8) 128 with
  | .ok bs => if ctxOk (BitVec.ofNat 1024 (leNat bs)) then k (BitVec.ofNat 1024 (leNat bs)) else failDesc s (.rfe r) d 0x01
  | e => failRead (atDesc s (.rfe r) d) (.rfe r) e

/-- The RFE's descriptor of one type, with its job. -/
def rfeHead (s : State) (r : RfeId) (t : Nat) : Option (Line × Job) :=
  match headOf s (.rfe r) .own, jobOf s (.rfe r) with
  | some d, some j => if typeOf d = t then some (d, j) else none
  | _, _ => none

/-- Binning in one render, from one triangle on: one operation of R67. -/
def binKey (s : State) (r : RfeId) (b : RasterSt) : Nat := 8 * (((s.unit (.rfe r)).seq.done.toNat * 2 ^ 32 + b.flushes) * 2 ^ 32 + b.triangles)

/-- Binning of a latched context from where it stands, at most to a yield, with setup tests that answer `k` (R175, R180); a
HANDOFF counter of another slice terminates the job (R178). -/
def binFrom (s : State) (r : RfeId) (j : Job) (x : Rc) (b : RasterSt) (k : RenderChk) : State :=
  if (s.ctr (BitVec.ofNat 13 (fld x 78 2))).slice ≠ some j.slice then failUnit (s.upRaster r (fun _ => b)) (.rfe r) 0x06
  else checkedBy (s.upRaster r (fun _ => b)) (settleTiles (bin s r j x (k.upTo.map (· + b.triangles)) b) r j x) (.rfe r) (binKey s r b) 1 k.chk

/-- RFE_RENDER (R170 to R177, R180): the context is latched and the draws are binned; a render that has yielded between two
triangles, or flushed its tiles, goes on where it stands. -/
def execRfeRender (r : RfeId) (k : RenderChk) (s : State) : Ans :=
  match rfeHead s r 0x20 with
  | none => did s
  | some (d, j) => match (s.raster r).ctx with
    | none => did (withCtx s r j d (fun x => binFrom (atDesc s (.rfe r) d) r j x { ctx := some x } k))
    | some x => doWhen (!(s.raster r).finishing) s (binFrom s r j x (s.raster r) k)

/-- RFE_CLEAR (R184). -/
def execRfeClear (r : RfeId) (s : State) : Ans :=
  match rfeHead s r 0x21 with
  | none => did s
  | some (d, j) => did (withCtx s r j d (fun x =>
      let f (v : Nat) : Nat :=
        let v := if bitAt (fld d 4 1) 0 then setBit 0 v else v
        if bitAt (fld d 4 1) 1 then setBit 1 v else v
      rfeRan ((List.range x.tiles).foldl (fun s t => upMeta s r j x f t) (atDesc s (.rfe r) d)) r))

/-! ### Tiles (R173, R178, R179) -/

/-- A tile of one clear value per pixel. -/
def fillTile (size v : Nat) : Bytes := (List.range 1024).flatMap (fun _ => leBytes size v)

/-- CLEAR_DEPTH as the depth target stores it. -/
def clearDepth (x : Rc) : Nat :=
  if x.depthFmt = 1 then (convertU 16 (mulV (decodeF fp32 (fld x 56 4)) (intVal 65535))).1.toNat else fld x 56 4

/-- One tile resolved (R185). -/
def resolveTile (r : RfeId) (j : Job) (x : Rc) (s : State) (t : Nat) : State :=
  match jobRead s j (x.metaAddr + t) 1 with
  | .ok bs =>
    let m := byteAt bs 0
    let s := if bitAt m 0 then jobWrite s (.rfe r) j (x.colorAddr + t * 1024 * x.colorSize) (fillTile x.colorSize (fld x 48 8)) else s
    let deep := bitAt m 1 && x.depthStore && x.depthFmt != 0
    let s := if deep then jobWrite s (.rfe r) j (x.depthAddr + t * 1024 * x.depthSize) (fillTile x.depthSize (clearDepth x)) else s
    jobWrite s (.rfe r) j (x.metaAddr + t) [BitVec.ofNat 8 (clearBit 0 (if deep then clearBit 1 m else m))]
  | e => failRead s (.rfe r) e

/-- RFE_RESOLVE (R185). -/
def execRfeResolve (r : RfeId) (s : State) : Ans :=
  match rfeHead s r 0x22 with
  | none => did s
  | some (d, j) => did (withCtx s r j d (fun x => rfeRan ((List.range x.tiles).foldl (resolveTile r j x) (atDesc s (.rfe r) d)) r))

/-- A core that a front end feeds performs descriptors of TAG 0xFFFF (R178). -/
def fedBy (s : State) (c : CoreId) : State := s.upSeq (.core c) (fun q => { q with tag := 0xFFFF })

/-- Step 1 of R179: the colour and depth tiles are loaded into core c's work area. -/
def loadTile (s : State) (c : CoreId) (j : Job) (x : Rc) (t : Nat) : State :=
  let u := UnitId.core c
  let s := fedBy s c
  match jobRead s j (x.metaAddr + t) 1 with
  | .ok bs =>
    let m := byteAt bs 0
    let colour := if bitAt m 0 then .ok (fillTile x.colorSize (fld x 48 8)) else jobRead s j (x.colorAddr + t * 1024 * x.colorSize) (1024 * x.colorSize)
    let kept := bitAt m 2 || (x.depthStore && !bitAt m 1)
    let depth := if kept then jobRead s j (x.depthAddr + t * 1024 * x.depthSize) (1024 * x.depthSize) else .ok (fillTile x.depthSize (clearDepth x))
    match colour, (if x.depthFmt = 0 then ReadRes.ok [] else depth) with
    | .ok cs, .ok ds =>
      let s := storeWrite s u c x.area cs
      if x.depthFmt = 0 then s else storeWrite s u c (x.area + 0x2000) ds
    | .ok _, e => failRead s u e
    | e, _ => failRead s u e
  | e => failRead s u e

/-- The depth test DEPTH_FUNC of a against the stored b. -/
def depthPass (f : Nat) (o : Option Ordering) : Bool :=
  if f = 0 then false else if f = 1 then o == some .lt else if f = 2 then o == some .lt || o == some .eq else if f = 3 then o == some .eq
  else if f = 4 then o == some .gt else if f = 5 then o == some .gt || o == some .eq else if f = 6 then o != some .eq else true

/-- Depth as the depth tile holds it. -/
def depthCode (x : Rc) (z : Nat) : Nat :=
  if x.depthFmt = 1 then (convertU 16 (mulV (decodeF fp32 z) (intVal 65535))).1.toNat else z

/-- How a fragment's depth compares with the depth tile's. -/
def depthCmp (x : Rc) (z old : Nat) : Option Ordering :=
  if x.depthFmt = 1 then some (compare (depthCode x z) old) else cmpV (decodeF fp32 z) (decodeF fp32 old)

/-- A fragment that passes: its pixel, its slot, B1, B2 and Z. -/
structure Frag where
  pixel : Nat
  slot : Nat
  b1 : Nat
  b2 : Nat
  z : Nat

/-- One covered pixel of a piece: its fragment, if it passes (R175, R179). -/
def fragOf (s : State) (c : CoreId) (x : Rc) (d : Line) (t slot : Nat) (p : Piece) (i : Nat) : Option Frag :=
  let px := t % x.tx * 32 + i % 32
  let py := t / x.tx * 32 + i / 32
  let q := interpOf x.view p.verts px py
  let z := depthAt p px py
  let old := leNat (storeRead s c (x.area + 0x2000 + i * x.depthSize) x.depthSize)
  if unit32 z ∧ (x.depthFmt = 0 ∨ depthPass (bits (fld d 21 1) 5 3) (depthCmp x z old)) then
    some { pixel := i, slot := slot, b1 := q.1, b2 := q.2, z := z }
  else none

/-- The pieces of the next batch, from a list of one draw's: at most 64, closed before one that would cover a
pixel already in it (R179). -/
def batchOf (x : Rc) (d : Line) (t : Nat) : Nat → List Nat → List Piece → List (Piece × List Nat)
  | 0, _, _ => []
  | _, _, [] => []
  | n + 1, seen, p :: ps =>
    let cs := covered x d p t
    if cs.any (fun i => seen.contains i) then [] else (p, cs) :: batchOf x d t n (seen ++ cs) ps

/-- Table 6-5. -/
def fragBytes (f : Frag) : Bytes := leBytes 2 f.pixel ++ leBytes 2 f.slot ++ leBytes 4 f.b1 ++ leBytes 4 f.b2 ++ leBytes 4 f.z

/-- The launch of a batch (R179 step 3), as a VE_LAUNCH of TAG 0xFFFF. -/
def batchLaunch (x : Rc) (d : Line) (t draw n prims : Nat) (reuse : Bool) : Line :=
  [(0, 1, 6), (2, 2, 0xFFFF), (5, 1, if reuse then 1 else 0), (6, 2, (n + 63) / 64), (8, 2, 1), (10, 2, fld d 22 2), (12, 4, x.area + 0xB000),
   (16, 4, fld d 40 4), (24, 8, x.area), (32, 8, n), (40, 8, t % x.tx + 65536 * (t / x.tx)), (48, 8, draw), (56, 8, prims)].foldl
    (fun (w : Line) (f : Nat × Nat × Nat) => setFld w f.1 f.2.1 f.2.2) 0

/-- A draw's kernel and constants are copied into the work area. -/
def loadDraw (s : State) (c : CoreId) (j : Job) (x : Rc) (d : Line) : State :=
  let u := UnitId.core c
  match readVa s j.slice (actorOf j) .fetch (fld d 24 8) (8 * fld d 22 2), jobRead s j (fld d 48 8) (fld d 44 2) with
  | .ok ks, .ok cs => storeWrite (storeWrite s u c (x.area + 0xB000) ks) u c (x.area + 0xA000) cs
  | .ok _, e => failRead s u e
  | e, _ => failRead s u e

/-- The depths of a batch's fragments enter the depth tile when DEPTH_WRITE is set. -/
def writeDepths (s : State) (c : CoreId) (x : Rc) (d : Line) (fs : List Frag) : State :=
  if x.depthFmt = 0 ∨ ¬ bitAt (fld d 21 1) 6 then s
  else fs.foldl (fun s f => storeWrite s (.core c) c (x.area + 0x2000 + f.pixel * x.depthSize) (leBytes x.depthSize (depthCode x f.z))) s

/-- One batch of one tile, of one flush of one render: one operation of R67 (R180). -/
def batchKey (s : State) (lead : RfeId) (w : TileWork) : Nat :=
  8 * ((((s.unit (.rfe lead)).seq.done.toNat * 2 ^ 32 + (s.raster lead).flushes) * 2 ^ 20 + w.tile) * 2 ^ 32 + w.rest.length) + 1

/-- Steps 2 and 3 of R179 for the next batch of a tile. -/
def shadeBatch (s : State) (r lead : RfeId) (j : Job) (x : Rc) (c : CoreId) (w : TileWork) (k : Chk) : State :=
  let s := fedBy s c
  let b := s.raster lead
  let ps := w.rest.filterMap (fun i => b.recs[i]?)
  match ps.head? with
  | none => s
  | some p0 => match jobRead s j (x.drawAddr + 64 * p0.draw) 64 with
    | .ok bs =>
      let d := lineOf bs
      let batch := batchOf x d w.tile 64 [] (ps.takeWhile (fun p => p.draw == p0.draw))
      match storeBad s c (x.area + 0x2000) (if x.depthFmt = 0 then 0 else 1024 * x.depthSize) with
      | some p => failCheck s (.core c) (if p then 6 else 3) p
      | none =>
        let fs := batch.zipIdx.flatMap (fun q => q.1.2.filterMap (fragOf s c x d w.tile q.2 q.1.1))
        let same := w.draw == some p0.draw
        let t := if same then s else loadDraw s c j x d
        let t := writeDepths t c x d fs
        let t := batch.zipIdx.foldl (fun t q => storeWrite t (.core c) c (x.area + 0x7000 + 192 * q.2) q.1.1.verts) t
        let t := fs.zipIdx.foldl (fun t q => storeWrite t (.core c) c (x.area + 0x3000 + 16 * q.2) (fragBytes q.1)) t
        let w' : TileWork := { w with rest := w.rest.drop batch.length, draw := some p0.draw }
        let t := t.upRaster lead (fun b => { b with
          work := b.work.map (fun y => if y.tile = w.tile then w' else y)
          lastDraw := tset none b.lastDraw w.entry (some p0.draw) })
        let t := if fs.isEmpty then t
          else startKernel t c (batchLaunch x d w.tile p0.draw fs.length batch.length same) (some lead)
        checkedBy s t (.rfe r) (batchKey s lead w) 1 k
    | e => failRead s (.core c) e

/-- A tile is done: when none is left, the render ends or its binning can resume. -/
def tileDone (s : State) (lead : RfeId) (j : Job) (x : Rc) (w : TileWork) : State :=
  settleTiles (s.upRaster lead (fun b => { b with work := b.work.filter (fun y => y.tile ≠ w.tile), tiles := b.tiles + 1 })) lead j x

/-- Step 4 of R179: the tile is written out; a flush keeps its depth (R182). -/
def writeOut (s : State) (lead : RfeId) (j : Job) (x : Rc) (c : CoreId) (w : TileWork) : State :=
  let u := UnitId.core c
  let s := fedBy s c
  let b := s.raster lead
  let deep := x.depthFmt != 0 && (x.depthStore || b.flushing)
  match storeBad s c x.area (1024 * x.colorSize), storeBad s c (x.area + 0x2000) (if deep then 1024 * x.depthSize else 0) with
  | none, none =>
    let t := jobWrite s u j (x.colorAddr + w.tile * 1024 * x.colorSize) (storeRead s c x.area (1024 * x.colorSize))
    let t := if deep then jobWrite t u j (x.depthAddr + w.tile * 1024 * x.depthSize) (storeRead s c (x.area + 0x2000) (1024 * x.depthSize)) else t
    let f (m : Nat) : Nat :=
      let m := clearBit 0 m
      let m := if x.depthStore ∧ deep then clearBit 1 m else m
      if b.flushing ∧ deep then setBit 2 m else m
    tileDone (upMeta t lead j x f w.tile) lead j x w
  | some p, _ => failCheck s u (if p then 6 else 3) p
  | _, some p => failCheck s u (if p then 6 else 3) p

/-- The core of a job entry, while it is at work on RFE r's die. -/
def entryCore (s : State) (j : Job) (r : RfeId) (k : Nat) : Option CoreId :=
  match j.entries[k]? with
  | some e => match e.unit with
    | some (.core c) => if UnitId.die (.core c) = r.toNat ∧ working s (.core c) ∧ (s.unit (.core c)).job = some j.id then some c else none
    | _ => none
  | none => none

/-- A core that waits on HANDOFF with its engines idle (R178). -/
def awaitsTile (s : State) (x : Rc) (c : CoreId) : Bool :=
  let q := (s.unit (.core c)).seq
  enginesIdle q && !(s.ve c).running && (match q.wait with
    | some w => w.mode1 && w.value == 1 && w.ctr.toNat == fld x 78 2
    | none => false)

/-- The next tile goes to the lowest free core of the die (R178). -/
def handTile (s : State) (r lead : RfeId) (j : Job) (x : Rc) : State :=
  let b := s.raster lead
  let cs := (List.range j.e.cores).filterMap (fun k => (entryCore s j r k).map (fun c => (c, k)))
  let ok := (cs.filter (fun p => awaitsTile s x p.1 && !b.work.any (fun w => w.entry == p.2))).mergeSort (fun a b => decide (a.1 ≤ b.1))
  match b.todo, ok with
  | t :: ts, (c, k) :: _ =>
    let w : TileWork := { entry := k, tile := t, rest := (tget [] b.lists t).reverse, draw := tget none b.lastDraw k }
    loadTile (s.upRaster lead (fun b => { b with todo := ts, work := b.work ++ [w] })) c j x t
  | _, _ => s

/-- A front end goes on with the tiles it has in work: at work, or asked to pre-empt and not yet at a yield point (R180). -/
def finishes (s : State) (r : RfeId) : Bool := (jobOf s (.rfe r)).isSome && (match (s.unit (.rfe r)).phase with
  | .running => true
  | .preemptAsked _ _ => true
  | _ => false)

/-- A front end stands between tiles: the lead when no core of the job has a tile, another when none of its die has (R180). -/
def betweenTiles (s : State) (r lead : RfeId) (j : Job) : Bool :=
  let ws := (s.raster lead).work
  if r = lead then ws.isEmpty
  else !ws.any (fun w => match (j.entries.getD w.entry {}).unit with
    | some u => UnitId.die u == r.toNat
    | none => false)

/-- Front ends that were asked to pre-empt and now stand between tiles are at their yield points (R102, R180). -/
def yieldFronts (s : State) (lead : RfeId) (j : Job) : State :=
  (List.range 4).foldl (fun s i =>
    let r : RfeId := BitVec.ofNat 2 i
    match (s.unit (.rfe r)).phase with
    | .preemptAsked _ b => if (s.unit (.rfe r)).job = some j.id ∧ betweenTiles s r lead j then s.upUnit (.rfe r) (fun x => { x with phase := .preemptStopped b }) else s
    | _ => s) s

/-- TILE_ISSUE (R178 to R180): front end r gives a core of its die that awaits work its tile's next batch, writes its finished
tile out, or hands the next tile to a waiting core; a front end asked to pre-empt takes no more tiles. -/
def execTileIssue (r : RfeId) (k : Chk) (s : State) : Ans :=
  match jobOf s (.rfe r) with
  | none => did s
  | some j => match leadOf j with
    | none => did s
    | some lead => match (s.raster lead).ctx with
      | none => did s
      | some x =>
        let b := s.raster lead
        let ready := b.work.filterMap (fun w => (entryCore s j r w.entry).bind (fun c => if awaitsTile s x c then some (c, w) else none))
        doWhen (b.finishing && finishes s r && finishes s lead) s (match ready with
          | (c, w) :: _ => yieldFronts (if w.rest.isEmpty then writeOut s lead j x c w else shadeBatch s r lead j x c w k) lead j
          | [] => if working s (.rfe r) ∧ working s (.rfe lead) then handTile s r lead j x else s)

end Sys2Proof.Machine
end

