-- ==== Sys2Proof/Machine/Placement.lean ====
section
/-! DEFINITION. Placement of jobs by affinity, lending, pre-emption requests and overruns (R74, R234 to
R249, R381, R385, R525). -/

namespace Sys2Proof.Machine

/-! ### Units -/

/-- A unit that can take a job: in service, powered, and held by nobody (R235, R416, R476). -/
def unitFree (s : State) (u : UnitId) : Bool :=
  let x := s.unit u
  !x.fenced && !x.suspect && !x.gated && x.job.isNone && x.phase == .idle && decide (x.wakeUntil ≤ s.now) &&
  !bitAt s.pwr.dieOff.toNat (UnitId.die u)

/-- A unit scrubs itself (R74, R385). -/
def scrubUnit (s : State) (u : UnitId) : State :=
  let s := match u with
    | .core c =>
      let s := s.upMem (fun m => { m with store := m.store.clear (storeBase c) storeSize })
      s.upCore c (fun _ => {})
    | .rfe r => s.upRaster r (fun _ => {})
    | .ae _ => s
  s.upUnit u (fun x => { x with resident := [], lastOwner := .nobody })

/-- A unit leaves its job: enclave contents are scrubbed and SEC_UNIT_ENC returns to 0 first (R106, R385). -/
def freeUnit (s : State) (u : UnitId) : State :=
  let s := releaseUnit s u
  let s := match u with
    | .rfe r => s.upRaster r (fun _ => {})
    | _ => s
  if tget 0 s.sec.unitEnc (UnitId.code u) = 0 then s
  else (scrubUnit s u).upSec (fun x => { x with unitEnc := tset 0 x.unitEnc (UnitId.code u) 0 })

/-! ### Affinity (R239, R240) -/

/-- R_own of R239. -/
def ownBytes (s : State) (j : Job) (c : CoreId) : Nat :=
  (((s.unit (.core c)).resident.filter (fun r => r.slice == j.slice && r.handle == j.handle && j.e.inputs.getLsbD r.buf)).map (·.bytes)).foldl (· + ·) 0

/-- The four cores of a core's cluster. -/
def cluster (c : CoreId) : List CoreId := (List.range 4).map (fun i => BitVec.ofNat 6 (c.toNat / 4 * 4 + i))

/-- A(c) of R239. -/
def affinity (s : State) (j : Job) (c : CoreId) : Nat :=
  4 * ownBytes s j c + (((cluster c).filter (· ≠ c)).map (ownBytes s j)).foldl (· + ·) 0

def sameOwner (s : State) (j : Job) (c : CoreId) : Bool := (s.unit (.core c)).lastOwner == ownerTagOf j

/-- Cores per group of an alignment (R237). -/
def groupSize (align : BitVec 2) : Nat := if align = 1 then 4 else if align = 2 then 16 else 1

/-- The free groups of a set of cores: the lowest core of each, ranked by R240. -/
def rankedGroups (s : State) (j : Job) (free : List CoreId) : List (List CoreId) :=
  let g := groupSize j.e.align
  let groups := (List.range (64 / g)).map (fun k => (List.range g).map (fun i => (BitVec.ofNat 6 (k * g + i) : CoreId)))
  let ok := groups.filter (fun cs => cs.all (fun c => free.contains c))
  let a (cs : List CoreId) : Nat := (cs.map (affinity s j)).foldl (· + ·) 0
  let o (cs : List CoreId) : Bool := cs.all (sameOwner s j)
  ok.mergeSort (fun x y => decide (a y < a x) || (a x == a y && (o x || !o y)))

/-- Groups of cores that a job needs (R237). -/
def groupsNeeded (e : JobEntry) : Nat := (e.cores + groupSize e.align - 1) / groupSize e.align

/-- A group lies on a die. -/
def onDie (d : Nat) (cs : List CoreId) : Bool := cs.any (fun c => UnitId.die (.core c) == d)

/-- The groups a job takes, in the order of their rank, when it must have one on each of some dies: the best of each such
die, then the best of the rest (R237, R238, R240). -/
def pickGroups (gs : List (List CoreId)) (n : Nat) (dies : List Nat) : Option (List (List CoreId)) :=
  let must := (dies.filterMap (fun d => gs.find? (onDie d))).eraseDups
  let rest := (gs.filter (fun g => !must.contains g)).take (n - must.length)
  if dies.all (fun d => gs.any (onDie d)) ∧ must.length + rest.length = n then
    some (gs.filter (fun g => must.contains g || rest.contains g))
  else none

/-- The sets of k members of a list, the earliest members first. -/
def subsetsOf {α : Type} : List α → Nat → List (List α)
  | _, 0 => [[]]
  | [], _ + 1 => []
  | x :: xs, k + 1 => (subsetsOf xs k).map (x :: ·) ++ subsetsOf xs (k + 1)

/-- The cores a job takes from a set of free ones, in order: whole groups by rank, and where these leave a raster front
end without a core on its die, with a core on the dies of the lowest front ends for which that is possible (R237, R238,
R240, log entry 95). -/
def pickCores (s : State) (j : Job) (free : List CoreId) (rfes : List RfeId) : Option (List CoreId) :=
  let gs := rankedGroups s j free
  let n := groupsNeeded j.e
  let meets (cs : List CoreId) : Bool := decide (j.e.rfes ≤ (rfes.filter (fun r => onDie r.toNat (cs.take j.e.cores))).length)
  let ways := (pickGroups gs n []) :: (subsetsOf (rfes.map (·.toNat)) j.e.rfes).map (pickGroups gs n)
  (ways.filterMap (·.map List.flatten)).find? meets

/-- The free attention engines and raster front ends of a scene's partition. -/
def freeAes (s : State) (i : SceneId) : List AeId := (aesInForce s i).filter (fun a => unitFree s (.ae a))
def freeRfes (s : State) (i : SceneId) : List RfeId := (rfesInForce s i).filter (fun r => unitFree s (.rfe r))

/-- The units a job would take from sets of free ones: its cores in order, with any further cores of its
last group, its attention engines, and its raster front ends, each on a die of one of its cores (R237, R240). -/
def pickFrom (s : State) (j : Job) (free : List CoreId) (aes : List AeId) (rfes : List RfeId) : Option (List CoreId × List UnitId) :=
  match pickCores s j free rfes with
  | none => none
  | some cs =>
    let mine := rfes.filter (fun r => onDie r.toNat (cs.take j.e.cores))
    if aes.length < j.e.aes then none
    else some (cs, ((cs.take j.e.cores).map UnitId.core) ++ ((aes.take j.e.aes).map UnitId.ae) ++ ((mine.take j.e.rfes).map UnitId.rfe))

/-- The units a job would take from a set of free cores and the free engines of its scene. -/
def pickUnits (s : State) (j : Job) (free : List CoreId) : Option (List CoreId × List UnitId) :=
  pickFrom s j free (freeAes s j.scene) (freeRfes s j.scene)

/-- The free cores of a scene's own partition. -/
def ownFree (s : State) (i : SceneId) : List CoreId := (coresInForce s i).filter (fun c => unitFree s (.core c))

/-- The scenes that lend to scene i now (R241), but those a reclaim has called back (R198). -/
def lenders (s : State) (i : SceneId) : List SceneId :=
  ((List.range (activeScenes s).length).map (BitVec.ofNat 5)).filter (fun k => sceneOpenNow s k &&
    !s.cue.noLend.any (fun p => p.1 == k.toNat) && (match sceneOf s k with
      | some sc => sc.lending && sc.lendTo == i
      | none => false))

def lentFree (s : State) (i : SceneId) : List CoreId := (lenders s i).flatMap (ownFree s)

/-- A job that has held units and left them: pre-empted or suspended. -/
def hasHeld (j : Job) : Bool := j.entries.any (fun e => e.unit.isSome)

/-- The units a job takes, and whether it borrows; one that has been pre-empted resumes on its own scene's partition only
(R241, R242). -/
def choose (s : State) (j : Job) : Option (List CoreId × List UnitId × Bool) :=
  match pickUnits s j (ownFree s j.scene) with
  | some (cs, us) => some (cs, us, false)
  | none =>
    if ¬ j.e.preemptible ∨ hasHeld j then none
    else match pickUnits s j (ownFree s j.scene ++ lentFree s j.scene) with
      | some (cs, us) => some (cs, us, true)
      | none => none

/-- A partition, as its sheet writes it, meets a job's needs (R234, R237): each of its raster front ends needs a group of the
job's own on its die. -/
def meetsNeeds (sc : Scene) (e : JobEntry) : Bool :=
  let g := groupSize e.align
  let groups := ((List.range (64 / g)).filter (fun k => (List.range g).all (fun i => sc.cores.getLsbD (k * g + i)))).length
  let whole (d : Nat) : Bool := (List.range (16 / g)).any (fun k => (List.range g).all (fun i => sc.cores.getLsbD (16 * d + k * g + i)))
  let rfes := ((List.range 4).filter (fun d => sc.rfes.getLsbD d && whole d)).length
  decide (groupsNeeded e ≤ groups) && decide (e.rfes ≤ groupsNeeded e) && decide (e.aes ≤ ((List.range 16).filter (fun a => sc.aes.getLsbD a)).length) &&
  decide (e.rfes ≤ rfes)

/-! ### Queues (R238, R242) -/

def ofScene (s : State) (i : SceneId) (j : Job) : Bool := j.scene == i && j.bank == s.cue.bank

def unitsOf (s : State) (j : Nat) : List UnitId := allUnits.filter (fun u => (s.unit u).job == some j)

/-- A unit on its way out to a suspension. -/
def leaving : UnitPhase → Bool
  | .preemptWanted b => b
  | .preemptAsked _ b => b
  | .preemptStopped b => b
  | _ => false

/-- A job that a scene's close or a YIELD has suspended: its save is done, or under way. -/
def suspending (s : State) (j : Job) : Bool :=
  j.phase == .suspended || (j.phase == .running && (unitsOf s j.id).any (fun u => leaving (s.unit u).phase))

/-- The job at the head of a scene's queue: a carry-over job suspended in an earlier cue, then the queue (R238, R246). -/
def headJob (s : State) (i : SceneId) : Option Job :=
  (s.jobs.find? (fun j => ofScene s i j && suspending s j && j.susCue != some s.cue.count)) <|>
  (s.jobs.find? (fun j => ofScene s i j && j.phase == .queued))

/-- Where a unit's program lies and its length (R358): the job's package, its section. -/
def programOf (s : State) (j : Job) (k : Nat) : Nat × Nat :=
  match tget none (s.slice j.slice).packages j.handle with
  | none => (0, 0)
  | some p =>
    let sec := if k < j.e.cores then j.e.coreSec + k else if k < j.e.cores + j.e.aes then j.e.aeSec + (k - j.e.cores)
      else j.e.rfeSec
    if j.e.cores + j.e.aes < k then (0, 0)
    else match p.sections[sec]? with
      | some x => ((if j.enclave.isSome then enclaveBase else p.imageVa) + x.offset, x.size / 64)
      | none => (0, 0)

/-- The unit taken for entry k (R74, R381, R525): scrubbed for a new owner, with its saved context to come or a
new sequencer. -/
def takeUnit (j : Job) (s : State) (p : UnitId × Nat) : State :=
  let u := p.1
  let s := if (s.unit u).lastOwner = ownerTagOf j then s else scrubUnit s u
  let s := match j.enclave with
    | some e => s.upSec (fun x => { x with unitEnc := tset 0 x.unitEnc (UnitId.code u) e })
    | none => s
  let e := j.entries.getD p.2 {}
  let prog := programOf s j p.2
  let phase : UnitPhase := if e.state = 1 then .finished else if e.saved then .saved else .running
  let s := s.upUnit u (fun x => { x with
    job := some j.id, entry := p.2, phase := phase, lastOwner := ownerTagOf j, seq := { base := prog.1, len := prog.2 } })
  s.upJob j.id (fun j => { j with entries := setEntry j.entries p.2 (fun e => { e with unit := some u }) })

/-- A job is placed on its units (R240, R525). -/
def placeOn (s : State) (j : Job) (cs : List CoreId) (us : List UnitId) (borrow : Bool) : State :=
  let s := s.upJob j.id (fun x => { x with
    phase := .running, borrowing := borrow, startCue := if hasHeld j then x.startCue else s.cue.count })
  let s := us.zipIdx.foldl (takeUnit j) s
  (cs.drop j.e.cores).foldl (fun s c => (takeUnit j s (.core c, j.entries.length)).upUnit (.core c) (fun x => { x with phase := .finished })) s

/-! ### Pre-emption requests (R242, R243) -/

def requestPreempt (s : State) (j : Nat) (suspend : Bool) : State := (unitsOf s j).foldl (askUnit suspend) s

/-- Borrowing jobs that hold a core of scene i's partition are pre-empted (R242). -/
def lendReturn (s : State) (i : SceneId) : State :=
  let cs := coresInForce s i
  (s.jobs.filter (fun j => j.phase == .running && j.borrowing && j.scene != i &&
    (unitsOf s j.id).any (fun u => match u with
      | .core c => cs.contains c
      | _ => false))).foldl (fun s j => requestPreempt s j.id false) s

/-- A job's class may be loaded: class 3 in PAIRED mode only (R30). -/
def mayLoad (s : State) (e : JobEntry) : Bool := e.cls != 3 || s.fab.twinMode == 2

/-- The head job of a scene is placed when the free units meet its needs, once it is off the cores of its last cue; a lender
whose head cannot be placed calls its cores back (R30, R238, R240 to R242). -/
def placeHead (s : State) (i : SceneId) : Option State :=
  if ¬ sceneOpenNow s i then none
  else match headJob s i with
    | none => none
    | some j =>
      if j.phase = .running ∨ ¬ mayLoad s j.e then none
      else match choose s j with
      | some (cs, us, b) => some (placeOn s j cs us b)
      | none => none

/-- A mask of some unit numbers. -/
def maskOf (w : Nat) (xs : List Nat) : BitVec w := BitVec.ofNat w ((xs.eraseDups.map (2 ^ ·)).foldl (· + ·) 0)

/-- Scene i with the partition in force. -/
def inForce (s : State) (i : SceneId) (sc : Scene) : Scene :=
  { sc with cores := maskOf 64 ((coresInForce s i).map (·.toNat)), aes := maskOf 16 ((aesInForce s i).map (·.toNat)),
            rfes := maskOf 4 ((rfesInForce s i).map (·.toNat)) }

/-- The job could be placed now if the units that its scene has lost were there and free. -/
def lacksLost (s : State) (i : SceneId) (sc : Scene) (j : Job) : Bool :=
  let lost (held : List Nat) (k : Nat) : Bool := !held.contains k
  let cores := ((List.range 64).filter (fun k => sc.cores.getLsbD k && lost ((coresInForce s i).map (·.toNat)) k)).map (BitVec.ofNat 6)
  let aes := ((List.range 16).filter (fun k => sc.aes.getLsbD k && lost ((aesInForce s i).map (·.toNat)) k)).map (BitVec.ofNat 4)
  let rfes := ((List.range 4).filter (fun k => sc.rfes.getLsbD k && lost ((rfesInForce s i).map (·.toNat)) k)).map (BitVec.ofNat 2)
  (pickUnits s j (ownFree s i)).isNone && (pickFrom s j (ownFree s i ++ cores) (freeAes s i ++ aes) (freeRfes s i ++ rfes)).isSome

/-- A scene that lost a unit and whose head job waits for it has missed its guarantee, which is reported once in a cue
(R32, R248). -/
def reducedMiss (s : State) (i : SceneId) : State :=
  match sceneOf s i, headJob s i with
  | some sc, some j =>
    if ((meetsNeeds sc j.e ∧ ¬ meetsNeeds (inForce s i sc) j.e) ∨ lacksLost s i sc j) ∧ i ∉ s.cue.reduced then
      let s : State := { s with missed := tup 0 s.missed i.toNat (· + 1) }
      let s := s.upSlice sc.slice (fun x => { x with diag := tup 0 x.diag 1 (· + 1) })
      notify (s.upCue (fun c => { c with reduced := i :: c.reduced })) sc.slice 0x02 2 (payload [(0, 1, i.toNat)])
    else s
  | _, _ => s

/-- The head job of an open scene waits: a lost unit it waits for is reported, and a lender calls its cores back. -/
def callBack (s : State) (i : SceneId) : State :=
  match sceneOf s i, headJob s i with
  | some sc, some _ =>
    if ¬ sceneOpenNow s i then s
    else if sc.lending then lendReturn (reducedMiss s i) i
    else reducedMiss s i
  | _, _ => s

/-- Jobs are placed in order until one waits (R238). -/
def placeAll : Nat → State → SceneId → State
  | 0, s, _ => s
  | n + 1, s, i => match placeHead s i with
    | some t => placeAll n t i
    | none => callBack s i

/-! ### Leaving the cores (R102, R242, R246) -/

/-- The last unit of a job has left its core: its finished units go too, and the job is suspended, or queued at
the head of its scene (R242, R246). -/
def leftCores (s : State) (jid : Nat) (suspend : Bool) : State :=
  if onCore s jid then s
  else
    let s := (unitsOf s jid).foldl freeUnit s
    match s.job jid with
    | none => s
    | some j =>
      if j.phase ≠ .running then s
      else if suspend then s.upJob jid (fun x => { x with phase := .suspended, borrowing := false })
      else { s with jobs := { j with phase := .queued, borrowing := false } :: s.jobs.filter (fun x => x.id ≠ jid) }

/-! ### Overruns (R25, R244 to R246) -/

/-- The records of a suspended job's units that a pre-emption had taken off their cores show STATE 3 (R246). -/
def markSuspended (s : State) (j : Job) : State :=
  j.entries.zipIdx.foldl (fun s p => if p.1.saved ∧ p.1.state = 0 then statusWrite s j p.2 0 [3] else s) s

/-- A job that has not completed at its scene's close, in the cue of count `closed`: suspended within its carry limit, or
terminated (R246). -/
def overrunJob (closed : DWord) (s : State) (j : Job) : State :=
  if ¬ j.carryOver ∨ j.e.cls ≠ 0 ∨ carrySpent j then overrunEnd s j 0
  else
    let s := s.upJob j.id (fun x => { x with
      suspensions := x.suspensions + 1
      phase := if x.phase = .queued then .suspended else x.phase
      susCue := some closed })
    overrunNotice (requestPreempt (markSuspended s j) j.id true) j 1

/-- A job that has been suspended in this cue. -/
def alreadySuspended (s : State) (j : Job) : Bool := decide (0 < j.suspensions) && j.susCue == some s.cue.count

/-- A job of the scene that is unfinished: at work, or pre-empted; one that a YIELD has suspended continues in the
next cue as it is (R105, log entry 76). -/
def unfinished (s : State) (i : SceneId) (j : Job) : Bool :=
  ofScene s i j && (j.phase == .running || (j.phase == .queued && hasHeld j)) && !alreadySuspended s j

/-- A scene closes (R242, R244). -/
def closeScene (s : State) (i : SceneId) : State :=
  let s := lendReturn s i
  (s.jobs.filter (unfinished s i)).foldl (overrunJob s.cue.count) (reducedMiss s i)

end Sys2Proof.Machine
end

