-- ==== Sys2Proof/Machine/SetRules.lean ====
section
/-! DEFINITION. The rules of the staged structures: fields that a writer checks, and what a COMMIT
validates (R36, R190, R191, R201, R231, R271, R306, R354, R398, R446, R454). -/

namespace Sys2Proof.Machine

/-- Allowed reactions of an event code: bit r set when reaction r may be chosen (Table 14-2). -/
def reactionsAllowed : List Nat :=
  [1, 5, 7, 3, 6, 6, 6, 4, 4, 5, 1, 5, 5, 5, 5, 5] ++ [5, 7, 7, 5, 5, 5, 5, 7, 6, 1, 5, 6, 6, 6, 4, 5] ++ [4, 4, 5, 5, 5]

/-- A reaction byte of a code is allowed; a code with no row takes 0. -/
def reactionOk (e r : Nat) : Bool := decide (r ≤ 2) && bitAt (reactionsAllowed.getD e 1) r

/-- A message channel (Table 14-4) at `o`: whether the failing field is reserved, and its offset. -/
def channelErr (w : BitVec 4608) (o : Nat) : Option (Bool × Nat) :=
  let t := fld w o 1
  if 2 < t then some (false, o)
  else if (if t = 2 then 11 else 15) < fld w (o + 1) 1 then some (false, o + 1)
  else if t = 1 ∧ 4 ≤ fld w (o + 2) 1 then some (true, o + 2)
  else if t ≠ 1 ∧ fld w (o + 2) 1 ≠ 0 then some (false, o + 2)
  else if fld w (o + 3) 1 ≠ 0 then some (true, o + 3)
  else if bits (fld w (o + 4) 4) 30 29 ≠ 0 then some (true, o + 4)
  else if t = 1 ∧ ¬ bitAt (fld w (o + 4) 4) 31 ∧ 2048 ≤ fld w (o + 4) 4 then some (false, o + 4)
  else if bitAt (fld w (o + 14) 2) 12 then some (true, o + 14)
  else if fld w (o + 18) 14 ≠ 0 then some (true, o + 18)
  else none

/-- The rules of Table 14-3. -/
def safetyErr (w : BitVec 4608) : Option (Bool × Nat) :=
  if fld w 0 2 ≠ 1 then some (false, 0)
  else if ¬ inRange 1 (fld w 2 2) 1000 then some (false, 2)
  else if ¬ inRange 1 (fld w 4 4) 1000000 then some (false, 4)
  else if ¬ inRange 1000 (fld w 8 4) 3600000 then some (false, 8)
  else if fld w 12 4 ≠ 0 then some (true, 12)
  else match (List.range 48).find? (fun e => !reactionOk e (fld w (16 + e) 1)) with
    | some e => some (false, 16 + e)
    | none => match (List.range 4).findSome? (fun k => channelErr w (64 + 32 * k)) with
      | some x => some x
      | none => if fld w 192 64 ≠ 0 then some (true, 192) else none

/-! ### Heads (Tables 6-10, 6-11, 12-11) -/

def headJoined (w : BitVec 4608) : Bool := bitAt (fld w 0 1) 1

/-- The fields of Table 12-11 for head h. -/
def headErr (w : BitVec 4608) (h : Nat) : Option (Bool × Nat) :=
  let c := fld w 0 1
  let edp := bitAt c 2
  let dsc := fld w 4 2
  if bits c 7 5 ≠ 0 then some (true, 0)
  else if bits c 4 3 = 3 ∨ (bitAt c 1 ∧ h % 2 = 1) then some (false, 0)
  else if ¬ [1, 2, 4].contains (fld w 1 1) then some (false, 1)
  else if (if edp then 7 else 3) < fld w 2 1 then some (false, 2)
  else if ¬ [6, 8, 10].contains (fld w 3 1) then some (false, 3)
  else if dsc ≠ 0 ∧ ¬ inRange 128 dsc 255 then some (false, 4)
  else if (if dsc = 0 then fld w 6 1 ≠ 0 else ¬ [1, 2, 4, 8].contains (fld w 6 1)) then some (false, 6)
  else if 3 < fld w 7 1 then some (false, 7)
  else if 4 ≤ fld w 28 1 then some (true, 28)
  else if fld w 29 3 ≠ 0 then some (true, 29)
  else if 2 ^ 30 ≤ fld w 32 4 then some (true, 32)
  else if 2 ^ 30 ≤ fld w 36 4 then some (true, 36)
  else if ¬ inRange 20 (fld w 40 2) 2000 then some (false, 40)
  else if ¬ inRange 2 (fld w 42 2) 256 then some (false, 42)
  else if fld w 44 8 % 16 ≠ 0 ∨ 2 ^ 48 ≤ fld w 44 8 then some (false, 44)
  else if fld w 52 12 ≠ 0 then some (true, 52)
  else none

/-- The fields of a layer (Table 6-11). -/
def layerErr (l : BitVec 512) : Option (Bool × Nat) :=
  if bits (fld l 0 1) 7 6 ≠ 0 then some (true, 0)
  else if 4 < fld l 1 1 ∨ (fld l 1 1 = 4 ∧ bitAt (fld l 0 1) 1) then some (false, 1)
  else if fld l 3 1 ≠ 0 then some (true, 3)
  else if fld l 4 4 % 64 ≠ 0 then some (false, 4)
  else if fld l 48 16 ≠ 0 then some (true, 48)
  else none

/-- An enabled layer fits the active area and the scaling of R192. -/
def layerFits (w : BitVec 4608) (l : BitVec 512) : Bool :=
  let scale (src dst : Nat) : Bool := decide (1 ≤ src) && decide (src ≤ 4 * dst) && decide (dst ≤ 8 * src)
  !bitAt (fld l 0 1) 0 || (decide (fld l 32 2 + fld l 36 2 ≤ hActive w) && decide (fld l 34 2 + fld l 38 2 ≤ vActive w) &&
    scale (fld l 28 2) (fld l 36 2) && scale (fld l 30 2) (fld l 38 2))

/-- What R196 asks of any head, and R190, R191 and R194 of an enabled one. -/
def headFits (s : State) (h : Nat) (w : BitVec 4608) : Bool :=
  let n := ownerSlice s 0 h
  let dsc := decide (fld w 4 2 ≠ 0)
  (safeFrame w != 2 || (tget {} s.heads h).fallback.isSome) &&
  (!bitAt (fld w 0 1) 0 || ((headErr w h).isNone && (List.range 8).all (fun i => (layerErr (layerOf w i)).isNone && layerFits w (layerOf w i)) &&
    decide (1 ≤ hActive w) && decide (hActive w ≤ (if headJoined w then 7680 else 3840)) && decide (1 ≤ vActive w) && decide (vActive w ≤ 2160) &&
    inRange 1 (fld w 8 4) (if headJoined w then 1200000 else 600000) && (!headJoined w || dsc) && (!dsc || fld w 3 1 != 6) &&
    reachable s n (.slice n) .write (fld w 44 8) (16 * fld w 42 2)))

/-! ### Cameras (Tables 7-1 and 7-2) -/

def cropX (w : BitVec 1024) : Nat := fld w 32 2
def cropY (w : BitVec 1024) : Nat := fld w 34 2
def cropW (w : BitVec 1024) : Nat := fld w 36 2
def cropH (w : BitVec 1024) : Nat := fld w 38 2

/-- The fields of a stream by themselves. -/
def camErr (w : BitVec 1024) : Option (Bool × Nat) :=
  let dt := fld w 2 1
  if 4 ≤ fld w 0 1 then some (true, 0)
  else if 15 < fld w 1 1 then some (false, 1)
  else if ¬ [0x2B, 0x2C, 0x2E, 0x1E].contains dt then some (false, 2)
  else if 3 < fld w 3 1 then some (false, 3)
  else if ¬ inRange 16 (fld w 4 2) 8192 ∨ fld w 4 2 % 2 ≠ 0 then some (false, 4)
  else if ¬ inRange 16 (fld w 6 2) 8192 ∨ fld w 6 2 % 2 ≠ 0 then some (false, 6)
  else if fld w 24 8 % 64 ≠ 0 ∨ 2 ^ 48 ≤ fld w 24 8 then some (false, 24)
  else if ¬ inRange 1 (fld w 40 2) (cropW w) ∨ 8 * fld w 40 2 < cropW w ∨ (fld w 44 1 = 6 ∧ fld w 40 2 % 32 ≠ 0) then some (false, 40)
  else if ¬ inRange 1 (fld w 42 2) (cropH w) ∨ 8 * fld w 42 2 < cropH w then some (false, 42)
  else if ¬ [1, 6, 9, 10].contains (fld w 44 1) then some (false, 44)
  else if 1 < fld w 45 1 ∨ (fld w 44 1 = 6 ∧ fld w 45 1 ≠ 1) then some (false, 45)
  else if fld w 46 2 ≠ 0 then some (true, 46)
  else if bits (fld w 62 1) 6 4 ≠ 0 then some (true, 62)
  else if 8 ≤ fld w 63 1 then some (true, 63)
  else if ¬ inRange 1 (fld w 68 4) 1000000 then some (false, 68)
  else if ¬ inRange 1 (fld w 72 4) 200000 then some (false, 72)
  else if 255 < fld w 76 2 ∨ fld w 4 2 < cropX w + cropW w + fld w 76 2 then some (false, 76)
  else if 255 < fld w 78 2 ∨ fld w 6 2 < cropY w + cropH w + fld w 78 2 then some (false, 78)
  else if fld w 80 8 % 64 ≠ 0 ∨ 2 ^ 48 ≤ fld w 80 8 then some (false, 80)
  else if ¬ inRange 2 (fld w 88 2) 64 then some (false, 88)
  else if 4095 < fld w 90 2 then some (false, 90)
  else if fld w 104 24 ≠ 0 then some (true, 104)
  else none

def camOf (w : BitVec 4608) : BitVec 1024 := BitVec.ofNat 1024 (fld w 0 128)

/-- Every committed stream. -/
def camSets (s : State) : List (Nat × BitVec 1024) :=
  ((s.groups.filter (fun p => groupKind p.1 == 7 && p.2.used)).map (fun p => (groupIdx p.1, camOf p.2.committed)))

/-- A trigger keeps to the beats of a period (Table 7-2): one set before the first CUE set is tested with it (log entry 116). -/
def trigFits (w : BitVec 1024) (p bt : Nat) : Bool :=
  let n := max 1 (p / bt)
  p == 0 || bt == 0 || (decide (fld w 60 2 < n) && decide (fld w 64 4 < beatLen p bt n (fld w 60 2)))

/-- The sets of every stream that a commit of `items` would leave and that pending ones would. -/
def camAll (s t : State) (items : List (Nat × BitVec 4608)) : List (Nat × BitVec 1024) :=
  let named (g : Nat) : Bool := items.any (fun p => p.1 == g)
  let pending := s.commits.flatMap (fun c => (c.groups.map (·.toNat)).zip c.sets)
  camSets t ++ (pending.filter (fun p => groupKind p.1 == 7 && !named p.1)).map (fun p => (groupIdx p.1, camOf p.2))

/-- Two streams may share an FSYNC pin (R202). -/
def sharesPin (a b : BitVec 1024) : Bool :=
  let pin (w : BitVec 1024) := fld w 62 1
  !bitAt (pin a) 7 || !bitAt (pin b) 7 || pin a % 16 != pin b % 16 ||
  (fld a 60 2 == fld b 60 2 && fld a 64 4 == fld b 64 4 && fld a 68 4 == fld b 68 4)

/-! ### Cache and bandwidth -/

/-- The partitions in use by slices, and by enclaves. -/
def slicePartitions (s : State) : List Nat := (allSlices.filter (fun n => (s.slice n).valid)).map (fun n => (s.slice n).partition.toNat)
def enclavePartitions (s : State) : List Nat := s.sec.enclaves.filterMap (fun p => p.2.map (fun e => e.partition.toNat))

/-- A mask set passes R271. -/
def cacheOk (s : State) (w : BitVec 4608) : Bool :=
  let mask (p : Nat) : BitVec 16 := BitVec.ofNat 16 (fld w (2 * p) 2)
  let used := (0 :: 1 :: slicePartitions s ++ enclavePartitions s).eraseDups
  used.all (fun p => mask p != 0) &&
  [0, 1].all (fun p => (List.range 16).all (fun q => q == p || (mask p &&& mask q) == 0)) &&
  (enclavePartitions s).all (fun e => (slicePartitions s).all (fun n => (mask e &&& mask n) == 0))

/-- The greatest sum of BW_GBPS of scenes open at one instant. -/
def sheetPeak (sh : Sheet) : Nat :=
  (sh.scenes.map (fun a => ((sh.scenes.filter (fun b => openAt b a.start)).map (·.gbps)).foldl (· + ·) 0)).foldl max 0

/-- The real-time reservation of a set of groups fits beside every written sheet (R190, R233, R276). -/
def realTimeFits (s : State) (gs : Tbl Staged) : Bool :=
  let most := (s.sheets.map (fun p => (p.2.map sheetPeak).getD 0)).foldl max 0
  decide (Config.realTimeGbps gs + most ≤ 942)

/-! ### A commit as a whole (R36) -/

/-- The groups as a commit of `items` would leave them. -/
def afterCommit (s : State) (items : List (Nat × BitVec 4608)) : State :=
  let s := match items.find? (fun p => groupKind p.1 == 1) with
    | some p => s.upCue (fun c => { c with period := fld p.2 0 4, beat := fld p.2 4 4 })
    | none => s
  { s with groups := items.foldl (fun t p => tset (groupInit p.1) t p.1 { (s.group p.1) with committed := p.2, used := true }) s.groups }

/-- One group of a commit passes its rules, in the state `t` that the commit would leave. -/
def groupFits (s t : State) (items : List (Nat × BitVec 4608)) (p : Nat × BitVec 4608) : Bool :=
  let k := groupKind p.1
  let i := groupIdx p.1
  if k = 1 then
    (match tget none s.sheets (fld p.2 9 1) with
      | some sh => sh.period == fld p.2 0 4
      | none => false) && (camAll s t items).all (fun q => trigFits q.2 (fld p.2 0 4) (fld p.2 4 4))
  else if k = 2 then cacheOk s p.2
  else if k = 3 then fld p.2 0 1 == 0 || paired s
  else if k = 4 then (safetyErr p.2).isNone
  else if k = 5 then (timebaseErr p.2 i).isNone
  else if k = 6 then headFits s i p.2
  else if k = 7 then
    let c := camOf p.2
    let tm := loopTiming t
    (camErr c).isNone && trigFits c tm.1 tm.2 && (camAll s t items).all (fun q => q.1 == i || sharesPin c q.2)
  else if k = 8 then (routeErr p.2).isNone
  else (items.filter (fun q => groupKind q.1 == 9)).head? != some p ||
    loopsOk s (enabledLoops t) ((items.filter (fun q => groupKind q.1 == 9)).map (fun q => groupIdx q.1))

/-- The commit passes: every group, the routes together, the real-time reservation. -/
def commitFits (s : State) (items : List (Nat × BitVec 4608)) : Bool :=
  let t := afterCommit s items
  let has (k : Nat) := items.any (fun p => groupKind p.1 == k)
  items.all (groupFits s t items) && (!has 8 || routesOk (routes t) (ownerSlice s 2)) &&
  (!(has 6 || has 7 || has 9) || realTimeFits s t.groups)

end Sys2Proof.Machine
end

