-- ==== Sys2Proof/Machine/TensorImage.lean ====
section
/-! DEFINITION. Tensors of images: normalisation and layout (Table 7-3 step 7, R208, R218). -/

namespace Sys2Proof.Machine

/-- Step 7 for one channel: (v - MEAN) x SCALE in FP32, from the 12 bytes of a NORM record. -/
def normalise (norm : Bytes) (c v : Nat) : FVal :=
  mul32 (intVal ((v : Int) - (fieldOf norm (4 * c) 2 : Int))) (decodeF bf16 (fieldOf norm (4 * c + 2) 2))

/-- Bytes of an element of OUT_FMT, or of a Pip8 mantissa. -/
def tensorElem (fmt : Nat) : Nat := fmtBits fmt / 8

/-- Pip8 blocks of a row; a last block that is short has zero mantissas for its missing elements (R48). -/
def rowBlocks (w : Nat) : Nat := (w + 31) / 32

/-- The tensor's bytes (R208). -/
def tensorSize (fmt layout chans w h : Nat) : Nat :=
  if layout = 0 then h * c64 (w * chans * tensorElem fmt)
  else chans * h * c64 (w * tensorElem fmt) + (if isPip fmt then chans * h * c64 (rowBlocks w) else 0)

/-- A row of a tensor to its 64-byte boundary, the rest of its last granule zeros (R60). -/
def fillRow (bs : Bytes) : Bytes := bs ++ zeros (c64 bs.length - bs.length)

/-- A row of values converted into a format that is not Pip8. -/
def tensorRow (fmt : Nat) (vs : List FVal) : Flagged Bytes :=
  let r := gather (vs.map (convertTo fmt))
  (packElems (fmtBits fmt) r.1, r.2)

/-- A row of Pip8: the mantissas of its blocks, and their exponent codes. -/
def tensorPip (vs : List FVal) : Flagged (Bytes × Bytes) :=
  let full := vs ++ List.replicate (32 * rowBlocks vs.length - vs.length) zeroV
  let r := gather ((groupsOf 32 full).map (toPip 8))
  ((r.1.flatMap (fun b => pipPack 8 b.ms), r.1.flatMap (fun b => leBytes 1 b.e)), r.2)

/-- The tensor of a picture whose channel c at (y, x) has a value. -/
def tensorOf (fmt layout chans w h : Nat) (val : Nat → Nat → Nat → FVal) : Flagged Bytes :=
  let rows : List (Nat × Nat) := (List.range chans).flatMap (fun c => (List.range h).map (fun y => (c, y)))
  if layout = 0 then
    let r := gather ((List.range h).map (fun y => tensorRow fmt ((List.range w).flatMap (fun x => (List.range chans).map (fun c => val c y x)))))
    (r.1.flatMap fillRow, r.2)
  else if isPip fmt then
    let r := gather (rows.map (fun p => tensorPip ((List.range w).map (val p.1 p.2))))
    ((r.1.map (·.1) ++ r.1.map (·.2)).flatMap fillRow, r.2)
  else
    let r := gather (rows.map (fun p => tensorRow fmt ((List.range w).map (val p.1 p.2))))
    (r.1.flatMap fillRow, r.2)

end Sys2Proof.Machine
end

