-- ==== Sys2Proof/Machine/FrontEnd.lean ====
section
/-! DEFINITION. The camera front end's computation: unpacking, demosaic, tone curve, resize, augmentation (R205 to
R208, Table 7-3). -/

namespace Sys2Proof.Machine

/-- A camera stream's structure (Table 7-2). -/
abbrev Cam := BitVec 1024

def Cam.inW (w : Cam) : Nat := fld w 4 2
def Cam.inH (w : Cam) : Nat := fld w 6 2
def Cam.outW (w : Cam) : Nat := fld w 40 2
def Cam.outH (w : Cam) : Nat := fld w 42 2
def Cam.raw (w : Cam) : Bool := fld w 2 1 != 0x1E

/-- Bytes of a line's payload. -/
def Cam.lineLen (w : Cam) : Nat :=
  if fld w 2 1 = 0x2B then (w.inW + 3) / 4 * 5 else if fld w 2 1 = 0x2C then w.inW / 2 * 3 else 2 * w.inW

/-! ### Augmentation (R207) -/

/-- What R207 gives a frame: the flip, dx, dy and g. -/
structure Augment where
  sample : Nat
  flip : Bool
  dx : Nat
  dy : Nat
  g : Int
  deriving DecidableEq, Repr

def augmentOf (w : Cam) (cue : DWord) : Augment :=
  let i := (fld w 92 4 + cue.toNat) % 2 ^ 32
  let draw (d : Nat) : Nat := diceNat (fld w 96 8) i d
  let on := bitAt (fld w 63 1)
  let shift (d m : Nat) : Nat := draw d * (m + 1) / 2 ^ 32
  { sample := i, flip := on 0 && decide (0x80000000 ≤ draw 0), dx := if on 1 then shift 1 (fld w 76 2) else 0, dy := if on 1 then shift 2 (fld w 78 2) else 0,
    g := if on 2 then 4096 + ((((draw 3 / 2 ^ 20 : Nat) : Int) - 2048) * (fld w 90 2 : Int)).fdiv 2048 else 4096 }

/-! ### Steps 1 to 4 -/

/-- Step 1 of a RAW type at column x of a line (CSI-2's packing). -/
def unpackRaw (dt : Nat) (l : Bytes) (x : Nat) : Nat :=
  if dt = 0x2B then 64 * (4 * byteAt l (x / 4 * 5 + x % 4) + byteAt l (x / 4 * 5 + 4) / 4 ^ (x % 4) % 4)
  else if dt = 0x2C then 16 * (16 * byteAt l (x / 2 * 3 + x % 2) + byteAt l (x / 2 * 3 + 2) / 16 ^ (x % 2) % 16)
  else 256 * byteAt l (2 * x) + byteAt l (2 * x + 1)

/-- rne of a rational. -/
def rneRat (q : Rat) : Int := rneDiv q.num q.den

/-- Step 1 of YUV422: R, G and B times 256. -/
def unpackYuv (csc : Nat) (l : Bytes) (x : Nat) : List Nat :=
  let q := x / 2 * 4
  let y : Rat := (byteAt l (q + 1 + 2 * (x % 2)) : Rat)
  ((cscOf csc y (byteAt l q : Rat) (byteAt l (q + 2) : Rat)).take 3).map (fun v => 256 * (rneRat (255 * v)).toNat)

/-- The CFA position of a pixel in the raster order of the 2 x 2 pattern. -/
def cfaPos (y x : Nat) : Nat := 2 * (y % 2) + x % 2

/-- The colour at a CFA position: R 0, G 1, B 2. -/
def cfaColour (cfa p : Nat) : Nat := ([[0, 1, 1, 2], [1, 0, 2, 1], [1, 2, 0, 1], [2, 1, 1, 0]].getD cfa []).getD p 0

/-- Steps 1 to 3 of a RAW type: black level and white balance. -/
def rawAt (w : Cam) (g : Int) (ls : List Bytes) (y x : Nat) : Nat :=
  let p := cfaPos y x
  let gain := min 65535 (rneDiv ((fld w (16 + 2 * p) 2 : Int) * g) 4096).toNat
  min 65535 (rneDiv (((unpackRaw (fld w 2 1) (ls.getD y []) x - fld w (8 + 2 * p) 2) * gain : Nat) : Int) 4096).toNat

/-- An index mirrored at the frame's edges (R206). -/
def mirror (n : Nat) (i : Int) : Nat := if i < 0 then 1 else if (n : Int) ≤ i then n - 2 else i.toNat

/-- The eight neighbours of a pixel. -/
def neighbours : List (Int × Int) := [(-1, -1), (-1, 0), (-1, 1), (0, -1), (0, 1), (1, -1), (1, 0), (1, 1)]

/-- Step 4: R, G and B of a pixel (R206). -/
def demosaic (w : Cam) (v : Nat → Nat → Nat) (y x : Nat) : List Nat :=
  let cfa := fld w 3 1
  (List.range 3).map (fun k =>
    if cfaColour cfa (cfaPos y x) = k then v y x
    else
      let near := neighbours.map (fun d => (mirror w.inH (y + d.1), mirror w.inW (x + d.2)))
      let same := (near.filter (fun q => cfaColour cfa (cfaPos q.1 q.2) == k)).map (fun q => v q.1 q.2)
      (rneDiv ((same.foldl (· + ·) 0 : Nat) : Int) (max 1 same.length)).toNat)

/-! ### Steps 5 to 7 -/

/-- Step 5 with the tone curve's bytes. -/
def toned (curve : Bytes) (v : Nat) : Nat :=
  let l (i : Nat) : Int := (fieldOf curve (2 * i) 2 : Int)
  let i := v / 64
  (rneDiv (64 * l i + (l (i + 1) - l i) * (v % 64 : Nat)) 64).toNat

/-- Where an output index samples one axis of the window: the first source index and the weight of the next in
1/256. -/
def resizeAt (crop out o : Nat) : Nat × Nat :=
  let pos : Int := rneDiv (256 * ((2 * o + 1 : Nat) * (crop : Int) - out)) (2 * out)
  let q := (max 0 (min (256 * ((crop : Int) - 1)) pos)).toNat
  (q / 256, q % 256)

/-- Step 6: the value of output column c and row r of a channel of the window. -/
def resized (w : Cam) (a : Augment) (src : Nat → Nat → Nat) (r c : Nat) : Nat :=
  let cw := cropW w
  let ch := cropH w
  let px := resizeAt cw w.outW c
  let py := resizeAt ch w.outH r
  let v (dy dx : Nat) : Nat := src (cropY w + a.dy + min (ch - 1) (py.1 + dy)) (cropX w + a.dx + min (cw - 1) (px.1 + dx))
  let sum := v 0 0 * (256 - py.2) * (256 - px.2) + v 0 1 * (256 - py.2) * px.2 + v 1 0 * py.2 * (256 - px.2) + v 1 1 * py.2 * px.2
  (rneDiv (sum : Nat) 65536).toNat

/-- R, G and B of the frame after steps 1 to 5. -/
def frameColour (w : Cam) (a : Augment) (curve : Bytes) (ls : List Bytes) (y x : Nat) : List Nat :=
  let rgb := if w.raw then demosaic w (rawAt w a.g ls) y x else unpackYuv (fld w 3 1) (ls.getD y []) x
  rgb.map (toned curve)

/-- The frame's tensor. -/
def frameTensor (w : Cam) (a : Augment) (curve : Bytes) (ls : List Bytes) : Flagged Bytes :=
  let norm := leBytes 12 (fld w 48 12)
  let val (c y x : Nat) : FVal :=
    normalise norm c (resized w a (fun py px => (frameColour w a curve ls py px).getD c 0) y (if a.flip then w.outW - 1 - x else x))
  tensorOf (fld w 44 1) (fld w 45 1) 3 w.outW w.outH val

/-- The size of a ring slot (R208). -/
def Cam.slot (w : Cam) : Nat := 64 + tensorSize (fld w 44 1) (fld w 45 1) 3 w.outW w.outH

end Sys2Proof.Machine
end

