-- ==== Sys2Proof/Machine/Groups.lean ====
section
/-! DEFINITION. Staged sets taking effect: what each block does when its group applies, the safe points of
IMMEDIATE commits, and bank switches (R23, R33, R34, R191, R231, R246, R247, R354, R355). -/

namespace Sys2Proof.Machine

/-! ### The CUE group (R23, R231, R247) -/

/-- The scene of a new sheet that takes over a job of the scene of the same index. -/
def takesOver (old new : Option Sheet) (j : Job) (cls : Bool) : Bool :=
  match (old.bind (fun sh => sh.scenes[j.scene.toNat]?)), (new.bind (fun sh => sh.scenes[j.scene.toNat]?)) with
  | some a, some b => b.slice == a.slice && (!cls || b.cls == a.cls) && meetsNeeds b j.e
  | _, _ => false

/-- A queued job whose scene is gone leaves its queue (R247). -/
def deschedule (s : State) (j : Job) : State :=
  let s := dequeueJob s j stDescheduled
  match j.kaf with
  | some k => endKaf s { j with entries := [{}] } k 0
  | none => s

/-- One job of the old sheet at a bank switch: a queued job that has held no unit is kept or descheduled; one that has
is overrun or suspended, and judged by R246 at this edge (log entry 38). -/
def switchJob (old new : Option Sheet) (bank : BitVec 2) (s : State) (j : Job) : State :=
  if j.phase = .queued ∧ ¬ hasHeld j then
    (if takesOver old new j true then s.upJob j.id (fun x => { x with bank := bank }) else deschedule s j)
  else s.upJob j.id (fun x => { x with bank := bank })

/-- A bank switch (R247). -/
def bankSwitch (s : State) (old new : BitVec 2) : State :=
  (s.jobs.filter (fun j => j.bank == old)).foldl
    (switchJob (tget none s.sheets old.toNat) (tget none s.sheets new.toNat) new) s

/-- The CUE set applies at an edge: period, beat, time base and bank; a change of period begins the
transitional cue, also at the first edge of a start, which the set committed before placed (R23, R35). -/
def applyCue (s : State) (w : BitVec 4608) : State :=
  let old := s.cue
  let bank : BitVec 2 := BitVec.ofNat 2 (fld w 9 1)
  let s := s.upCue (fun c => { c with
    configured := true
    period := fld w 0 4
    beat := fld w 4 4
    tb := BitVec.ofNat 2 (fld w 8 1)
    bank := bank
    transitional := fld w 0 4 != old.edgePeriod
    fencedSeen := if bank = c.bank then c.fencedSeen else [] })
  let s := { s with replaced := if bank = old.bank then s.replaced else [] }
  if old.running ∧ bank ≠ old.bank then bankSwitch s old.bank bank else s

/-! ### The HEAD group (R191, R194, R195) -/

/-- A link rate, lane count or timing that changes retrains the link. -/
def retrains (old new : BitVec 4608) : Bool :=
  fld old 1 2 != fld new 1 2 || fld old 8 20 != fld new 8 20 || bitAt (fld old 0 1) 0 != bitAt (fld new 0 1) 0

/-- The buffers of a layer that goes are released (R195). -/
def dropLayer (h : HeadId) (s : State) (i : Nat) : State :=
  let bs := (tget none (s.head h).cur i).toList ++ (tget none (s.head h).kept i).toList
  bs.foldl (fun s b => displayNotice s h 2 b.flip)
    (s.upHead h (fun x => { x with cur := tset none x.cur i none, kept := tset none x.kept i none, back := x.back.filter (· ≠ i) }))

/-- One layer of a new set: its buffer is shown, or gone with the layer. -/
def applyLayer (h : HeadId) (w : BitVec 4608) (s : State) (i : Nat) : State :=
  let l := layerOf w i
  let b : LayerBuf := { addr := fld l 8 8, aux := fld l 16 8, flip := 0, slice := headSlice s h }
  if ¬ bitAt (fld l 0 1) 0 then dropLayer h s i
  else match tget none (s.head h).cur i with
    | some c => if c.addr = b.addr ∧ c.aux = b.aux then s else showBuf h i b s
    | none => showBuf h i b s

/-- A head's set applies at the start of vertical blanking. -/
def applyHead (s : State) (h : HeadId) (old new : BitVec 4608) : State :=
  let s := (List.range 8).foldl (applyLayer h new) s
  let s := if bitAt (fld new 0 1) 0 ∧ retrains old new then s.upHead h (fun x => { x with training := some (s.now + 100000000) }) else s
  if bitAt (fld new 0 1) 0 ∧ ¬ bitAt (fld old 0 1) 0 then
    s.upHead h (fun x => { x with frame := 0, line := 0, underrun := false, check := false, repeating := false, scanned := true })
  else s

/-! ### Any group -/

/-- A set becomes the committed set of its group, and its block acts on it (R33). -/
def applySet (s : State) (g : Nat) (w : BitVec 4608) : State :=
  let old := (s.group g).committed
  let i := groupIdx g
  let s := s.upGroup g (fun x => { x with committed := w, used := true })
  match groupKind g with
  | 1 => applyCue s w
  | 2 => leaveWays (fun p => fld old (2 * p) 2) (fun p => fld w (2 * p) 2) s
  | 3 => s.upFab (fun f => { f with twinMode := BitVec.ofNat 2 (fld w 0 1) })
  | 5 => if i = 3 then s.setTb 3 { (s.tb 3) with capSeq := 0 } else applyTimebase s i old w
  | 6 => applyHead s (BitVec.ofNat 2 i) old w
  | 8 => applyRoute s i
  | 9 => applyLoop s i old w
  | _ => s

/-- The set that a commit holds for a group. -/
def setFor (c : Commit) (g : Nat) : Option (BitVec 4608) :=
  ((c.groups.zip c.sets).find? (fun p => p.1.toNat == g)).map (·.2)

def sameCommit (a b : Commit) : Bool := a.slice == b.slice && a.pos == b.pos

/-- A group of an IMMEDIATE commit is done with: the command completes with the last (R355). -/
def groupDone (s : State) (c : Commit) (g : Nat) : State :=
  let rest := (c.groups.zip c.sets).filter (fun p => p.1.toNat != g)
  if rest.isEmpty then
    complete { s with commits := s.commits.filter (fun x => !sameCommit x c) } c.slice (commitFlight c) 0 0 (payload [(0, 8, s.cue.count.toNat)])
  else { s with commits := s.commits.map (fun x => if sameCommit x c then { x with groups := rest.map (·.1), sets := rest.map (·.2) } else x) }

/-- The IMMEDIATE commits that hold a group, in order. -/
def immediates (s : State) (g : Nat) : List Commit := s.commits.filter (fun c => !c.atCue && (setFor c g).isSome)

/-- A block's safe point: the IMMEDIATE commits of its group apply, in order (R34). -/
def safePoint (s : State) (g : Nat) : State :=
  (immediates s g).foldl (fun s c => match setFor c g with
    | some w => groupDone (applySet s g w) c g
    | none => s) s

/-- The safe point of a head: of the commits accepted at least 2 us before, the last applies, and the others'
buffers were never shown (R191). -/
def headSafePoint (s : State) (h : HeadId) : State :=
  let g := 6 * 0x1000000 + h.toNat
  let cs := (immediates s g).filter (fun c => decide (c.at_ + 2000 ≤ s.now))
  cs.zipIdx.foldl (fun s p => match setFor p.1 g with
    | none => s
    | some w => if p.2 + 1 = cs.length then groupDone (applySet s g w) p.1 g else groupDone (displayNotice s h 3 0) p.1 g) s

/-! ### AT_CUE commits (R34, R35, R38) -/

/-- A commit due at this edge: it applies whole, or, agreed with no partner, fails (R38). -/
def applyCommit (s : State) (c : Commit) : State :=
  let s := { s with commits := s.commits.filter (fun x => !sameCommit x c) }
  if c.target.isSome ∧ ¬ c.twinAgreed then
    complete (s.upFab (fun f => { f with ops := f.ops.filter (fun o => !(o.slice == c.slice && o.pos == c.pos)) })) c.slice (commitFlight c) stTwin 0 0
  else (c.groups.zip c.sets).foldl (fun s p => applySet s p.1.toNat p.2) s

/-- The commits due at the edge of count k. -/
def dueCommits (s : State) (k : DWord) : List Commit :=
  s.commits.filter (fun c => c.atCue && (match c.target with
    | some t => t == k
    | none => decide (c.due ≤ k)))

/-- Every commit due at the edge applies, in the order of acceptance. -/
def applyDue (s : State) (k : DWord) : State := (dueCommits s k).foldl applyCommit s

/-- The count at which an AT_CUE commit accepted now applies (R35). -/
def dueCount (s : State) : DWord := match nextEdge s with
  | none => 0
  | some (t, k) => if s.now + 50000 ≤ t then k else k + 1

end Sys2Proof.Machine
end

