-- ==== Sys2Proof/Machine/Camera.lean ====
section
/-! DEFINITION. Camera streams: triggers, packets, frames and their records (R200 to R210, R441). -/

namespace Sys2Proof.Machine

def State.cam (s : State) (c : Nat) : CamSt := tget {} s.intake.cams c
def State.upCam (s : State) (c : Nat) (f : CamSt → CamSt) : State := s.upIntake (fun x => { x with cams := tup {} x.cams c f })

/-- The committed structure of a stream, and the one its packets are matched with: that of its last trigger. -/
def camSet (s : State) (c : Nat) : Cam := camOf (committed s 7 c)
def camNow (s : State) (c : Nat) : Cam := if (s.cam c).k = 0 then camSet s c else (s.cam c).set

/-- The stream is configured: its group has been committed since reset. -/
def camUsed (s : State) (c : Nat) : Bool := (s.group (0x7000000 + c)).used

/-! ### Records (R203, R208, R210, Table 7-4) -/

/-- A frame record with the reserved half of its granule. -/
def camRecord (cue : DWord) (time sample state flags : Nat) (rest : Bytes) : Bytes :=
  leBytes 8 cue.toNat ++ leBytes 8 time ++ leBytes 4 sample ++ leBytes 1 state ++ leBytes 1 flags ++ rest ++ zeros 36

/-- The slot of the frame that the trigger edge of index k starts. -/
def slotVa (w : Cam) (k : Nat) : Nat := fld w 80 8 + k % max 1 (fld w 88 2) * w.slot

def camWrite (s : State) (n : SliceId) (va : Nat) (bs : Bytes) : State :=
  realTimeAccess (writeBy s midCamera n (.slice n) va bs) midCamera 0 n true va bs.length

/-- FLAGS bits of a frame record, from bit 0. -/
def camFlags (s : State) (bad missing csi size full flipped sat : Bool) : Nat :=
  let b (k : Nat) (v : Bool) : Nat := if v then 2 ^ k else 0
  b 0 (!bad && !s.saf.curtain) + b 1 missing + b 2 csi + b 3 size + b 4 full + b 5 s.saf.curtain + b 6 flipped + b 7 sat

/-- The record written before the first tensor byte: STATE 0, with nothing yet of what FLAGS reports but the curtain. -/
def openRecord (s : State) (f : CamFrame) : State :=
  let a := augmentOf f.set f.cue
  camWrite s f.slice (slotVa f.set f.k) (camRecord f.cue f.time a.sample 0 (if s.saf.curtain then 32 else 0)
    (leBytes 2 a.dx ++ leBytes 2 a.dy ++ leBytes 2 a.g.toNat))

/-- The tone curve; the spec does not say what stands for one that cannot be read. -/
def curveBytes (s : State) (f : CamFrame) : Bytes :=
  match readVa s f.slice (.slice f.slice) .read (fld f.set 24 8) 2050 with
  | .ok bs => bs
  | _ => (List.range 2050).map (Config.freeByte s.free)

/-- A tone curve that fails its check is reported (R66). -/
def curveCheck (s : State) (f : CamFrame) : State := match readVa s f.slice (.slice f.slice) .read (fld f.set 24 8) 2050 with
  | .check _ p => reportCheckOf s .b midCamera f.slice p
  | _ => s

/-- A frame is completed: missing lines are zeros, the tensor is written in full, then the record with STATE 1. -/
def finishFrame (s : State) (c : Nat) (f : CamFrame) : State :=
  let w : Cam := f.set
  let a := augmentOf w f.cue
  let ls := (f.lines.reverse ++ List.replicate (w.inH - f.lines.length) (zeros w.lineLen)).take w.inH
  let t := frameTensor w a (curveBytes s f) ls
  let s := camWrite (curveCheck { s with free := s.free + 1 } f) f.slice (slotVa w f.k + 64) t.1
  let flags := camFlags s (f.csi || f.sizeErr || f.overload) false f.csi f.sizeErr f.overload a.flip (t.2 &&& fSat != 0)
  let s := camWrite s f.slice (slotVa w f.k) (camRecord f.cue f.time a.sample 1 flags (leBytes 2 a.dx ++ leBytes 2 a.dy ++ leBytes 2 a.g.toNat))
  s.upCam c (fun x => { x with frame := none })

/-- The window closes without a frame: a record with MISSING, whose applied values the spec does not state, and the
notice (R203). -/
def missingFrame (s : State) (c : Nat) : State :=
  let x := s.cam c
  let n := ownerSlice s 1 c
  let rest := (List.range 6).map (Config.freeByte s.free)
  let rec_ := camRecord x.cue 0 (augmentOf x.set x.cue).sample 1 (camFlags s true true false false false false false) rest
  let s := camWrite { s with free := s.free + 1 } n (slotVa x.set (x.k - 1)) rec_
  notify (s.upCam c (fun x => { x with openedAt := none })) n 0x08 1 (payload [(0, 1, c)])

/-! ### Triggers (R201, R202, R441) -/

/-- Nanoseconds from the cue edge to a stream's trigger edge; a slew may shorten the last beat below it. -/
def triggerAt (s : State) (w : Cam) : Nat :=
  let n := max 1 (s.cue.period / max 1 s.cue.beat)
  let b := fld w 60 2
  let start := b * s.cue.beat
  let stop := if b + 1 < n then start + s.cue.beat else s.cue.length
  min (start + fld w 64 4) (stop - 1)

/-- The FSYNC pin of a stream rises. -/
def fsyncRise (s : State) (w : Cam) : State :=
  let p : BitVec 4 := BitVec.ofNat 4 (fld w 62 1)
  if ¬ bitAt (fld w 62 1) 7 ∨ s.intake.fsync.getLsbD p.toNat then s
  else (s.upIntake (fun x => { x with fsync := x.fsync ||| (1 : Half) <<< p.toNat })).emit (.fsync p true)

/-- What the trigger edge finds of the frame before: one without a frame end is completed as for SIZE_ERROR, and a
window without a frame is over. -/
def endPrevious (s : State) (c : Nat) : State :=
  let s := match (s.cam c).frame with
    | some f => finishFrame s c (if f.ended then f else { f with sizeErr := true, ended := true })
    | none => s
  if (s.cam c).openedAt.isSome ∧ ¬ (s.cam c).taken then missingFrame s c else s

/-- The set that places a stream's trigger edge: the committed one, or, before the first, the set that waits for the stream's
safe point (R201, R202; log entry 45). -/
def edgeSet (s : State) (c : Nat) : Cam :=
  if camUsed s c then camSet s c
  else match (immediates s (0x7000000 + c)).getLast? with
    | some x => camOf ((setFor x (0x7000000 + c)).getD 0)
    | none => camSet s c

/-- CAMERA_TRIGGER (R201 to R204): at the instant of the stream's trigger edge, its safe point, then its trigger with the set now
committed. -/
def execCameraTrigger (c : CamId) (at_ : Nat) (s : State) : Ans :=
  let i := c.toNat
  let s1 := s.at_ at_
  let x := s.cam i
  let s2 := safePoint (endPrevious s1 i) (0x7000000 + i)
  let w := camSet s2 i
  let s3 := fsyncRise (s2.upCam i (fun x => { x with
    k := x.k + 1
    trigAt := s1.now
    set := w
    cue := s1.cue.count
    openedAt := some s1.now
    taken := false
    fired := true })) w
  doWhen (s.cue.running && !x.fired && at_ == s.cue.last + triggerAt s (edgeSet s i)) s
    (if camUsed s2 i then s3 else s2)

/-- FSYNC_FALL (R202, R441): the pin falls when every stream that names it has held it for PULSE. -/
def execFsyncFall (p : BitVec 4) (at_ : Nat) (s : State) : Ans :=
  let s1 := s.at_ at_
  let names (c : Nat) : Bool := (s.cam c).k != 0 && bitAt (fld (s.cam c).set 62 1) 7 && fld (s.cam c).set 62 1 % 16 == p.toNat
  let lapsed (c : Nat) : Bool := decide ((s.cam c).trigAt + fld (s.cam c).set 68 4 ≤ at_)
  let held := (List.range 16).any names && (List.range 16).all (fun c => !names c || lapsed c)
  doWhen (s.intake.fsync.getLsbD p.toNat && held) s
    ((s1.upIntake (fun x => { x with fsync := x.fsync &&& ~~~((1 : Half) <<< p.toNat) })).emit (.fsync p false))

/-! ### Packets (R200, R203, R204, R209) -/

/-- The configured streams of a packet's port and virtual channel; of several streams of one data type the first. -/
def streamsOf (s : State) (p : CsiPacket) : List Nat :=
  let on (c : Nat) : Bool := camUsed s c && fld (camNow s c) 0 1 % 4 == p.port.toNat && fld (camNow s c) 1 1 == p.vc.toNat
  let cs := (List.range 16).filter on
  cs.filter (fun c => !cs.any (fun d => decide (d < c) && fld (camNow s d) 2 1 == fld (camNow s c) 2 1))

/-- A packet that matches no stream is discarded and counted. -/
def unmatchedPacket (s : State) (p : CsiPacket) : State :=
  s.upIntake (fun x => { x with unmatched := tup 0 x.unmatched p.port.toNat (· + 1) })

/-- A frame start at a stream: the first in its window is accepted, any other is stray (R203). -/
def frameStart (s : State) (c : Nat) : State :=
  let x := s.cam c
  match x.openedAt with
  | some t =>
    if x.taken ∨ t + 1000 * fld x.set 72 4 < s.now then s.upCam c (fun x => { x with strays := x.strays + 1 })
    else
      let f : CamFrame := {
        k := x.k - 1
        set := x.set
        slice := ownerSlice s 1 c
        cue := x.cue
        time := tbNow s s.cue.tb.toNat
        lines := []
        csi := false
        sizeErr := false
        overload := false
        ended := false }
      openRecord (s.upCam c (fun x => { x with taken := true, frame := some f })) f
  | none => s.upCam c (fun x => { x with strays := x.strays + 1 })

/-- The entry of IntakeSt.embedded for a packet. -/
def embeddedKey (p : CsiPacket) : Nat := 16 * p.port.toNat + p.vc.toNat

/-- CSI2_FRAME_START (R200, R203). A header that cannot be corrected names no stream. -/
def execCsi2FrameStart (p : CsiPacket) (at_ : Nat) (s : State) : Ans :=
  let s1 := s.at_ at_
  let cs := streamsOf s1 p
  let s1 := s1.upIntake (fun x => { x with embedded := if p.eccOk then tset [] x.embedded (embeddedKey p) [] else x.embedded })
  did (if ¬ p.eccOk then s1 else if cs.isEmpty then unmatchedPacket s1 p else cs.foldl frameStart s1)

/-- The 4 MiB line buffer at this instant: pixels of two bytes that leave at 2.4 Gpixel/s (R209, log entry 73). -/
def buffered (s : State) : Nat := s.intake.buffered - 24 * (s.now - s.intake.bufferedAt) / 5

/-- A line that cannot be used is replaced by the last of its CFA parity, or zeros. -/
def replacedLine (w : Cam) (ls : List Bytes) : Bytes := ls.getD 1 (zeros w.lineLen)

/-- A line of a frame (R204, R209). -/
def takeLine (s : State) (c : Nat) (f : CamFrame) (ok : Bool) (data : Bytes) : State :=
  let w : Cam := f.set
  let full := decide (4194304 < buffered s + 2 * w.inW)
  let line := (data ++ zeros (w.lineLen - data.length)).take w.lineLen
  let extra := decide (w.inH ≤ f.lines.length)
  let s1 := s.upCam c (fun x => { x with frame := some { f with
    lines := if extra then f.lines else (if ok && !full then line else replacedLine w f.lines) :: f.lines
    csi := f.csi || !ok
    sizeErr := f.sizeErr || extra || (ok && data.length != w.lineLen)
    overload := f.overload || full } })
  if full then s1 else s1.upIntake (fun x => { x with buffered := buffered s + 2 * w.inW, bufferedAt := s.now })

/-- Embedded data of a port and virtual channel that has a stream is stored as it comes (Table 7-1). -/
def takeEmbedded (s : State) (p : CsiPacket) (data : Bytes) : State :=
  if (streamsOf s p).isEmpty then unmatchedPacket s p
  else if p.crcOk then s.upIntake (fun x => { x with embedded := tup [] x.embedded (embeddedKey p) (· ++ [data]) }) else s

/-- CSI2_LONG_PACKET (R199, R200, R204, R209). -/
def execCsi2LongPacket (p : CsiPacket) (data : Bytes) (s : State) : Ans :=
  did (if p.dt = 0x12 then (if p.eccOk then takeEmbedded s p data else s) else match (streamsOf s p).find? (fun c => fld (camNow s c) 2 1 == p.dt.toNat) with
    | none => unmatchedPacket s p
    | some c => match (s.cam c).frame with
      | some f => if f.ended then s else takeLine s c f (p.eccOk && p.crcOk) data
      | none => s)

/-- A frame end at a stream. -/
def frameEnd (s : State) (c : Nat) : State := match (s.cam c).frame with
  | some f =>
    if f.ended then s
    else s.upCam c (fun x => { x with frame := some { f with ended := true, sizeErr := f.sizeErr || f.lines.length != Cam.inH f.set } })
  | none => s

/-- CSI2_FRAME_END (R200, R204). -/
def execCsi2FrameEnd (p : CsiPacket) (s : State) : Ans :=
  let cs := streamsOf s p
  did (if ¬ p.eccOk then s else if cs.isEmpty then unmatchedPacket s p else cs.foldl frameEnd s)

/-- CAMERA_WINDOW_EXPIRY (R203). -/
def execCameraWindowExpiry (c : CamId) (at_ : Nat) (s : State) : Ans :=
  let i := c.toNat
  let x := s.cam i
  let s1 := s.at_ at_
  match x.openedAt with
  | none => did s
  | some t => doWhen (decide (t + 1000 * fld x.set 72 4 ≤ at_)) s
      (if x.taken then s1.upCam i (fun x => { x with openedAt := none }) else missingFrame s1 i)

/-- CAMERA_FRAME_DONE (R208, R209): a frame whose input has ended is written. -/
def execCameraFrameDone (c : CamId) (s : State) : Ans :=
  match (s.cam c.toNat).frame with
  | some f => doWhen f.ended s (finishFrame s c.toNat f)
  | none => did s

end Sys2Proof.Machine
end

