-- ==== Sys2Proof/Machine/Islands.lean ====
section
/-! DEFINITION. The safety islands' checkpoints (R407). -/

namespace Sys2Proof.Machine

def State.island (s : State) (i : IslandId) : Island := match i with
  | .a => s.saf.a
  | .b => s.saf.b

def State.upIsland (s : State) (i : IslandId) (f : Island → Island) : State :=
  s.upSaf (fun x => match i with
    | .a => { x with a := f x.a }
    | .b => { x with b := f x.b })

/-- A checkpoint goes into the older copy, when the cores agreed at the last compare; it ends RECOVERY (R407). -/
def checkpoint (i : IslandId) (s : State) : State :=
  let x := s.island i
  if ¬ x.agreed ∨ x.restarting ∨ x.mode = .start then s
  else s.upIsland i (fun x => { x with
    ckpt0 := if x.newest1 then some s.cue.count else x.ckpt0
    ckpt1 := if x.newest1 then x.ckpt1 else some s.cue.count
    newest1 := !x.newest1
    mode := if x.mode = .recovery then .service else x.mode
    lastCkpt := s.now })

end Sys2Proof.Machine
end

