-- ==== Sys2Proof/Machine/PyotosCue.lean ====
section
/-! DEFINITION. Cue sheets, the cue's start and stop, and the sync-counter commands (R17, R18, R22, R230 to R233,
R250, R254, R256, R257, R359, R422, Table 12-7). -/

namespace Sys2Proof.Machine

/-! ### SHEET_WRITE -/

/-- A bank is active, or its selection is pending (R230). -/
def bankBusy (s : State) (b : Nat) : Bool :=
  (s.cue.configured && s.cue.bank.toNat == b) ||
  s.commits.any (fun c => ((setFor c 0x1000000).map (fun w => fld w 9 1 == b)).getD false)

/-- The scene of an entry's 64 bytes (Table 8-2). -/
def sceneFrom (r : Bytes) : Scene :=
  { lending := bitAt (byteAt r 0) 0, kaf := bitAt (byteAt r 0) 1, slice := BitVec.ofNat 7 (byteAt r 1), cls := BitVec.ofNat 2 (byteAt r 2),
    label := BitVec.ofNat 3 (byteAt r 3), start := fieldOf r 4 4, duration := fieldOf r 8 4, gbps := fieldOf r 12 2,
    lendTo := BitVec.ofNat 5 (byteAt r 14), cores := BitVec.ofNat 64 (fieldOf r 16 8), aes := BitVec.ofNat 16 (fieldOf r 24 2), rfes := BitVec.ofNat 4 (byteAt r 26) }

/-- The first reserved byte of an entry that is not zero. -/
def sceneReserved (r : Bytes) : Option Nat :=
  match [(0, 4), (1, 128), (2, 4), (3, 8), (26, 16)].find? (fun p => decide (p.2 ≤ byteAt r p.1)) with
  | some p => some p.1
  | none => structReserved r [(0, 15), (16, 11)]

/-- The first field of an entry outside its range. -/
def sceneRange (r : Bytes) : Option Nat :=
  if fieldOf r 8 4 < 20000 then some 8
  else if 942 < fieldOf r 12 2 then some 12
  else if (if bitAt (byteAt r 0) 0 then 31 < byteAt r 14 else byteAt r 14 ≠ 0) then some 14
  else none

/-- Two scenes share a unit. -/
def sharesUnit (a b : Scene) : Bool := (a.cores &&& b.cores) != 0 || (a.aes &&& b.aes) != 0 || (a.rfes &&& b.rfes) != 0

/-- Scene i fails a condition alone or with scenes of lower index (R22, R233, R275, R422). -/
def sceneFails (s : State) (period : Nat) (sc : List Scene) (i : Nat) : Bool :=
  match sc[i]? with
  | none => false
  | some x =>
    let upto := sc.take (i + 1)
    let lower := sc.take i
    decide (period - slewStep period < x.start + x.duration) ||
    (x.cores == 0 && x.aes == 0 && x.rfes == 0) ||
    lower.any (fun o => overlap x o && sharesUnit x o) ||
    !(s.slice x.slice).valid ||
    (upto.filter (fun o => openAt x o.start)).any (fun o =>
      decide (942 < Config.realTimeGbps s.groups + ((upto.filter (fun p => openAt p o.start)).map (·.gbps)).foldl (· + ·) 0)) ||
    (x.lending && (match sc[x.lendTo.toNat]? with
      | none => true
      | some t => x.lendTo.toNat == i || !overlap x t || decide (1 < t.cls.toNat) || t.lending)) ||
    (List.range 64).any (fun k => x.cores.getLsbD k && (s.unit (.core (BitVec.ofNat 6 k))).fenced) ||
    x.label == 7 || (x.kaf && (x.lending || decide (x.cls.toNat < 2)))

/-- The first failing scene of a sheet. -/
def firstFailing (s : State) (period : Nat) (sc : List Scene) : Option Nat := (List.range sc.length).find? (sceneFails s period sc)

/-- The entries of a sheet, checked one by one. -/
def sheetEntries (raw : Bytes) (n : Nat) : Except (Bool × Nat) (List Scene) :=
  let es := (List.range n).map (fun i => (i, (raw.drop (64 * i)).take 64))
  match es.findSome? (fun p => (sceneReserved p.2).map (fun o => 64 * (p.1 + 1) + o)) with
  | some o => .error (true, o)
  | none => match es.findSome? (fun p => (sceneRange p.2).map (fun o => 64 * (p.1 + 1) + o)) with
    | some o => .error (false, o)
    | none => .ok (es.map (fun p => sceneFrom p.2))

/-- The body of SHEET_WRITE. -/
def sheetWrite : Body := fun s n _ w =>
  let b := fld w 8 1
  if 3 < b then .err stBadValue 8
  else withStruct s n w 16 64 (fun s h =>
    match structReserved h [(0, 5)] with
    | some o => .err stReserved (inStruct o)
    | none =>
      let period := fieldOf h 0 4
      let k := byteAt h 4
      if period < 1000000 ∨ 200000000 < period then .err stBadValue (inStruct 0)
      else if k < 1 ∨ 32 < k then .err stBadValue (inStruct 4)
      else withBytes s n w 16 (fld w 16 8 + 64) (64 * k) (fun s raw => match sheetEntries raw k with
        | .error e => .err (if e.1 then stReserved else stBadValue) (inStruct e.2)
        | .ok sc => match firstFailing s period sc with
          | some i => .err stRefused i
          | none =>
            if bankBusy s b then .err stBusy 8
            else .ok { s with sheets := tset none s.sheets b (some { period := period, scenes := sc }) } 0))

/-- SHEET_WRITE (R230, R232, R233). -/
def execSheetWrite (n : SliceId) (w : Line) (s : State) : Ans :=
  runCmd { op := 0x0401, zero := true, named := [(8, 1), (16, 8)] } sheetWrite n w s

/-! ### The cue -/

/-- CUE_SET (R17, R24, Table 12-7): the set holds PERIOD at 0, BEAT at 4, TB at 8 and BANK at 9. -/
def execCueSet (n : SliceId) (w : Line) (s : State) : Ans :=
  runCmd { op := 0x0402, zero := true, named := [(8, 4), (12, 4), (16, 1), (17, 1)] }
    (fun s _ _ w =>
      let p := fld w 8 4
      let b := fld w 12 4
      if p < 1000000 ∨ 200000000 < p then .err stBadValue 8
      else if b < 20000 + slewStep p ∨ p < b ∨ 1024 < p / b then .err stBadValue 12
      else if 3 < fld w 16 1 then .err stBadValue 16
      else if 3 < fld w 17 1 then .err stBadValue 17
      else writeShadow s 0x1000000 8 (setFld (setFld (setFld (setFld (0 : BitVec 4608) 0 4 p) 4 4 b) 8 1 (fld w 16 1)) 9 1 (fld w 17 1))) n w s

/-- CUE_START (R17, R359): the first edge is the first multiple of P at least 1 ms from now. -/
def execCueStart (n : SliceId) (w : Line) (s : State) : Ans :=
  runCmd { op := 0x0403, zero := true, named := [] }
    (fun s _ _ _ =>
      if isFollower s then .err stDenied 0
      else if s.cue.running ∨ s.cue.starting then .err stBusy 0
      else match startSet s with
        | none => .err stNotReady 0
        | some c =>
          if (tget none s.sheets c.bank).isNone then .err stNotReady 0
          else
            .ok ((placeStart s c).upCue (fun x => { x with count := 0, slewing := false, slewLeft := 0 }))
              (payload [(0, 8, wrapBits 64 (startEdge s c).2)])) n w s

/-- CUE_STOP (R18, R359). -/
def execCueStop (n : SliceId) (w : Line) (s : State) : Ans :=
  runCmd { op := 0x0404, zero := true, named := [] }
    (fun s _ _ _ =>
      if s.cue.starting then .ok (startCancelled (s.upCue (fun c => { c with starting := false }))) 0
      else if ¬ s.cue.running then .ok s 0
      else .wait (s.upCue (fun c => { c with stopping := true })) .cueStop) n w s

/-! ### Sync counters -/

/-- The first of `k` consecutive counters that are free and in service. -/
def freeRun (s : State) (k : Nat) : Option Nat :=
  let free (i : Nat) : Bool := (s.ctr (BitVec.ofNat 13 i)).slice.isNone && !(s.ctr (BitVec.ofNat 13 i)).dead
  (List.range (8193 - k)).find? (fun a => (List.range k).all (fun i => free (a + i)))

/-- SYNC_ALLOC (R250, R257). -/
def execSyncAlloc (n : SliceId) (w : Line) (s : State) : Ans :=
  runCmd { op := 0x0501, zero := false, named := [(8, 2), (12, 4)] }
    (fun s n _ w =>
      let k := fld w 8 2
      let v := fld w 12 4
      if k < 1 ∨ 256 < k then .err stBadValue 8
      else if ¬ fits s n 3 k then .err stQuota 3
      else match freeRun s k with
        | none => .err stNoResource 0
        | some a => .ok ((List.range k).foldl (fun s i => s.upCtr (BitVec.ofNat 13 (a + i))
            (fun _ => { slice := some n, value := BitVec.ofNat 32 v, initial := v })) s) (payload [(0, 2, a)])) n w s

/-- A counter named at an offset: it exists, belongs to the slice, and is in service. -/
def counterErr (s : State) (n : SliceId) (c off : Nat) (serve : Bool) : Option (Nat × Nat) :=
  if 8192 ≤ c then some (stBadValue, off)
  else match (s.ctr (BitVec.ofNat 13 c)).slice with
    | none => some (stNoObject, off)
    | some m => if m ≠ n then some (stDenied, off) else if serve ∧ (s.ctr (BitVec.ofNat 13 c)).dead then some (stRefused, off) else none

/-- A wait is pending on a counter, or a signal in flight (R250, R256). -/
def ctrBusy (x : Ctr) : Bool := !x.waits.isEmpty || !x.flight.isEmpty

/-- SYNC_FREE (R256). -/
def execSyncFree (n : SliceId) (w : Line) (s : State) : Ans :=
  runCmd { op := 0x0502, zero := false, named := [(8, 2), (10, 2)] }
    (fun s n _ w =>
      let a := fld w 8 2
      let k := fld w 10 2
      if 8192 ≤ a then .err stBadValue 8
      else if k < 1 ∨ 8192 < a + k then .err stBadValue 10
      else match (List.range k).findSome? (fun i => counterErr s n (a + i) 8 false) with
        | some e => .err e.1 e.2
        | none =>
          if (List.range k).any (fun i => ctrBusy (s.ctr (BitVec.ofNat 13 (a + i)))) then .err stBusy 8
          else .ok (checkQuota ((List.range k).foldl (fun s i => s.upCtr (BitVec.ofNat 13 (a + i)) (fun x => { dead := x.dead })) s) n) 0) n w s

/-- SYNC_SET (R250, R257): a new ledger, reported to slice 0. -/
def execSyncSet (n : SliceId) (w : Line) (s : State) : Ans :=
  runCmd { op := 0x0503, zero := false, named := [(8, 2), (12, 4)] }
    (fun s n _ w =>
      let c : CtrId := BitVec.ofNat 13 (fld w 8 2)
      match counterErr s n (fld w 8 2) 8 true with
      | some e => .err e.1 e.2
      | none =>
        if ctrBusy (s.ctr c) then .err stBusy 8
        else
          let old := (s.ctr c).value.toNat
          let t := s.upCtr c (fun x => { x with
            value := BitVec.ofNat 32 (fld w 12 4), initial := fld w 12 4, added := 0, consumed := 0, issued := 0, applied := 0 })
          .ok (conservationNotice t 3 1 c.toNat old (fld w 12 4)) 0) n w s

/-- SYNC_SIGNAL (R250, R254). -/
def execSyncSignal (n : SliceId) (w : Line) (s : State) : Ans :=
  runCmd { op := 0x0504, zero := false, named := [(8, 2), (12, 4)] }
    (fun s n _ w =>
      let c : CtrId := BitVec.ofNat 13 (fld w 8 2)
      let v := fld w 12 4
      match counterErr s n (fld w 8 2) 8 true with
      | some e => .err e.1 e.2
      | none =>
        if v = 0 then .err stBadValue 12
        else
          let t := applySignal (s.upCtr c (fun x => { x with issued := x.issued + 1 })) c { value := BitVec.ofNat 32 v, src := .command n }
          if 0xFFFFFFFF < (s.ctr c).value.toNat + v then .errS t stLimit 0 0 else .ok t 0) n w s

/-- SYNC_READ (R250). -/
def execSyncRead (n : SliceId) (w : Line) (s : State) : Ans :=
  runCmd { op := 0x0505, zero := false, named := [(8, 2)] }
    (fun s n _ w => match counterErr s n (fld w 8 2) 8 true with
      | some e => .err e.1 e.2
      | none => .ok s (payload [(0, 4, (s.ctr (BitVec.ofNat 13 (fld w 8 2))).value.toNat)])) n w s

end Sys2Proof.Machine
end

