-- ==== Sys2Proof/Machine/Cue.lean ====
section
/-! DEFINITION. The cue edge, beats, and scenes opening and closing (R15, R17 to R27, R34, R41, R243 to R249, R276, R311,
R359, R424, R451, R461, R471, R472, R493). -/

namespace Sys2Proof.Machine

/-! ### Overruns at the edge (R25, R244, R246) -/

/-- Jobs of the sheet in force that are still at work at the edge. -/
def lateJobs (s : State) : List Job :=
  s.jobs.filter (fun j => j.bank == s.cue.bank && (j.phase == .running || (j.phase == .queued && hasHeld j)) && !alreadySuspended s j)

/-- A suspended job goes on in the scene of the same index of the sheet that is active now (R246). -/
def carryJobs (s : State) : State :=
  { s with jobs := s.jobs.map (fun j => if suspending s j then { j with bank := s.cue.bank } else j) }

/-- A suspended job whose scene no longer takes it is terminated, with a notice naming the scene (R246). -/
def checkSuspended (s : State) : State :=
  let s := carryJobs s
  let mine (j : Job) : Bool := j.bank == s.cue.bank && (j.phase == .suspended || (j.phase == .running && decide (0 < j.suspensions)))
  let ok (j : Job) : Bool := match sceneOf s j.scene with
    | some sc => sc.slice == j.slice && meetsNeeds sc j.e
    | none => false
  (s.jobs.filter (fun j => mine j && !ok j)).foldl (fun s j => overrunEnd s j 2) s

/-! ### Replacements (R248, R249) -/

/-- The scenes of the active sheet in the order of R31. -/
def scenesByRank (s : State) : List (SceneId × Scene) :=
  let sc := (activeScenes s).zipIdx.map (fun p => ((BitVec.ofNat 5 p.2 : SceneId), p.1))
  [3, 2, 1, 0].flatMap (fun c => sc.filter (fun p => p.2.cls.toNat == c))

/-- A scene names a core: in its mask, or as a replacement. -/
def namesCore (s : State) (p : SceneId × Scene) (c : CoreId) : Bool :=
  p.2.cores.getLsbD c.toNat || s.replaced.any (fun r => r.scene == p.1 && r.by_ == some c)

/-- The first of some cores, one on the lost core's die when there is one. -/
def nearest (lost : CoreId) (cs : List CoreId) : Option CoreId :=
  (cs.find? (fun c => c.toNat / 16 == lost.toNat / 16)) <|> cs.head?

/-- The replacement that a scene receives for a fenced core: a spare core, or one of the lowest-ranked scene below
it that overlaps it, which no scene above it in its window holds (R248). -/
def pickReplacement (s : State) (p : SceneId × Scene) (lost : CoreId) : Option CoreId :=
  let order := scenesByRank s
  let rivals := order.filter (fun q => overlap q.2 p.2)
  let all := (List.range 64).map (BitVec.ofNat 6)
  let spares := all.filter (fun c => !(s.unit (.core c)).fenced && rivals.all (fun q => !namesCore s q c))
  match nearest lost spares with
  | some c => some c
  | none =>
    let below := ((order.dropWhile (fun q => q.1 != p.1)).drop 1).filter (fun q => overlap q.2 p.2)
    let above := (order.takeWhile (fun q => q.1 != p.1)).filter (fun q => overlap q.2 p.2)
    below.reverse.findSome? (fun q => nearest lost (all.filter (fun c =>
      (coresInForce s q.1).contains c && above.all (fun r => !(coresInForce s r.1).contains c))))

/-- A FENCE notice (Table 12-12). -/
def fenceNotice (s : State) (unit : Nat) (by_ : Option CoreId) (scene : Nat) : State :=
  notify s 0 0x11 3 (payload [(0, 2, unit), (2, 2, (by_.map (·.toNat)).getD 0xFFFF), (4, 1, scene)])

/-- One scene's replacements for the cores newly fenced. -/
def replaceIn (new : List CoreId) (s : State) (p : SceneId × Scene) : State :=
  (new.filter (namesCore s p)).foldl (fun s c =>
    let r := pickReplacement s p c
    fenceNotice { s with replaced := s.replaced ++ [{ fenced := c, scene := p.1, by_ := r }] } c.toNat r p.1.toNat) s

/-- A fenced unit that no replacement serves: each scene that names it is told, or 0xFF. -/
def reportFenced (s : State) (u : UnitId) : State :=
  let names (sc : Scene) : Bool := match u with
    | .core c => sc.cores.getLsbD c.toNat
    | .ae a => sc.aes.getLsbD a.toNat
    | .rfe r => sc.rfes.getLsbD r.toNat
  let is := (activeScenes s).zipIdx.filter (fun p => names p.1)
  if is.isEmpty then fenceNotice s (UnitId.code u) none 0xFF
  else match u with
    | .core _ => s
    | _ => is.foldl (fun s p => fenceNotice s (UnitId.code u) none p.2) s

/-- Replacements for every unit fenced since the sheet took its last ones (R248, R249). -/
def takeReplacements (s : State) : State :=
  let new := allUnits.filter (fun u => (s.unit u).fenced && !s.cue.fencedSeen.contains (UnitId.code u))
  let cores := new.filterMap (fun u => match u with
    | .core c => some c
    | _ => none)
  let s := new.foldl reportFenced s
  let s := (scenesByRank s).foldl (replaceIn cores) s
  s.upCue (fun c => { c with fencedSeen := c.fencedSeen ++ new.map UnitId.code })

/-! ### Known-answer frames (R424) -/

/-- A registration is due: its K - 1 preceding cues held no passing run. -/
def kafDue (r : Kaf) : Bool := match r.since with
  | none => true
  | some m => decide (r.k ≤ m)

/-- A run that was queued and never placed did not complete. -/
def dropKaf (s : State) (j : Job) : State := if j.kaf.isSome ∧ j.phase = .queued ∧ ¬ hasHeld j then deschedule s j else s

/-- At an edge, unless the device is PARKED (R480), every registration is a cue older, and one due while its scene is not in the active bank has not
completed. -/
def ageKafs (s : State) : State :=
  let s := (s.jobs.filter (fun j => j.kaf.isSome)).foldl dropKaf s
  let s := if parked s then s else s.upSaf (fun f => { f with kafs := f.kafs.map (fun r => { r with since := r.since.map (· + 1) }) })
  let away (r : Kaf) : Bool := !parked s && kafDue r && (r.bank != s.cue.bank || (sceneOf s r.scene).isNone)
  (s.saf.kafs.filter away).foldl (fun s r => raise s .a { code := 0x12, pkg := some (r.slice, r.handle) }) s

/-- The stored input copied into the job's input buffers, which lie in ascending index. -/
def writeInputs (s : State) (r : Kaf) (p : Package) (e : JobEntry) : State :=
  ((List.range p.bufs.length).filter (fun b => e.inputs.getLsbD b)).foldl (fun (x : State × Bytes) b =>
    match p.bufs[b]? with
    | none => x
    | some d => (writeBy x.1 midStagehand r.slice (.slice r.slice) (p.dataVa + d.offset) (x.2.take d.size), x.2.drop d.size)) (s, getPages s r.pages r.len) |>.1

/-- The job of a due run. -/
def kafJob (s : State) (r : Kaf) (k : Nat) (p : Package) (e : JobEntry) : Job :=
  { id := s.jobNext, slice := r.slice, tag := 0, pos := 0, handle := r.handle, jobIdx := r.jobIdx, e := e, bank := r.bank, scene := r.scene,
    label := ((sceneOf s r.scene).map (·.label)).getD 0, carryOver := false, carryLimit := 0, statusVa := 0, semVa := 0, flagVa := 0, enclave := p.enclave,
    savePages := [], phase := .queued, entries := List.replicate (e.cores + e.aes + e.rfes) {}, suspensions := 0, borrowing := false, kaf := some k,
    startCue := 0, endCue := 0, safetyRaised := false, susCue := none }

/-- The due run of registration k is queued; the runs of a scene stand at its head in the order of registration. A run
whose stored input fails its checks does not complete (R66), nor one of class 3 outside PAIRED mode (R30). -/
def queueKaf (i : SceneId) (s : State) (q : Kaf × Nat) : State :=
  let r := q.1
  match tget none (s.slice r.slice).packages r.handle with
  | none => s
  | some p => match p.jobs[r.jobIdx]? with
    | none => s
    | some e =>
      if r.scene ≠ i ∨ r.bank ≠ s.cue.bank ∨ ¬ kafDue r ∨ r.running.isSome ∨ parked s then s
      else if ¬ mayLoad s e then raise s .a { code := 0x12, pkg := some (r.slice, r.handle) }
      else if ¬ pagesOk s r.pages r.len then
        raise (reportCheckOf s .a midStagehand r.slice false) .a { code := 0x12, pkg := some (r.slice, r.handle) }
      else
        let j := kafJob s r q.2 p e
        let s := writeInputs s r p e
        let mine (x : Job) : Bool := x.kaf.isSome && x.scene == i && x.phase == .queued
        { s with
          jobs := s.jobs.takeWhile mine ++ j :: s.jobs.dropWhile mine
          jobNext := s.jobNext + 1
          saf := { s.saf with kafs := s.saf.kafs.zipIdx.map (fun x => if x.2 = q.2 then { x.1 with running := some j.id } else x.1) } }

/-! ### What begins with a cue -/

/-- Counts and marks of the closed cue (R32, R67, R279, R288, R304, Table 15-8). -/
def resetCounts (s : State) : State :=
  let s := if s.mem.rtExcess = 0 then s else notify s 0 0x12 2 (payload [(0, 8, s.mem.rtExcess)])
  let s := s.upMem (fun m => { m with rtExcess := 0, tagStalls := [], acct := m.acct.map (fun (p : Nat × BwAccount) => (p.1, { p.2 with missedThisCue := false })) })
  let s := s.upFab (fun f => { f with twinUncorrectableCue := 0 })
  let s := s.upNet (fun x => { x with eth := x.eth.map (fun (p : Nat × EthSt) => (p.1, { p.2 with fcs := 0 })) })
  let s := s.upPwr (fun p => { p with throttleTold := false, capTold := false })
  let s := s.upIntake (fun x => { x with cams := x.cams.map (fun (p : Nat × CamSt) => (p.1, { p.2 with fired := false })) })
  s.upCue (fun c => { c with noLend := [], retried := [], reduced := [] })

/-- Regulation windows restart at the edge (R276). -/
def restartWindows (s : State) : State :=
  let s := s.upMem (fun m => { m with window := 0, windowStart := s.now })
  issueTokens s (windowNs s)

/-- A CE_SPLIT or CE_JOIN applies at its edge: slice 0 is told and the command completes (R471, R472). -/
def applySplit (s : State) : State := match s.ctl.waiting with
  | none => s
  | some x =>
    if s.cue.count < x.due then s
    else
      let s := s.upCtl (fun c => { c with split := x.split, waiting := none })
      let s := loopNotice s 0 0 (if x.split then 1 else 2)
      complete s 0 { tag := x.tag, pos := x.pos, op := 0x0908, wait := .commit } 0 0 (payload [(0, 8, s.cue.count.toNat)])

/-- Dies powered again after an emergency rejoin (R493). -/
def rejoinDies (s : State) : State := s.upPwr (fun p => { p with dieOff := p.dieOff &&& ~~~p.rejoin, rejoin := 0 })

/-- The slew notices of an edge (R20, R341). VALUE is positive while edges have still to move later: the target less the
local edge on a lead, the lead's edge less the own one on a follower; the spec gives no sign (DESIGN CHOICE, log
entry 94). -/
def slewNotices (s : State) : State :=
  if s.cue.slewLeft ≠ 0 ∧ ¬ s.cue.slewing then
    sideBand (s.upCue (fun c => { c with slewing := true })) 11 (wrapBits 32 s.cue.slewLeft)
  else if s.cue.slewLeft = 0 ∧ s.cue.slewing then sideBand (s.upCue (fun c => { c with slewing := false })) 12 0
  else s

/-- The count that this edge takes (R19, R312). -/
def edgeCount (s : State) : DWord := s.cue.adopt.getD (if s.cue.running then s.cue.count + 1 else 0)

/-- The last regulation window of the closing cue ends, and a slew of its edges is told (R20, R276). -/
def closeCue (s : State) : State :=
  let s := endWindow s
  if s.cue.running then slewNotices s else s

/-- Step 2 of Table 1-4: the count, and the commits and the bank switch at it. -/
def edgeStep2 (s : State) : State :=
  let k := edgeCount s
  let s := s.upCue (fun c => { c with count := k, adopt := none, last := s.now, beatIdx := 0, starting := false, transitional := false, audited := some [] })
  let s := missCross (applyDue s k)
  applySplit (resetCounts s)

/-- Step 5 of Table 1-4: the jobs that were late at the edge are suspended or terminated, as jobs of the cue that closed; their
notices wait for step 9, which NOTICE_DELIVER performs, or the next edge at the latest (log entry 126). -/
def edgeStep5 (closed : DWord) (late : List Nat) (s : State) : State :=
  ((late.filterMap s.job).foldl (overrunJob closed) (s.upCue (fun c => { c with atEdge := true }))).upCue (fun c => { c with atEdge := false })

/-- With the first edge of a start no cue has closed in which a job was suspended: the counts begin anew (R19, R246). -/
def forgetCues (s : State) : State :=
  if s.cue.running then s else { s with jobs := s.jobs.map (fun j => { j with susCue := none }) }

/-- What an edge does up to step 5 of Table 1-4. -/
def edgeStart (s : State) : State :=
  let s := forgetCues s
  let late := if s.cue.running then (lateJobs s).map (·.id) else []
  edgeStep5 s.cue.count late (edgeStep2 (closeCue (writeOwed s (fun _ => true))))

/-- The lead sends a cue frame at each edge, the one at which its cue stops among them (R311, R312). -/
def leadFrame (s : State) (stops : Bool) : State :=
  if isLead s ∧ s.fab.twinUp then s.emit (.twinCue s.cue.count s.now stops) else s

/-- A cue frame that came before this edge is taken at it (R311). -/
def heldFrame (s : State) : State := match s.cue.frame with
  | none => s
  | some f => followCorrect (s.upCue (fun c => { c with frame := none })) f

/-- The rest of an edge after which the cue runs on. -/
def edgeRun (s : State) (first : Bool) : State :=
  let s := s.upCue (fun c => { c with running := true, edgePeriod := c.period, edgeTb := c.tb })
  let s := if first then sideBand (s.upCtl (fun c => { c with loops := c.loops.map (fun (p : Nat × LoopSt) => (p.1, { p.2 with states := [] })) })) 9 0 else s
  let s := checkSuspended s
  let s := takeReplacements (rejoinDies s)
  let s := ageKafs s
  let s := replan s
  let s := restartWindows s
  heldFrame (leadFrame s false)

/-- CUE_EDGE (R17 to R26): the edge that the generator has planned. -/
def execCueEdge (at_ : Nat) (s : State) : Ans :=
  let first := !s.cue.running
  let s1 := edgeStart (s.at_ at_)
  let s2 := if s.cue.stopping then leadFrame (restartWindows (cueStopped s1)) true else edgeRun s1 first
  doWhen ((s.cue.running || s.cue.starting) && at_ == s.cue.next) s (checkpoint .b (checkpoint .a s2))

/-! ### Beats and scenes -/

/-- BEAT_START (R24, R451): the next beat of the cue starts; periodic gateway frames due in it are sent. -/
def execBeatStart (at_ : Nat) (s : State) : Ans :=
  let b := s.cue.beatIdx
  let s1 := (s.at_ at_).upCue (fun c => { c with beatIdx := b + 1 })
  doWhen (s.cue.running && s.cue.beat != 0 && decide (b < beatCount s) && at_ == s.cue.last + b * s.cue.beat) s (sendPeriodic s1 b)

/-- SCENE_OPEN (R27, R238, R240, R424): due known-answer runs take the head of the queue, and jobs are placed. -/
def execSceneOpen (i : SceneId) (at_ : Nat) (s : State) : Ans :=
  match sceneOf s i with
  | none => did s
  | some sc =>
    let s1 := s.at_ at_
    let s2 := if sc.kaf then s1.saf.kafs.zipIdx.foldl (queueKaf i) s1 else s1
    doWhen (s.cue.running && at_ == s.cue.last + sc.start) s (placeAll (s2.jobs.length + 1) s2 i)

/-- SCENE_CLOSE (R244, R424). -/
def execSceneClose (i : SceneId) (at_ : Nat) (s : State) : Ans :=
  match sceneOf s i with
  | none => did s
  | some sc =>
    let s1 := closeScene (s.at_ at_) i
    let s2 := (s1.jobs.filter (fun j => ofScene s1 i j)).foldl dropKaf s1
    doWhen (s.cue.running && at_ == s.cue.last + sc.start + sc.duration) s s2

end Sys2Proof.Machine
end

