-- ==== Sys2Proof/Machine/Fabric.lean ====
section
/-! DEFINITION. The transaction tracker's responses, die links, raw streams and PLLs (chapter 10). -/

namespace Sys2Proof.Machine

/-- FAR_WRITE_ACK (R287): the write is visible and its tag returns; a response after its timeout is
discarded and counted (R289). -/
def execFarWriteAck (tag : BitVec 16) (s : State) : Ans :=
  doWhen (outOfReset s) s (if s.mem.txns.any (fun t => t.tag = tag ∧ t.write) then
    s.upMem (fun m => { m with txns := m.txns.filter (fun t => t.tag ≠ tag) })
  else s.upMem (fun m => { m with lateResponses := m.lateResponses + 1 }))

/-- The timeout of a transaction: 100 us on the package, 2 ms across the twin link (R289). -/
def Txn.limit (t : Txn) : Nat := if t.crossing then 2000000 else 100000

/-- TRANSACTION_TIMEOUT (R289): the tracker completes the transaction with an error and returns its tag. -/
def execTransactionTimeout (x : TxnTimeout) (s : State) : Ans :=
  match s.mem.txns.find? (fun t => t.tag = x.tag) with
  | some t => doWhen (decide (t.issued + t.limit ≤ x.at_)) s (raiseCode (failTxn (s.at_ x.at_) t 0x11 1) .a 0x0B)
  | none => did s

/-! ### Die links (R293 to R299) -/

def dieCode : DieId → Nat
  | .stage d => d.toNat
  | .wings => 4
  | .floor => 5

/-- The bits of FAB_DIE_STRAP that are not reserved (Table 10-3). -/
def strapFields (w : Word) : Word := w &&& 0x0000F033

/-- FAB_DIE_STRAP of a die, by its code: what it reported, or what its package straps hold (R13, R290). -/
def strapOf (s : State) (i : Nat) : Word := (tget none s.fab.straps i).getD (strapFields (Config.dieStrap i))

def modKey (m : ModId) : Nat := 8 * dieCode m.die + m.idx.toNat

/-- A Stage die has 8 modules, the Wings 2 (R293). -/
def modExists (m : ModId) : Bool := match m.die with
  | .stage _ => true
  | .wings => decide (m.idx.toNat < 2)
  | .floor => false

def State.module (s : State) (m : ModId) : Module := tget {} s.fab.modules (modKey m)
def State.upModule (s : State) (m : ModId) (f : Module → Module) : State :=
  s.upFab (fun x => { x with modules := tup {} x.modules (modKey m) f })

/-- The CRC errors of a lane within the last millisecond. -/
def recentErrors (now : Nat) (ts : List Nat) : List Nat := ts.filter (fun t => decide (now < t + 1000000))

/-- FLIT_CRC_FAIL (R295, R296): the failing flit is negatively acknowledged; the transmitter replays from it up to the last flit
sent, and the receiver discards those that came before the replay. The error counts against its lane. -/
def execFlitCrcFail (f : FlitFail) (s : State) : Ans :=
  let up (x : Module) : Module := { x with
    laneErrors := tup [] x.laneErrors f.lane (fun ts => recentErrors s.now ts ++ [s.now])
    replays := x.replays + (f.last - f.seq + 1) }
  doWhen (outOfReset s && modExists f.mod_ && (s.module f.mod_).up && !(s.module f.mod_).retraining) s
    (((s.upModule f.mod_ up).emit (.linkNak f.mod_ f.seq)).emit (.linkReplay f.mod_ f.seq f.last))

/-- A module starts to retrain (R43, R296). -/
def startRetrain (s : State) (m : ModId) (credit : Bool) : State :=
  let s := (s.upModule m (fun x => { x with retraining := true, creditFault := credit })).emit (.retrain m)
  raise s .a { code := 0x0A, die := some m.die }

/-- A lane of a module has had 16 CRC errors within 1 ms (R296). -/
def laneFails (s : State) (m : ModId) : Bool := (s.module m).laneErrors.any (fun p => decide (16 ≤ (recentErrors s.now p.2).length))

/-- LANE_ERROR_RETRAIN (R296): 16 CRC errors of a lane within 1 ms retrain the module. -/
def execLaneErrorRetrain (m : ModId) (s : State) : Ans :=
  doWhen (laneFails s m && !(s.module m).retraining && modExists m) s (startRetrain s m false)

/-- The lanes that a training maps out: those of the repair fuses first, then those that its lane tests find (R296). Lanes 0 to
63 carry data, 64 to 67 the check, 68 and 69 control, 70 the clock; 71 and 72 are the spares (Table 10-4, log entry 127). -/
def badLanes (s : State) (m : ModId) (tested : List Nat) : List Nat :=
  (tget [] s.fab.laneFuses (modKey m) ++ tested).eraseDups.filter (· < 71)

/-- The spares of a module that can stand for a lane. -/
def goodSpares (s : State) (m : ModId) (tested : List Nat) : Nat :=
  2 - ((tget [] s.fab.laneFuses (modKey m) ++ tested).eraseDups.filter (fun l => l == 71 || l == 72)).length

/-- The module is repaired: its spares serve every lane that is mapped out (R296). -/
def repairs (s : State) (m : ModId) (tested : List Nat) : Bool := decide ((badLanes s m tested).length ≤ goodSpares s m tested)

/-- The credits of a link are initialised again (R40, R43). -/
def initCredits (t : Tbl (Option CreditLoop)) (lo : Nat) : Tbl (Option CreditLoop) :=
  t.map (fun p => (p.1, if lo ≤ p.1 ∧ p.1 < lo + 4 then p.2.map (fun l => { l with held := l.total, ct := 0 }) else p.2))

/-- The island that a die link's faults are reported to: A for the Stage and the floor, B for the Wings (R42). -/
def linkIsland (m : ModId) : IslandId := if m.die = .wings then .b else .a

/-- The credits of virtual channel v of a module that a retrain has initialised again are reported as the fault is
(R42, R43). -/
def creditsAgain (m : ModId) (s : State) (v : Nat) : State :=
  match tget none s.fab.credits (4 * modKey m + v) with
  | none => s
  | some l => conservationNotice s 1 1 (4 * modKey m + v) l.total l.total

/-- LINK_RETRAIN_DONE (R43, R296): the module is repaired, with its credits re-initialised after a failed
audit and that reported under R42; or it is lost, with its die or the curtain. -/
def execLinkRetrainDone (m : ModId) (bad : List Nat) (s : State) : Ans :=
  let x := s.module m
  let ok :=
    let s := s.upModule m (fun x => { x with retraining := false, laneErrors := [], mapped := badLanes s m bad, creditFault := false })
    if x.creditFault then
      let s := s.upFab (fun f => { f with credits := initCredits f.credits (4 * modKey m), auditFaults := f.auditFaults + 1 })
      [0, 1, 2, 3].foldl (creditsAgain m) (raiseCode s (linkIsland m) 0x09)
    else s
  let lost :=
    let s := s.upModule m (fun x => { x with retraining := false, up := false })
    match m.die with
    | .stage d => loseDie s d
    | _ => raise s .b { code := 0x08, die := some m.die }
  doWhen x.retraining s (if repairs s m bad then ok else lost)

/-- A number for each raw stream. -/
def rawCode : RawStream → Nat
  | .cue => 0
  | .safety => 1
  | .control => 2
  | .trace => 3

/-- A stream of Table 10-5 that is sent on two lanes. -/
def doubled (st : RawStream) : Bool := st == .cue || st == .safety

/-- A frame is taken: a CUE frame gives the die its count, at the instant of its first bit (R297). -/
def takeFrame (s : State) (st : RawStream) (d : DieId) (payload : BitVec 64) : State :=
  let s := s.upFab (fun f => { f with rawTaken := tset none f.rawTaken (8 * rawCode st + dieCode d) (some payload) })
  if st = .cue then s.upCue (fun c => { c with
    predicted := tset 0 c.predicted (dieCode d) 0
    dieCount := tset 0 c.dieCount (dieCode d) payload
    dieEdge := tset 0 c.dieEdge (dieCode d) s.now }) else s

/-- RAW_FRAME_RECEIVE (R297): the first copy that passes is taken, failing copies are counted, and both
copies of a duplicated stream failing is reported to island A. -/
def execRawFrameReceive (st : RawStream) (d : DieId) (ok0 ok1 : Bool) (payload : BitVec 64) (s : State) : Ans :=
  let bad := (if ok0 then 0 else 1) + (if doubled st && !ok1 then 1 else 0)
  let t := s.upFab (fun f => { f with rawErrors := f.rawErrors + bad })
  doWhen (outOfReset s) s
    (if ok0 || (doubled st && ok1) then takeFrame t st d payload
     else if doubled st then raise t .a { code := 0x00, die := some d } else t)

/-- A die or the floor is lost (Table 1-2). -/
def loseAny (s : State) (d : DieId) : State := match d with
  | .stage k => loseDie s k
  | .floor => raise (s.upFab (fun f => { f with floorLost := true })) .a { code := 0x07, die := some d }
  | .wings => raise s .b { code := 0x08, die := some d }

/-- CUE_PREDICTED_EDGE (R298): the die applies its predicted edge, a period after its last, increments its count and reports
it; a second one in a row is the loss of the die. The Wings generates the cue and receives no frame. -/
def execCuePredictedEdge (d : DieId) (s : State) : Ans :=
  let k := tget 0 s.cue.predicted (dieCode d) + 1
  let s1 := raise (s.upCue (fun c => { c with
    predicted := tset 0 c.predicted (dieCode d) k
    dieCount := tup 0 c.dieCount (dieCode d) (· + 1)
    dieEdge := tup 0 c.dieEdge (dieCode d) (· + c.period) })) .a { code := 0x10, die := some d }
  doWhen (s.cue.running && d != .wings) s (if 2 ≤ k then loseAny s1 d else s1)

/-- The modules of a die's link (R293). -/
def ownLinks (d : DieId) : List ModId := ((List.range 8).map (fun i => ({ die := d, idx := BitVec.ofNat 3 i } : ModId))).filter modExists

/-- The modules of every die link. -/
def allLinks : List ModId := ([.stage 0, .stage 1, .stage 2, .stage 3, .wings] : List DieId).flatMap ownLinks

/-- The modules of the links that end at a die: its own, and those of every die at the floor (R293). -/
def linksOf (d : DieId) : List ModId :=
  if d = .floor then allLinks else ownLinks d

/-- PLL_LOCK_LOSS (R299): the loss is reported, the die's links go down, and Table 1-2 decides. -/
def execPllLockLoss (d : DieId) (s : State) : Ans :=
  let s1 := (linksOf d).foldl (fun s m => s.upModule m (fun x => { x with up := false })) s
  doWhen (outOfReset s) s (loseAny (s1.upFab (fun f => { f with pllLost := f.pllLost ++ [d] })) d)

end Sys2Proof.Machine
end

