-- ==== Sys2Proof/Machine/Jpeg.lean ====
section
/-! DEFINITION. The JPEG decoder's computation: headers, entropy decoding, the inverse transform and concealment
(R215, R216, R218, R219). -/

namespace Sys2Proof.Machine

/-! ### Headers (R215, Table 7-7) -/

/-- A Huffman table: how many codes of each length from 1 to 16, and their symbols. -/
structure Huff where
  counts : List Nat
  syms : List Nat
  deriving DecidableEq, Repr

/-- A component of the frame, with the tables its scan names. -/
structure JComp where
  id : Nat
  h : Nat
  v : Nat
  tq : Nat
  td : Nat := 0
  ta : Nat := 0
  deriving DecidableEq, Repr

/-- What the headers give. Huffman tables are keyed 2 * class + number. -/
structure JHead where
  w : Nat := 0
  h : Nat := 0
  comps : List JComp := []
  quant : Tbl (List Nat) := []
  huff : Tbl (Option Huff) := []
  restart : Nat := 0
  scan : Nat := 0
  deriving DecidableEq, Repr

/-- A byte of the input; past its end it reads 0, and every reader tests the end first. -/
def jAt (a : Array Byte) (i : Nat) : Nat := (a.getD i 0).toNat
def jAt2 (a : Array Byte) (i : Nat) : Nat := 256 * jAt a i + jAt a (i + 1)

/-- The quantisation tables of a DQT segment from `p` to `e`. -/
def readDqt (a : Array Byte) : Nat → Nat → Nat → JHead → Option JHead
  | 0, _, _, _ => none
  | fuel + 1, p, e, x =>
    if p = e then some x
    else if e < p + 65 ∨ 3 < jAt a p then none
    else readDqt a fuel (p + 65) e { x with quant := tset [] x.quant (jAt a p) ((List.range 64).map (fun i => jAt a (p + 1 + i))) }

/-- The counts of a Huffman table leave every code a place. -/
def huffFits : Nat → List Nat → Bool
  | _, [] => true
  | room, c :: cs => decide (c ≤ 2 * room) && huffFits (2 * room - c) cs

/-- The Huffman tables of a DHT segment. -/
def readDht (a : Array Byte) : Nat → Nat → Nat → JHead → Option JHead
  | 0, _, _, _ => none
  | fuel + 1, p, e, x =>
    if p = e then some x
    else
      let counts := (List.range 16).map (fun i => jAt a (p + 1 + i))
      let n := counts.foldl (· + ·) 0
      if e < p + 17 + n ∨ 1 < jAt a p / 16 ∨ 1 < jAt a p % 16 ∨ 256 < n ∨ ¬ huffFits 1 counts then none
      else
        let t : Huff := { counts := counts, syms := (List.range n).map (fun i => jAt a (p + 17 + i)) }
        readDht a fuel (p + 17 + n) e { x with huff := tset none x.huff (2 * (jAt a p / 16) + jAt a p % 16) (some t) }

/-- SOF0: the sizes and components, or the reason it is rejected with. -/
def readSof (a : Array Byte) (p e : Nat) (x : JHead) : Except Nat JHead :=
  let n := jAt a (p + 5)
  if e < p + 6 ∨ ¬ x.comps.isEmpty then .error 5
  else if jAt a p ≠ 8 then .error 1
  else if n ≠ 1 ∧ n ≠ 3 then .error 2
  else if e ≠ p + 6 + 3 * n then .error 5
  else
    let cs := (List.range n).map (fun i => ({ id := jAt a (p + 6 + 3 * i), h := jAt a (p + 7 + 3 * i) / 16, v := jAt a (p + 7 + 3 * i) % 16, tq := jAt a (p + 8 + 3 * i) } : JComp))
    let y := cs.headD { id := 0, h := 0, v := 0, tq := 0 }
    if ¬ [(1, 1), (2, 1), (2, 2)].contains (y.h, y.v) ∨ (cs.drop 1).any (fun c => c.h != 1 || c.v != 1) then .error 3
    else if cs.any (fun c => decide (3 < c.tq)) then .error 5
    else .ok { x with h := jAt2 a (p + 1), w := jAt2 a (p + 3), comps := cs }

/-- SOS: one scan that holds every component, with tables that exist. -/
def readSos (a : Array Byte) (p e : Nat) (x : JHead) : Except Nat JHead :=
  let n := jAt a p
  if e ≤ p ∨ x.comps.isEmpty then .error 5
  else if n ≠ x.comps.length then .error 4
  else if e ≠ p + 4 + 2 * n ∨ jAt a (p + 1 + 2 * n) ≠ 0 ∨ jAt a (p + 2 + 2 * n) ≠ 63 ∨ jAt a (p + 3 + 2 * n) ≠ 0 then .error 5
  else
    let cs := x.comps.zipIdx.map (fun c => { c.1 with td := jAt a (p + 2 + 2 * c.2) / 16, ta := jAt a (p + 2 + 2 * c.2) % 16 })
    let good (c : JComp × Nat) : Bool := jAt a (p + 1 + 2 * c.2) == c.1.id && decide (c.1.td ≤ 1) && decide (c.1.ta ≤ 1) &&
      (tget none x.huff c.1.td).isSome && (tget none x.huff (2 + c.1.ta)).isSome && !(tget [] x.quant c.1.tq).isEmpty
    if cs.zipIdx.all good then .ok { x with comps := cs, scan := e } else .error 5

/-- A marker that starts a frame other than SOF0. -/
def otherSof (m : Nat) : Bool := decide (0xC1 ≤ m) && decide (m ≤ 0xCF) && m != 0xC4 && m != 0xC8 && m != 0xCC

/-- The segments from `p`, up to the start of the scan: the headers, or the reason of the rejection. -/
def readSegments (a : Array Byte) : Nat → Nat → JHead → Except Nat JHead
  | 0, _, _ => .error 5
  | fuel + 1, p, x =>
    let m := jAt a (p + 1)
    let len := jAt2 a (p + 2)
    let e := p + 2 + len
    if a.size < p + 2 ∨ jAt a p ≠ 0xFF then .error 5
    else if m = 0xFF then readSegments a fuel (p + 1) x
    else if otherSof m then .error 1
    else if ¬ (m = 0xC0 ∨ m = 0xC4 ∨ m = 0xDA ∨ m = 0xDB ∨ m = 0xDD ∨ m = 0xFE ∨ (0xE0 ≤ m ∧ m ≤ 0xEF)) then .error 5
    else if a.size < p + 4 ∨ len < 2 ∨ a.size < e then .error 5
    else if m = 0xC0 then (match readSof a (p + 4) e x with
      | .ok y => readSegments a fuel e y
      | .error r => .error r)
    else if m = 0xC4 then (match readDht a (len + 1) (p + 4) e x with
      | some y => readSegments a fuel e y
      | none => .error 5)
    else if m = 0xDB then (match readDqt a (len + 1) (p + 4) e x with
      | some y => readSegments a fuel e y
      | none => .error 5)
    else if m = 0xDD then (if len = 4 then readSegments a fuel e { x with restart := jAt2 a (p + 4) } else .error 5)
    else if m = 0xDA then readSos a (p + 4) e x
    else readSegments a fuel e x

/-- The headers of an image. -/
def readHead (a : Array Byte) : Except Nat JHead := if jAt2 a 0 = 0xFFD8 then readSegments a a.size 2 {} else .error 5

/-! ### Entropy decoding -/

/-- Where the reader stands: the next byte, and the bits left of the last one. -/
structure JPos where
  p : Nat
  bits : Nat := 0
  n : Nat := 0
  deriving DecidableEq, Repr

/-- The next bit, unless the data has ended at a marker or at the end of the input. -/
def jBit (a : Array Byte) (r : JPos) : Option (Nat × JPos) :=
  if 0 < r.n then some (r.bits / 2 ^ (r.n - 1) % 2, { r with n := r.n - 1 })
  else if a.size ≤ r.p then none
  else
    let b := jAt a r.p
    if b ≠ 0xFF then some (b / 128, { p := r.p + 1, bits := b, n := 7 })
    else if r.p + 1 < a.size ∧ jAt a (r.p + 1) = 0 then some (1, { p := r.p + 2, bits := b, n := 7 })
    else none

/-- `k` bits as a number; where the reader stands also when the data ends. -/
def jBits (a : Array Byte) : Nat → Nat → JPos → Option Nat × JPos
  | 0, v, r => (some v, r)
  | k + 1, v, r => match jBit a r with
    | some (b, r) => jBits a k (2 * v + b) r
    | none => (none, r)

/-- The next symbol: `code` and `first` are those of the length reached, `idx` the codes of shorter lengths. -/
def jSymFrom (a : Array Byte) (t : Huff) : List Nat → Nat → Nat → Nat → JPos → Option Nat × JPos
  | [], _, _, _, r => (none, r)
  | c :: cs, code, first, idx, r => match jBit a r with
    | none => (none, r)
    | some (b, r) =>
      let code := 2 * code + b
      if code < first + c then (some (t.syms.getD (idx + (code - first)) 0), r)
      else jSymFrom a t cs code (2 * (first + c)) (idx + c) r

def jSym (a : Array Byte) (t : Huff) (r : JPos) : Option Nat × JPos := jSymFrom a t t.counts 0 0 0 r

/-- The signed value of `k` bits (ITU-T T.81, EXTEND). -/
def jExtend (k v : Nat) : Int := if k = 0 then 0 else if v < 2 ^ (k - 1) then (v : Int) - (2 ^ k : Nat) + 1 else v

/-- A signed value of `k` bits read. -/
def jValue (a : Array Byte) (k : Nat) (r : JPos) : Option Int × JPos :=
  let x := jBits a k 0 r
  (x.1.map (jExtend k), x.2)

/-- The AC coefficients from index `k`: pairs of index in zigzag order and value. -/
def jAc (a : Array Byte) (t : Huff) : Nat → Nat → List (Nat × Int) → JPos → Option (List (Nat × Int)) × JPos
  | 0, _, acc, r => (some acc, r)
  | fuel + 1, k, acc, r =>
    if 64 ≤ k then (some acc, r)
    else match jSym a t r with
      | (none, r) => (none, r)
      | (some rs, r) =>
        let run := rs / 16
        let size := rs % 16
        if rs = 0 then (some acc, r)
        else if rs = 0xF0 then (if 48 < k then (none, r) else jAc a t fuel (k + 16) acc r)
        else if size = 0 ∨ 10 < size ∨ 63 < k + run then (none, r)
        else match jValue a size r with
          | (none, r) => (none, r)
          | (some v, r) => jAc a t fuel (k + run + 1) ((k + run, v) :: acc) r

/-- The place (row, column) of each index of the zigzag order. -/
def zigzag : List (Nat × Nat) :=
  (List.range 15).flatMap (fun d =>
    let cells := ((List.range (d + 1)).map (fun i => (i, d - i))).filter (fun p => decide (p.1 < 8) && decide (p.2 < 8))
    if d % 2 = 0 then cells.reverse else cells)

/-- c of R218. -/
def cosTable : List Int := [8192, 8035, 7568, 6811, 5793, 4551, 3135, 1598, 0]

/-- t() of R218. -/
def cosTerm (x u : Nat) : Int :=
  if u = 0 then 5793
  else
    let k := (2 * x + 1) * u % 32
    let k := if 16 < k then 32 - k else k
    if 8 < k then -(cosTable.getD (16 - k) 0) else cosTable.getD k 0

/-- pixel() of R218: the 64 samples of a block from its dequantised coefficients, in raster order. -/
def idct (f : List (Nat × Nat × Int)) : List Nat :=
  (List.range 64).map (fun i =>
    let sum := f.foldl (fun (z : Int) q => z + cosTerm (i / 8) q.1 * cosTerm (i % 8) q.2.1 * q.2.2) 0
    (max 0 (min 255 (rneDiv sum (2 ^ 28) + 128))).toNat)

/-- A block of component `c`: its samples and its DC prediction, or where the decoder stands when it cannot. -/
def jBlock (a : Array Byte) (x : JHead) (c : JComp) (pred : Int) (r : JPos) : Option (List Nat × Int) × JPos :=
  match tget none x.huff c.td, tget none x.huff (2 + c.ta) with
  | some dc, some ac => match jSym a dc r with
    | (none, r) => (none, r)
    | (some k, r) =>
      if 11 < k then (none, r)
      else match jValue a k r with
        | (none, r) => (none, r)
        | (some v, r) => match jAc a ac 64 1 [] r with
          | (none, r) => (none, r)
          | (some cs, r) =>
            let q := tget [] x.quant c.tq
            let f := ((0, pred + v) :: cs).map (fun p => ((zigzag.getD p.1 (0, 0)).1, (zigzag.getD p.1 (0, 0)).2, p.2 * (q.getD p.1 0 : Int)))
            (some (idct f, pred + v), r)
  | _, _ => (none, r)

/-- The components of an MCU's blocks in order, by index: a scan of one component has one block (ITU-T T.81). -/
def mcuPlan (x : JHead) : List Nat :=
  if x.comps.length = 1 then [0] else x.comps.zipIdx.flatMap (fun c => List.replicate (c.1.h * c.1.v) c.2)

/-- An MCU's blocks. `preds` are the DC predictions by component. -/
def jMcu (a : Array Byte) (x : JHead) : List Nat → List Int → List (List Nat) → JPos → Option (List (List Nat) × List Int) × JPos
  | [], preds, acc, r => (some (acc.reverse, preds), r)
  | c :: cs, preds, acc, r => match jBlock a x (x.comps.getD c { id := 0, h := 1, v := 1, tq := 0 }) (preds.getD c 0) r with
    | (none, r) => (none, r)
    | (some (b, d), r) => jMcu a x cs (preds.set c d) (b :: acc) r

/-! ### Concealment (R219) -/

/-- The picture as far as it is decoded: its MCUs with the newest first, none where concealed, the first error with
its byte and MCU, and where the reader stands. -/
structure JRun where
  mcus : List (Option (List (List Nat))) := []
  err : Option (Nat × Nat) := none
  r : JPos
  preds : List Int := [0, 0, 0]
  failed : Bool := false
  deriving DecidableEq, Repr

/-- A restart marker stands here. -/
def isRst (a : Array Byte) (p : Nat) : Bool := jAt a p == 0xFF && decide (0xD0 ≤ jAt a (p + 1)) && decide (jAt a (p + 1) ≤ 0xD7)

/-- The next restart marker at or after `p`, or where the data ends: at EOI or at the end of the input. -/
def nextRst (a : Array Byte) : Nat → Nat → Nat
  | 0, p => p
  | fuel + 1, p => if a.size ≤ p ∨ isRst a p ∨ (jAt a p = 0xFF ∧ jAt a (p + 1) = 0xD9) then p else nextRst a fuel (p + 1)

/-- A boundary of restart intervals before MCU `i`: after a failure the decoder resumes at the next restart marker;
otherwise the marker of the interval must stand here. -/
def jRestart (a : Array Byte) (x : JHead) (i : Nat) (s : JRun) : JRun :=
  if s.failed then
    let p := nextRst a a.size s.r.p
    if isRst a p then { s with r := { p := p + 2 }, preds := [0, 0, 0], failed := false } else { s with r := { p := p } }
  else if jAt a s.r.p = 0xFF ∧ jAt a (s.r.p + 1) = 0xD0 + (i / x.restart - 1) % 8 then { s with r := { p := s.r.p + 2 }, preds := [0, 0, 0] }
  else
    let skip := if isRst a s.r.p then 2 else 0
    { s with err := s.err <|> some (s.r.p, i), r := { p := s.r.p + skip }, failed := true }

/-- MCU `i`, decoded or concealed. -/
def jStep (a : Array Byte) (x : JHead) (s : JRun) (i : Nat) : JRun :=
  let s := if x.restart ≠ 0 ∧ i ≠ 0 ∧ i % x.restart = 0 then jRestart a x i s else s
  if s.failed then { s with mcus := none :: s.mcus }
  else match jMcu a x (mcuPlan x) s.preds [] s.r with
    | (some (bs, ps), r) => { s with mcus := some bs :: s.mcus, r := r, preds := ps }
    | (none, r) => { s with mcus := none :: s.mcus, r := r, failed := true, err := s.err <|> some (if 0 < r.n then r.p - 1 else r.p, i) }

/-- The size of an MCU in pixels. -/
def mcuSize (x : JHead) : Nat × Nat := match x.comps with
  | [_] => (8, 8)
  | c :: _ => (8 * c.h, 8 * c.v)
  | [] => (8, 8)

def mcuCols (x : JHead) : Nat := (x.w + (mcuSize x).1 - 1) / (mcuSize x).1
def mcuCount (x : JHead) : Nat := mcuCols x * ((x.h + (mcuSize x).2 - 1) / (mcuSize x).2)

/-- The first `k` MCUs decoded. -/
def jDecode (a : Array Byte) (x : JHead) (k : Nat) : JRun := (List.range k).foldl (jStep a x) { r := { p := x.scan } }

/-! ### The picture (R218) -/

/-- A sample of component `c` at a pixel; a concealed MCU is 128. -/
def jSample (x : JHead) (mcus : Array (Option (List (List Nat)))) (c y px : Nat) : Nat :=
  let sz := mcuSize x
  match mcus.getD (y / sz.2 * mcuCols x + px / sz.1) none with
  | none => 128
  | some bs =>
    let grey := x.comps.length == 1
    let k := x.comps.getD c { id := 0, h := 1, v := 1, tq := 0 }
    let h := if grey then 1 else k.h
    let v := if grey then 1 else k.v
    let cy := y % sz.2 * v * 8 / sz.2
    let cx := px % sz.1 * h * 8 / sz.1
    let base := (((x.comps.take c).map (fun k => k.h * k.v)).foldl (· + ·) 0)
    (bs.getD (base + cy / 8 * h + cx / 8) []).getD (cy % 8 * 8 + cx % 8) 0

/-- R, G and B of a pixel, or its grey (R218). -/
def jColour (x : JHead) (mcus : Array (Option (List (List Nat)))) (c y px : Nat) : Nat :=
  let l : Int := (jSample x mcus 0 y px : Int)
  if x.comps.length = 1 then l.toNat
  else
    let cb : Int := (jSample x mcus 1 y px : Int) - 128
    let cr : Int := (jSample x mcus 2 y px : Int) - 128
    let v := if c = 0 then l + rneDiv (91881 * cr) 65536 else if c = 1 then l - rneDiv (22554 * cb + 46802 * cr) 65536 else l + rneDiv (116130 * cb) 65536
    (max 0 (min 255 v)).toNat

end Sys2Proof.Machine
end

