-- ==== Sys2Proof/Machine/PyotosGroup.lean ====
section
/-! DEFINITION. The commands that write staged groups, and the time and loop commands beside them
(R191, R196, R201, R398, R436, R437, R445, R455, R465 to R470, Tables 12-8 and 12-9). -/

namespace Sys2Proof.Machine

/-- A structure that breaks its table: RESERVED or BAD_VALUE at its offset (Table 12-4). -/
def setErr (e : Bool × Nat) : Res := .err (if e.1 then stReserved else stBadValue) (inStruct e.2)

/-- A resource number in a field, in range and owned by the issuer (R348). -/
def withOwned (s : State) (n : SliceId) (kind idx count off : Nat) (k : Res) : Res :=
  if count ≤ idx then .err stBadValue off
  else if ownerSlice s kind (if kind = 2 then idx / 256 else idx) ≠ n then .err stDenied off
  else k

/-- The structure of a whole group, checked and written into its shadow. -/
def writeSet (s : State) (n : SliceId) (w : Line) (g detail len : Nat) (err : BitVec 4608 → Option (Bool × Nat)) : Res :=
  withStruct s n w 16 len (fun s bs =>
    let x := bytesAtOff bs 0 0
    match err x with
    | some e => setErr e
    | none => writeShadow s g detail x)

/-- CAM_SET (R201). -/
def execCamSet (n : SliceId) (w : Line) (s : State) : Ans :=
  runCmd { op := 0x0703, zero := false, named := [(8, 1), (16, 8)] }
    (fun s n _ w => withOwned s n 1 (fld w 8 1) 16 8
      (writeSet s n w (7 * 0x1000000 + fld w 8 1) 8 128 (fun x => camErr (camOf x)))) n w s

/-- Part of a shadow replaced by a structure. -/
def patchSet (s : State) (n : SliceId) (w : Line) (g off : Nat) (err : BitVec 512 → Option (Bool × Nat)) : Res :=
  withStruct s n w 16 64 (fun s bs => match err (BitVec.ofNat 512 (leNat bs)) with
    | some e => setErr e
    | none => writeShadow s g 8 (bytesAtOff bs off (s.group g).shadow))

/-- HEAD_SET (R191, Table 12-11). -/
def execHeadSet (n : SliceId) (w : Line) (s : State) : Ans :=
  runCmd { op := 0x0801, zero := false, named := [(8, 1), (16, 8)] }
    (fun s n _ w => withOwned s n 0 (fld w 8 1) 4 8
      (patchSet s n w (6 * 0x1000000 + fld w 8 1) 0 (fun x => headErr (BitVec.ofNat 4608 x.toNat) (fld w 8 1)))) n w s

/-- LAYER_SET (R191, Table 6-11). -/
def execLayerSet (n : SliceId) (w : Line) (s : State) : Ans :=
  runCmd { op := 0x0802, zero := false, named := [(8, 1), (9, 1), (16, 8)] }
    (fun s n _ w => withOwned s n 0 (fld w 8 1) 4 8
      (if 7 < fld w 9 1 then .err stBadValue 9
       else patchSet s n w (6 * 0x1000000 + fld w 8 1) (64 + 64 * fld w 9 1) layerErr)) n w s

/-- The pages of a fallback surface written and held for a head; those of an earlier one are released (R196). -/
def loadFallback (s : State) (h : HeadId) (layer : BitVec 512) (va : Nat) (bs : Bytes) : Res :=
  let k := (bs.length + 65535) / 65536
  let ps := pickPages s k false
  if ps.length < k then .err (if k ≤ ps.length + uninitPages s false then stNotReady else stNoResource) 0
  else
    let old := ((tget {} s.heads h.toNat).fallback.map (·.pages)).getD []
    let s := grantPages s ps { typ := .pyotos }
    let s := putPages s ps bs
    let s := s.upHead h (fun x => { x with fallback := some { layer := layer, pages := ps, base := va, len := bs.length } })
    .ok (releasePages s old) 0

/-- FALLBACK_LOAD (R196). -/
def execFallbackLoad (n : SliceId) (w : Line) (s : State) : Ans :=
  runCmd { op := 0x0803, zero := false, named := [(8, 1), (16, 8), (24, 8), (32, 4)] }
    (fun s n _ w => withOwned s n 0 (fld w 8 1) 4 8
      (if fld w 32 4 = 0 then .err stBadValue 32
       else if parked s then .err stRefused 0
       else withStruct s n w 16 64 (fun s ls => match layerErr (BitVec.ofNat 512 (leNat ls)) with
         | some e => setErr e
         | none => withStruct s n w 24 (fld w 32 4) (fun s bs =>
             loadFallback s (BitVec.ofNat 2 (fld w 8 1)) (BitVec.ofNat 512 (leNat ls)) (fld w 24 8) bs)))) n w s

/-- The routes of a table: their sets by group, or the first that breaks its rules. -/
def routeTable (bs : Bytes) (first count : Nat) : Except (Bool × Nat) (List (Nat × BitVec 4608)) :=
  let rs := (List.range count).map (fun i => (i, bytesAtOff ((bs.drop (64 * i)).take 64) 0 0))
  match rs.findSome? (fun p => (routeErr p.2).map (fun e => (e.1, 64 * p.1 + e.2))) with
  | some e => .error e
  | none => .ok (rs.map (fun p => (8 * 0x1000000 + first + p.1, p.2)))

/-- ROUTE_SET (R445). -/
def execRouteSet (n : SliceId) (w : Line) (s : State) : Ans :=
  runCmd { op := 0x0901, zero := false, named := [(8, 2), (10, 2), (16, 8)] }
    (fun s n _ w =>
      let first := fld w 8 2
      let count := fld w 10 2
      if count < 1 ∨ 256 < count ∨ 256 < first % 256 + count then .err stBadValue 10
      else withOwned s n 2 first 4096 8 (withStruct s n w 16 (64 * count) (fun s bs => match routeTable bs first count with
        | .error e => setErr e
        | .ok rs =>
          if rs.any (fun p => locked s p.1) then .err stBusy 8
          else .ok (rs.foldl (fun s p => s.upGroup p.1 (fun x => { x with shadow := p.2, written := true })) s) 0))) n w s

/-- TIMEBASE_SET (R436, R437). -/
def execTimebaseSet (n : SliceId) (w : Line) (s : State) : Ans :=
  runCmd { op := 0x0902, zero := true, named := [(8, 1), (16, 8)] }
    (fun s n _ w =>
      if 3 < fld w 8 1 then .err stBadValue 8
      else withStruct s n w 16 64 (fun s bs =>
        let x := bytesAtOff bs 0 0
        if fld w 8 1 = 3 ∧ inRange 1 (tbSource x) 3 then .err stRefused 0
        else match timebaseErr x (fld w 8 1) with
          | some e => setErr e
          | none => writeShadow s (5 * 0x1000000 + fld w 8 1) 8 x)) n w s

/-- TIME_SET (R436, R439). -/
def execTimeSet (n : SliceId) (w : Line) (s : State) : Ans :=
  runCmd { op := 0x0903, zero := true, named := [(8, 1), (16, 8)] }
    (fun s _ _ w =>
      let tb := fld w 8 1
      if 3 < tb then .err stBadValue 8
      else if tb = 3 then .err stRefused 0
      else .ok (stepBase s tb ((fld w 16 8 : Int) - (tbNow s tb : Int))) 0) n w s

/-- TIME_READ (R440). -/
def execTimeRead (n : SliceId) (w : Line) (s : State) : Ans :=
  runCmd { op := 0x0904, zero := false, named := [(8, 1)] }
    (fun s _ _ w =>
      if 3 < fld w 8 1 then .err stBadValue 8
      else .ok s (payload [(0, 8, tbNow s (fld w 8 1)), (8, 1, (s.tb (fld w 8 1)).st.toNat)])) n w s

/-- SAFETY_POLICY (R398). -/
def execSafetyPolicy (n : SliceId) (w : Line) (s : State) : Ans :=
  runCmd { op := 0x0A01, zero := true, named := [(16, 8)] }
    (fun s n _ w => writeSet s n w (4 * 0x1000000) 8 256 safetyErr) n w s

/-! ### Loops -/

/-- LOOP_SET (R8, R9, R455): reserved bits and encodings that Table 16-1 does not define are refused here, the rest by
COMMIT (R454). -/
def execLoopSet (n : SliceId) (w : Line) (s : State) : Ans :=
  runCmd { op := 0x0905, zero := false, named := [(8, 1), (16, 8)] }
    (fun s n _ w => withOwned s n 3 (fld w 8 1) 32 8
      (writeSet s n w (9 * 0x1000000 + fld w 8 1) 8 320 loopUndefined)) n w s

/-- The order of the state-space stage that a slot belongs to. -/
def slotOrder (s : State) (l k : Nat) : Nat :=
  (((stagesOf (lpWords (loopSet s l))).getD []).find? (fun p => decide (p.1 ≤ k) && decide (k < p.1 + p.2))).elim 1 (·.2)

/-- The body of LOOP_COEFF (R465). -/
def loopCoeff : Body := fun s n f w =>
  let l := fld w 8 1
  let k := fld w 9 1
  let x : BitVec 128 := BitVec.ofNat 128 (fld w 16 16)
  let c := lpWord (loopSet s l) k
  let g := 9 * 0x1000000 + l
  withOwned s n 3 l 32 8
    (if 7 < k then .err stBadValue 9
     else if ¬ wordOk x (slotOrder s l k) then .err stBadValue 16
     else if locked s g ∨ ((s.loop l).tuning.map (·.relay)).getD false then .err stBusy 8
     else if (s.loop l).mode = .off ∨ loopSafe s l (loopSet s l) ∨ lpStages (loopSet s l) ≤ k ∨ swType x ≠ swType c ∨ swOrder x ≠ swOrder c then .err stRefused 0
     else
       let s := s.upGroup g (fun y => { y with shadow := setFld y.shadow (192 + 16 * k) 16 x.toNat, written := true })
       .wait (s.upLoop l (fun y => { y with coeffs := y.coeffs ++ [{ stage := k, word := x, at_ := s.now, tag := f.tag, pos := f.pos, slice := n }] })) .commit)

/-- LOOP_COEFF (R465). -/
def execLoopCoeff (n : SliceId) (w : Line) (s : State) : Ans :=
  runCmd { op := 0x0906, zero := false, named := [(8, 1), (9, 1), (16, 16)] } loopCoeff n w s

/-- Opcode 0x0907: LOOP_TUNE and its body fields. -/
def tuneSpec (mine : Line → Bool) : CmdSpec := { op := 0x0907, zero := false, named := [(8, 1), (9, 1), (16, 8), (24, 8)], mine := mine }

/-- LOOP_TUNE MODE 0 (R468): a running tuning ends with STATUS 2. A MODE above 2 is no mode. -/
def execLoopTuneStop (n : SliceId) (w : Line) (s : State) : Ans :=
  runCmd (tuneSpec (fun w => fld w 9 1 != 1 && fld w 9 1 != 2))
    (fun s n _ w => withOwned s n 3 (fld w 8 1) 32 8
      (if fld w 9 1 ≠ 0 then .err stBadValue 9 else .ok (endTuning s (fld w 8 1) 2) 0)) n w s

/-- The rules of Table 16-6 for a mode. -/
def tuneErr (t : Line) (relay : Bool) : Option (Bool × Nat) :=
  if fld t 3 1 ≠ 0 then some (true, 3)
  else if fld t 21 3 ≠ 0 then some (true, 21)
  else if fld t 45 19 ≠ 0 then some (true, 45)
  else if relay then
    (if ¬ inRange 1 (fld t 8 4) 16777216 then some (false, 8)
     else if ¬ inRange 1 (fld t 36 4) 2147483647 then some (false, 36)
     else if 2147483647 < fld t 40 4 then some (false, 40)
     else if ¬ inRange 2 (fld t 44 1) 64 then some (false, 44)
     else none)
  else if 1 < fld t 0 1 then some (false, 0)
  else if 1 < fld t 1 1 then some (false, 1)
  else if 7 < fld t 2 1 then some (false, 2)
  else if ¬ inRange 1 (fld t 4 4) 1073741824 then some (false, 4)
  else if ¬ inRange 1 (fld t 8 4) 16384 then some (false, 8)
  else if fld t 0 1 = 1 ∧ fld t 20 1 = 0 then some (false, 20)
  else none

/-- A tuning that the loop's state refuses (R468). -/
def tuneRefusal (s : State) (l : Nat) (relay : Bool) : Option (Nat × Nat) :=
  let w := loopSet s l
  if (s.loop l).tuning.isSome then some (stBusy, 8)
  else if lpClass w = 3 ∨ s.saf.curtain then some (0x16, 0)
  else if lpInternal w != relay ∨ (s.loop l).mode ≠ .run ∨ loopSafe s l w then some (stRefused, 0)
  else none

/-- LOOP_TUNE MODE 1 or 2 (R468): the tuning starts, and the command waits for its end. -/
def loopTune (relay : Bool) : Body := fun s n _ w =>
  let l := fld w 8 1
  withOwned s n 3 l 32 8 (withStruct s n w 16 64 (fun s bs =>
    let t : Line := BitVec.ofNat 512 (leNat bs)
    match tuneErr t relay with
    | some e => setErr e
    | none => withDest s n w 24 (if relay then 32 else 16 * fld t 8 4) (fun dest => match tuneRefusal s l relay with
      | some e => .err e.1 e.2
      | none => .wait (s.upLoop l (fun x => { x with
          mode := .tune
          tuning := some { relay := relay, w := t, dest := dest, slice := n, n := 0, phi := 0, recs := [], last := tget 0 x.outs 0, ups := [], es := [] } }))
          (.tune (BitVec.ofNat 5 l)))))

/-- LOOP_TUNE MODE 1 (R469). -/
def execLoopTuneInject (n : SliceId) (w : Line) (s : State) : Ans := runCmd (tuneSpec (fun w => fld w 9 1 == 1)) (loopTune false) n w s

/-- LOOP_TUNE MODE 2 (R470). -/
def execLoopTuneRelay (n : SliceId) (w : Line) (s : State) : Ans := runCmd (tuneSpec (fun w => fld w 9 1 == 2)) (loopTune true) n w s

end Sys2Proof.Machine
end

