-- ==== Sys2Proof/Machine/Commits.lean ====
section
/-! DEFINITION. COMMIT and CANCEL (R34 to R38, R354, R355). -/

namespace Sys2Proof.Machine

/-- How many groups a kind has (Table 12-5); 0 for no kind. -/
def kindCount (k : Nat) : Nat := [0, 1, 1, 1, 1, 4, 4, 16, 4096, 32].getD k 0

/-- The slice that writes a group's shadow (Table 12-5). -/
def groupWriter (s : State) (g : Nat) : SliceId :=
  let i := groupIdx g
  match groupKind g with
  | 6 => ownerSlice s 0 i
  | 7 => ownerSlice s 1 i
  | 8 => ownerSlice s 2 (i / 256)
  | 9 => ownerSlice s 3 i
  | _ => 0

/-- A GROUP word at an offset: reserved bits, kind and index, writer (R354). -/
def groupErr (s : State) (n : SliceId) (g off : Nat) : Option (Nat × Nat) :=
  if bits g 23 16 ≠ 0 then some (stReserved, off)
  else if kindCount (groupKind g) ≤ groupIdx g then some (stBadValue, off)
  else if groupWriter s g ≠ n then some (stDenied, off)
  else none

/-- The group's row allows the commit's mode (Table 12-5). -/
def modeAllowed (k mode target : Nat) : Bool :=
  if k = 1 then mode == 1 else if k = 3 then mode == 1 && target != 0 else if k = 6 then mode == 0 else true

/-- The GROUP words of a COMMIT. -/
def commitGroups (w : Line) : List Nat := (List.range (fld w 9 1)).map (fun i => fld w (24 + 4 * i) 4)

/-- The first group that a COMMIT may not name so, in the order of the words. -/
def commitErr (s : State) (n : SliceId) (w : Line) : Option (Nat × Nat) :=
  let gs := commitGroups w
  gs.zipIdx.findSome? (fun p =>
    let off := 24 + 4 * p.2
    match groupErr s n p.1 off with
    | some e => some e
    | none =>
      if (gs.take p.2).contains p.1 then some (stBadValue, off)
      else if ¬ modeAllowed (groupKind p.1) (fld w 8 1) (fld w 16 8) then some (stRefused, off)
      else if locked s p.1 then some (stBusy, off)
      else none)

/-- The far lock under which two packages agree a commit (R38, R309). -/
def commitLine (n : SliceId) (f : Flight) : Nat := 128 * f.pos.toNat + n.toNat

/-- A commit that passed its validation is accepted (R34, R35, R38, R355). -/
def acceptCommit (s : State) (n : SliceId) (f : Flight) (w : Line) (items : List (Nat × BitVec 4608)) : Res :=
  let target := fld w 16 8
  let c : Commit := {
    slice := n
    groups := items.map (fun p => BitVec.ofNat 32 p.1)
    sets := items.map (·.2)
    atCue := fld w 8 1 == 1
    due := dueCount s
    target := if target = 0 then none else some (BitVec.ofNat 64 target)
    twinAgreed := false
    tag := f.tag
    pos := f.pos
    at_ := s.now }
  let t := { s with commits := s.commits ++ [c] }
  if target ≠ 0 then
    (if ¬ paired s ∨ ¬ s.fab.twinUp then .err stTwin 0
     else
       let op : FarOp := { line := commitLine n f, requested := s.now, pos := f.pos, slice := n }
       .wait ((t.upFab (fun x => { x with ops := x.ops ++ [op] })).emit (.farRequest (commitLine n f))) .twinAgree)
  else if c.atCue then .ok t (payload [(0, 8, c.due.toNat)])
  else .wait t .commit

/-- The body of COMMIT. -/
def commitBody : Body := fun s n f w =>
  let target := fld w 16 8
  match (List.range 10).find? (fun i => decide (fld w 9 1 ≤ i) && fld w (24 + 4 * i) 4 != 0) with
  | some i => .err stReserved (24 + 4 * i)
  | none =>
    if 1 < fld w 8 1 then .err stBadValue 8
    else if fld w 9 1 < 1 ∨ 10 < fld w 9 1 then .err stBadValue 9
    else match commitErr s n w with
      | some e => .err e.1 e.2
      | none =>
        if target ≠ 0 ∧ (fld w 8 1 = 0 ∨ target < s.cue.count.toNat + 2) then .err stBadValue 16
        else
          let items := (commitGroups w).map (fun g => (g, (s.group g).shadow))
          if commitFits s items then acceptCommit s n f w items else .err stRefused 0

/-- COMMIT (R355). -/
def execCommit (n : SliceId) (w : Line) (s : State) : Ans :=
  runCmd { op := 0x0002, zero := false, named := [(8, 1), (9, 1), (16, 8), (24, 40)] } commitBody n w s

/-- A pending AT_CUE commit can still be cancelled (R35, R37). -/
def cancellable (s : State) (c : Commit) : Bool :=
  let due := c.target.getD c.due
  match nextEdge s with
  | none => true
  | some (t, k) => decide (k < due) || (due == k && decide (s.now + 50000 ≤ t))

/-- A start whose CUE set is gone, with none committed, has nothing to start with and is cancelled; with another set committed
it is placed anew by that one (log entry 33). -/
def keepStart (s : State) : State :=
  if ¬ s.cue.starting then s
  else match startSet s with
    | none => startCancelled (s.upCue (fun c => { c with starting := false }))
    | some c => if c.period = s.cue.edgePeriod ∧ c.tb = s.cue.edgeTb.toNat then s else placeStart s c

/-- A pending commit is gone; one whose agreement was awaited completes with TWIN. -/
def dropCommit (s : State) (c : Commit) : State :=
  let s := keepStart { s with commits := s.commits.filter (fun x => !sameCommit x c) }
  if c.target.isSome ∧ ¬ c.twinAgreed then
    complete (s.upFab (fun f => { f with ops := f.ops.filter (fun o => !(o.slice == c.slice && o.pos == c.pos)) })) c.slice (commitFlight c) stTwin 0 0
  else s

/-- CANCEL (R37, R355). -/
def execCancel (n : SliceId) (w : Line) (s : State) : Ans :=
  runCmd { op := 0x0003, zero := false, named := [(8, 4)] }
    (fun s n _ w => match groupErr s n (fld w 8 4) 8 with
      | some e => .err e.1 e.2
      | none => match s.commits.find? (fun c => c.atCue && (setFor c (fld w 8 4)).isSome) with
        | none => .err stNoObject 8
        | some c => if cancellable s c then .ok (dropCommit s c) 0 else .err 0x0D 0) n w s

end Sys2Proof.Machine
end

