-- ==== Sys2Proof/Machine/MapOps.lean ====
section
/-! DEFINITION. Mapping and unmapping a slice's addresses: the pages a mapping takes, and what leaves with one
(R265, R267, R269, R273, R357, R523). -/

namespace Sys2Proof.Machine

/-- The first address of the intake range, which runs to the end of the lower half (R217). -/
def intakeLo : Nat := 0x7F0000000000
def intakeHi : Nat := 0x800000000000

/-- Two ranges meet. -/
def meets (a la b lb : Nat) : Bool := decide (a < b + lb) && decide (b < a + la)

/-- Aligned runs of `run` FREE pages from run `p`, lowest first. -/
def freeRuns (s : State) (run : Nat) : Nat → Nat → Nat → Nat → List Nat
  | 0, _, _, _ => []
  | fuel + 1, p, top, k =>
    let ps := (List.range run).map (run * p + ·)
    if k = 0 ∨ top ≤ run * p + (run - 1) then []
    else if ps.all (fun q => (ownerOf s q).typ == .free && (ownerOf s q).echkOk && !s.mem.testPages.contains q) then
      ps ++ freeRuns s run fuel (p + 1) top (k - 1)
    else freeRuns s run fuel (p + 1) top k

/-- `k` aligned runs of FREE pages: region 0 first, then region 1, or region 1 alone (R357). -/
def pickRuns (s : State) (run k : Nat) (region1 : Bool) : List Nat :=
  if run = 1 then pickPages s k region1
  else
    let t0 := top0 s / 65536
    let fuel := pageFuel s k + s.mem.initPages / run
    let a := if region1 then [] else freeRuns s run fuel 0 t0 k
    a ++ freeRuns s run fuel ((t0 + run - 1) / run) (dataTop s / 65536) (k - a.length / run)

/-- The unmapped 4 KiB parts of the slice's partly used pages, by address (R357). -/
def spareParts (s : State) (ls : List Leaf) (region1 : Bool) : List Nat :=
  let small := (ls.filter (fun l => l.size == 4096 && !l.host)).map (·.pa)
  let pages := ((small.map (· / 65536)).eraseDups).filter (fun p => !region1 || decide (top0 s ≤ 65536 * p))
  ((pages.mergeSort (· ≤ ·)).flatMap (fun p => (List.range 16).map (fun i => 65536 * p + 4096 * i))).filter (fun a => !small.contains a)

/-- What a shortfall of FREE pages answers: pages may still become FREE, or not (R357). -/
def shortOf (s : State) (need got : Nat) (region1 : Bool) : Nat :=
  if need ≤ got + uninitPages s region1 then stNotReady else stNoResource

/-- The table pages that a set of leaves takes beyond those the slice has. -/
def newTables (s : State) (n : SliceId) (ls : List Leaf) : Nat := tableBytes ls / 65536 - (s.slice n).tables.length

/-- Leaves are added to a slice: its data pages and table pages are granted and charged, or nothing is (R273,
R357). `mk` makes the leaves from the addresses of the pages, `need` data pages in runs of `run`. -/
def addLeaves (s : State) (n : SliceId) (need run : Nat) (region1 : Bool) (mk : List Nat → List Leaf) : Except (Nat × Nat) State :=
  let data := pickRuns s run (need / run) region1
  let all (ps : List Nat) := (s.slice n).maps ++ mk ps
  let shape := all (List.range need)
  let tabs := newTables s n shape
  if ¬ fits s n 0 (65536 * (need + tabs)) ∧ need + tabs ≠ 0 then .error (stQuota, 0)
  else if data.length < need then .error (shortOf s need data.length region1, 0)
  else
    let t := grantPages s data { typ := .slice, id := n }
    let ts := pickPages t tabs false
    if ts.length < tabs then .error (shortOf t tabs ts.length false, 0)
    else .ok (setLeaves (grantPages t ts { typ := .pyotos }) n (all data) ((s.slice n).tables ++ ts))

/-- Leaves leave a slice: the pages no remaining leaf reaches and the table pages it needs no more, which are
released once the tracker has drained (R269, R523). -/
def removeLeaves (s : State) (n : SliceId) (gone : List Leaf) : State × List Nat :=
  let rest := (s.slice n).maps.filter (fun l => !gone.contains l)
  let kept := rest.flatMap leafPages
  let pages := ((gone.flatMap leafPages).eraseDups).filter (fun p => !kept.contains p)
  let k := tableBytes rest / 65536
  let t := invalidate (setLeaves s n rest ((s.slice n).tables.take k)) n (fun va => gone.any (fun l => l.va == va))
  (t, pages ++ (s.slice n).tables.drop k)

/-- The command waits for the three steps of R269. -/
def awaitUnmap (r : State × List Nat) (n : SliceId) (f : Flight) : Res :=
  let p : PendingUnmap := { slice := n, pages := r.2, tag := f.tag, pos := f.pos, op := f.op, result := 0, held := heldBy r.1 n }
  .wait (r.1.upMem (fun m => { m with unmaps := m.unmaps ++ [p] })) .unmap

end Sys2Proof.Machine
end

