-- ==== Sys2Proof/Machine/Packages.lean ====
section
/-! DEFINITION. Graph packages: the header, the sections, the digest, relocation, the tables and the programs
(Tables 12-13 to 12-16, R363). -/

namespace Sys2Proof.Machine

/-- Where a package fails: the section index or 0xFFFF, the image offset, the step (R363). -/
structure PkgErr where
  detail : Nat
  off : Nat
  step : Nat
  deriving DecidableEq, Repr

/-- The first item of a list of (holds, section, offset) that does not hold. -/
def firstBad (step : Nat) (xs : List (Bool × Nat × Nat)) : Option PkgErr :=
  (xs.find? (fun x => !x.1)).map (fun x => { detail := x.2.1, off := x.2.2, step := step })

def headOk (c : Bool) (off : Nat) : Bool × Nat × Nat := (c, 0xFFFF, off)

/-- All bytes from a to b − 1 are zero. -/
def zerosAt (bs : Bytes) (a b : Nat) : Bool := ((bs.drop a).take (b - a)).all (· == 0)

/-- The first byte from a to b − 1 that is not zero. -/
def firstSet (bs : Bytes) (a b : Nat) : Nat := a + (((bs.drop a).take (b - a)).takeWhile (· == 0)).length

/-- Step 1: the fields of the header (Table 12-13). -/
def headerErr (h : Bytes) (enclave : Bool) : Option PkgErr :=
  firstBad 1 [headOk (fieldOf h 0 4 == 0x4B504755) 0, headOk (fieldOf h 4 2 == 1) 4, headOk (inR 1 (fieldOf h 6 2) 4096) 6,
    headOk (fieldOf h 8 8 % 64 == 0 && decide (fieldOf h 8 8 ≤ 2 ^ 36)) 8, headOk (fieldOf h 16 2 == 0x2045) 16,
    headOk (byteAt h 18 == 1) 18, headOk (byteAt h 19 == (if enclave then 1 else 0)) 19, headOk (inR 1 (fieldOf h 20 2) 1024) 20,
    headOk (decide (fieldOf h 22 2 ≤ 64)) 22, headOk (zerosAt h 32 64) (firstSet h 32 64)]

/-- The section table at byte 64. -/
def sectionsOf (img : Bytes) : List SecEntry :=
  (List.range (fieldOf img 6 2)).map (fun i =>
    { typ := BitVec.ofNat 16 (fieldOf img (64 + 32 * i) 2), offset := fieldOf img (72 + 32 * i) 8, size := fieldOf img (80 + 32 * i) 8 })

def countTyp (ss : List SecEntry) (t : Nat) : Nat := (ss.filter (fun x => x.typ.toNat == t)).length

/-- Two sections share a byte; one of no bytes shares none. -/
def secOverlap (a b : SecEntry) : Bool := decide (0 < a.size) && decide (0 < b.size) && decide (a.offset < b.offset + b.size) && decide (b.offset < a.offset + a.size)

/-- One section entry alone, and against those before it. -/
def sectionErrs (img : Bytes) (ss : List SecEntry) (i : Nat) : List (Bool × Nat × Nat) :=
  let o := 64 + 32 * i
  let x := ss.getD i { typ := 0, offset := 0, size := 0 }
  [(inR 1 x.typ.toNat 10, i, o), (zerosAt img (o + 2) (o + 8), i, firstSet img (o + 2) (o + 8)), (x.offset % 64 == 0, i, o + 8),
   (decide (x.offset + x.size ≤ img.length), i, o + 16), (zerosAt img (o + 24) (o + 32), i, firstSet img (o + 24) (o + 32)),
   ((ss.take i).all (fun y => !secOverlap x y), i, o + 8)]

/-- Step 2: the section table. -/
def tableErr (img : Bytes) : Option PkgErr :=
  let ss := sectionsOf img
  let n := ss.length
  let last := ss.getD (n - 1) { typ := 0, offset := 0, size := 0 }
  firstBad 2 ([headOk (decide (64 + 32 * n ≤ img.length)) 6] ++ (List.range n).flatMap (sectionErrs img ss)
    ++ [headOk (countTyp ss 6 == 1) 64, headOk (countTyp ss 9 == 1) 64, (last.typ.toNat == 9 && last.offset + last.size == img.length, n - 1, 64 + 32 * (n - 1)),
        headOk (decide (countTyp ss 7 ≤ 1)) 64, headOk (decide (countTyp ss 8 ≤ 1)) 64])

/-- The first section of a type with its index. -/
def sectionOf (ss : List SecEntry) (t : Nat) : Option (SecEntry × Nat) := ss.zipIdx.find? (fun p => p.1.typ.toNat == t)

/-- Step 3: the digest. -/
def digestErr (img : Bytes) : Option PkgErr :=
  match sectionOf (sectionsOf img) 9 with
  | none => none
  | some (x, i) =>
    let d := img.drop x.offset
    firstBad 3 [(x.size == 64, i, x.offset), (d.take 48 == sha384 (img.take x.offset), i, x.offset), (zerosAt d 48 64, i, x.offset + firstSet d 48 64)]

/-- One relocation: the image, or the offset that fails (R363 step 4). -/
def relocate (imageVa dataVa : Nat) (r : Except Nat Bytes) (e : Nat × Nat) : Except Nat Bytes :=
  match r with
  | .error o => .error o
  | .ok img =>
    let off := e.1 % 2 ^ 40
    let v := fieldOf img off 8
    let sum := v % 2 ^ 48 + (if bitAt e.1 40 then dataVa else imageVa)
    if off % 8 ≠ 0 ∨ img.length < off + 8 ∨ 2 ^ 41 ≤ e.1 then .error e.2
    else if 2 ^ 48 ≤ v ∨ 2 ^ 48 ≤ sum then .error off
    else .ok (img.take off ++ leBytes 8 sum ++ img.drop (off + 8))

/-- Step 4: every relocation, in order. -/
def relocated (img : Bytes) (imageVa dataVa : Nat) : Except PkgErr Bytes :=
  match sectionOf (sectionsOf img) 8 with
  | none => .ok img
  | some (x, i) =>
    if x.size % 8 ≠ 0 then .error { detail := i, off := x.offset, step := 4 }
    else
      let es := (List.range (x.size / 8)).map (fun k => (fieldOf img (x.offset + 8 * k) 8, x.offset + 8 * k))
      match es.foldl (relocate imageVa dataVa) (.ok img) with
      | .ok b => .ok b
      | .error o => .error { detail := i, off := o, step := 4 }

/-- Job entry k of the JOBS section (Table 12-15). -/
def jobEntryOf (img : Bytes) (base k : Nat) : JobEntry :=
  let o := base + 64 * k
  { cores := fieldOf img o 2, align := BitVec.ofNat 2 (byteAt img (o + 2)), cls := BitVec.ofNat 2 (byteAt img (o + 3)),
    aes := byteAt img (o + 4), rfes := byteAt img (o + 5), preemptible := bitAt (byteAt img (o + 6)) 0, coreSec := fieldOf img (o + 8) 2,
    aeSec := fieldOf img (o + 10) 2, rfeSec := fieldOf img (o + 12) 2, inputs := BitVec.ofNat 64 (fieldOf img (o + 16) 8),
    kept := BitVec.ofNat 64 (fieldOf img (o + 24) 8), name := BitVec.ofNat 128 (fieldOf img (o + 32) 16) }

/-- `n` consecutive sections of a type from `a`. -/
def hasRun (ss : List SecEntry) (t a n : Nat) : Bool := (List.range n).all (fun i => match ss[a + i]? with
  | some x => x.typ.toNat == t
  | none => false)

/-- The checks of one job entry (step 5). -/
def jobErrs (img : Bytes) (ss : List SecEntry) (sec base nbuf k : Nat) : List (Bool × Nat × Nat) :=
  let o := base + 64 * k
  let e := jobEntryOf img base k
  [(inR 1 e.cores 64, sec, o), (decide (byteAt img (o + 2) < 3), sec, o + 2), (decide (byteAt img (o + 3) < 4), sec, o + 3),
   (decide (e.aes ≤ 16), sec, o + 4), (decide (e.rfes ≤ 4), sec, o + 5), (decide (byteAt img (o + 6) < 2), sec, o + 6),
   (byteAt img (o + 7) == 0, sec, o + 7), (hasRun ss 1 e.coreSec e.cores, sec, o + 8),
   (if e.aes = 0 then e.aeSec == 0xFFFF else hasRun ss 2 e.aeSec e.aes, sec, o + 10),
   (if e.rfes = 0 then e.rfeSec == 0xFFFF else hasRun ss 3 e.rfeSec 1, sec, o + 12), (zerosAt img (o + 14) (o + 16), sec, firstSet img (o + 14) (o + 16)),
   (decide (e.inputs.toNat < 2 ^ nbuf), sec, o + 16), (decide (e.kept.toNat < 2 ^ nbuf), sec, o + 24), (zerosAt img (o + 48) (o + 64), sec, firstSet img (o + 48) (o + 64))]

/-- The checks of one buffer entry (step 5, Table 12-16). -/
def bufErrs (img : Bytes) (sec base dataSize k : Nat) : List (Bool × Nat × Nat) :=
  let o := base + 64 * k
  let fmt := byteAt img (o + 16)
  let rank := byteAt img (o + 17)
  [(decide (fieldOf img o 8 + fieldOf img (o + 8) 8 ≤ dataSize), sec, o), (decide (fmt ≤ 11) || fmt == 0xFF, sec, o + 16),
   (decide (rank ≤ 6), sec, o + 17), (zerosAt img (o + 18) (o + 20), sec, firstSet img (o + 18) (o + 20)), (zerosAt img (o + 20 + 4 * rank) (o + 44), sec, firstSet img (o + 20 + 4 * rank) (o + 44)),
   (zerosAt img (o + 44) (o + 48), sec, firstSet img (o + 44) (o + 48))]

/-- Step 5: the job and buffer tables. -/
def tablesErr (img : Bytes) : Option PkgErr :=
  let ss := sectionsOf img
  let nj := fieldOf img 20 2
  let nb := fieldOf img 22 2
  let jobs := match sectionOf ss 6 with
    | some (x, i) => (x.size == 64 * nj, i, x.offset) :: (List.range nj).flatMap (jobErrs img ss i x.offset nb)
    | none => []
  let bufs := match sectionOf ss 7 with
    | some (x, i) => (x.size == 64 * nb, i, x.offset) :: (List.range nb).flatMap (bufErrs img i x.offset (fieldOf img 24 8))
    | none => [headOk (nb == 0) 22]
  firstBad 5 (jobs ++ bufs)

def jobsOf (img : Bytes) : List JobEntry := match sectionOf (sectionsOf img) 6 with
  | some (x, _) => (List.range (fieldOf img 20 2)).map (jobEntryOf img x.offset)
  | none => []

def bufsOf (img : Bytes) : List BufEntry := match sectionOf (sectionsOf img) 7 with
  | some (x, _) => (List.range (fieldOf img 22 2)).map (fun k => { offset := fieldOf img (x.offset + 64 * k) 8, size := fieldOf img (x.offset + 64 * k + 8) 8 })
  | none => []

/-- The program kind of a section type. -/
def secKind (t : Nat) : Option ProgKind := if t = 1 then some .core else if t = 2 then some .ae else if t = 3 then some .rfe else none

/-- The job entries that name section i. -/
def namesSection (i : Nat) (e : JobEntry) : Bool :=
  (decide (e.coreSec ≤ i) && decide (i < e.coreSec + e.cores)) || (e.aes != 0 && decide (e.aeSec ≤ i) && decide (i < e.aeSec + e.aes)) ||
  (e.rfes != 0 && e.rfeSec == i)

/-- The checks of one program section (step 6): each descriptor, the size, and PREEMPTIBLE. -/
def programErrs (img : Bytes) (js : List JobEntry) (p : SecEntry × Nat) : List (Bool × Nat × Nat) :=
  match secKind p.1.typ.toNat with
  | none => []
  | some k =>
    let n := p.1.size / 64
    let d (i : Nat) : Line := lineOf ((img.drop (p.1.offset + 64 * i)).take 64)
    let pre := preOf (d 0)
    [(p.1.size % 64 == 0 && inR 2 n 16777216, p.2, p.1.offset)] ++
    (List.range n).map (fun i =>
      let bad := descBad k pre i n (d i)
      (bad.isNone, p.2, p.1.offset + 64 * i + bad.getD 0)) ++
    [(js.all (fun e => !namesSection p.2 e || e.preemptible == pre), p.2, p.1.offset + 6)]

/-- Step 6: the programs. -/
def programsErr (img : Bytes) : Option PkgErr :=
  firstBad 6 ((sectionsOf img).zipIdx.flatMap (programErrs img (jobsOf img)))

/-- Steps 2 to 6 of R363 over a whole image: the relocated image, or where it fails with the image as it then stands: step 4, when
it passes, has written the relocated fields (log entry 132). -/
def loadSteps (img : Bytes) (imageVa dataVa : Nat) : Except (PkgErr × Bytes) Bytes :=
  match tableErr img <|> digestErr img with
  | some e => .error (e, img)
  | none => match relocated img imageVa dataVa with
    | .error e => .error (e, img)
    | .ok b => match tablesErr b <|> programsErr b with
      | some e => .error (e, b)
      | none => .ok b

/-- A loaded package. -/
def packageOf (img : Bytes) (imageVa dataVa : Nat) (enclave : Option (BitVec 5)) (cleared : List Nat) : Package :=
  { imageVa := imageVa, dataVa := dataVa, length := img.length, dataSize := fieldOf img 24 8, sections := sectionsOf img,
    jobs := jobsOf img, bufs := bufsOf img, enclave := enclave, cleared := cleared }

/-- The lowest free handle of a slice (R363). -/
def freeHandle (s : State) (n : SliceId) : Option Nat := (List.range 64).find? (fun h => (tget none (s.slice n).packages h).isNone)

def setPackage (s : State) (n : SliceId) (h : Nat) (p : Option Package) : State :=
  let gone (u : UnitSt) : UnitSt := { u with resident := u.resident.filter (fun r => ¬ (r.slice = n ∧ r.handle = h)) }
  let s : State := { s with units := s.units.map (fun (x : Nat × UnitSt) => (x.1, gone x.2)) }
  s.upSlice n (fun x => { x with packages := tset none x.packages h p })

/-- RESULT of a load that failed. -/
def pkgResult (e : PkgErr) : BitVec 128 := payload [(0, 8, e.off), (8, 1, e.step)]

end Sys2Proof.Machine
end

