-- ==== Sys2Proof/Machine/PyotosJob.lean ====
section
/-! DEFINITION. GRAPH_LOAD, GRAPH_UNLOAD, JOB_START and JOB_ABORT (R358, R363, Table 12-7). -/

namespace Sys2Proof.Machine

/-- The first offset of a range that a test of its places fails. -/
def firstOff (s : State) (n : SliceId) (k : Need) (va len : Nat) (ok : Option Place → Bool) : Option Nat :=
  ((chunks (chunkFuel len) va len).find? (fun c => !ok (translate s n (.slice n) k c.1))).map (fun c => c.1 - va)

def isDram : Option Place → Bool
  | some (.dram _) => true
  | _ => false

/-- The leaves that a range of addresses meets. -/
def leavesIn (ls : List Leaf) (va len : Nat) : List Leaf := ls.filter (fun l => decide (l.va < va + len) && decide (va < l.va + l.size))

/-- W changed on some leaves. -/
def setW (s : State) (n : SliceId) (vas : List Nat) (w : Bool) : State :=
  let ls := (s.slice n).maps.map (fun l => if vas.contains l.va then { l with w := w } else l)
  invalidate (setLeaves s n ls (s.slice n).tables) n vas.contains

/-- The granules a load changes, written by Pyotos with fresh checks (R363 step 4). -/
def writeImage (s : State) (n : SliceId) (va : Nat) (old new : Bytes) : State :=
  (List.range (new.length / 64)).foldl (fun s i =>
    let b := (new.drop (64 * i)).take 64
    if (old.drop (64 * i)).take 64 = b then s
    else match translate s n (.slice n) .read (va + 64 * i) with
      | some (.dram d) => memAccess (s.upMem (fun m => { m with dram := m.dram.write d b })) midStagehand 0 true .pyotos [(d, 64, true)]
      | _ => s) s

/-- A package that passed is loaded: relocated fields written, W cleared on its leaves, a handle taken; the change
completes under R269. -/
def finishLoad (s : State) (n : SliceId) (f : Flight) (va dataVa h : Nat) (old img : Bytes) : Res :=
  let s := writeImage s n va old img
  let vas := ((leavesIn (s.slice n).maps va img.length).filter (·.w)).map (·.va)
  let s := setPackage (setW s n vas false) n h (some (packageOf img va dataVa none vas))
  let p : PendingUnmap := { slice := n, pages := [], tag := f.tag, pos := f.pos, op := f.op, result := payload [(0, 2, h)], held := heldBy s n }
  .wait (s.upMem (fun m => { m with unmaps := m.unmaps ++ [p] })) .unmap

/-- Step 1's mapping rules: the image in device DRAM, the data writable. -/
def mapErr (s : State) (n : SliceId) (va len dataVa size : Nat) : Option PkgErr :=
  match firstOff s n .read va len isDram with
  | some o => some { detail := 0xFFFF, off := o, step := 1 }
  | none => (firstOff s n .write dataVa size (·.isSome)).map (fun o => { detail := 0xFFFF, off := o + 2 ^ 63, step := 1 })

/-- The body of GRAPH_LOAD. -/
def graphLoad : Body := fun s n f w =>
  let va := fld w 16 8
  let dataVa := fld w 24 8
  if parked s then .err stRefused 0
  else if va % 65536 ≠ 0 then .err stBadValue 16
  else if dataVa % 64 ≠ 0 ∨ 2 ^ 48 ≤ dataVa then .err stBadValue 24
  else withBytes s n w 16 va 64 (fun s h => match freeHandle s n with
    | none => .err stNoResource 0
    | some k => match headerErr h false with
      | some e => .errR stPackage e.detail (pkgResult e)
      | none => match mapErr s n va (fieldOf h 8 8) dataVa (fieldOf h 24 8) with
        | some e => .errR stPackage e.detail (pkgResult e)
        | none => withBytes s n w 16 va (fieldOf h 8 8) (fun s img => match loadSteps img va dataVa with
          | .error (e, b) => .errS (writeImage s n va img b) stPackage e.detail (pkgResult e)
          | .ok b => finishLoad s n f va dataVa k img b))

/-- GRAPH_LOAD (R363). -/
def execGraphLoad (n : SliceId) (w : Line) (s : State) : Ans :=
  runCmd { op := 0x0201, zero := false, named := [(16, 8), (24, 8)] } graphLoad n w s

/-- A package in use: a job of it has not completed, or a known-answer frame names it (Table 12-7). -/
def packageBusy (s : State) (n : SliceId) (h : Nat) : Bool :=
  s.jobs.any (fun j => j.slice == n && j.handle == h) || s.saf.kafs.any (fun k => k.slice == n && k.handle == h)

/-- An enclave's pages are zeroed (R380, R265). -/
def wipeEnclave (s : State) (e : BitVec 5) : State :=
  match tget none s.sec.enclaves e.toNat with
  | none => s
  | some x =>
    let s := x.pages.foldl (fun s p => s.upMem (fun m => { m with dram := m.dram.clear (65536 * p) 65536 })) s
    invalidate (setEnclave s e.toNat { x with handle := none, image := 0, data := 0, save := 0 }) x.host (fun va => decide (enclaveBase ≤ va))

/-- A package leaves its slice: W restored, or the enclave's image wiped. -/
def dropPackage (s : State) (n : SliceId) (h : Nat) : State :=
  match tget none (s.slice n).packages h with
  | none => s
  | some p =>
    let s := (setPackage s n h none).upSaf (fun f => { f with kafFailed := f.kafFailed.filter (· ≠ (n, h)) })
    match p.enclave with
    | some e => wipeEnclave s e
    | none => setW s n p.cleared true

def graphUnload : Body := fun s n _ w =>
  let h := fld w 8 2
  if (tget none (s.slice n).packages h).isNone then .err stNoObject 8
  else if packageBusy s n h then .err stBusy 8
  else .ok (dropPackage s n h) 0

/-- GRAPH_UNLOAD (Table 12-7). -/
def execGraphUnload (n : SliceId) (w : Line) (s : State) : Ans :=
  runCmd { op := 0x0202, zero := false, named := [(8, 2)] } graphUnload n w s

/-! ### JOB_START (R358) -/

/-- 64 KiB pages of a job's save area (R104). -/
def savePageCount (e : JobEntry) : Nat := 16 * e.cores + e.aes + e.rfes

/-- Every kept buffer is whole granules, 64-byte aligned (R421). -/
def keptWhole (p : Package) (e : JobEntry) : Bool :=
  p.bufs.zipIdx.all (fun b => !e.kept.getLsbD b.2 || ((p.dataVa + b.1.offset) % 64 == 0 && b.1.size % 64 == 0))

/-- A class-3 job of the same scene and name that starts in the same cue would have the same key (R425). -/
def keyTaken (s : State) (bank : BitVec 2) (scene : SceneId) (e : JobEntry) : Bool :=
  s.jobs.any (fun j => j.e.cls == 3 && j.bank == bank && j.scene == scene && j.e.name == e.name && (j.phase == .queued || j.startCue == s.cue.count))

/-- The refusals of R234, R30, R275, R421, R423 and R425: the status and DETAIL. -/
def jobRefusal (s : State) (n : SliceId) (w : Line) (p : Package) (e : JobEntry) (sc : Scene) : Option (Nat × Nat) :=
  let bank : BitVec 2 := BitVec.ofNat 2 (fld w 12 1)
  let scene : SceneId := BitVec.ofNat 5 (fld w 13 1)
  let label := fld w 14 1
  let queued := s.jobs.filter (fun j => j.bank == bank && j.scene == scene && j.phase == .queued)
  if sc.slice ≠ n then some (stDenied, 13)
  else if e.cls = 3 ∧ s.fab.twinMode ≠ 2 then some (stPaired, 0)
  else if (if sc.kaf then decide (e.cls < sc.cls) else e.cls != sc.cls) then some (stRefused, 10)
  else if ¬ meetsNeeds sc e then some (stRefused, 10)
  else if bitAt (fld w 15 1) 0 ∧ (e.cls ≠ 0 ∨ ¬ e.preemptible) then some (stRefused, 15)
  else if label ≠ 0xFF ∧ sc.label.toNat < label then some (stRefused, 14)
  else if 256 ≤ queued.length then some (stRefused, 13)
  else if e.cls = 3 ∧ s.fab.twinMode = 2 ∧ (¬ keptWhole p e ∨ keyTaken s bank scene e) then some (stRefused, 10)
  else none

/-- The address rules of R358: the status and DETAIL. -/
def jobAddrErr (s : State) (n : SliceId) (w : Line) (units : Nat) : Option (Nat × Nat) :=
  let sem := fld w 32 8
  let log := fld w 40 8
  if ¬ reachable s n (.slice n) .write (fld w 24 8) (128 * units) then some (stTranslation, 24)
  else if sem != 0 && (match translate s n (.slice n) .read sem with
    | some (.host _) => false
    | _ => true) then some (stTranslation, 32)
  else if log ≠ 0 ∧ ¬ reachable s n (.slice n) .write log (2048 * units) then some (stTranslation, 40)
  else none

/-- The job a JOB_START submits. -/
def newJob (s : State) (n : SliceId) (f : Flight) (w : Line) (p : Package) (e : JobEntry) (sc : Scene) (pages : List Nat) : Job :=
  { id := s.jobNext, slice := n, tag := f.tag, pos := f.pos, handle := fld w 8 2, jobIdx := fld w 10 2, e := e,
    bank := BitVec.ofNat 2 (fld w 12 1), scene := BitVec.ofNat 5 (fld w 13 1), label := if fld w 14 1 = 0xFF then sc.label else BitVec.ofNat 3 (fld w 14 1),
    carryOver := bitAt (fld w 15 1) 0, carryLimit := fld w 16 2, statusVa := fld w 24 8, semVa := fld w 32 8, flagVa := fld w 40 8,
    enclave := p.enclave, savePages := pages, phase := .queued, entries := List.replicate (e.cores + e.aes + e.rfes) {}, suspensions := 0,
    borrowing := false, kaf := none, startCue := 0, endCue := 0, safetyRaised := false, susCue := none }

/-- The save area is allocated and the job queued (R104, R238). -/
def submitJob (s : State) (n : SliceId) (f : Flight) (w : Line) (p : Package) (e : JobEntry) (sc : Scene) : Res :=
  let k := if e.preemptible ∧ p.enclave.isNone then savePageCount e else 0
  let pages := pickPages s k false
  if ¬ fits s n 0 (65536 * k) ∧ k ≠ 0 then .err stQuota 0
  else if pages.length < k then .err stNoResource 0
  else
    let j := newJob s n f w p e sc pages
    .wait { (grantPages s pages { typ := .pyotos }) with jobs := s.jobs ++ [j], jobNext := s.jobNext + 1 } (.job j.id)

/-- The field rules of Table 12-10: the status and DETAIL. -/
def jobFieldErr (w : Line) : Option (Nat × Nat) :=
  if 3 < fld w 12 1 then some (stBadValue, 12)
  else if 31 < fld w 13 1 then some (stBadValue, 13)
  else if 6 < fld w 14 1 ∧ fld w 14 1 ≠ 0xFF then some (stBadValue, 14)
  else if 1 < fld w 15 1 then some (stReserved, 15)
  else if fld w 24 8 % 64 ≠ 0 ∨ 2 ^ 48 ≤ fld w 24 8 then some (stBadValue, 24)
  else if fld w 32 8 % 8 ≠ 0 ∨ 2 ^ 48 ≤ fld w 32 8 then some (stBadValue, 32)
  else if fld w 40 8 % 64 ≠ 0 ∨ 2 ^ 48 ≤ fld w 40 8 then some (stBadValue, 40)
  else none

def jobStart : Body := fun s n f w =>
  match jobFieldErr w with
  | some e => .err e.1 e.2
  | none => match tget none (s.slice n).packages (fld w 8 2) with
    | none => .err stNoObject 8
    | some p => match p.jobs[fld w 10 2]? with
      | none => .err stNoObject 10
      | some e => match tget none s.sheets (fld w 12 1) with
        | none => .err stNoObject 12
        | some sh => match sh.scenes[fld w 13 1]? with
          | none => .err stNoObject 13
          | some sc =>
            if parked s then .err stRefused 0
            else match jobRefusal s n w p e sc with
              | some r => .err r.1 r.2
              | none => match jobAddrErr s n w (e.cores + e.aes + e.rfes) with
                | some r => .err r.1 r.2
                | none => submitJob s n f w p e sc

/-- JOB_START (R30, R104, R234, R358). -/
def execJobStart (n : SliceId) (w : Line) (s : State) : Ans :=
  runCmd { op := 0x0301, zero := false,
           named := [(8, 2), (10, 2), (12, 1), (13, 1), (14, 1), (15, 1), (16, 2), (24, 8), (32, 8), (40, 8)] } jobStart n w s

/-- Every job of a slice that a test picks is aborted (R356). -/
def abortJobs (s : State) (n : SliceId) (p : Job → Bool) : State :=
  (s.jobs.filter (fun j => j.slice == n && p j)).foldl abortJob s

def jobAbort : Body := fun s n _ w =>
  let mine (j : Job) : Bool := j.kaf.isNone && j.tag.toNat == fld w 8 4
  if s.jobs.any (fun j => j.slice == n && mine j) then .ok (abortJobs s n mine) 0 else .err stNoObject 8

/-- JOB_ABORT (Table 12-7, R524). -/
def execJobAbort (n : SliceId) (w : Line) (s : State) : Ans :=
  runCmd { op := 0x0302, zero := false, named := [(8, 4)] } jobAbort n w s

end Sys2Proof.Machine
end

