-- ==== Sys2Proof/Machine/KvCache.lean ====
section
/-! DEFINITION. KV refills, swaps and the epoch's page returns (R157, R161 to R166, R273). -/

namespace Sys2Proof.Machine

/-! ### Ring pages of sparse sequences (R157) -/

/-- The page of tokens that ring entry e holds: the newest mapped one of its residue. -/
def ringPage (x : KvSeq) (e : Nat) : Nat :=
  let top := (x.capacity - 1) / x.tp
  top - (top + 1984 - (e - 64) % 1984) % 1984

/-- A mapped ring entry whose tokens the window has left and to whose page no global entry points. -/
def staleKey (x : KvSeq) (key : Nat) : Bool :=
  let e := key % 2048
  let f := tget 0 x.tree key
  decide (64 ≤ e) && f != 0 && decide (ringPage x e * x.tp + x.tp - 1 + x.window < x.length + 1) &&
  (List.range x.globals.length).all (fun g => tget 0 x.tree (key / 2048 * 2048 + g) != f)

/-- A ring entry that the next page needs, whose own page the window has left and a global entry still holds. -/
def turnKey (x : KvSeq) (key : Nat) : Bool :=
  let e := key % 2048
  e == entryOf x x.capacity && tget 0 x.tree key != 0 && decide (ringPage x e * x.tp + x.tp - 1 + x.window < x.length + 1)

def staleKeys (x : KvSeq) : List Nat := (x.tree.map (·.1)).filter (fun k => staleKey x k || turnKey x k)

/-- The root and the directories are written anew into fresh pages with a new GEN; the old ones and the unmapped pages wait
under the epoch (R165, R166). `none` when too few pages are FREE. -/
def cowTables (s : State) (a : AeId) (q : Nat) (x : KvSeq) (tree : Tbl Nat) (globals : List Nat) : Option State :=
  let ps := pickPages s x.tables.length false
  if ps.length < x.tables.length then none
  else
    let s := grantPages s ps { typ := .pyotos }
    let y : KvSeq := { x with root := 65536 * ps.headD 0, gen := x.gen + 1, tree := tree, globals := globals, tables := ps }
    let s := (putBytes s (tableWrites y)).setKv a q (some y)
    let gone := x.frames.filter (fun f => f ∉ y.frames)
    let tb := 8192 + 16384 * x.streams
    let s := s.upSlice x.slice (fun z => { z with kvBytes := z.kvBytes + tb })
    some (holdPages s a gone x.tables x.slice (tb + 32768 * gone.length) (if x.cls.toNat < 2 then none else some (BitVec.ofNat 10 q)))

/-- What a copy-on-write of the root and the directories charges while the old ones wait (R165, R273). -/
def tableCopy (x : KvSeq) : Nat := 8192 + 16384 * x.streams

/-- The stale ring pages of a sparse sequence are unmapped while it is refilled (R157), where its slice's quota takes the new
tables (R273). -/
def unmapStale (s : State) (a : AeId) (q : Nat) : State :=
  match s.kv a q with
  | none => s
  | some x =>
    let ks := staleKeys x
    if ¬ x.sparse ∨ ks = [] ∨ ¬ fits s x.slice 0 (tableCopy x) then s
    else
      let tree := x.tree.filter (fun p => p.1 ∉ ks)
      match cowTables s a q x tree x.globals with
      | none => s
      | some t => t

/-! ### Refills (R161, R162, R273) -/

def dropRefill (s : State) (a : AeId) (q : SeqId) : State :=
  s.upAe a (fun e => { e with refills := e.refills.filter (· ≠ q), exhausted := e.exhausted.filter (· ≠ q) })

/-- The refill waits for pages: a victim starts to swap out, unless pages are already on their way; with
none, the sequence counts as exhausted (R162). -/
def refillWaits (s : State) (a : AeId) (q : SeqId) : State :=
  let busy := (s.ae a).seqs.any (fun p => (p.2.map (fun x => x.state == .swapOut)).getD false) || (s.ae a).held.any (fun h => !h.frames.isEmpty)
  if busy then s
  else match victims s a none with
    | v :: _ => startSwapOut s a v
    | [] => s.upAe a (fun e => { e with exhausted := if q ∈ e.exhausted then e.exhausted else e.exhausted ++ [q] })

/-- A refill that its slice's DRAM quota refuses (R273): not served, and the sequence meets KV_FULL. -/
def refillRefused (s : State) (a : AeId) (q : SeqId) (n : SliceId) : State :=
  let s := dropRefill s a q
  let s := s.upAe a (fun e => { e with exhausted := e.exhausted ++ [q] })
  notify s n 0x05 1 (payload [(0, 1, 0), (1, 1, 2), (8, 8, dramUsage s n)])

/-- The next page of a sequence is mapped, once the entries it takes are invalid; the refill waits until then (R157). -/
def mapRefill (s : State) (a : AeId) (q : SeqId) : State :=
  match s.kv a q.toNat with
  | some x => if entryTaken x then s else dropRefill (mapNext s a q.toNat) a q
  | none => s

/-- A page reservation of a sequence that cannot be kept is counted, and its first miss in a cue raises the notice, whose
fields the spec gives bandwidth accounts only (R32, R162, log entry 109). -/
def kvMissed (s : State) (a : AeId) (q : Nat) (x : KvSeq) : State :=
  let s := s.upAe a (fun e => { e with violations := e.violations + 1 })
  let s := s.upSlice x.slice (fun y => { y with diag := tup 0 y.diag 1 (· + 1) })
  if x.missedIn = some s.cue.count then s
  else
    let bs := (List.range 12).map (Config.freeByte s.free)
    notify ({ s with free := s.free + 1 }.setKv a q (some { x with missedIn := some s.cue.count })) x.slice 0x02 2 (payload [(0, 1, leNat (bs.take 1)), (4, 8, leNat (bs.drop 4))])

/-- Stale pages stay mapped, because the copied tables would exceed the slice's quota (R273). -/
def turnRefused (s : State) (x : KvSeq) : Bool := x.sparse && !(staleKeys x).isEmpty && !fits s x.slice 0 (tableCopy x)

/-- A sparse sequence of class 2 or 3 turns its ring on its own pages; the unmapped ones come back under the epoch. -/
def turnRing (s : State) (a : AeId) (q : SeqId) : State :=
  let t := unmapStale s a q.toNat
  match t.kv a q.toNat with
  | some x =>
    if turnRefused t x then refillRefused t a q x.slice
    else if x.streams ≤ x.spare.length then mapRefill t a q
    else if (t.ae a).held.any (fun h => h.spareOf = some q ∧ h.frames ≠ []) then t
    else kvMissed t a q.toNat x
  | none => t

/-- The class of a sequence. -/
def seqClass (s : State) (a : AeId) (q : SeqId) : Nat := ((s.kv a q.toNat).map (fun x => x.cls.toNat)).getD 0

/-- The refill request that is served first: a page reservation is a guarantee held outside any scene, so that the higher class
ranks first (R31, R162); among equals it is the oldest (log entry 128). -/
def refillHead (s : State) (a : AeId) : Option SeqId :=
  (s.ae a).refills.find? (fun q => (s.ae a).refills.all (fun r => decide (seqClass s a r ≤ seqClass s a q)))

/-- KV_REFILL (R31, R160, R161): Pyotos serves the first refill request with one further page per stream; a sparse
sequence of class 2 or 3 turns its own pages, never the pool's (log entry 66). -/
def execKvRefill (a : AeId) (s : State) : Ans :=
  match refillHead s a with
  | none => did s
  | some q => match s.kv a q.toNat with
    | none => did (dropRefill s a q)
    | some x =>
      did (if x.state ≠ .resident ∨ x.maxTokens ≤ x.capacity then dropRefill s a q
      else
        if 2 ≤ x.cls.toNat then turnRing s a q
        else
        let s := unmapStale s a q.toNat
        if ¬ fits s x.slice 0 (32768 * x.streams) then refillRefused s a q x.slice
        else if (s.ae a).free.length < x.streams then refillWaits s a q
        else if ((s.kv a q.toNat).map entryTaken).getD false then s
        else mapRefill (takeSpare s a q.toNat x.streams) a q)

/-! ### Swaps (R163) -/

/-- A page of a sequence has a granule that fails its check. -/
def badPage (s : State) (x : KvSeq) : Bool := x.frames.any (fun f => !(s.mem.dram.bad f 32768).isEmpty)

/-- The swap area cannot take the image: the sequence stays RESIDENT (log entry 64). -/
def swapRefused (s : State) (a : AeId) (q : Nat) (x : KvSeq) : State := s.setKv a q (some { x with state := .resident })

/-- The floor page engine's traffic over a sequence's pages, outside any account (Table 9-7, Table 14-6); a page that is not
Pyotos's denies it (R264). -/
def pageTraffic (s : State) (x : KvSeq) (write : Bool) : State :=
  x.frames.foldl (fun s f =>
    if allowed .pyotos (ownerOf s (f / 65536)) then memAccess s midPageEngine 0 write (.other x.slice) (physParts f 32768)
    else firewallA s) s

/-- Every page copied once to the swap area with its trailer; a granule that fails its check at the exit goes out poisoned
and is reported (R70, R163). -/
def copyOut (s : State) (x : KvSeq) (va : Nat) : State :=
  let s := x.frames.zipIdx.foldl (fun s p =>
    writeExit s midPageEngine x.slice (.slice x.slice) (va + swapPageSize * p.2) (swapImage s p.1) ((s.mem.dram.bad p.1 32768).map (fun g => 64 * g - p.1))) s
  pageTraffic s x false


/-- Every page copied with its trailer, then retired; the sequence is SWAPPED. -/
def swapDone (s : State) (a : AeId) (q : Nat) (x : KvSeq) (va : Nat) : State :=
  let s := copyOut s x va
  let s := holdPages s a x.frames x.tables x.slice x.bytes none
  let s := s.setKv a q (some { x with state := .swapped, tables := [], root := 0, gen := x.gen + 1 })
  let slot : SwapSlot := { ae := a, seq := BitVec.ofNat 10 q, va := va, size := swapPageSize * x.frames.length }
  kvNotice (s.upSlice x.slice (fun y => { y with swapSlots := y.swapSlots ++ [slot] })) a q 1 x.slice

/-- SWAP_OUT_COMPLETE (R70, R162, R163): steps 3 to 5, once no operation that started earlier is in flight. -/
def execSwapOutComplete (a : AeId) (q : SeqId) (s : State) : Ans :=
  match s.kv a q.toNat with
  | none => did s
  | some x =>
    let n := x.slice
    let t :=
      match swapPlace (s.slice n) (swapPageSize * x.frames.length) with
        | none => swapRefused s a q.toNat x
        | some va =>
          if badPage s x then kvNotice (freeSeq (copyOut s x va) a q.toNat) a q.toNat 3 n
          else swapDone s a q.toNat x va
    doWhen (x.state == .swapOut && decide (x.swapTag.toNat < (oldest (s.ae a)).toNat)) s (reclaimNow n t)

/-- Does the image in the swap area carry valid trailers? The pages' bytes, or none. -/
def swapPages (s : State) (x : KvSeq) (slot : SwapSlot) : Option (List Bytes) :=
  match readVa s x.slice (.slice x.slice) .read slot.va slot.size with
  | .ok bs =>
    let ps := (List.range x.frames.length).map (fun i => ((bs.drop (swapPageSize * i)).take 32768, (bs.drop (swapPageSize * i + 32768)).take 1024))
    let good (p : Bytes × Bytes) : Bool :=
      (List.range 512).all (fun g => fieldOf p.2 (2 * g) 2 == (carriedCheck ((p.1.drop (64 * g)).take 64)).toNat)
    if ps.all good then some (ps.map (·.1)) else none
  | _ => none

/-- The command that waits for a swap-in completes (R350). -/
def swapInDone (s : State) (a : AeId) (q : SeqId) (n : SliceId) (status : Nat) : State :=
  match (s.slice n).flight.find? (fun f => f.wait = .swapIn a q) with
  | some f => complete s n f status 0 0
  | none => s

/-- SWAP_IN_COMPLETE (R163): the pages are copied back and verified; a mismatch frees the sequence. -/
def execSwapInComplete (a : AeId) (q : SeqId) (s : State) : Ans :=
  match s.kv a q.toNat with
  | none => did s
  | some x =>
    let n := x.slice
    let img := match (s.slice n).swapSlots.find? (fun k => k.ae = a ∧ k.seq = q) with
      | some slot => swapPages s x slot
      | none => none
    let t := match img with
      | some ps =>
        let s := (x.frames.zip ps).foldl (fun s p => s.upMem (fun m => { m with dram := m.dram.write p.1 p.2 })) s
        let s := dropSlot (s.setKv a q.toNat (some { x with state := .resident })) a q.toNat n
        swapInDone (kvNotice (pageTraffic s x true) a q.toNat 2 n) a q n 0
      | none => swapInDone (kvNotice (freeSeq s a q.toNat) a q.toNat 4 n) a q n stSwapFailed
    doWhen (x.state == .swapIn) s t

/-- EPOCH_PAGE_RELEASE (R166, R274): pages whose tag OLDEST exceeds return, and a reclaim goes on with the
sequences that no operation latches any more. -/
def execEpochPageRelease (a : AeId) (s : State) : Ans := did (allSlices.foldl (fun s n => reclaimNow n s) (returnPages s a))

end Sys2Proof.Machine
end

