-- ==== Sys2Proof/Machine/PyotosSeq.lean ====
section
/-! DEFINITION. KV_POOL_SET and the sequence commands (R141 to R166, Table 12-8). -/

namespace Sys2Proof.Machine

/-- The `k`-th half of a list of 64 KiB pages, as KV pages. -/
def halves (ps : List Nat) : List Nat := ps.flatMap (fun p => [65536 * p, 65536 * p + 32768])

/-- What a shortfall of FREE pages answers (R357 applied to every grant): pages may still become FREE, or not. -/
def shortStatus (s : State) (need got : Nat) (region1 : Bool) : Nat :=
  if need ≤ got + uninitPages s region1 then stNotReady else stNoResource

/-! ### KV_POOL_SET (R159) -/

/-- Every KV page of an attention engine's pool, wherever it is. -/
def poolFrames (e : AeSt) : List Nat :=
  e.free ++ e.held.flatMap (·.frames) ++ e.seqs.flatMap (fun p => match p.2 with
    | some x => if x.state = .swapped then [] else x.frames ++ x.spare
    | none => [])

/-- Pages leave the pool: a 64 KiB page that holds none of it any more is released. -/
def shrinkPool (s : State) (a : AeId) (k pages : Nat) : State :=
  let e := s.ae a
  let out := e.free.drop (e.free.length - k)
  let s := s.upAe a (fun x => { x with total := pages, free := x.free.take (x.free.length - k) })
  let left := poolFrames (s.ae a)
  let gone := ((out.map (· / 65536)).eraseDups).filter (fun p => left.all (fun f => f / 65536 ≠ p))
  releasePages s gone

def kvPoolSet : Body := fun s _ _ w =>
  let pages := fld w 12 4
  if 15 < fld w 8 1 then .err stBadValue 8
  else if pages < 1 ∨ 1048576 < pages then .err stBadValue 12
  else if parked s then .err stRefused 0
  else
    let a : AeId := BitVec.ofNat 4 (fld w 8 1)
    let e := s.ae a
    if pages < e.total then
      (if e.free.length < e.total - pages then .err stRefused 0 else .ok (shrinkPool s a (e.total - pages) pages) 0)
    else
      let k := pages - e.total
      let ps := pickPages s ((k + 1) / 2) false
      if ps.length < (k + 1) / 2 then .err (shortStatus s ((k + 1) / 2) ps.length false) 0
      else .ok ((grantPages s ps { typ := .pyotos }).upAe a (fun x => { x with total := pages, free := x.free ++ (halves ps).take k })) 0

/-- KV_POOL_SET (R159, Table 12-8). -/
def execKvPoolSet (n : SliceId) (w : Line) (s : State) : Ans :=
  runCmd { op := 0x0601, zero := true, named := [(8, 1), (12, 4)] } kvPoolSet n w s

/-! ### SEQ_CREATE (R141, R160, R161) -/

/-- The field rules of SEQ_CREATE (Table 5-3): the status and DETAIL. -/
def seqFieldErr (w : Line) : Option (Nat × Nat) :=
  let sparse := bitAt (fld w 16 1) 0
  if 15 < fld w 8 1 then some (stBadValue, 8)
  else if 3 < fld w 9 1 then some (stBadValue, 9)
  else if fld w 10 1 ∉ [4, 6, 7, 9] then some (stBadValue, 10)
  else if fld w 11 1 < 1 ∨ 64 < fld w 11 1 then some (stBadValue, 11)
  else if fld w 12 2 ∉ [64, 128, 256] then some (stBadValue, 12)
  else if fld w 14 2 < 1 ∨ 512 < fld w 14 2 ∨ 512 < fld w 14 2 * fld w 11 1 then some (stBadValue, 14)
  else if 1 < fld w 16 1 then some (stReserved, 16)
  else if (if sparse then fld w 18 2 < 1 ∨ 4096 < fld w 18 2 else fld w 18 2 ≠ 0) then some (stBadValue, 18)
  else if fld w 20 4 < 1 ∨ (if sparse then 1048576 else 65536) < fld w 20 4 then some (stBadValue, 20)
  else none

/-- The descriptor that SEQ_CREATE writes. -/
def newSeq (s : State) (n : SliceId) (w : Line) (a : AeId) (q : Nat) (ps : List Nat) : KvSeq :=
  { root := 65536 * ps.headD 0, gen := tget 0 (s.ae a).gens q + 1, slice := n, cls := BitVec.ofNat 2 (fld w 9 1), state := .resident,
    fmt := BitVec.ofNat 4 (fld w 10 1), headDim := fld w 12 2, kvHeads := fld w 11 1, sparse := bitAt (fld w 16 1) 0,
    layers := fld w 14 2, window := fld w 18 2, length := 0, capacity := 0, maxTokens := fld w 20 4, pending := 0, nextLayer := 0,
    lastCue := 0, tree := [], globals := [], step := none, tables := ps, spare := [] }

/-- The lowest FREE descriptor of an attention engine. -/
def freeDescriptor (s : State) (a : AeId) : Option Nat := (List.range 1024).find? (fun q => (s.kv a q).isNone)

/-- The sequence is created: mapped in full, or with a first refill posted (R160, R161). -/
def createSeq (s : State) (n : SliceId) (a : AeId) (q : Nat) (x : KvSeq) : State :=
  let s := (putBytes (grantPages s x.tables { typ := .pyotos }) (tableWrites x)).setKv a q (some x)
  let s := s.upSlice n (fun y => { y with seqs := y.seqs + 1, kvBytes := y.kvBytes + (8192 + 16384 * x.streams) })
  if x.cls.toNat < 2 then s.upAe a (fun e => { e with refills := e.refills ++ [BitVec.ofNat 10 q] })
  else mapMany (firstMapped x) (takeSpare s a q (fullNeed x * x.streams)) a q

def seqCreate : Body := fun s n _ w =>
  match seqFieldErr w with
  | some e => .err e.1 e.2
  | none =>
    let a : AeId := BitVec.ofNat 4 (fld w 8 1)
    let streams := fld w 14 2 * fld w 11 1
    let ps := pickPages s (tablePages streams) false
    let x := newSeq s n w a 0 ps
    let pages := if x.cls.toNat < 2 then 0 else fullNeed x * streams
    if parked s then .err stRefused 0
    else if ¬ fits s n 4 1 then .err stQuota 4
    else if ¬ fits s n 0 (8192 + 16384 * streams + 32768 * pages) then .err stQuota 0
    else if ps.length < tablePages streams then .err (shortStatus s (tablePages streams) ps.length false) 0
    else if (s.ae a).free.length < pages then .err stNoResource 0
    else match freeDescriptor s a with
      | none => .err stNoResource 0
      | some q => .ok (createSeq s n a q (newSeq s n w a q ps)) (payload [(0, 2, q)])

/-- SEQ_CREATE (R160, R161, R273). -/
def execSeqCreate (n : SliceId) (w : Line) (s : State) : Ans :=
  runCmd { op := 0x0602, zero := false, named := [(8, 1), (9, 1), (10, 1), (11, 1), (12, 2), (14, 2), (16, 1), (18, 2), (20, 4)] } seqCreate n w s

/-! ### Commands on a sequence -/

/-- The sequence that AE 8/1 and SEQ 10/2 name, of the issuing slice (R352). -/
def withSeq (s : State) (n : SliceId) (w : Line) (k : AeId → Nat → KvSeq → Res) : Res :=
  if 15 < fld w 8 1 then .err stBadValue 8
  else if 1023 < fld w 10 2 then .err stBadValue 10
  else
    let a : AeId := BitVec.ofNat 4 (fld w 8 1)
    match s.kv a (fld w 10 2) with
    | none => .err stNoObject 10
    | some x => if x.slice ≠ n then .err stDenied 10 else if parked s then .err stRefused 0 else k a (fld w 10 2) x

def seqFree : Body := fun s n _ w => withSeq s n w (fun a q x =>
  if latched s a q ∨ x.state = .swapOut ∨ x.state = .swapIn then .err stBusy 10 else .ok (freeSeq s a q) 0)

/-- SEQ_FREE (R166, Table 12-8). -/
def execSeqFree (n : SliceId) (w : Line) (s : State) : Ans :=
  runCmd { op := 0x0603, zero := false, named := [(8, 1), (10, 2)] } seqFree n w s

/-- A list is strictly ascending and stays below a bound. -/
def ascending : Nat → List Nat → Bool
  | _, [] => true
  | lo, v :: vs => decide (lo ≤ v) && ascending (v + 1) vs

/-- The page of a stream that holds a position when it becomes global: that of its old global entry, or of its
ring entry while that still holds it. -/
def globalFrame (x : KvSeq) (stream t : Nat) : Nat :=
  if x.globals.contains t then tget 0 x.tree (2048 * stream + x.globals.idxOf t)
  else if ringPage x (entryOf x t) = t / x.tp then tget 0 x.tree (2048 * stream + entryOf x t)
  else 0

/-- The tables with a new list of global positions (R146). -/
def globalTree (x : KvSeq) (ts : List Nat) : Tbl Nat :=
  (List.range x.streams).foldl (fun t st =>
    (List.range 64).foldl (fun t j => tset 0 t (2048 * st + j) (if j < ts.length then globalFrame x st (ts.getD j 0) else 0)) t) x.tree

def seqGlobals : Body := fun s n _ w => withSeq s n w (fun a q x =>
  let count := fld w 12 1
  if 64 < count then .err stBadValue 12
  else withStruct s n w 16 (4 * count) (fun s bs =>
    let ts := (List.range count).map (fun i => fieldOf bs (4 * i) 4)
    if ¬ ascending 0 ts ∨ ts.any (fun t => decide (x.length ≤ t)) ∨ (¬ x.sparse ∧ count ≠ 0) ∨ x.state ≠ .resident then .err stRefused 0
    else if ¬ x.sparse then .ok s 0
    else if ¬ fits s n 0 (8192 + 16384 * x.streams) then .err stQuota 0
    else match cowTables s a q x (globalTree x ts) ts with
      | some t => .ok t 0
      | none => .err (shortStatus s x.tables.length 0 false) 0))

/-- SEQ_GLOBALS (R144, R157, R165). -/
def execSeqGlobals (n : SliceId) (w : Line) (s : State) : Ans :=
  runCmd { op := 0x0604, zero := false, named := [(8, 1), (10, 2), (12, 1), (16, 8)] } seqGlobals n w s

def seqSwapOut : Body := fun s n _ w => withSeq s n w (fun a q x =>
  if 2 ≤ x.cls.toNat ∨ x.state ≠ .resident ∨ (s.slice n).swapArea.isNone then .err stRefused 0 else .ok (startSwapOut s a q) 0)

/-- SEQ_SWAP_OUT (R160, R163). -/
def execSeqSwapOut (n : SliceId) (w : Line) (s : State) : Ans :=
  runCmd { op := 0x0605, zero := false, named := [(8, 1), (10, 2)] } seqSwapOut n w s

/-- The tables of a swapped sequence with fresh pages in place of the old. -/
def remap (x : KvSeq) (fs : List Nat) : Tbl Nat := x.tree.map (fun p => (p.1, fs.getD (x.frames.idxOf (p.2 - 1)) 0 + 1))

/-- A swap-in starts: pages and tables are taken and charged (R163). -/
def startSwapIn (s : State) (n : SliceId) (a : AeId) (q : Nat) (x : KvSeq) (ps : List Nat) : State :=
  let k := x.frames.length
  let fs := (s.ae a).free.take k
  let s := (grantPages s ps { typ := .pyotos }).upAe a (fun e => { e with free := e.free.drop k })
  let y : KvSeq := { x with state := .swapIn, root := 65536 * ps.headD 0, gen := x.gen + 1, tables := ps, tree := remap x fs }
  let s := (putBytes s (tableWrites y)).setKv a q (some y)
  s.upSlice n (fun y => { y with kvBytes := y.kvBytes + x.bytes })

def seqSwapIn : Body := fun s n _ w => withSeq s n w (fun a q x =>
  let ps := pickPages s (tablePages x.streams) false
  if x.state ≠ .swapped then .err stRefused 0
  else if ¬ fits s n 0 x.bytes then .err stQuota 0
  else if ps.length < tablePages x.streams then .err (shortStatus s (tablePages x.streams) ps.length false) 0
  else if (s.ae a).free.length < x.frames.length then .err stNoResource 0
  else .wait (startSwapIn s n a q x ps) (.swapIn a (BitVec.ofNat 10 q)))

/-- SEQ_SWAP_IN (R163): it completes with SWAP_IN_COMPLETE. -/
def execSeqSwapIn (n : SliceId) (w : Line) (s : State) : Ans :=
  runCmd { op := 0x0606, zero := false, named := [(8, 1), (10, 2)] } seqSwapIn n w s

end Sys2Proof.Machine
end

