-- ==== Sys2Proof/Machine/PyotosSlice.lean ====
section
/-! DEFINITION. Slices: creating and destroying them, quotas, assignments, mappings, the aperture and the swap area
(R266, R269, R271, R273, R274, R344, R352, R357, R523, Table 12-6). -/

namespace Sys2Proof.Machine

/-! ### SLICE_CREATE (R266, R352) -/

/-- SLICE_CREATE: every quota 0; a partition that would share ways with an enclave's is refused (R271). -/
def execSliceCreate (n : SliceId) (w : Line) (s : State) : Ans :=
  runCmd { op := 0x0101, zero := true, named := [(8, 1), (9, 1), (10, 1), (12, 4)] }
    (fun s _ _ w =>
      let k : SliceId := BitVec.ofNat 7 (fld w 8 1)
      if fld w 8 1 < 1 ∨ 127 < fld w 8 1 then .err stBadValue 8
      else if fld w 9 1 < 2 ∨ 15 < fld w 9 1 then .err stBadValue 9
      else if 6 < fld w 10 1 then .err stBadValue 10
      else if fld w 12 4 < 1 ∨ 1048575 < fld w 12 4 then .err stBadValue 12
      else if (s.slice k).valid then .err stBusy 8
      else if allSlices.any (fun m => (s.slice m).valid && m != 0 && (s.slice m).pasid.toNat == fld w 12 4) then .err stBusy 12
      else if (enclavePartitions s).contains (fld w 9 1) then .err stRefused 0
      else .ok (s.upSlice k (fun _ => { valid := true, pasid := BitVec.ofNat 20 (fld w 12 4), partition := BitVec.ofNat 4 (fld w 9 1), label := BitVec.ofNat 3 (fld w 10 1) })) 0) n w s

/-! ### Unstarted commands (R352) -/

/-- The unstarted command at a position of slice n's ring completes with ABORTED. -/
def abortCommand (n : SliceId) (s : State) (pos : Word) : State :=
  let p := (s.slice n).page
  let a := p.cmdBase.toNat + 64 * (pos.toNat % ringSize p.cmdLog2)
  let host (o k : Nat) : Nat := leNat ((List.range k).map (fun i => hostByteAt s (a + o + i)))
  complete s n { tag := BitVec.ofNat 32 (host 4 4), pos := pos, op := BitVec.ofNat 16 (host 0 2), wait := .nothing } stAborted 0 0

/-- Every command of a slice that waits under BARRIER, or is posted and not taken, is completed with ABORTED. -/
def abortUnstarted (s : State) (n : SliceId) : State :=
  let s := ((s.slice n).flight.filter isHeld).foldl (fun s f => complete s n f stAborted 0 0) s
  let p := (s.slice n).page
  if ¬ p.enable ∨ p.error then s
  else
    let k := min (p.cmdTail - p.cmdHead).toNat (ringSize p.cmdLog2)
    let s := (List.range k).foldl (fun s i => abortCommand n s (p.cmdHead + BitVec.ofNat 32 i)) s
    s.upPage n (fun q => { q with cmdHead := p.cmdTail, seenTail := p.cmdTail, dbCmd := false })

/-- STOP_SLICE's effect: every job aborted, every unstarted command ABORTED (Table 12-1). -/
def stopSlice (s : State) (n : SliceId) : State := abortUnstarted (abortJobs s n (fun _ => true)) n

/-! ### SLICE_DESTROY (R352) -/

/-- SLICE_DESTROY: steps 1 and 2; the rest follows when the slice's jobs have ended. -/
def execSliceDestroy (n : SliceId) (w : Line) (s : State) : Ans :=
  runCmd { op := 0x0102, zero := true, named := [(8, 1)] }
    (fun s _ f w =>
      let k : SliceId := BitVec.ofNat 7 (fld w 8 1)
      if fld w 8 1 < 1 ∨ 127 < fld w 8 1 then .err stBadValue 8
      else if ¬ (s.slice k).valid then .err stNoObject 8
      else if (s.slice k).destroying ∨ s.sec.enclaves.any (fun p => (p.2.map (fun e => e.host == k)).getD false) then .err stBusy 8
      else
        let t := stopSlice (s.upSlice k (fun x => { x with destroying := true })) k
        let p : PendingUnmap := { slice := k, pages := [], tag := f.tag, pos := f.pos, op := f.op, result := 0 }
        .wait (t.upMem (fun m => { m with unmaps := m.unmaps ++ [p] })) (.destroy k)) n w s

/-- Step 3: sequences, counters, twin channel ends and packages are freed; what the slice has on the intake and in
tunings ends with them (log entry 71). -/
def freeObjects (s : State) (n : SliceId) : State :=
  let s := (List.range 32).foldl (fun s l => if ((s.loop l).tuning.map (fun t => t.slice == n)).getD false then endTuning s l 2 else s) s
  let s := freeSliceSeqs s n
  let s : State := { s with
    aes := s.aes.map (fun p => (p.1, { p.2 with held := p.2.held.map (fun h => if h.slice = n then { h with slice := 0, bytes := 0 } else h) }))
    ctrs := s.ctrs.foldl (fun t p => if p.2.slice = some n then tset {} t p.1 { dead := p.2.dead } else t) s.ctrs }
  let s := s.upFab (fun f => { f with channels := f.channels.filter (fun p => (p.2.map (fun e => e.slice != n)).getD true) })
  let s := (removeKafs s (fun k => k.slice == n)).upSaf (fun f => { f with kafFailed := f.kafFailed.filter (fun k => k.1 ≠ n) })
  s.upIntake (fun x => { x with
    queues := x.queues.filter (fun p => p.1 % 128 ≠ n.toNat)
    running := (x.running.map (fun p => (p.1, p.2.filter (fun r => r.slice ≠ n)))).filter (fun p => p.2 ≠ [])
    dicts := x.dicts.filter (fun p => (p.2.map (fun d => d.slice != n)).getD true)
    nextDict := x.nextDict.filter (fun p => (p.2.map (fun d => d.slice != n)).getD true)
    tensors := x.tensors.filter (fun t => t.slice ≠ n) })

/-- Step 4: everything is unmapped and its pages released. -/
def unmapAll (s : State) (n : SliceId) : State :=
  let r := removeLeaves s n (s.slice n).maps
  releasePages r.1 r.2

/-- The groups of a resource that ASSIGN gave (Table 12-5). -/
def groupsOfResource (key : Nat) : List Nat :=
  let i := key % 65536
  let k := key / 65536
  if k = 0 then [0x6000000 + i]
  else if k = 1 then [0x7000000 + i]
  else if k = 2 then (List.range 256).map (fun j => 0x8000000 + 256 * i + j)
  else [0x9000000 + i]

/-- The groups of the resources that a slice has been assigned. -/
def assignedGroups (s : State) (n : SliceId) : List Nat := ((s.assigned.filter (fun p => p.2 == n)).map (·.1)).flatMap groupsOfResource

/-- A pending AT_CUE commit, whoever issued it, that holds a group of a resource of slice n (R352). -/
def holdsOf (s : State) (n : SliceId) (c : Commit) : Bool :=
  c.atCue && c.groups.any (fun g => (assignedGroups s n).contains g.toNat)

/-- Step 5: its resources return to slice 0; pending commits that hold their groups are cancelled and the groups' shadows
discarded. -/
def returnAssigned (s : State) (n : SliceId) : State :=
  let gs := assignedGroups s n
  let s := (s.commits.filter (holdsOf s n)).foldl dropCommit s
  let s := gs.foldl (fun s g => s.upGroup g (fun x => { x with shadow := x.committed, written := false })) s
  { s with assigned := s.assigned.filter (fun p => p.2 ≠ n) }

/-- What some owner has left in units is nobody's: the next owner finds them scrubbed, one of the same number too (R74, R344). -/
def disown (s : State) (t : OwnerTag) : State :=
  allUnits.foldl (fun s u => if (s.unit u).lastOwner = t then s.upUnit u (fun x => { x with resident := [], lastOwner := .nobody }) else s) s

/-- Steps 3 to 6, then the command of slice 0 completes. -/
def finishDestroy (s : State) (p : PendingUnmap) : State :=
  let n := p.slice
  let s := returnAssigned (unmapAll (freeObjects s n) n) n
  let s := disown (s.upSlice n (fun _ => {})) (.slice n)
  complete s 0 { tag := p.tag, pos := p.pos, op := p.op, wait := .destroy n } 0 0 0

/-! ### TRANSLATION_CHANGE_DONE (R269) -/

/-- A host semaphore of a slice's JOB_START. -/
def asksFor (n : SliceId) : TxnSource → Bool
  | .semaphore m .. => m == n
  | _ => false

/-- The slice of a SLICE_DESTROY is at rest: no transaction, job or command that it has started is left, and no commit that
holds a group of its resources is past its cut (R352). -/
def sliceAtRest (s : State) (n : SliceId) : Bool :=
  s.mem.txns.all (fun t => t.slice != n) && s.host.reads.all (fun r => !asksFor n r.src) && s.jobs.all (fun j => j.slice != n) &&
  s.commits.all (fun c => (c.atCue || c.slice != n) && (!holdsOf s n c || cancellable s c))

/-- The tracker holds no transaction translated before a change (R269). -/
def changeReady (s : State) (p : PendingUnmap) : Bool :=
  if p.op.toNat = 0x0102 then sliceAtRest s p.slice
  else s.mem.txns.all (fun t => !p.held.contains (t.tag, t.issued))

/-- TRANSLATION_CHANGE_DONE: the oldest change whose wait is over: its pages are released (R265), the flags of the
slice's quotas follow, and its command completes. -/
def execTranslationChangeDone (s : State) : Ans :=
  match s.mem.unmaps.find? (changeReady s) with
  | none => did s
  | some p =>
    let s1 := s.upMem (fun m => { m with unmaps := m.unmaps.erase p })
    did (if p.op.toNat = 0x0102 then finishDestroy s1 p
      else complete (checkQuota (releasePages s1 p.pages) p.slice) p.slice { tag := p.tag, pos := p.pos, op := p.op, wait := .unmap } 0 0 p.result)

/-! ### QUOTA_SET (R273, R274) -/

/-- A value of a row of Table 9-6. -/
def quotaOk (s : State) (n : SliceId) (row v : Nat) : Bool :=
  if row = 0 then v % 65536 == 0 && decide (v ≤ quotaMax s 0)
  else if row = 1 then v % 65536 == 0 && decide (v ≤ quotaOf s n 0)
  else if row = 2 then decide (1 ≤ v) && decide (v ≤ quotaMax s 2)
  else decide (v ≤ quotaMax s row)

/-- A row whose usage exceeds its quota is flagged, with a notice (R274). -/
def flagQuota (s : State) (n : SliceId) (row : Nat) : State :=
  if row = 2 ∨ row = 5 ∨ usage s n row ≤ quotaOf s n row ∨ (s.slice n).overQuota.contains row then s
  else notify (s.upSlice n (fun x => { x with overQuota := x.overQuota ++ [row] })) n 0x05 1 (payload [(0, 1, row), (1, 1, 1), (8, 8, usage s n row)])

/-- QUOTA_SET: the limit applies at once; RECLAIM starts to swap sequences out. -/
def execQuotaSet (n : SliceId) (w : Line) (s : State) : Ans :=
  runCmd { op := 0x0103, zero := true, named := [(8, 1), (9, 1), (10, 1), (16, 8)] }
    (fun s _ _ w =>
      let k : SliceId := BitVec.ofNat 7 (fld w 8 1)
      let row := fld w 9 1
      let reclaim := bitAt (fld w 10 1) 0
      if 127 < fld w 8 1 then .err stBadValue 8
      else if 5 < row then .err stBadValue 9
      else if 1 < fld w 10 1 then .err stReserved 10
      else if ¬ (s.slice k).valid ∨ (s.slice k).destroying then .err stNoObject 8
      else if ¬ quotaOk s k row (fld w 16 8) then .err stBadValue 16
      else if reclaim ∧ (s.slice k).swapArea.isNone then .err stRefused 0
      else
        let t := s.upSlice k (fun x => { x with
          quota := tset none x.quota row (some (fld w 16 8))
          reclaim := if row = 0 then reclaim else x.reclaim })
        let t := flagQuota (unflag k t row) k row
        let t := if row = 0 then reclaimNow k t else t
        .ok t (payload [(0, 8, usage s k row)])) n w s

/-! ### ASSIGN -/

/-- A camera stream is enabled while its committed FSYNC.ENABLE is 1, the one enable that Table 7-2 has. -/
def streamOn (s : State) (i : Nat) : Bool := bitAt (fld (committed s 7 i) 62 1) 7

/-- The resource is enabled (Table 12-6). -/
def resourceOn (s : State) (kind i : Nat) : Bool :=
  if kind = 0 then bitAt (fld (headSet s (BitVec.ofNat 2 i)) 0 1) 0
  else if kind = 1 then streamOn s i
  else if kind = 2 then (List.range 256).any (fun j => fld (routeSet s (256 * i + j)) 0 1 != 0)
  else if kind = 3 then lpEnabled (loopSet s i)
  else false

/-- ASSIGN: gives a head, a camera stream, a block of routes or a loop to a slice. -/
def execAssign (n : SliceId) (w : Line) (s : State) : Ans :=
  runCmd { op := 0x0104, zero := true, named := [(8, 1), (9, 1), (10, 2)] }
    (fun s _ _ w =>
      let kind := fld w 8 1
      let k : SliceId := BitVec.ofNat 7 (fld w 9 1)
      let i := fld w 10 2
      if 3 < kind then .err stBadValue 8
      else if 127 < fld w 9 1 then .err stBadValue 9
      else if [4, 16, 16, 32].getD kind 0 ≤ i then .err stBadValue 10
      else if ¬ (s.slice k).valid ∨ (s.slice k).destroying then .err stNoObject 9
      else if resourceOn s kind i then .err stBusy 10
      else .ok { s with assigned := tset 0 s.assigned (65536 * kind + i) k } 0) n w s

/-! ### CACHE_SET (R271, R272) -/

/-- CACHE_SET: the 16 masks become the shadow of group CACHE. -/
def execCacheSet (n : SliceId) (w : Line) (s : State) : Ans :=
  runCmd { op := 0x0105, zero := true, named := [(16, 8)] }
    (fun s n _ w => withStruct s n w 16 32 (fun s bs => writeShadow s 0x2000000 8 (BitVec.ofNat 4608 (leNat bs)))) n w s

/-! ### MEM_MAP (R357) -/

/-- The leaves of a mapping of `count` pages at the addresses given. -/
def newLeaves (va psz count flags : Nat) (as : List Nat) : List Leaf :=
  ((List.range count).zip as).map (fun p => { va := va + psz * p.1, pa := p.2, size := psz, w := bitAt flags 0, x := bitAt flags 1, noAlloc := bitAt flags 2, host := bitAt flags 3 })

/-- MEM_MAP in the form its FLAGS and PAGE name. -/
def mapRange (s : State) (n : SliceId) (va psz count flags hostAddr : Nat) : Except (Nat × Nat) State :=
  let region1 := bitAt flags 4
  if bitAt flags 3 then addLeaves s n 0 1 false (fun _ => newLeaves va psz count flags ((List.range count).map (hostAddr + psz * ·)))
  else if psz = 4096 then
    let parts := (spareParts s (s.slice n).maps region1).take count
    addLeaves s n ((count - parts.length + 15) / 16) 1 region1
      (fun ps => newLeaves va psz count flags (parts ++ ps.flatMap (fun p => (List.range 16).map (fun i => 65536 * p + 4096 * i))))
  else
    let run := psz / 65536
    addLeaves s n (run * count) run region1 (fun ps => newLeaves va psz count flags ((List.range count).map (fun i => 65536 * ps.getD (run * i) 0)))

def memMapErr (s : State) (n : SliceId) (w : Line) (psz : Nat) : Option (Nat × Nat) :=
  let va := fld w 16 8
  let size := fld w 24 8
  let host := bitAt (fld w 9 1) 3
  if 2 < fld w 8 1 then some (stBadValue, 8)
  else if 31 < fld w 9 1 then some (stReserved, 9)
  else if va % psz ≠ 0 ∨ 2 ^ 48 ≤ va then some (stBadValue, 16)
  else if size = 0 ∨ size % psz ≠ 0 ∨ 2 ^ 48 < va + size then some (stBadValue, 24)
  else if host ∧ (fld w 32 8 % psz ≠ 0 ∨ 2 ^ 48 < fld w 32 8 + size) then some (stBadValue, 32)
  else if meets va size intakeLo (intakeHi - intakeLo) ∨ (s.slice n).maps.any (fun l => meets va size l.va l.size) then some (stRefused, 0)
  else if parked s ∧ ¬ host then some (stRefused, 0)
  else none

/-- MEM_MAP (R265, R267, R273, R357, R480). -/
def execMemMap (n : SliceId) (w : Line) (s : State) : Ans :=
  runCmd { op := 0x0106, zero := false, named := [(8, 1), (9, 1), (16, 8), (24, 8), (32, 8)] }
    (fun s n _ w =>
      let psz := [4096, 65536, 2097152].getD (fld w 8 1) 4096
      match memMapErr s n w psz with
      | some e => .err e.1 e.2
      | none => match mapRange s n (fld w 16 8) psz (fld w 24 8 / psz) (fld w 9 1) (fld w 32 8) with
        | .ok t => .ok t 0
        | .error e => .err e.1 e.2) n w s

/-! ### MEM_UNMAP (R523) -/

/-- A loaded package image lies in the range (Table 12-6). -/
def holdsImage (x : Slice) (va size : Nat) : Bool :=
  x.packages.any (fun p => (p.2.map (fun k => k.enclave.isNone && meets va size k.imageVa k.length)).getD false)

/-- MEM_UNMAP: every mapping in the range goes, and the pages no mapping reaches any longer. -/
def execMemUnmap (n : SliceId) (w : Line) (s : State) : Ans :=
  runCmd { op := 0x0107, zero := false, named := [(16, 8), (24, 8)] }
    (fun s n f w =>
      let va := fld w 16 8
      let size := fld w 24 8
      let gone := (s.slice n).maps.filter (fun l => meets va size l.va l.size)
      if va % 4096 ≠ 0 ∨ 2 ^ 48 ≤ va then .err stBadValue 16
      else if size = 0 ∨ size % 4096 ≠ 0 ∨ 2 ^ 48 < va + size then .err stBadValue 24
      else if meets va size intakeLo (intakeHi - intakeLo) then .err stRefused 0
      else if gone.any (fun l => decide (l.va < va) || decide (va + size < l.va + l.size)) then .err stRefused 16
      else if holdsImage (s.slice n) va size then .err stBusy 16
      else awaitUnmap (removeLeaves s n gone) n f) n w s

/-! ### APERTURE_SET and SWAP_AREA_SET -/

/-- The window shows the addresses from VA. In PARKED every window is closed, and one that is enabled opens with the
Stage (R479, R481). -/
def setAperture (s : State) (n : SliceId) (on : Bool) (va : Nat) : State :=
  let s := s.upPage n (fun p => { p with aptEnable := on && !parked s, aptBase := BitVec.ofNat 48 va })
  if parked s then s.upPwr (fun p => { p with apertures := p.apertures.filter (· ≠ n) ++ (if on then [n] else []) }) else s

/-- APERTURE_SET (R321). -/
def execApertureSet (n : SliceId) (w : Line) (s : State) : Ans :=
  runCmd { op := 0x0108, zero := false, named := [(8, 1), (16, 8)] }
    (fun s n _ w =>
      if 1 < fld w 8 1 then .err stBadValue 8
      else if fld w 16 8 % 0x2000000 ≠ 0 ∨ 2 ^ 48 ≤ fld w 16 8 then .err stBadValue 16
      else .ok (setAperture s n (fld w 8 1 == 1) (fld w 16 8)) 0) n w s

/-- Every address of a range is in a leaf with TARGET 1 that allows writes. -/
def hostMapped (s : State) (n : SliceId) (va size : Nat) : Bool :=
  (chunks (chunkFuel size) va size).all (fun c => match translate s n (.slice n) .write c.1 with
    | some (.host _) => true
    | _ => false)

/-- SWAP_AREA_SET (R163): a swap area in use by an image stays. -/
def execSwapAreaSet (n : SliceId) (w : Line) (s : State) : Ans :=
  runCmd { op := 0x0109, zero := false, named := [(16, 8), (24, 8)] }
    (fun s n _ w =>
      let va := fld w 16 8
      let size := fld w 24 8
      if va % 64 ≠ 0 ∨ 2 ^ 48 ≤ va then .err stBadValue 16
      else if size = 0 ∨ 2 ^ 48 < va + size then .err stBadValue 24
      else if ¬ (s.slice n).swapSlots.isEmpty then .err stBusy 16
      else if ¬ hostMapped s n va size then .err stRefused 0
      else .ok (s.upSlice n (fun x => { x with swapArea := some (va, size) })) 0) n w s

end Sys2Proof.Machine
end

