-- ==== Sys2Proof/Machine/Tokens.lean ====
section
/-! DEFINITION. Dictionaries and the tokenizer (R221 to R225, Table 7-9). -/

namespace Sys2Proof.Machine

/-! ### UTF-8 (Unicode Standard, chapter 3) -/

/-- The bounds of the second byte after a lead byte, and how many bytes the sequence has; none for a byte that
begins no well-formed sequence. -/
def utf8Lead (b : Nat) : Option (Nat × Nat × Nat) :=
  if 0xC2 ≤ b ∧ b ≤ 0xDF then some (0x80, 0xBF, 2)
  else if b = 0xE0 then some (0xA0, 0xBF, 3)
  else if b = 0xED then some (0x80, 0x9F, 3)
  else if 0xE1 ≤ b ∧ b ≤ 0xEF then some (0x80, 0xBF, 3)
  else if b = 0xF0 then some (0x90, 0xBF, 4)
  else if 0xF1 ≤ b ∧ b ≤ 0xF3 then some (0x80, 0xBF, 4)
  else if b = 0xF4 then some (0x80, 0x8F, 4)
  else none

/-- How many further continuation bytes, at most `k`, follow. -/
def conts : Nat → Bytes → Nat
  | 0, _ => 0
  | _, [] => 0
  | k + 1, b :: bs => if 0x80 ≤ b.toNat ∧ b.toNat ≤ 0xBF then 1 + conts k bs else 0

/-- The next unit of a text: its length and whether it is a code point; an ill-formed one is a maximal subpart or a
single byte (R224). -/
def utf8Unit (bs : Bytes) : Nat × Bool := match bs with
  | [] => (0, true)
  | b :: rest =>
    if b.toNat < 0x80 then (1, true)
    else match utf8Lead b.toNat with
      | none => (1, false)
      | some (lo, hi, n) => match rest with
        | [] => (1, false)
        | c :: more =>
          if c.toNat < lo ∨ hi < c.toNat then (1, false)
          else
            let k := 2 + conts (n - 2) more
            (k, k == n)

/-- The whole text is well-formed. -/
def utf8Ok : Nat → Bytes → Bool
  | 0, bs => bs.isEmpty
  | fuel + 1, bs => if bs.isEmpty then true else (utf8Unit bs).2 && utf8Ok fuel (bs.drop (utf8Unit bs).1)

/-! ### Dictionary images (R221, R222) -/

/-- How a load fails: a reserved field at an offset of the image, or a record. -/
inductive DictErr where
  | reserved (off rec_ : Nat)
  | record (i : Nat)
  deriving DecidableEq, Repr

/-- The records from byte `p`, of which `i` have been taken. -/
def dictRecords (img : Bytes) (len unk : Nat) (base : Option Nat) : Nat → Nat → Nat → List (Bytes × Nat) → Except DictErr (List (Bytes × Nat))
  | 0, p, i, acc => if p = len then .ok acc.reverse else .error (.record i)
  | n + 1, p, i, acc =>
    let w := fieldOf img p 4
    let k := bits w 29 24 + 1
    let id := bits w 17 0
    let str := (img.drop (p + 4)).take k
    let next := p + 4 + (k + 3) / 4 * 4
    if len < p + 4 ∨ len < next then .error (.record i)
    else if bits w 23 18 ≠ 0 ∨ bits w 31 30 ≠ 0 then .error (.reserved (p + 2 + (if bits w 23 18 ≠ 0 then 0 else 1)) i)
    else if ¬ utf8Ok k str ∨ acc.any (fun e => e.1 == str || e.2 == id) ∨ id = unk ∨ ((base.map (fun b => decide (b ≤ id) && decide (id ≤ b + 255))).getD false) then
      .error (.record i)
    else dictRecords img len unk base n next (i + 1) ((str, id) :: acc)

/-! ### The tokenizer (R223 to R225) -/

/-- The longest string of the dictionary that the text begins with, and its ID. -/
def longest (d : Dict) (bs : Bytes) : Option (Nat × Nat) :=
  d.entries.foldl (fun best e =>
    if e.1.isPrefixOf bs && (best.map (fun b => decide (b.1 < e.1.length))).getD true then some (e.1.length, e.2) else best) none

/-- What one step of the tokenizer emits: the IDs, the bytes each stands for, and whether the unit is ill-formed. -/
def tokenStep (d : Dict) (bs : Bytes) : List (Nat × Nat) × Bool := match longest d bs with
  | some (k, id) => ([(id, k)], false)
  | none =>
    let u := utf8Unit bs
    match d.base with
    | none => ([(d.unk, u.1)], !u.2)
    | some b => ((bs.take u.1).map (fun x => (b + x.toNat, 1)), !u.2)

/-- The tokenizer's run: IDs newest first, its position, the first ill-formed unit with its token. -/
structure TokRun where
  ids : List Nat := []
  pos : Nat := 0
  err : Option (Nat × Nat) := none
  deriving DecidableEq, Repr

/-- The run over a text until `limit`, the end, or room for `room` IDs is used up. -/
def tokenize (d : Dict) (limit : Nat) : Nat → Bytes → Nat → TokRun → TokRun
  | 0, _, _, r => r
  | fuel + 1, bs, room, r =>
    if bs.isEmpty ∨ limit ≤ r.pos ∨ room = 0 then r
    else
      let st := tokenStep d bs
      let out := st.1.take room
      let k := (out.map (·.2)).foldl (· + ·) 0
      tokenize d limit fuel (bs.drop k) (room - out.length)
        { ids := (out.map (·.1)).reverse ++ r.ids, pos := r.pos + k, err := r.err <|> (if st.2 then some (r.pos, r.ids.length) else none) }

end Sys2Proof.Machine
end

