-- ==== Sys2Proof/Machine/Intake.lean ====
section
/-! DEFINITION. Samples from memory: their queues, the three engines and their results, dictionaries and decoded
tensors (R211 to R228). -/

namespace Sys2Proof.Machine

/-- TYPE of a sample is an engine's code. -/
def IntakeEngine.code : IntakeEngine → Nat
  | .jpeg => 1
  | .tokens => 2
  | .dice => 3

def queueKey (e : Nat) (n : SliceId) : Nat := 128 * (e - 1) + n.toNat
def State.queueOf (s : State) (e : Nat) (n : SliceId) : List Line := tget [] s.intake.queues (queueKey e n)
def State.runningOn (s : State) (e : Nat) : List RunSample := tget [] s.intake.running e

/-! ### SAMPLE_SUBMIT (R211, R213, Table 7-5) -/

/-- The bytes of a sample that no field of its TYPE names. -/
def sampleNamed (t : Nat) : List (Nat × Nat) :=
  if t = 1 then [(0, 3), (8, 20), (32, 16)]
  else if t = 2 then [(0, 1), (3, 1), (8, 20), (40, 16)]
  else [(0, 1), (4, 4), (24, 36)]

/-- A sample's first broken field: whether it is reserved, and its offset. -/
def sampleErr (bs : Bytes) : Option (Bool × Nat) :=
  let t := byteAt bs 0
  let f := fieldOf bs
  if t < 1 ∨ 3 < t then some (false, 0)
  else match structReserved bs (sampleNamed t) with
    | some o => some (true, o)
    | none =>
      if t = 1 ∧ ¬ [1, 6, 9, 10].contains (f 1 1) then some (false, 1)
      else if t = 1 ∧ (1 < f 2 1 ∨ (f 1 1 = 6 ∧ f 2 1 ≠ 1)) then some (false, 2)
      else if t = 2 ∧ 7 < f 3 1 then some (false, 3)
      else if t ≠ 3 ∧ 2 ^ 48 ≤ f 8 8 then some (false, 8)
      else if t ≠ 3 ∧ (f 16 4 < 1 ∨ 268435456 < f 16 4) then some (false, 16)
      else if t ≠ 3 ∧ f 20 4 ≠ 0 ∧ (f 20 4 < 20 ∨ 10000000 < f 20 4) then some (false, 20)
      else if (t = 2 ∧ (f 24 4 < 1 ∨ 67108864 < f 24 4)) ∨ (t = 3 ∧ (f 24 4 < 1 ∨ 65536 < f 24 4)) then some (false, 24)
      else if t = 1 ∧ 2 ^ 48 ≤ f 32 8 then some (false, 32)
      else if f 40 8 % 32 ≠ 0 ∨ 2 ^ 48 ≤ f 40 8 then some (false, 40)
      else if t ≠ 1 ∧ 2 ^ 48 ≤ f 48 8 then some (false, 48)
      else if t = 3 ∧ (f 56 4 < 1 ∨ 65536 < f 56 4) then some (false, 56)
      else none

/-- Slots a slice's queue of an engine has in use: those queued and those at work (R213). -/
def slotsUsed (s : State) (e : Nat) (n : SliceId) : Nat :=
  (s.queueOf e n).length + ((s.runningOn e).filter (fun r => r.slice == n)).length

/-- SAMPLE_SUBMIT: every descriptor is queued, or none. -/
def execSampleSubmit (n : SliceId) (w : Line) (s : State) : Ans :=
  runCmd { op := 0x0701, zero := false, named := [(8, 2), (16, 8)] }
    (fun s n _ w =>
      let k := fld w 8 2
      if k < 1 ∨ 256 < k then .err stBadValue 8
      else if parked s then .err stRefused 0
      else withStruct s n w 16 (64 * k) (fun s bs =>
        let ds := (List.range k).map (fun i => (bs.drop (64 * i)).take 64)
        match ds.zipIdx.findSome? (fun p => (sampleErr p.1).map (fun e => (e.1, 64 * p.2 + e.2))) with
        | some e => .err (if e.1 then stReserved else stBadValue) (inStruct e.2)
        | none =>
          if [1, 2, 3].any (fun t => decide (1024 < slotsUsed s t n + (ds.filter (fun d => byteAt d 0 == t)).length)) then .err stBusy 8
          else .ok (s.upIntake (fun x => { x with
            queues := ds.foldl (fun q d => tup [] q (queueKey (byteAt d 0) n) (fun l => l ++ [BitVec.ofNat 512 (leNat d)])) x.queues })) 0)) n w s

/-! ### SAMPLE_START (R212) -/

/-- The criticality class of a slice's queues: the highest of its scenes in the active sheet (log entry 74). -/
def sliceClass (s : State) (n : SliceId) : Nat :=
  ((activeScenes s).filter (fun sc => sc.slice == n)).foldl (fun m sc => max m sc.cls.toNat) 0

/-- The slice whose queue an engine takes next: the highest class, and of equals the next after the last served. -/
def nextQueue (s : State) (e : Nat) : Option SliceId :=
  let has := allSlices.filter (fun n => !(s.queueOf e n).isEmpty)
  let top := has.foldl (fun m n => max m (sliceClass s n)) 0
  let from_ := tget 0 s.intake.turn e
  let far (n : SliceId) : Nat := (n.toNat + 127 - from_) % 128
  (has.filter (fun n => sliceClass s n == top)).foldl (fun best n => match best with
    | some b => if far n < far b then some n else some b
    | none => some n) none

/-- Samples an engine runs at once: each of the four dice generators has one (R228). -/
def engineRoom (e : Nat) : Nat := if e = 3 then 4 else 1

/-- SAMPLE_START: an engine with room takes the next sample. -/
def execSampleStart (e : IntakeEngine) (at_ : Nat) (s : State) : Ans :=
  let k := IntakeEngine.code e
  let s1 := s.at_ at_
  match nextQueue s k with
  | none => did s
  | some n => match s.queueOf k n with
    | [] => did s
    | d :: ds => doWhen (decide ((s.runningOn k).length < engineRoom k)) s
        (s1.upIntake (fun x => { x with
          queues := tset [] x.queues (queueKey k n) ds
          running := tset [] x.running k (s.runningOn k ++ [{ slice := n, d := d, start := s1.now, maxPixels := quotaOf s1 n 2 }])
          turn := tset 0 x.turn k n.toNat }))

/-! ### Results (R212, R214, Table 7-6) -/

/-- What a sample's record says. -/
structure SampleRes where
  status : Nat
  reason : Nat := 0
  flags : Byte := 0
  width : Nat := 0
  height : Nat := 0
  out : Nat := 0
  count : Nat := 0
  pos : Option (Nat × Nat) := none
  deriving DecidableEq, Repr

def stRejected : Nat := 3
def rejected (reason : Nat) : SampleRes := { status := stRejected, reason := reason }

/-- The record's bytes: VALID and CURTAIN under R214, SAT and UFL from the conversions. -/
def sampleRecord (s : State) (r : SampleRes) (us : Nat) : Bytes :=
  let valid := if r.status ≤ 1 ∧ ¬ s.saf.curtain then 1 else 0
  let flags := valid + (if s.saf.curtain then 2 else 0) + (if r.flags &&& fSat != 0 then 4 else 0) + (if r.flags &&& fUfl != 0 then 8 else 0)
  let p := r.pos.getD (0xFFFFFFFF, 0xFFFFFFFF)
  [r.status, r.reason, flags, 0].map (BitVec.ofNat 8) ++ leBytes 2 r.width ++ leBytes 2 r.height ++ leBytes 8 r.out ++ leBytes 4 r.count
    ++ leBytes 4 p.1 ++ leBytes 4 p.2 ++ leBytes 4 us

/-- The master that each intake engine is: the JPEG decoder, the tokenizer, the dice generators (Table 14-6). -/
def intakeMid (e : Nat) : Byte := if e = 1 then midJpeg else if e = 2 then midTokenizer else midDice

/-- A sample ends: its record, its notice, its slot; a dictionary that waited for it comes into force (R222). -/
def endSample (s : State) (e : Nat) (x : RunSample) (r : SampleRes) : State :=
  let a := fld x.d 40 8
  let s := sliceAccess (writeBy s (intakeMid e) x.slice (.slice x.slice) a (sampleRecord s r ((s.now - x.start) / 1000))) (intakeMid e) x.slice true a 32
  let s := s.upIntake (fun y => { y with running := tset [] y.running e ((tget [] y.running e).erase x) })
  let dk := fld x.d 3 1
  let s := if e = 2 then (match tget none s.intake.nextDict dk with
    | some d => s.upIntake (fun y => { y with dicts := tset none y.dicts dk (some d), nextDict := tset none y.nextDict dk none })
    | none => s) else s
  notify s x.slice 0x07 1 (payload [(0, 1, e), (1, 1, r.status), (8, 8, a)])

/-- An input of a sample: a fault or a check failure ends it (R212). -/
def withInput (s : State) (mid : Byte) (x : RunSample) (va len : Nat) (k : State → Bytes → State × SampleRes) : State × SampleRes :=
  match readVa s x.slice (.slice x.slice) .read va len with
  | .ok bs => k (sliceAccess s mid x.slice false va len) bs
  | .fault a => (meetEntry s portW x.slice (.slice x.slice) a, rejected 0x0C)
  | .check _ p => (reportCheckOf s .b mid x.slice p, rejected 0x0B)

/-- An output of a sample: written when the whole of it can be. -/
def withOutput (s : State) (mid : Byte) (x : RunSample) (va : Nat) (bs : Bytes) (r : SampleRes) : State × SampleRes :=
  match firstUnreachable s x.slice (.slice x.slice) .write va bs.length with
  | none => (sliceAccess (writeBy s mid x.slice (.slice x.slice) va bs) mid x.slice true va bs.length, r)
  | some a => (meetEntry s portW x.slice (.slice x.slice) a, rejected 0x0C)

/-! ### JPEG samples (R215 to R220) -/

/-- The tests of R216. -/
def sizeReason (x : RunSample) (h : JHead) : Option Nat :=
  let n := h.w * h.h
  if h.w = 0 ∨ h.h = 0 ∨ 16384 < h.w ∨ 16384 < h.h then some 6
  else if x.maxPixels < n ∨ (fld x.d 24 4 ≠ 0 ∧ fld x.d 24 4 < n) then some 7
  else if 1024 * fld x.d 16 4 < n then some 8
  else none

/-- The lowest free address of the intake range (log entry 75). -/
def tensorPlace (s : State) (n : SliceId) (size : Nat) : Option Nat :=
  let mine := s.intake.tensors.filter (fun t => t.slice == n)
  let ends := intakeLo :: mine.map (fun t => t.va + 65536 * t.pages.length)
  (ends.filter (fun a => decide (a + size ≤ intakeHi) && mine.all (fun t => !meets a size t.va (65536 * t.pages.length)))).min?

/-- A tensor's pages are mapped and charged; none when the pool lacks room (R216, R217). -/
def allocTensor (s : State) (n : SliceId) (size : Nat) : Option (Nat × State) :=
  let k := (size + 65535) / 65536
  match tensorPlace s n (65536 * k) with
  | none => none
  | some va =>
    let mk (ps : List Nat) : List Leaf := (List.range k).map (fun i => { va := va + 65536 * i, pa := 65536 * ps.getD i 0, size := 65536, w := true, x := false, noAlloc := false, host := false })
    if ¬ fits s n 1 (65536 * k) then none
    else match addLeaves s n k 1 false mk with
      | .error _ => none
      | .ok t =>
        let pages := ((t.slice n).maps.filter (fun l => meets va (65536 * k) l.va l.size)).flatMap leafPages
        some (va, (t.upSlice n (fun y => { y with intakeUsed := y.intakeUsed + 65536 * k })).upIntake
          (fun y => { y with tensors := y.tensors ++ [{ slice := n, va := va, pages := pages }] }))

/-- A picture whose first `done` MCUs are decoded, as the sample's tensor; `cut` says that the budget expired. -/
def jpegOut (s : State) (x : RunSample) (a : Array Byte) (h : JHead) (norm : Bytes) (done : Nat) (cut : Bool) : State × SampleRes :=
  let fmt := fld x.d 1 1
  let lay := fld x.d 2 1
  let chans := h.comps.length
  let head : SampleRes := { status := 4, width := h.w, height := h.h }
  match allocTensor s x.slice (tensorSize fmt lay chans h.w h.h) with
  | none => (s, head)
  | some (va, s) =>
    let n := mcuCount h
    let run := jDecode a h done
    let mcus := (run.mcus.reverse ++ List.replicate (n - done) none).toArray
    let bad := (mcus.toList.filter (·.isNone)).length
    let t := tensorOf fmt lay chans h.w h.h (fun c y px => normalise norm c (256 * jColour h mcus c y px))
    let r : SampleRes := { head with status := if cut then 2 else if run.err.isSome then 1 else 0, flags := t.2, out := va, count := bad, pos := if cut then some (run.r.p, done) else run.err }
    withOutput s midJpeg x va t.1 r

/-- A JPEG sample up to its decoding: its input, headers, tests and NORM record. -/
def withJpeg (s : State) (x : RunSample) (k : State → Array Byte → JHead → Bytes → State × SampleRes) : State × SampleRes :=
  withInput s midJpeg x (fld x.d 8 8) (fld x.d 16 4) (fun s bs => match readHead bs.toArray with
    | .error r => (s, rejected r)
    | .ok h => match sizeReason x h with
      | some r => (s, { rejected r with width := h.w, height := h.h })
      | none => withInput s midJpeg x (fld x.d 32 8) 12 (fun s norm => k s bs.toArray h norm))

/-! ### Token and dice samples (R223 to R225, R228) -/

/-- A token sample: `limit` is where the budget expires, the input's end otherwise. -/
def tokenOut (s : State) (x : RunSample) (limit : Nat) (cut : Bool) : State × SampleRes :=
  withInput s midTokenizer x (fld x.d 8 8) (fld x.d 16 4) (fun s bs => match tget none s.intake.dicts (fld x.d 3 1) with
    | none => (s, rejected 0x0A)
    | some d =>
      if d.slice ≠ x.slice then (s, rejected 0x0A)
      else
        let room := fld x.d 24 4
        let r := tokenize d limit bs.length bs room {}
        let n := r.ids.length
        let left := decide (r.pos < bs.length)
        let full := left && decide (room ≤ n)
        let ids := if cut && left && !full then d.unk :: r.ids else r.ids
        let status := if full then 5 else if cut && left then 2 else if r.err.isSome then 1 else 0
        let pos := if full ∨ (cut && left) then some (r.pos, n) else r.err
        withOutput s midTokenizer x (fld x.d 48 8) (ids.reverse.flatMap (leBytes 4)) { status := status, count := ids.length, pos := pos })

/-- A dice sample. -/
def diceOut (s : State) (x : RunSample) : State × SampleRes :=
  let m := fld x.d 24 4
  let k := fld x.d 56 4
  let draws := (List.range k).flatMap (fun i => (List.range m).map (fun j => diceNat (fld x.d 32 8) (fld x.d 4 4 + i) (fld x.d 28 4 + j)))
  withOutput s midDice x (fld x.d 48 8) (draws.flatMap (leBytes 4)) { status := 0, count := k * m }

/-- A sample whose result record cannot be written is rejected before it allocates or writes anything (R216, Table 7-8). -/
def withRecord (s : State) (x : RunSample) (k : State × SampleRes) : State × SampleRes :=
  match firstUnreachable s x.slice (.slice x.slice) .write (fld x.d 40 8) 32 with
  | none => k
  | some a => (meetEntry s portW x.slice (.slice x.slice) a, rejected 0x0C)

/-- What a sample that runs to its end gives. -/
def sampleResult (s : State) (e : Nat) (x : RunSample) : State × SampleRes :=
  withRecord s x <|
  if e = 1 then withJpeg s x (fun s a h norm => jpegOut s x a h norm (mcuCount h) false)
  else if e = 2 then tokenOut s x (fld x.d 16 4) false
  else diceOut s x

/-! ### SAMPLE_BUDGET_EXPIRY (R220, R225) -/

/-- A JPEG sample's pixels, when its headers give them. -/
def jpegPixels (s : State) (x : RunSample) : Nat :=
  match readVa s x.slice (.slice x.slice) .read (fld x.d 8 8) (fld x.d 16 4) with
  | .ok bs => match readHead bs.toArray with
    | .ok h => h.w * h.h
    | .error _ => 0
  | _ => 0

/-- A sample's budget in us: its own, or max(20, ceil(4E)). -/
def budgetUs (s : State) (e : Nat) (x : RunSample) : Nat :=
  if fld x.d 20 4 ≠ 0 then fld x.d 20 4
  else if e = 1 then max 20 ((jpegPixels s x + 299) / 300)
  else max 20 ((fld x.d 16 4 + 499) / 500)

/-- SAMPLE_END (R212, R220): the oldest sample of an engine ends within its budget; a dice sample has none. -/
def execSampleEnd (e : IntakeEngine) (at_ : Nat) (s : State) : Ans :=
  let k := IntakeEngine.code e
  match s.runningOn k with
  | [] => did s
  | x :: _ =>
    let r := sampleResult (s.at_ at_) k x
    doWhen (k == 3 || decide (at_ ≤ x.start + 1000 * budgetUs s k x)) s (endSample r.1 k x r.2)

/-- A sample cut at its budget. `progress` is, for a JPEG sample, 0 before its sizes are known and then 1 more than
its decoded MCUs; for a token sample, the bytes read. -/
def cutResult (s : State) (e : Nat) (x : RunSample) (progress : Nat) : State × SampleRes :=
  withRecord s x <|
  if e = 1 then
    (if progress = 0 then (s, rejected 0x09)
     else withJpeg s x (fun s a h norm => jpegOut s x a h norm (min (progress - 1) (mcuCount h)) true))
  else tokenOut s x progress true

/-- Something is left to cut. -/
def cuts (s : State) (e : Nat) (x : RunSample) (progress : Nat) : Bool :=
  if e = 1 then progress == 0 || ((withJpeg s x (fun s _ h _ => (s, { status := 0, count := mcuCount h }))).2.count != 0 &&
      decide (progress ≤ (withJpeg s x (fun s _ h _ => (s, { status := 0, count := mcuCount h }))).2.count))
  else e == 2 && decide (progress < fld x.d 16 4)

/-- SAMPLE_BUDGET_EXPIRY (R220, R225): a sample with nothing left to cut has ended. Dice samples have no budget. -/
def execSampleBudgetExpiry (e : IntakeEngine) (progress : Nat) (at_ : Nat) (s : State) : Ans :=
  let k := IntakeEngine.code e
  match s.runningOn k with
  | [] => did s
  | x :: _ =>
    let s1 := s.at_ at_
    let r := if cuts s k x progress then cutResult s1 k x progress else sampleResult s1 k x
    doWhen (k != 3 && decide (x.start + 1000 * budgetUs s k x ≤ at_)) s (endSample r.1 k x r.2)

/-! ### DICT_LOAD (R221, R222) and SAMPLE_RELEASE (R217) -/

/-- The first header field of a dictionary image that is out of its range or reserved and not zero. -/
def dictHeadErr (h : Bytes) : Option (Nat × Nat) :=
  match structReserved h [(0, 20)] with
  | some o => some (stReserved, o)
  | none =>
    if fieldOf h 0 4 ≠ 0x31444B54 then some (stBadValue, 0)
    else if fieldOf h 4 4 < 1 ∨ 262144 < fieldOf h 4 4 then some (stBadValue, 4)
    else if 262143 < fieldOf h 8 4 then some (stBadValue, 8)
    else if 261888 < fieldOf h 12 4 ∧ fieldOf h 12 4 ≠ 0xFFFFFFFF then some (stBadValue, 12)
    else if fieldOf h 16 4 < 64 then some (stBadValue, 16)
    else none

/-- A dictionary in use by a running sample (R222). -/
def dictInUse (s : State) (k : Nat) : Bool := (s.runningOn 2).any (fun x => fld x.d 3 1 == k)

def putDict (s : State) (k : Nat) (d : Dict) : State :=
  if dictInUse s k then s.upIntake (fun y => { y with nextDict := tset none y.nextDict k (some d) })
  else s.upIntake (fun y => { y with dicts := tset none y.dicts k (some d) })

/-- The slice that owns dictionary `k`. -/
def dictOwner (s : State) (k : Nat) : Option SliceId :=
  ((tget none s.intake.nextDict k).map (·.slice)) <|> ((tget none s.intake.dicts k).map (·.slice))

/-- DICT_LOAD: the image is validated and comes into force, or the dictionary before it stays. -/
def execDictLoad (n : SliceId) (w : Line) (s : State) : Ans :=
  runCmd { op := 0x0702, zero := false, named := [(8, 1), (16, 8)] }
    (fun s n _ w =>
      let k := fld w 8 1
      if 7 < k then .err stBadValue 8
      else if (dictOwner s k).getD n ≠ n then .err stDenied 8
      else withStruct s n w 16 64 (fun s h => match dictHeadErr h with
        | some e => .err e.1 (inStruct e.2)
        | none => withStruct s n w 16 (fieldOf h 16 4) (fun s img =>
          let base := if fieldOf h 12 4 = 0xFFFFFFFF then none else some (fieldOf h 12 4)
          match dictRecords img (fieldOf h 16 4) (fieldOf h 8 4) base (fieldOf h 4 4) 64 0 [] with
          | .ok es => .ok (putDict s k { slice := n, entries := es, unk := fieldOf h 8 4, base := base }) 0
          | .error (.reserved o i) => .errR stReserved (inStruct o) (payload [(0, 4, i)])
          | .error (.record i) => .errR stRefused 0 (payload [(0, 4, i)])))) n w s

/-- SAMPLE_RELEASE: a decoded tensor is unmapped, and its pages return to the pool. -/
def execSampleRelease (n : SliceId) (w : Line) (s : State) : Ans :=
  runCmd { op := 0x0704, zero := false, named := [(16, 8)] }
    (fun s n f w => match s.intake.tensors.find? (fun t => t.slice == n && t.va == fld w 16 8) with
      | none => .err stNoObject 16
      | some t =>
        let s := s.upIntake (fun y => { y with tensors := y.tensors.erase t })
        let s := s.upSlice n (fun y => { y with intakeUsed := y.intakeUsed - 65536 * t.pages.length })
        awaitUnmap (removeLeaves s n ((s.slice n).maps.filter (fun l => meets t.va (65536 * t.pages.length) l.va l.size))) n f) n w s

end Sys2Proof.Machine
end

