-- ==== Sys2Proof/Machine/Audit.lean ====
section
/-! DEFINITION. The conservation audit (R40 to R43, R257, R300, R301). -/

namespace Sys2Proof.Machine

/-- A mismatch is counted, reported to an island and to slice 0; the pool's counts stay (R42). -/
def auditFault (s : State) (i : IslandId) (pool idx expected found : Nat) : State :=
  let s := s.upFab (fun f => { f with auditFaults := f.auditFaults + 1 })
  conservationNotice (raiseCode s i 0x09) pool 0 idx expected found

/-- What a loop's records add up to; the cumulative counts differ modulo 2^48 (R300). -/
def loopSum (x : LoopRec) : Nat := x.h + x.o + x.f + (x.cr - x.ct).toNat

/-- The audit of a credit loop at a key: where it agrees the transmitter's counts are those of its record; where it does not,
they stay (R42), and `again` is the retrain of R43. -/
def auditLoop (s : State) (i : IslandId) (key : Nat) (x : LoopRec) (again : State → State) : State :=
  match tget none s.fab.credits key with
  | none => s
  | some y =>
    if loopSum x = y.total then s.upFab (fun f => { f with credits := tset none f.credits key (some { y with held := x.h, ct := x.ct }) })
    else again (auditFault s i 1 key y.total (loopSum x))

/-- The slots a pool is configured with, and those its consumer is seen to hold (Table 1-6, R340, Table 7-2). -/
def slotTotal (s : State) : SlotPool → Nat
  | .notices _ => 64
  | .ring c => fld (camSet s c.toNat) 88 2
  | .intake _ _ => 1024
  | .bridge => Config.bridgeBuffers
def slotStaged (s : State) : SlotPool → Nat
  | .notices n => (s.slice n).staged.length
  | .intake n e => slotsUsed s ((IntakeEngine.code e)) n
  | _ => 0
def slotIndex : SlotPool → Nat
  | .notices n => n.toNat
  | .ring c => 0x100 + c.toNat
  | .bridge => 0x200
  | .intake n e => 0x1000 + 128 * (IntakeEngine.code e) + n.toNat

/-- The twin link starts to retrain for a loop whose audit failed; TWIN_LINK_UP ends it (R43). -/
def retrainTwin (key : Nat) (s : State) : State := s.upFab (fun f => { f with twinRetrain := f.twinRetrain.filter (· ≠ key) ++ [key] })

/-- The pool lies in a domain that is cut, and is not audited (R480). -/
def poolCut (s : State) : AuditReport → Bool
  | .dieLink m _ _ => match m.die with
    | .stage d => bitAt s.pwr.dieOff.toNat d.toNat
    | _ => false
  | .kvPages a => bitAt s.pwr.dieOff.toNat (a.toNat / 4)
  | _ => false

/-- One number for each pool. -/
def auditKey : AuditReport → Nat
  | .dieLink m vc _ => 4 * modKey m + vc.toNat
  | .twinLink req _ => if req then 1000 else 1001
  | .buffers q _ _ => 0x10000 + slotIndex q
  | .sync c => 0x20000 + c.toNat
  | .kvPages a => 0x30000 + a.toNat
  | .bandwidth k => 0x40000 + k
  | .tags p _ _ => 0x50000 + p.val

/-- A pool can be audited: DEV_READY is high, and within the 100 us of step 8 after an edge, once (R40, R41, Table 1-4). -/
def auditDue (s : State) (r : AuditReport) : Bool :=
  outOfReset s && s.host.devReady && decide (s.now ≤ s.cue.last + 100000) && !poolCut s r &&
  (match s.cue.audited with
    | some ks => !ks.contains (auditKey r)
    | none => false)

/-- CONSERVATION_AUDIT (R40, R41, R257, R300, R301): one pool of Table 1-6 is compared at the edge. -/
def execConservationAudit (r : AuditReport) (s : State) : Ans :=
  if ¬ auditDue s r then did s
  else
  let s := s.upCue (fun c => { c with audited := c.audited.map (auditKey r :: ·) })
  match r with
  | .dieLink m vc x =>
    did (auditLoop s (if m.die = .wings then .b else .a) (4 * modKey m + vc.toNat) x (fun s => startRetrain s m true))
  | .twinLink req x => did (auditLoop s .b (if req then 1000 else 1001) x (retrainTwin (if req then 1000 else 1001)))
  | .buffers q held flight =>
    let k := slotStaged s q + held + flight
    did (if k ≠ slotTotal s q then auditFault s .b 2 (slotIndex q) (slotTotal s q) k else s)
  | .sync c =>
    let x := s.ctr c
    let ledger := x.initial + x.added - x.consumed
    did (if x.dead ∨ x.value.toNat ≠ ledger ∨ x.issued ≠ x.applied + x.flight.length then auditFault s .a 3 c.toNat ledger x.value.toNat else s)
  | .kvPages a =>
    let k := (poolFrames (s.ae a)).length
    did (if k ≠ (s.ae a).total then auditFault s .a 4 a.toNat (s.ae a).total k else s)
  | .bandwidth k =>
    let x := tget {} s.mem.acct k
    did (if x.tokens + x.drawn ≠ x.issued then auditFault s .a 5 k x.issued (x.tokens + x.drawn) else s)
  | .tags p free allocated =>
    let k := (poolTxns s p).length
    did (if free + allocated ≠ poolSize p ∨ allocated ≠ k then auditFault s .a 6 p.val (poolSize p) (free + k) else s)

end Sys2Proof.Machine
end

