-- ==== Sys2Proof/Machine/ControlLoops.lean ====
section
/-! DEFINITION. A sample instant of the control loops (R459, R460). -/

namespace Sys2Proof.Machine

/-- The group of loop l. -/
def loopGroup (l : Nat) : Nat := 9 * 0x1000000 + l

/-- The index of the sample that loop l takes at this instant, by its committed set. -/
def sampleNow (s : State) (l : Nat) : Option Nat :=
  let w := loopSet s l
  if ¬ s.cue.running ∨ s.cue.beat = 0 ∨ ¬ lpEnabled w then none
  else sampleAt w s.cue.length s.cue.beat (beatCount s) (intoCue s)

/-- The loops that sample now, in the order of R460, with the index of their sample. -/
def dueLoops (s : State) : List (Nat × Nat) :=
  (loopOrder (enabledLoops s)).filterMap (fun p => (sampleNow s p.1).map (fun i => (p.1, i)))

/-- Pending IMMEDIATE commits of the loops that sample now apply first (R454). -/
def loopSafePoints (s : State) : State := (dueLoops s).foldl (fun s p => safePoint s (loopGroup p.1)) s

/-- LOOP_SAMPLE (R459): every loop whose sample instant this is, while its domain is on. -/
def execLoopSample (at_ : Nat) (s : State) : Ans :=
  let s1 := loopSafePoints (s.at_ at_)
  doWhen (s.cue.running && !s.pwr.controlOff && decide (s.cue.last ≤ at_) && decide (at_ < s.cue.next)) s
    ((dueLoops s1).foldl (fun t p => sampleLoop s1 t p.1 p.2) s1)

end Sys2Proof.Machine
end

