-- ==== Sys2Proof/Machine/Gateway.lean ====
section
/-! DEFINITION. CAN and Ethernet frames in and out, the switch, and the gateway's timers (R432 to R451). -/

namespace Sys2Proof.Machine

/-! ### CAN (R443, R444) -/

/-- The frames match by identifier and format (R449). -/
def canMatch (w : BitVec 4608) (id : Nat) (ext : Bool) : Bool := fld w 4 4 % 2 ^ 29 == id && bitAt (fld w 4 4) 31 == ext

/-- A received frame that keeps to a controller's mode. -/
def canTakes (s : State) (c : CanId) (f : CanFrame) : Bool :=
  let m := canMode s.pwr.net c.toNat
  m != 0 && !(s.can c.toNat).busOff && (m != 1 || !f.fd)

/-- CAN_FRAME_RECEIVE (R443, R444, R449). -/
def execCanFrameReceive (c : CanId) (f : CanFrame) (at_ : Nat) (s : State) : Ans :=
  let s1 := (s.at_ at_).upCan c.toNat (fun x => { x with rec_ := x.rec_ - 1 })
  let p (x : Nat × BitVec 4608) : Bool := fld x.2 1 1 == 0 && fld x.2 2 1 == c.toNat && canMatch x.2 f.id.toNat f.ext
  let any := (routes s).any (fun x => isSignal x.2 && p x)
  doWhen (canTakes s c f) s
    (if any then sourceEvent s1 f.data p else s1.upCan c.toNat (fun x => { x with dropped := x.dropped + 1 }))

/-- The frame a controller offers: buffer 0, or the lowest identifier of its queue, the oldest first (R444). -/
def canOffer (x : CanSt) : Option (Option Nat × CanFrame) := match x.buf0 with
  | some f => some (none, f)
  | none => x.queue.foldl (fun b q => match b with
    | none => some q
    | some y => if q.2.id.toNat < y.2.id.toNat ∨ (q.2.id = y.2.id ∧ ¬ q.2.ext ∧ y.2.ext) then some q else some y) none

/-- The offered frame leaves the controller. -/
def canDrop (x : CanSt) (q : Option Nat × CanFrame) : CanSt :=
  if x.buf0.isSome then { x with buf0 := none } else { x with queue := x.queue.erase q }

/-- A bus error counts 8; beyond 255 the controller is bus-off. -/
def canError (x : CanSt) : CanSt :=
  if 255 < x.tec + 8 then { x with tec := x.tec + 8, busOff := true, entries := x.entries + 1 } else { x with tec := x.tec + 8 }

/-- The slice a frame of a controller belongs to: its route's owner, slice 0 for the curtain's. -/
def frameOwner (s : State) : Option Nat → SliceId
  | some r => ownerSlice s 2 (r / 256)
  | none => 0

/-- CAN_FRAME_TRANSMITTED (R70, R443, R444): the offered frame is sent, loses arbitration, meets a bus error, or is not sent
and counted because a granule of it fails its check. -/
def execCanFrameTransmitted (c : CanId) (r : CanTxResult) (at_ : Nat) (s : State) : Ans :=
  let m := canMode s.pwr.net c.toNat
  let x := s.can c.toNat
  match canOffer x with
  | none => did s
  | some q =>
    let s1 := s.at_ at_
    let once := canOneShot s.pwr.net c.toNat
    let out (y : CanSt) : CanSt := if once then canDrop y q else y
    doWhen ((m == 1 || m == 2) && !x.busOff) s (match r with
      | .sent => (s1.upCan c.toNat (fun y => { (canDrop y q) with tec := y.tec - 1 })).emit (.canFrame c q.2)
      | .checkFailed => reportCheckOf (s1.upCan c.toNat (fun y => { (canDrop y q) with unsent := y.unsent + 1 })) .b midGateway (frameOwner s q.1) false
      | .arbitrationLost => s1.upCan c.toNat out
      | .busError => s1.upCan c.toNat (fun y => canError (out y)))

/-- CAN_BUSOFF_RECOVERY (R443): error counters restart at 0. -/
def execCanBusoffRecovery (c : CanId) (s : State) : Ans :=
  doWhen (s.can c.toNat).busOff s (s.upCan c.toNat (fun x => { x with busOff := false, tec := 0, rec_ := 0 }))

/-! ### Ethernet ports (R432, R434) -/

/-- ETH_PORT_LINK_CHANGE (R432). -/
def execEthPortLinkChange (p : EthId) (up : Bool) (s : State) : Ans :=
  doWhen (ethMode s.pwr.net p.val != 0) s (s.upEth p.val (fun e => { e with linkUp := up, queue := if up then e.queue else [] }))

/-- When the entry in force ends: its interval on GATE_TB, moved with the time base (R434). -/
def gateEnd (s : State) (p : Nat) : Option Nat :=
  match ethRec s.pwr.net p, (s.eth p).gclAt with
  | some r, some t =>
    if fieldOf r 22 2 = 0 then none
    else match gclRec s.pwr.net (fieldOf r 20 2 + (s.eth p).gcl) with
      | none => none
      | some g =>
        let b := s.tb (byteAt r 18)
        some (b.reach (b.nsAt t + fieldOf g 8 4))
  | some r, none =>
    if fieldOf r 22 2 = 0 then none
    else
      let b := s.tb (byteAt r 18)
      let base := fieldOf r 32 8
      let v : Int := if b.nsAt s.net.applied ≤ base then base else (base : Int) + multipleAbove (b.nsAt s.net.applied + 1 - base) (fieldOf r 24 4)
      some (b.reach v)
  | _, _ => none

/-- GCL_ENTRY (R434): the list starts, or its next entry's gates apply. -/
def execGclEntry (p : EthId) (at_ : Nat) (s : State) : Ans :=
  match gateEnd s p.val, ethRec s.pwr.net p.val with
  | some t, some r =>
    let s1 := s.at_ at_
    let next := if (s.eth p.val).gclAt.isNone then 0 else ((s.eth p.val).gcl + 1) % max 1 (fieldOf r 22 2)
    let s2 := s1.upEth p.val (fun e => { e with gcl := next, gclAt := some (max t s.net.applied) })
    doWhen (decide (t ≤ at_)) s (drainPort s2 p.val)
  | _, _ => did s

/-! ### Frames received (R432, R433, R449) -/

/-- A frame as the switch sees it: addresses, priority, VID, what follows the tag, and whether its granules pass their check. -/
structure EthIn where
  dst : Nat
  src : Nat
  pcp : Nat
  vid : Nat
  rest : Bytes
  good : Bool := true
  deriving DecidableEq, Repr

/-- The tag is read, or the port's PVID taken. -/
def parseEth (pvid : Nat) (bs : Bytes) : EthIn :=
  let tagged := beField bs 12 2 == 0x8100
  { dst := fieldOf bs 0 6, src := fieldOf bs 6 6, pcp := if tagged then byteAt bs 14 / 32 else 0,
    vid := if tagged ∧ beField bs 14 2 % 4096 ≠ 0 then beField bs 14 2 % 4096 else pvid, rest := bs.drop (if tagged then 16 else 12) }

/-- The first FILTER of the stream a frame belongs to (Table 15-1). -/
def rxFilter (net : Bytes) (p : Nat) (f : EthIn) : Option (Nat × Option Bytes) :=
  ((recs net 6).find? (fun r => bitAt (fieldOf r 16 2) p && fieldOf r 14 2 == f.vid && fieldOf r 8 6 == (if byteAt r 4 = 0 then f.dst else f.src))).map
    (fun r => (fieldOf r 6 2, (recs net 7).find? (fun x => fieldOf x 4 2 == fieldOf r 6 2 && (byteAt x 6 == 255 || byteAt x 6 == f.pcp))))

/-- A stream gate is open at an instant (R434). -/
def streamGateOpen (s : State) (g : Nat) : Bool := match (recs s.pwr.net 8).find? (fun r => byteAt r 4 == g) with
  | none => true
  | some r =>
    let b := s.tb (byteAt r 5)
    let base := fieldOf r 16 8
    let v := b.nsAt s.now
    if v < base then true
    else
      let into := ((v - base) % (max 1 (fieldOf r 12 4) : Int)).toNat
      let es := (List.range (fieldOf r 8 2)).filterMap (fun i => gclRec s.pwr.net (fieldOf r 6 2 + i))
      let pick := es.foldl (fun (q : Nat × Option Bytes) e => if q.2.isSome then q else if into < q.1 + fieldOf e 8 4 then (q.1, some e) else (q.1 + fieldOf e 8 4, none)) (0, none)
      (pick.2.map (fun e => bitAt (byteAt e 6) 0)).getD true

/-- A meter's buckets filled to now: committed and excess bits. -/
def meterFill (s : State) (r : Bytes) (m : MeterSt) : Nat × Nat :=
  let cbs := 8 * fieldOf r 16 4
  let ebs := 8 * fieldOf r 20 4
  match m.c with
  | none => (cbs, ebs)
  | some c =>
    let ns := s.now - m.at_
    let c1 := c + fieldOf r 8 4 * ns / 1000000
    let spill := if bitAt (byteAt r 6) 0 then c1 - cbs else 0
    (min cbs c1, min ebs (m.e + fieldOf r 12 4 * ns / 1000000 + spill))

/-- A frame of `len` bytes passes its meter: green, or yellow where it is not dropped. -/
def meterTake (s : State) (k len : Nat) : State × Bool := match (recs s.pwr.net 9).find? (fun r => fieldOf r 4 2 == k) with
  | none => (s, true)
  | some r =>
    let b := meterFill s r (tget {} s.net.meters k)
    let need := 8 * len
    let put (c e : Nat) : State := s.upNet (fun x => { x with meters := tset {} x.meters k { c := some c, e := e, at_ := s.now } })
    if need ≤ b.1 then (put (b.1 - need) b.2, true)
    else if need ≤ b.2 ∧ ¬ bitAt (byteAt r 6) 1 then (put b.1 (b.2 - need), true)
    else (put b.1 b.2, false)

/-- Per-stream filtering and policing: the state, the stream handle, and whether the frame goes on. -/
def police (s : State) (p : Nat) (f : EthIn) (len : Nat) : State × Option Nat × Bool :=
  match rxFilter s.pwr.net p f with
  | none => (s, none, true)
  | some (h, none) => (s, some h, true)
  | some (h, some x) =>
    if fieldOf x 10 2 ≠ 0 ∧ fieldOf x 10 2 < len then (s, some h, false)
    else if byteAt x 7 ≠ 255 ∧ ¬ streamGateOpen s (byteAt x 7) then (s, some h, false)
    else if fieldOf x 8 2 = 65535 then (s, some h, true)
    else let m := meterTake s (fieldOf x 8 2) len; (m.1, some h, m.2)

/-- The FRER function of a kind for a handle. -/
def frerOf (net : Bytes) (kind h : Nat) : Option (Bytes × Nat) :=
  (recs net 0x0A).zipIdx.find? (fun r => byteAt r.1 4 == kind && fieldOf r.1 6 2 == h)

/-- The vector recovery algorithm of IEEE 802.1CB: the state, and whether the frame is the first of its number. -/
def recover (s : State) (k hist reset seq : Nat) : State × Bool :=
  let x := tget {} s.net.frer k
  let put (y : FrerSt) : State := s.upNet (fun n => { n with frer := tset {} n.frer k y })
  match x.last with
  | none => (put { x with last := some seq, seen := [seq], at_ := s.now }, true)
  | some l =>
    if x.at_ + 1000000 * reset ≤ s.now then (put { x with last := some seq, seen := [seq], at_ := s.now }, true)
    else
      let d : Int := signed 16 (seq + 65536 - l)
      if d.natAbs ≥ hist then (s, false)
      else if 0 < d then (put { x with last := some seq, seen := (seq :: x.seen).take 64, at_ := s.now }, true)
      else if x.seen.contains seq then (s, false)
      else (put { x with seen := (seq :: x.seen).take 64, at_ := s.now }, true)

/-- A frame without its tag, rebuilt for an egress port. -/
def egressBytes (net : Bytes) (f : EthIn) (body : Bytes) (p : Nat) : Bytes :=
  let un := ((recs net 4).find? (fun r => fieldOf r 4 2 == f.vid)).map (fun r => bitAt (fieldOf r 8 2) p)
  leBytes 6 f.dst ++ leBytes 6 f.src ++ (if un = some false then netBytes 2 0x8100 ++ netBytes 2 (8192 * f.pcp + f.vid) else []) ++ body

/-- The ports a frame goes to: by VLAN and static FDB, a link-local address to management alone (R433). -/
def forwardTo (net : Bytes) (p : Nat) (f : EthIn) : Option Nat :=
  let members := (((recs net 4).find? (fun r => fieldOf r 4 2 == f.vid)).map (fun r => fieldOf r 6 2)).getD 0
  let fdb := (recs net 5).find? (fun r => fieldOf r 4 6 == f.dst && fieldOf r 10 2 == f.vid)
  let local_ := f.dst % 2 ^ 40 == 0x0000C28001 && f.dst / 2 ^ 40 < 16
  if local_ then some 8192
  else match fdb with
    | some r => some ((fieldOf r 12 2 &&& members) &&& (16383 - 2 ^ p))
    | none => if bitAt f.dst 0 then some (members &&& (16383 - 2 ^ p)) else none

/-- The ACF messages of an NTSCF AVTPDU: bus, identifier, format and payload (IEEE 1722-2016). -/
def acfMessages : Nat → Bytes → List (Nat × Nat × Bool × Bytes)
  | 0, _ => []
  | n + 1, bs =>
    let h := beField bs 0 2
    let size := 4 * (h % 512)
    if bs.length < 4 ∨ size < 4 ∨ bs.length < size then []
    else
      let head := if h / 512 = 1 then 16 else if h / 512 = 2 then 8 else 0
      let rest := acfMessages n (bs.drop size)
      if head = 0 ∨ size < head then rest
      else
        let fl := byteAt bs 2
        let data := (bs.drop head).take (size - head - fl / 64)
        (byteAt bs 3 % 32, beField bs (head - 4) 4 % 2 ^ 29, bitAt fl 3, data) :: rest

/-- An IEEE 1722 frame at the gateway port (R449). -/
def gatewayAvtp (s : State) (bs : Bytes) : State :=
  let len := beField bs 1 2 % 2048
  if byteAt bs 0 ≠ 0x82 ∨ bs.length < 12 + len then s
  else (acfMessages (len / 4 + 1) ((bs.drop 12).take len)).foldl (fun s m => sourceEvent s m.2.2.2 (fun x =>
    fld x.2 1 1 == 1 && fld x.2 2 1 == m.1 && fld x.2 8 8 == beField bs 4 8 && canMatch x.2 m.2.1 m.2.2.1)) s

/-- A UDP datagram at the gateway port (R449). -/
def gatewayUdp (s : State) (p : Nat) (bs : Bytes) : State :=
  let ulen := beField bs 24 2
  let whole := byteAt bs 0 == 0x45 && byteAt bs 9 == 17 && beField bs 6 2 % 16384 == 0 && decide (8 ≤ ulen) && decide (20 + ulen ≤ bs.length)
  let sum := onesSum (halfWords ((bs.drop 12).take 8 ++ [0, 17] ++ netBytes 2 ulen ++ (bs.drop 20).take ulen))
  if ¬ whole ∨ (beField bs 26 2 ≠ 0 ∧ sum ≠ 65535) then s
  else sourceEvent s ((bs.drop 28).take (ulen - 8)) (fun x =>
    fld x.2 1 1 == 2 && (fld x.2 2 1 == 255 || fld x.2 2 1 == p) && fld x.2 8 8 % 2 ^ 32 == beField bs 16 4 && fld x.2 4 4 == beField bs 22 2)

/-- A frame at the gateway port. -/
def toGateway (s : State) (p : Nat) (body : Bytes) : State :=
  if beField body 0 2 = 0x22F0 then gatewayAvtp s (body.drop 2)
  else if beField body 0 2 = 0x0800 then gatewayUdp s p (body.drop 2)
  else s

/-- A frame is consumed in the device, with its check verified: one that fails is reported and not used (R66). -/
def consume (s : State) (f : EthIn) (mid : Byte) (go : State → State) : State := if f.good then go s else reportCheckOf s .b mid 0 false

/-- A frame is forwarded to a set of ports (R433). -/
def forward (s : State) (p : Nat) (f : EthIn) (body : Bytes) (ports : Nat) : State :=
  let s := (List.range 12).foldl (fun s e => if bitAt ports e then queueEth s e { cls := f.pcp, data := egressBytes s.pwr.net f body e, good := f.good } else s) s
  let s := if bitAt ports 13 then consume s f midStagehand (fun s => s.upNet (fun x => { x with managed := x.managed ++ [egressBytes s.pwr.net f body 13] })) else s
  if bitAt ports 12 then consume s f midGateway (fun s => toGateway s p body) else s

/-- Sequence generation and split, recovery, then forwarding (IEEE 802.1CB). -/
def frerForward (s : State) (p : Nat) (f : EthIn) (h : Option Nat) : State :=
  let net := s.pwr.net
  let seqOf := if beField f.rest 0 2 = 0xF1C1 then some (beField f.rest 4 2) else none
  let go (s : State) (body : Bytes) (split : Option Nat) : State := match split with
    | some ports => forward s p f body ports
    | none => match forwardTo net p f with
      | some ports => forward s p f body ports
      | none => s.upNet (fun x => { x with noFdb := x.noFdb + 1 })
  match h.bind (frerOf net 1) with
  | some (r, k) => match seqOf with
    | some q => let t := recover s k (byteAt r 10) (fieldOf r 12 4) q; if t.2 then go t.1 f.rest none else t.1
    | none => go s f.rest none
  | none => match h.bind (frerOf net 0) with
    | some (r, k) =>
      let q := (tget {} s.net.frer k).next
      let s := s.upNet (fun n => { n with frer := tup {} n.frer k (fun y => { y with next := (y.next + 1) % 65536 }) })
      go s (netBytes 2 0xF1C1 ++ [0, 0] ++ netBytes 2 q ++ f.rest) (some (fieldOf r 8 2))
    | none => go s f.rest none

/-- The time of arrival of a gPTP Sync is kept for its Follow_Up (R435). -/
def keepSync (s : State) (p : Nat) (f : EthIn) : State :=
  if beField f.rest 0 2 = 0x88F7 ∧ byteAt f.rest 2 % 16 = 0 ∧ f.good then
    s.upNet (fun x => { x with syncRx := tset [] x.syncRx (syncKey p (byteAt f.rest 6)) (s.eth p).rxStamp })
  else s

/-- ETH_FRAME_RECEIVE (R432, R433, R435, R449): `data` is the frame from its destination address to its last byte before
the FCS. -/
def execEthFrameReceive (p : EthId) (k : EthRx) (data : Bytes) (at_ : Nat) (s : State) : Ans :=
  match ethRec s.pwr.net p.val with
  | none => did s
  | some r =>
    let s0 := stampRx (s.at_ at_) p.val data.length
    let drop (s : State) : State := s.upEth p.val (fun e => { e with drops := e.drops + 1 })
    let len := data.length + 4
    let f := { parseEth (fieldOf r 16 2) data with good := k.keeps }
    let s1 := if k.fcsOk then keepSync s0 p.val f else s0
    let q := police s1 p.val f len
    doWhen (ethMode s.pwr.net p.val != 0 && (s.eth p.val).linkUp) s
      (if ¬ k.fcsOk then s1.upEth p.val (fun e => { e with fcs := e.fcs + 1, drops := e.drops + 1 })
       else if len < 64 ∨ fieldOf r 14 2 < len then drop s1
       else if ¬ q.2.2 then drop q.1
       else frerForward q.1 p.val f q.2.1)

/-! ### Timers (R450, R451) -/

/-- MIN_GAP_EXPIRY (R451). -/
def execMinGapExpiry (r : RouteId) (at_ : Nat) (s : State) : Ans :=
  match (s.route r.toNat).due with
  | some t => doWhen (decide (t ≤ at_)) s (sendFrame (s.at_ at_) r.toNat)
  | none => did s

/-- ROUTE_STALE (R450): TIMEOUT_US after its last event a signal route shows SUBST. -/
def execRouteStale (r : RouteId) (at_ : Nat) (s : State) : Ans :=
  let w := routeSet s r.toNat
  match (s.route r.toNat).event with
  | none => did s
  | some t =>
    let s1 := (s.at_ at_).upRoute r.toNat (fun x => { x with stale := true })
    doWhen (isSignal w && fld w 48 4 != 0 && decide (t + 1000 * fld w 48 4 ≤ at_)) s (if dstLoop w then toLoop s1 w (substOf w) else s1)

end Sys2Proof.Machine
end

