-- ==== Sys2Proof/Machine/HostLink.lean ====
section
/-! DEFINITION. The PCIe link, prefetch, and the delivery of notices, completions and interrupts
(R322 to R343). -/

namespace Sys2Proof.Machine

/-- A host request that ends with an error: its job terminates with `reason` (R84, R289), or the host semaphore fails with
`cause` (R358). -/
def failHostRead (reason : Byte) (cause : Nat) (s : State) (r : HostRead) : State :=
  match r.src with
  | .job u => failUnit s u reason
  | .semaphore n tag pos status result => semaphoreFailed cause s n tag pos status result
  | .twin _ => s

/-- A host request is answered: a host semaphore then holds one more, and its JOB_START completes (R358). -/
def answered (s : State) (r : HostRead) : State := match r.src with
  | .semaphore n tag pos status result =>
    let old := leNat ((List.range 8).map (fun i => hostByteAt s (r.addr + i)))
    completeStart (pokeHost s r.addr (leBytes 8 (old + 1))) n tag pos status result
  | _ => s

/-- The requester is a unit. -/
def HostRead.forJob (r : HostRead) : Bool := match r.src with
  | .job _ => true
  | _ => false

/-- What R342 and R343 share: outstanding requests end with errors, and every slice's rings stop, with
LINK_RECOVERED due at the re-enable. -/
def bridgeStops (s : State) : State :=
  let rs := s.host.reads
  let s := s.upHost (fun h => { h with reads := [] })
  let s := rs.foldl (failHostRead 0x04 2) s
  s.slices.foldl (fun s p =>
    let n := BitVec.ofNat 7 p.1
    ringOff (s.upSlice n (fun x => if x.recovering ∨ ¬ x.valid then x else { x with recovering := true, lossWrites := 0, lossCpls := 0 })) n) s

/-- PCIE_LINK_DOWN (R342): the bridge stops and HOST_LINK_LOST is raised. -/
def execPcieLinkDown (s : State) : Ans :=
  let s1 := raiseCode (bridgeStops (s.upHost (fun h => { h with linkUp := false }))) .b 0x22
  doWhen s.host.linkUp s s1

/-- D3HOT_ENTRY (R343): as a link loss, without the safety event. -/
def execD3hotEntry (s : State) : Ans :=
  doWhen (s.host.linkUp && !s.host.d3hot) s (bridgeStops (s.upHost (fun h => { h with d3hot := true })))

/-- D0_RETURN (R342, R343): the function is in D0, or the link has retrained; the host may re-enable. -/
def execD0Return (s : State) : Ans := doWhen s.host.configReady s (s.upHost (fun h => { h with d3hot := false, linkUp := true }))

/-- A read covers an address. -/
def HostRead.covers (r : HostRead) (a : Nat) : Bool := decide (r.addr ≤ a) && decide (a < r.addr + max r.len 1)

/-- The outstanding reads an answer at `a` ends: those among the 768 that are (R313). -/
def readsAt (s : State) (a : Nat) : List HostRead := (s.host.reads.take 768).filter (·.covers a)

/-- Those that stay, and those that wait. -/
def readsKept (h : HostSt) (a : Nat) : List HostRead := (h.reads.take 768).filter (fun r => !r.covers a) ++ h.reads.drop 768

/-- HOST_COMPLETION (R323, R358): the bytes arrive; UR and CA are permission denials, and what comes with EP set is
stored poisoned. The answer of a FetchAdd carries the value before it. -/
def execHostCompletion (a : BitVec 64) (st : CplStatus) (data : Bytes) (s : State) : Ans :=
  let rs := readsAt s a.toNat
  let s1 := s.upHost (fun h => { h with reads := readsKept h a.toNat })
  doWhen (linkOk s) s (match st with
    | .ok => rs.foldl answered (pokeHost s1 a.toNat data)
    | .poisoned => (rs.foldl answered (pokeHost s1 a.toNat data)).upHost (fun h => { h with poisonedIn := h.poisonedIn ++ rs.filter (·.forJob) })
    | .unsupported => rs.foldl (failHostRead 0x04 1) s1
    | .abort => rs.foldl (failHostRead 0x04 1) s1)

/-- HOST_COMPLETION_TIMEOUT (R289, R323): the requests at an address that have waited for the Completion Timeout Value end with a
timeout. -/
def execHostCompletionTimeout (x : HostTimeout) (s : State) : Ans :=
  let rs := readsAt s x.addr.toNat
  let s1 := (s.at_ x.at_).upHost (fun h => { h with
    completionTimeouts := h.completionTimeouts + 1
    reads := readsKept h x.addr.toNat })
  let least := (timeoutLeast s.host.cfg.timeout.toNat).getD 0
  doWhen (!rs.isEmpty && rs.all (fun r => decide (r.since + least ≤ x.at_))) s (rs.foldl (failHostRead 0x11 1) (raiseCode s1 .a 0x0B))

/-! ### Prefetch (R329 to R331) -/

/-- The bytes lie beyond the window's last host read, at most 4 KiB of them, in its 4 KiB page and in a valid BAR2 range
(R329). -/
def mayPrefetch (s : State) (n : SliceId) (off len : Nat) : Bool :=
  let a := n.toNat * 0x2000000 + off
  let r := tget (0, 0) s.host.lastRead n.toNat
  let stop := r.1 + r.2
  decide (0 < len) && decide (0 < r.2) && decide (stop ≤ off) && decide (off + len ≤ stop + 4096) &&
  decide ((stop - 1) / 4096 = off / 4096) && decide (a % 4096 + len ≤ 4096) &&
  s.host.ranges.any (fun p => p.2.valid && p.2.bar2 && decide (p.2.first ≤ a / 4096) && decide (a / 4096 ≤ p.2.last))

/-- BRIDGE_PREFETCH (R329 to R331): a speculative read; one that fails is dropped without report. -/
def execBridgePrefetch (n : SliceId) (off : BitVec 25) (len : Nat) (at_ : Nat) (s : State) : Ans :=
  let va := apertureVa s n off
  let ok := match readVa s n (.slice n) .read va len with
    | .ok _ => (s.slice n).page.aptEnable && !meetsHost s n va len
    | _ => false
  let s1 := s.at_ at_
  doWhen (mayPrefetch s n off.toNat len && ok) s
    (s1.upHost (fun h => { h with prefetched := h.prefetched ++
      (chunks (chunkFuel len) off.toNat len).map (fun c => { slice := n, off := c.1, len := c.2, since := s1.now }) }))

/-- PREFETCH_EXPIRY (R330): prefetched data 10 us old is discarded and counted. -/
def execPrefetchExpiry (at_ : Nat) (s : State) : Ans :=
  let s1 := s.at_ at_
  let old (p : Prefetched) : Bool := decide (p.since + 10000 ≤ at_)
  did (s1.upHost (fun h => { h with
    prefetchDiscard := h.prefetchDiscard + BitVec.ofNat 32 (((h.prefetched.filter old).map (fun p => (granules p.off p.len).length)).foldl (· + ·) 0)
    prefetched := h.prefetched.filter (fun p => ¬ old p) }))

/-! ### Delivery (R319, R339, R340) -/

/-- NOTICE_DELIVER (R26, R340): the notices of the closed cue's overruns are written, and the oldest staged notice enters the ring
once it has room, followed by the overflow notice when any were lost. -/
def execNoticeDeliver (n : SliceId) (s : State) : Ans := did (deliverOne (writeOwed s (· == n)) n)

/-- COMPLETION_WRITE (R319): the oldest held completion is written once the ring has room. -/
def execCompletionWrite (n : SliceId) (s : State) : Ans :=
  match (s.slice n).held with
  | [] => did s
  | e :: es =>
    doWhen ((s.slice n).page.enable && cplRoom (s.slice n).page) s (writeCpl (s.upSlice n (fun x => { x with held := es })) n e)

/-- COALESCE_TIMER (R339): the timer of offset 0 or 1 has run out and one MSI-X covers its entries. -/
def execCoalesceTimer (n : SliceId) (v : Fin 2) (at_ : Nat) (s : State) : Ans :=
  let t := if v.val = 0 then (s.slice n).timer0 else (s.slice n).timer1
  let s1 := (s.at_ at_).upSlice n (fun x => if v.val = 0 then { x with timer0 := none } else { x with timer1 := none })
  match t with
  | none => did s
  | some due => doWhen (due ≤ at_) s (sendMsix s1 (16 * n.toNat + v.val))

end Sys2Proof.Machine
end

