-- ==== Sys2Proof/Machine/Jobs.lean ====
section
/-! DEFINITION. Placement, pre-emption, restore, termination and the end of jobs, fences and the display
reclaim (chapters 03, 06 and 08). -/

namespace Sys2Proof.Machine

/-- JOB_PLACE (R32, R238 to R241, R248): the head job of an open scene is placed; one that waits for a lost unit is
reported, and a lender whose head job cannot be placed calls its cores back (R242). -/
def execJobPlace (i : SceneId) (s : State) : Ans := did (match placeHead s i with
  | some t => t
  | none => callBack s i)

/-! ### Termination (R106, R524) -/

/-- The entries of an AE_DECODE that did not run are marked so (Table 5-11). -/
def notRun (s : State) (u : UnitId) (j : Job) : State := match u with
  | .ae a => notRunOp s a j (s.unit u).seq.own (s.ae a).op
  | _ => s

/-- JOB_TERMINATE (R106, R168, R181, R385): a unit abandons its work, writes STATE 2 and is released. -/
def execJobTerminate (u : UnitId) (s : State) : Ans :=
  match (s.unit u).phase, jobOf s u with
  | .terminating reason, some j =>
    let s := aeStop (notRun (stopRender s u j) u j) u j.id
    did (freeUnit (writeRecord s u j 2 reason) u)
  | _, _ => did s

/-- What stops with a unit that is saved off. Of an attention engine: its operation ends, the decode's other entries are
marked, and its incomplete steps are discarded (R142, R166, R168). Of the lead front end: its render is terminated (R181). -/
def stopSaved (s : State) (j : Job) (k : Nat) : State := match tget none s.saved (128 * j.id + k) with
  | none => s
  | some x =>
    let s := match x.ae, (j.entries.getD k {}).unit with
      | some o, _ => endOp (notRunOp s o.home j x.seq.own (some o)) (some o)
      | none, some (.ae a) => notRunOp s a j x.seq.own none
      | none, _ => s
    let s := match leadOf j with
      | some r => writeRender s r j x.rfe 3
      | none => s
    dropSteps { s with saved := tset none s.saved (128 * j.id + k) none } (stepKey j.id k)

/-- Units that were off their cores when the job was terminated: what they had under way stops, and their records are
rewritten (R168, R524). -/
def rewriteRecords (s : State) (j : Job) : State :=
  j.entries.zipIdx.foldl (fun s p => if p.1.saved ∧ p.1.state = 2 then statusWrite (stopSaved s j p.2) j p.2 0 [2, p.1.reason] else s) s

/-- The kept buffers of a completed job are resident in its cores, in equal parts (R239). -/
def keepBuffers (s : State) (j : Job) : State :=
  match tget none (s.slice j.slice).packages j.handle with
  | none => s
  | some p =>
    let bufs := (List.range p.bufs.length).filter (fun b => j.e.kept.getLsbD b)
    let rs := bufs.map (fun b => ({ slice := j.slice, handle := j.handle, buf := b, bytes := ((p.bufs[b]?).map (·.size)).getD 0 / j.e.cores } : Resident))
    (j.entries.take j.e.cores).foldl (fun s e => match e.unit with
      | some u => s.upUnit u (fun x => { x with resident := x.resident.filter (fun r => rs.all (fun q => ¬ (q.slice = r.slice ∧ q.handle = r.handle ∧ q.buf = r.buf))) ++ rs })
      | none => s) s

/-- Every record shows STATE 1 or 2 and no unit is at work (R524). -/
def jobOver (s : State) (j : Job) : Bool :=
  (j.phase == .running || j.phase == .ending) && j.entries.all (fun e => e.state == 1 || e.state == 2) && !onCore s j.id

/-- A descriptor of a job's RFE program is a render that flips the head (R172, R197). -/
def rendersTo (s : State) (h : HeadId) (j : Job) (d : Line) : Bool := typeOf d == 0x20 && (match jobRead s j (fld d 8 8) 128 with
  | .ok bs => let x : Rc := BitVec.ofNat 1024 (leNat bs); x.flip && fld x 7 1 % 4 == h.toNat
  | _ => false)

/-- A job bound to a head (R197): with raster front ends, of the slice that owns the head, and at work on a render that flips it
or with one in its RFE program. -/
def boundTo (s : State) (h : HeadId) (j : Job) : Bool :=
  let p := programOf s j (j.e.cores + j.e.aes)
  let now := match leadOf j with
    | some r => flipsHead h (s.raster r)
    | none => false
  decide (0 < j.e.rfes) && j.slice == headSlice s h &&
  (now || (List.range p.2).any (fun i => match readVa s j.slice (actorOf j) .fetch (p.1 + 64 * i) 64 with
    | .ok bs => rendersTo s h j (lineOf bs)
    | _ => false))

/-- A render job bound to the head that runs or is queued (R197). -/
def rendersHead (s : State) (h : HeadId) (j : Job) : Bool :=
  j.bank == s.cue.bank && (j.phase == .running || j.phase == .queued) && boundTo s h j

/-- A render that ends lets its scene lend again what a reclaim for its head has kept (R198). -/
def lendAgain (s : State) (j : Job) : State :=
  s.upCue (fun c => { c with noLend := c.noLend.filter (fun p => !(p.1 == j.scene.toNat && boundTo s (BitVec.ofNat 2 p.2) j)) })

/-- JOB_END (R358, R421, R424, R425, R524): the job has ended on every unit; its units are released and its
JOB_START completes, at once or after its signature is known. -/
def execJobEnd (jid : Nat) (s : State) : Ans :=
  match s.job jid with
  | none => did s
  | some j =>
    let ok := j.entries.all (fun e => e.state == 1)
    let s1 := rewriteRecords s j
    let s1 := if ok then keepBuffers s1 j else s1
    let s1 := (unitsOf s1 jid).foldl freeUnit s1
    let s1 := lendAgain s1 j
    let s1 := s1.upJob jid (fun x => { x with phase := .ended, endCue := s.cue.count })
    let j1 := { j with phase := .ended, endCue := s.cue.count }
    doWhen (jobOver s j) s (if j.kaf.isSome then s1
      else if crossChecked s j then (if s.fab.twinUp then s1 else settleCross s1 j1 false none)
      else finishJob s1 j1)

/-! ### Pre-emption (R102) -/

/-- PREEMPT_REQUEST (R102 step 1, R133, R180): the request is latched; only a TSAMPLE in flight keeps a core from its
yield point, and tiles in work a front end from its own. -/
def execPreemptRequest (u : UnitId) (s : State) : Ans :=
  let busy := match u, jobOf s u with
    | .core c, _ => (s.ve c).tex.isSome
    | .rfe r, some j => (match leadOf j with
      | some lead => !betweenTiles s r lead j
      | none => false)
    | _, _ => false
  match (s.unit u).phase with
  | .preemptWanted b => did (s.upUnit u (fun x => { x with phase := if busy then .preemptAsked s.now b else .preemptStopped b }))
  | _ => did s

/-- FORCED_SPILL (R102 step 3, R133): 5 us after the request the engines are captured as they stand; the TSAMPLE
is cancelled, to be issued again on restore. -/
def execForcedSpill (u : UnitId) (s : State) : Ans :=
  match (s.unit u).phase with
  | .preemptAsked t b =>
    let s1 := (s.at_ (t + 5000)).upUnit u (fun x => { x with phase := .preemptStopped b })
    did (match u with
      | .core c => s1.upVe c (fun x => { x with tex := none })
      | _ => s1)
  | _ => did s

/-- The live range of a core as the save area takes it: a granule that fails its check is stored poisoned (R69). -/
def liveRange (s : State) (c : CoreId) (q : Seq) : Ram :=
  let lo := 65536 * q.liveBase
  let hi := lo + 65536 * q.liveSize
  let inR (a : Nat) : Bool := decide (storeBase c + lo ≤ a) && decide (a < storeBase c + hi)
  { bytes := (s.mem.store.bytes.filter (fun p => inR p.1)).map (fun p => (p.1 - storeBase c, p.2)),
    syn := (s.mem.store.syn.filter (fun p => inR (64 * p.1))).map (fun p => (p.1 - storeBase c / 64, 0xFFFF)) }

/-- The wait of a stopped sequencer leaves its counter, to be issued again on restore (R255). -/
def dropWait (s : State) (u : UnitId) : State := match (s.unit u).seq.wait with
  | some w => leaveCtr s w.ctr (Waiter.isUnit u)
  | none => s

/-- An attention engine's performed operation completes before its context is saved. -/
def settleOwn (s : State) (u : UnitId) : State := match u, (s.unit u).seq.own with
  | .ae _, x :: xs => if x.ran then popDesc s u .own x xs else s
  | _, _ => s

/-- A saved operation leaves its engine, and stays in flight (R166). -/
def leaveOp (s : State) (u : UnitId) : State := match u with
  | .ae a => s.upAe a (fun e => { e with op := none })
  | _ => s

/-- The context a unit saves (R102, R103). -/
def contextOf (s : State) (u : UnitId) : SavedCtx :=
  let q := { (s.unit u).seq with arrived := false, asked := false }
  match u with
  | .core c => { seq := q, live := liveRange s c q, core := s.core c, rfe := {} }
  | .rfe r => { seq := q, live := {}, core := {}, rfe := s.raster r }
  | .ae a => { seq := q, live := {}, core := {}, rfe := {}, ae := (s.ae a).op }

/-- PREEMPT_SAVE_DONE (R102 steps 4 and 5, R69, R103): far writes are acknowledged, the context and the live range
are in the save area, the record shows STATE 3 or 4, and the unit is released. -/
def execPreemptSaveDone (u : UnitId) (s : State) : Ans :=
  match (s.unit u).phase, jobOf s u with
  | .preemptStopped b, some j =>
    let k := (s.unit u).entry
    let saved := (j.entries.getD k {}).saved
    let s1 := dropWait (settleOwn s u) u
    let s1 := if saved then s1 else { s1 with saved := tset none s1.saved (128 * j.id + k) (some (contextOf s1 u)) }
    let s1 := writeRecord (leaveOp s1 u) u j (if b then 3 else 4) 0
    let s1 := s1.upJob j.id (fun j => { j with entries := setEntry j.entries k (fun e => { e with saved := true }) })
    doWhen (writesAcked s u) s (leftCores (freeUnit s1 u) j.id b)
  | _, _ => did s

/-- A saved context written back to a unit (R103): the rest of a core's store is zero. -/
def restoreTo (s : State) (u : UnitId) (x : SavedCtx) : State :=
  let s := match u with
    | .core c =>
      let st := s.mem.store.clear (storeBase c) storeSize
      let bytes := x.live.bytes.foldl (fun (t : Tbl Byte) (p : Nat × Byte) => tset 0 t (p.1 + storeBase c) p.2) st.bytes
      let syn := x.live.syn.foldl (fun (t : Tbl Half) (p : Nat × Half) => tset 0 t (p.1 + storeBase c / 64) p.2) st.syn
      (s.upMem (fun m => { m with store := { bytes := bytes, syn := syn } })).upCore c (fun _ => x.core)
    | .rfe r => s.upRaster r (fun _ => x.rfe)
    | .ae a => s.upAe a (fun e => { e with op := x.ae })
  s.upUnit u (fun y => { y with phase := .running, seq := x.seq, resident := [] })

/-- CONTEXT_RESTORE (R69, R103, R525): the unit taken for entry k receives the saved context of entry k. A live
range that was saved with a failed check terminates the job. -/
def execContextRestore (u : UnitId) (s : State) : Ans :=
  match (s.unit u).phase, jobOf s u with
  | .saved, some j =>
    let k := (s.unit u).entry
    match tget none s.saved (128 * j.id + k) with
    | none => did s
    | some x =>
      let w := x.seq.wait.map (fun w => { w with who := .unit u j.id })
      let s1 := restoreTo { s with saved := tset none s.saved (128 * j.id + k) none } u { x with seq := { x.seq with wait := w } }
      let s1 := s1.upJob j.id (fun j => { j with entries := setEntry j.entries k (fun e => { e with saved := false, state := 0 }) })
      did (if x.live.syn.isEmpty then s1 else failCheck s1 u 6 true)
  | _, _ => did s

/-- CORE_FENCE (R15, R248): a unit is fenced and its job ends with FENCED. -/
def execCoreFence (u : UnitId) (s : State) : Ans := did (fenceUnit s u)

/-! ### The display reclaim (R197, R198) -/

/-- A core of scene i's partition is lent: a job of another scene that borrows holds it. -/
def lentAny (s : State) (i : SceneId) : Bool :=
  let cs := coresInForce s i
  s.jobs.any (fun j => j.phase == .running && j.borrowing && j.scene != i && (unitsOf s j.id).any (fun u => match u with
    | .core c => cs.contains c
    | _ => false))

/-- DISPLAY_RECLAIM (R197): every borrower of a core of the render job's partition is pre-empted, and the scene
lends nothing until the flip applies or the job ends (R198). -/
def execDisplayReclaim (h : HeadId) (s : State) : Ans :=
  let scenes := (((s.jobs.filter (rendersHead s h)).map (·.scene)).eraseDups).filter (lentAny s)
  doWhen (headOn s h) s (scenes.foldl (fun s i =>
    (lendReturn s i).upCue (fun c => { c with noLend := (i.toNat, h.toNat) :: c.noLend })) s)

end Sys2Proof.Machine
end

