-- ==== Sys2Proof/Machine/Mailbox.lean ====
section
/-! DEFINITION. Mailbox messages (R344, R345, Table 12-1). -/

namespace Sys2Proof.Machine

/-- Word i of a slice's mailbox. -/
def mbxWord (s : State) (n : SliceId) (i : Nat) : Nat := (tget 0 (s.slice n).page.words i).toNat

/-- The message code that waits. -/
def mbxCode (s : State) (n : SliceId) : Nat := mbxWord s n 0 % 65536

/-- Steps 3 to 5 of R345: the reply's words 9 to 15, then word 8, and the interrupt. -/
def reply (s : State) (n : SliceId) (status : Nat) (ws : List Nat) : State :=
  let all := mbxWord s n 0 :: status :: (ws ++ List.replicate (6 - ws.length) 0)
  let s := s.upPage n (fun p => { p with
    words := all.zipIdx.foldl (fun t v => tset 0 t (8 + v.2) (BitVec.ofNat 32 v.1)) p.words
    dbMbx := false
    devMbx := true })
  interrupt s n 1

/-- Stagehand serves the message of a slice's page: it has the row's code, or one that Table 12-1 does not define. -/
def serveMbx (code : Nat) (body : State → State) (n : SliceId) (s : State) : Ans :=
  let c := mbxCode s n
  let known := c == 1 || c == 2 || c == 3
  doWhen (s.host.devReady && (s.slice n).valid && (s.slice n).page.dbMbx && (c == code || !known)) s
    (if known then body s else reply s n stBadOpcode [])

/-- The bank whose images run. -/
def runningBank (s : State) : Bank := if s.sec.bootedB then s.sec.bankB else s.sec.bankA

/-- IDENTIFY: the versions of Pyotos, of the command set and of the security firmware, and the commands in flight. -/
def execIdentify (n : SliceId) (s : State) : Ans :=
  serveMbx 1 (fun s => reply s n 0 [(runningBank s).versionPy.toNat, 0x10000, (runningBank s).versionSf.toNat, 1024]) n s

/-- ECHO: words 1 to 6 come back. -/
def execEcho (n : SliceId) (s : State) : Ans :=
  serveMbx 2 (fun s => reply s n 0 ((List.range 6).map (fun i => mbxWord s n (i + 1)))) n s

/-- STOP_SLICE (R352): slice 0's page may name any slice, any other its own. -/
def execStopSlice (n : SliceId) (s : State) : Ans :=
  serveMbx 3 (fun s =>
    let k : SliceId := BitVec.ofNat 7 (mbxWord s n 1)
    if n ≠ 0 ∧ k ≠ n then reply s n stDenied []
    else if ¬ (s.slice k).valid then reply s n stNoObject []
    else reply (stopSlice s k) n 0 []) n s

end Sys2Proof.Machine
end

