-- ==== Sys2Proof/Machine/Crypto.lean ====
section
/-! DEFINITION. The functions of the crypto engine: HMAC and the key derivations, P-384 with ECDSA and key agreement, and AES-256-GCM
(R367, R370, R374, R376, R379, R380). The functions themselves are those of the standards that the spec names (log entry 14). -/

namespace Sys2Proof.Machine

/-! ### HMAC-SHA-384 and the key derivations (FIPS 198-1, SP 800-108r1, RFC 5869) -/

/-- A key filled up to a block of 128 bytes. -/
def hmacBlock (key : Bytes) : Bytes :=
  let k := if 128 < key.length then sha384 key else key
  k ++ zeros (128 - k.length)

/-- HMAC-SHA-384. -/
def hmac (key msg : Bytes) : Bytes :=
  let k := hmacBlock key
  sha384 (k.map (· ^^^ 0x5C) ++ sha384 (k.map (· ^^^ 0x36) ++ msg))

/-- The KDF in counter mode: block i is the PRF of i, the label, a zero byte, the context and the length in bits. -/
def kdf (key label context : Bytes) (bits : Nat) : Bytes :=
  ((List.range ((bits + 383) / 384)).flatMap (fun i => hmac key (beBytes 4 (i + 1) ++ label ++ [0] ++ context ++ beBytes 4 bits))).take (bits / 8)

/-- HKDF for an output of at most 48 bytes. -/
def hkdf (ikm salt info : Bytes) (len : Nat) : Bytes := (hmac (hmac salt ikm) (info ++ [1])).take len

/-! ### P-384 (SP 800-186) -/

def p384 : Nat := 2 ^ 384 - 2 ^ 128 - 2 ^ 96 + 2 ^ 32 - 1
def n384 : Nat := 0xFFFFFFFFFFFFFFFFFFFFFFFFFFFFFFFFFFFFFFFFFFFFFFFFC7634D81F4372DDF581A0DB248B0A77AECEC196ACCC52973
def b384 : Nat := 0xB3312FA7E23EE7E4988E056BE3F82D19181D9C6EFE8141120314088F5013875AC656398D8A2ED19D2A85C8EDD3EC2AEF
def gx384 : Nat := 0xAA87CA22BE8B05378EB1C71EF320AD746E1D3B628BA79B9859F741E082542A385502F25DBF55296C3A545E3872760AB7
def gy384 : Nat := 0x3617DE4A96262C6F5D9E98BF9292DC29F8F41DBD289A147CE9DA3113B5F0B8C00A60B1CE1D7E819D7A431D7C90EA0E5F

/-- A power modulo `m`, for an exponent below 2 ^ `bits`. -/
def powMod (m a e : Nat) : Nat → Nat
  | 0 => 1 % m
  | k + 1 => powMod m (a * a % m) (e / 2) k * (if e % 2 = 1 then a else 1) % m

/-- The inverse modulo a prime below 2 ^ 384. -/
def invMod (m a : Nat) : Nat := powMod m (a % m) (m - 2) 384

/-- A difference modulo the field's prime. -/
def subP (a b : Nat) : Nat := (a + (p384 - b % p384)) % p384

/-- A point in projective coordinates: x over z², y over z³; z is 0 at infinity. -/
structure Point where
  x : Nat
  y : Nat
  z : Nat
  deriving DecidableEq, Repr

def Point.infinity : Point := { x := 1, y := 1, z := 0 }

def Point.double (a : Point) : Point :=
  let yy := a.y * a.y % p384
  let t := 4 * a.x * yy % p384
  let zz := a.z * a.z % p384
  let m := 3 * subP a.x zz * (a.x + zz) % p384
  let x := subP (m * m) (2 * t)
  { x := x, y := subP (m * subP t x) (8 * yy * yy), z := 2 * a.y * a.z % p384 }

def Point.add (a b : Point) : Point :=
  if a.z = 0 then b
  else if b.z = 0 then a
  else
    let za := a.z * a.z % p384
    let zb := b.z * b.z % p384
    let u := a.x * zb % p384
    let v := a.y * zb * b.z % p384
    let h := subP (b.x * za) u
    let r := subP (b.y * za * a.z) v
    if h = 0 then (if r = 0 then a.double else .infinity)
    else
      let hh := h * h % p384
      let hhh := h * hh % p384
      let uh := u * hh % p384
      let x := subP (r * r) (hhh + 2 * uh)
      { x := x, y := subP (r * subP uh x) (v * hhh), z := h * a.z * b.z % p384 }

/-- A multiple of a point, for a scalar below 2 ^ 384. -/
def Point.mul (k : Nat) (a : Point) : Point :=
  (List.range 384).foldl (fun r i => if bitAt k (383 - i) then r.double.add a else r.double) .infinity

/-- The coordinates of a point that is not at infinity. -/
def Point.affine (a : Point) : Nat × Nat :=
  let i := invMod p384 a.z
  (a.x * i * i % p384, a.y * i * i * i % p384)

def basePoint : Point := { x := gx384, y := gy384, z := 1 }

/-- The curve has a point with these coordinates. -/
def onCurve (x y : Nat) : Bool := decide (x < p384) && decide (y < p384) && (y * y % p384 == (x * x * x + (p384 - 3) * x + b384) % p384)

/-- The point of an uncompressed form of 97 bytes. -/
def curvePoint (bs : Bytes) : Option Point :=
  let x := beNat ((bs.drop 1).take 48)
  let y := beNat ((bs.drop 49).take 48)
  if bs.length = 97 ∧ byteAt bs 0 = 4 ∧ onCurve x y then some { x := x, y := y, z := 1 } else none

/-- The uncompressed form of a point. -/
def pointBytes (a : Point) : Bytes := [0x04] ++ beBytes 48 a.affine.1 ++ beBytes 48 a.affine.2

/-! ### ECDSA over SHA-384 (FIPS 186-5) and key agreement -/

/-- The number that is signed. -/
def digestNat (msg : Bytes) : Nat := beNat (sha384 msg)

/-- A signature, r then s, by the key of a public point verifies. -/
def ecdsaOk (pub msg sig : Bytes) : Bool := match curvePoint pub with
  | none => false
  | some q =>
    let r := beNat (sig.take 48)
    let t := beNat ((sig.drop 48).take 48)
    let w := invMod n384 t
    let a := (basePoint.mul (digestNat msg * w % n384)).add (q.mul (r * w % n384))
    sig.length == 96 && decide (1 ≤ r) && decide (r < n384) && decide (1 ≤ t) && decide (t < n384) && a.z != 0 && a.affine.1 % n384 == r

/-- A signature by a private scalar, with the per-message secret `k`. -/
def ecdsaSign (d k : Nat) (msg : Bytes) : Bytes :=
  let r := (basePoint.mul k).affine.1 % n384
  beBytes 48 r ++ beBytes 48 (invMod n384 k * ((digestNat msg + r * d) % n384) % n384)

/-- The private scalar that FIPS 186-5 A.2.1 takes from 448 bits. -/
def scalarOf (bs : Bytes) : Nat := beNat bs % (n384 - 1) + 1

/-- The x-coordinate that a scalar and a public point agree on. -/
def agree (d : Nat) (pub : Bytes) : Option Bytes := (curvePoint pub).map (fun q => beBytes 48 (q.mul d).affine.1)

/-! ### AES-256 (FIPS 197) -/

/-- Twice a byte, in the field of AES. -/
def aesTwice (a : Byte) : Byte := (a <<< 1) ^^^ (if a.msb then 0x1B else 0)

/-- A product in that field: `k` bits of `b` are left. -/
def aesMul : Nat → Byte → Byte → Byte
  | 0, _, _ => 0
  | k + 1, a, b => (if b.getLsbD 0 then a else 0) ^^^ aesMul k (aesTwice a) (b >>> 1)

/-- A square, and the inverse as the power 254, with 0 for 0. -/
def aesSquare (a : Byte) : Byte := aesMul 8 a a
def aesInv (a : Byte) : Byte :=
  let a2 := aesSquare a
  let a3 := aesMul 8 a2 a
  let a6 := aesSquare a3
  let a12 := aesSquare a6
  let a15 := aesMul 8 a12 a3
  let a240 := aesSquare (aesSquare (aesSquare (aesSquare a15)))
  aesMul 8 (aesMul 8 a240 a12) a2

/-- The substitution of a byte. -/
def aesSub (a : Byte) : Byte :=
  let v := aesInv a
  v ^^^ v.rotateLeft 1 ^^^ v.rotateLeft 2 ^^^ v.rotateLeft 3 ^^^ v.rotateLeft 4 ^^^ 0x63

/-- Bytes added to bytes. -/
def xorBytes (a b : Bytes) : Bytes := (a.zip b).map (fun p => p.1 ^^^ p.2)

/-- The next word of the key schedule, from its words so far with the newest first, and its number. -/
def aesKeyWord (ws : List Bytes) (i : Nat) : Bytes :=
  let last := ws.headD []
  let t :=
    if i % 8 = 0 then xorBytes ((last.drop 1 ++ last.take 1).map aesSub) [(1 : Byte) <<< (i / 8 - 1), 0, 0, 0]
    else if i % 8 = 4 then last.map aesSub
    else last
  xorBytes t (ws.getD 7 [])

/-- The 15 round keys of a key of 32 bytes. -/
def aesKeys (key : Bytes) : List Bytes :=
  let first := ((List.range 8).map (fun i => (key.drop (4 * i)).take 4)).reverse
  let ws := ((List.range 52).foldl (fun ws i => aesKeyWord ws (i + 8) :: ws) first).reverse
  (List.range 15).map (fun i => ((ws.drop (4 * i)).take 4).flatten)

/-- Row r of the state is rotated by r columns. -/
def aesShift (b : Bytes) : Bytes := (List.range 16).map (fun i => b.getD ((i + 4 * (i % 4)) % 16) 0)

/-- The columns of the state are mixed. -/
def aesMix (b : Bytes) : Bytes := (List.range 16).map (fun i =>
  let g (k : Nat) : Byte := b.getD (4 * (i / 4) + (i + k) % 4) 0
  aesTwice (g 0) ^^^ aesTwice (g 1) ^^^ g 1 ^^^ g 2 ^^^ g 3)

/-- One block enciphered. -/
def aes (keys : List Bytes) (block : Bytes) : Bytes :=
  let b := ((keys.drop 1).take 13).foldl (fun b k => xorBytes (aesMix (aesShift (b.map aesSub))) k) (xorBytes block (keys.getD 0 []))
  xorBytes (aesShift (b.map aesSub)) (keys.getD 14 [])

/-! ### GCM (SP 800-38D) -/

/-- A product of blocks: `k` bits of `a` are left. -/
def ghashMul : Nat → BitVec 128 → BitVec 128 → BitVec 128
  | 0, _, _ => 0
  | k + 1, a, v =>
    (if a.msb then v else 0) ^^^ ghashMul k (a <<< 1) ((v >>> 1) ^^^ (if v.getLsbD 0 then (0xE1 : BitVec 128) <<< 120 else 0))

def blockBits (bs : Bytes) : BitVec 128 := BitVec.ofNat 128 (beNat (bs ++ zeros (16 - bs.length)))

/-- The i-th block of some bytes. -/
def blockAt (bs : Bytes) (i : Nat) : Bytes := (bs.drop (16 * i)).take 16

def blockCount (bs : Bytes) : Nat := (bs.length + 15) / 16

/-- GHASH of additional data and ciphertext. -/
def ghash (h : BitVec 128) (aad cipher : Bytes) : BitVec 128 :=
  let blocks (bs : Bytes) : List (BitVec 128) := (List.range (blockCount bs)).map (fun i => blockBits (blockAt bs i))
  (blocks aad ++ blocks cipher ++ [BitVec.ofNat 128 (8 * aad.length * 2 ^ 64 + 8 * cipher.length)]).foldl (fun y x => ghashMul 128 (y ^^^ x) h) 0

/-- Bytes enciphered, or deciphered, in counter mode from counter `c` of a 12-byte nonce. -/
def gctr (keys : List Bytes) (iv : Bytes) (c : Nat) (bs : Bytes) : Bytes :=
  (List.range (blockCount bs)).flatMap (fun i => xorBytes (blockAt bs i) (aes keys (iv ++ beBytes 4 (c + i))))

/-- The tag of a ciphertext. -/
def gcmTag (keys : List Bytes) (iv aad cipher : Bytes) : Bytes :=
  gctr keys iv 1 (beBytes 16 (ghash (blockBits (aes keys (zeros 16))) aad cipher).toNat)

/-- AES-256-GCM decryption: the plaintext, where the tag is right. -/
def gcmOpen (key iv aad cipher tag : Bytes) : Option Bytes :=
  let keys := aesKeys key
  if gcmTag keys iv aad cipher = tag then some (gctr keys iv 2 cipher) else none

/-! ### The keys of the device (R367, R379) -/

/-- The context of every derivation: LIFECYCLE, then DEV_SERIAL. -/
def keyContext : Bytes := leBytes 1 Config.lifecycle.toNat ++ leBytes 8 Config.devSerial.toNat

/-- The bytes of an ASCII label. -/
def ascii (t : String) : Bytes := t.toList.map (fun c => BitVec.ofNat 8 c.toNat)

/-- A key that the DUK derives for a label (Table 13-3). -/
def deviceKey (label : String) (bits : Nat) : Bytes := kdf (leBytes 32 Config.duk.toNat) (ascii label) keyContext bits

def twId : Nat := scalarOf (deviceKey "TW-ID" 448)
def twKa : Nat := scalarOf (deviceKey "TW-KA" 448)

/-- The key under which the security firmware seals its store in the boot flash. -/
def twSeal : Bytes := deviceKey "TW-SEAL" 256

/-- The content key of an enclave package, where EPHEMERAL is a point of the curve. -/
def contentKey (ephemeral : Bytes) : Option Bytes :=
  (agree twKa ephemeral).map (fun x => hkdf x (leBytes 8 Config.devSerial.toNat) (ascii "TW-ENC") 32)

end Sys2Proof.Machine
end

