-- ==== Sys2Proof/Machine/Images.lean ====
section
/-! DEFINITION. Boot images: the flash map, what secure ROM reads of an image, and what it accepts (R368 to R370, R430). -/

namespace Sys2Proof.Machine

/-! ### The boot flash (Table 13-4) -/

def bankBytes : Nat := 31 * 0x100000

/-- Bytes up to the next 64 KiB boundary. -/
def roundPages (k : Nat) : Nat := (k + 65535) / 65536 * 65536

/-- Both images of a bank fit it; the Pyotos image begins at the 64 KiB boundary after the other (R369). -/
def bankFits (b : Bank) : Bool := decide (roundPages b.sf.length + b.py.length ≤ bankBytes)

/-! ### One image (Table 13-5) -/

/-- Payload bytes by the header. -/
def imageLength (img : Bytes) : Nat := fieldOf img 12 4

/-- Header and payload. -/
def imageSpan (img : Bytes) : Nat := 512 + imageLength img

def imagePayload (img : Bytes) : Bytes := (img.drop 512).take (imageLength img)

/-- The network configuration block that ends a Pyotos payload (R430). -/
def netBlockOf (payload : Bytes) : Bytes :=
  let len := fieldOf payload (payload.length - 4) 4
  if payload.length < len + 4 then [] else (payload.drop (payload.length - 4 - len)).take len

/-- Every field of the header is in range, and the payload is whole. -/
def headerInRange (typ : Nat) (img : Bytes) : Bool :=
  let b := byteAt img
  decide (512 ≤ img.length) && fieldOf img 0 4 == 0x49545754 && b 4 == typ && decide (b 5 ≤ 3) && decide (b 6 ≤ 64) && b 7 == 0 &&
  inR 0x100000 (imageLength img) (30 * 0x100000) && decide (imageSpan img ≤ img.length) && zerosAt img 161 192 && zerosAt img 288 512

/-- What the verification of an image of some TYPE finds (R370). -/
def imageReport (typ : Nat) (img : Bytes) : ImageReport :=
  let key := byteAt img 5
  let pub := (img.drop 64).take 97
  { fieldsOk := headerInRange typ img
    keyHashOk := sha384 pub == sha384 (Config.ownerKey key)
    keyRevoked := Config.ownerKeyRevoked key
    sigOk := ecdsaOk pub (img.take 192) ((img.drop 192).take 96)
    digestOk := (img.drop 16).take 48 == sha384 (imagePayload img)
    rollback := byteAt img 6
    version := BitVec.ofNat 32 (fieldOf img 8 4)
    net := if typ = 2 then netBlockOf (imagePayload img) else [] }

/-- The report of an image passes R370 against the fused count of its TYPE. -/
def reportOk (r : ImageReport) (fused : Nat) : Bool :=
  r.fieldsOk && r.keyHashOk && !r.keyRevoked && r.sigOk && r.digestOk && decide (fused ≤ r.rollback)

/-- The rollback count fused for an image TYPE. -/
def fusedOf (s : State) (typ : Nat) : Nat := if typ = 1 then s.sec.fusedSf else s.sec.fusedPy

/-- An image of some TYPE is accepted: a Pyotos image also fails with its network block (R370, R430). -/
def imagePasses (s : State) (typ : Nat) (r : ImageReport) : Bool := reportOk r (fusedOf s typ) && (typ != 2 || netOk r.net)

/-- An image that is given as bytes is accepted. -/
def imageOk (s : State) (typ : Nat) (img : Bytes) : Bool := imagePasses s typ (imageReport typ img)

/-! ### The two images of a bank -/

/-- The Pyotos image of a bank's bytes, from the 64 KiB boundary that follows the security firmware's (R369). -/
def pyImage (bs : Bytes) : Bytes := bs.drop (roundPages (imageSpan bs))

/-- What the verification of a bank finds. -/
def readBank : BankRead → BankReport
  | .found r => r
  | .bytes bs => { sf := imageReport 1 bs, py := imageReport 2 (pyImage bs) }

/-- The images that a bank is seen to hold. -/
def bankImages : BankRead → Bank → Bank
  | .found _, b => b
  | .bytes bs, b => { b with sf := bs.take (imageSpan bs), py := (pyImage bs).take (imageSpan (pyImage bs)) }

end Sys2Proof.Machine
end

