-- ==== Sys2Proof/Machine/Holds.lean ====
section
/-! DEFINITION. Secure holds on cuts, what a reset of PORST_N scope leaves, and the entry to SLEEP (R392, R393, R475,
R482, R484, R490). -/

namespace Sys2Proof.Machine

/-! ### Secure holds (R392, R393) -/


/-- A unit of Stage die d carries an enclave number. -/
def dieEnclave (s : State) (d : Nat) : Bool := (dieUnits d).any (fun u => tget 0 s.sec.unitEnc (UnitId.code u) ≠ 0)

/-- A clock domain of Table 17-3 is secure-held: the secure world's, one with a unit that carries an ENC, or one whose
SEC_HOLD bit is set. -/
def domainHeld (s : State) (d : Nat) : Bool :=
  d == 24 || (1 ≤ d && d ≤ 4 && dieEnclave s (d - 1)) || (tget 0 s.sec.hold (d / 32)).getLsbD (d % 32)

/-- The lowest held domain of a request. -/
def heldDomain (s : State) (ds : List Nat) : Option Nat := ds.find? (domainHeld s)

/-- The domains that PARKED cuts: the Stage dies, their links and the cache quadrants (Tables 17-3 and 17-4). -/
def parkDomains : List Nat := [1, 2, 3, 4, 5, 6, 7, 8, 10]

/-- The enclaves that units carry, in order. -/
def enclavesAtWork (s : State) : List Nat :=
  (List.range 32).filter (fun e => e ≠ 0 && s.sec.unitEnc.any (fun p => p.2.toNat == e))

/-- Table 13-10: before a cut that no hold stops, the security processor is told which enclaves it ends and why. -/
def overrideHolds (s : State) (cause : Nat) : State := (enclavesAtWork s).foldl (fun s e => s.emit (.abortNotice e cause)) s

/-! ### Reset (R483, R484) -/

/-- The boot flash keeps its success counts; a boot that passed verification and never reached DEV_READY breaks a row
of successes (R371). -/
def bootBroken (s : State) : Bool := [BootPhase.trim, .training, .initing].contains s.pwr.phase || (s.pwr.phase == .halted && s.host.dramRate != 0)

def flashAfter (s : State) : SecSt :=
  let x := s.sec
  let x := if ¬ bootBroken s then x
    else if x.bootedB then { x with bankB := { x.bankB with success := 0 } } else { x with bankA := { x.bankA with success := 0 } }
  { slots := x.slots, lastCounter := x.lastCounter, activeB := x.activeB, bankA := x.bankA, bankB := x.bankB, fusedSf := x.fusedSf,
    fusedPy := x.fusedPy }

/-- What the always-on domain keeps: the rails, DEV_RESET and the pins. -/
def pwrAfter (p : PwrSt) : PwrSt :=
  { phase := .held, aonUp := p.aonUp, pwrEn := p.pwrEn, good := p.good, enTimeout := p.enTimeout, rail := p.rail, bringUps := p.bringUps,
    prevCause := p.prevCause, cause := p.cause, firstPorst := p.firstPorst, porstHigh := p.porstHigh, tripped := p.tripped,
    i2cOn := p.i2cOn, sensors := p.sensors, refLost := p.refLost, sleepAsked := p.sleepAsked }

/-- DEV_READY, XSPI_RESET_N and both SAFE_OK pins fall (R490, R520). -/
def lowerPins (s : State) : State :=
  let s := if s.pwr.xspi ≠ .inReset then s.emit (.pin "XSPI_RESET_N" false) else s
  let s := if s.host.devReady then s.emit (.pin "DEV_READY" false) else s
  let s := if s.saf.a.pin then s.emit (.safeOk .a false) else s
  if s.saf.b.pin then s.emit (.safeOk .b false) else s

/-- A reset of PORST_N scope (Table 17-7): everything but DEV_RESET, the straps, the boot flash, the repair fuses and what is outside the
device is as reset leaves it. -/
def resetAll (s : State) : State :=
  let t := lowerPins s
  { State.reset with
    now := t.now
    out := t.out
    pending := t.pending
    free := t.free
    mem := { hostMem := t.mem.hostMem, retiredList := t.mem.retiredList }
    host := { twinRole := t.host.twinRole, i2cAddr := t.host.i2cAddr }
    pwr := pwrAfter t.pwr
    fab := { laneFuses := t.fab.laneFuses }
    sec := flashAfter t }

/-- CAUSE moves into PREV_CAUSE (R483). -/
def recordCause (s : State) (c : Byte) : State := s.upPwr (fun p => { p with prevCause := p.cause, cause := c })

/-- Every PWR_EN goes low, highest first, and no rail it enables is good. -/
def lowerRails (s : State) : State :=
  let s := [(2, "PWR_EN2"), (1, "PWR_EN1"), (0, "PWR_EN0")].foldl (fun s p => if s.pwr.pwrEn.getLsbD p.1 then s.emit (.pin p.2 false) else s) s
  s.upPwr (fun p => { p with pwrEn := 0, good := 0 })

/-- PARKED to SLEEP (R482): the cue stops, slice 0 is told, and only the always-on domain keeps its state, with the
curtain latched there (Table 14-5). -/
def enterSleep (s : State) : State :=
  let s := if s.cue.running ∨ s.cue.starting then cueStopped s else s
  let s := sideBand s 6 2
  let t := (lowerRails (resetAll s)).emit (.pin "PUMP_PWM" false)
  let t := t.upSaf (fun f => { f with curtain := s.saf.curtain, cause := s.saf.cause, curtainCue := s.saf.curtainCue })
  t.upPwr (fun p => { p with state := .sleep, phase := .sequencing, sleepAsked := false })

/-- The domains that SLEEP cuts and that may be held: all but the always-on one and, whose own firmware prepares the
move, the security processor's. -/
def sleepDomains : List Nat := ((List.range 38).drop 1).filter (· ≠ 24)

/-- The move to SLEEP, or the hold that refuses it (R393, R482). -/
def trySleep (s : State) : State := match heldDomain s sleepDomains with
  | some d => s.emit (.holdMessage d midStagehand.toNat)
  | none => enterSleep s

end Sys2Proof.Machine
end

