-- ==== Sys2Proof/Machine/TimeUnit.lean ====
section
/-! DEFINITION. Offset samples, captures and safe points of the time unit, and of groups that apply between
their block's actions (R272, R398, R437 to R442, R454). -/

namespace Sys2Proof.Machine

/-- The group of time base n. -/
def tbGroup (n : Nat) : Nat := 5 * 0x1000000 + n

/-- A sample of the source that a pending set names is its safe point; then the servo takes the sample when the
set in force names that source (R437, R438). `src` says which sets a sample belongs to. -/
def sampleOf (s : State) (n : Nat) (src : BitVec 4608 → Bool) (e : State → Int) : State :=
  let hit := (immediates s (tbGroup n)).any (fun c => ((setFor c (tbGroup n)).map src).getD false)
  let s := if hit then safePoint s (tbGroup n) else s
  if src (tbSet s n) then takeSample s n (e s) else s

/-! ### gPTP (R435, R438) -/

/-- The time of the grandmaster at a Sync's arrival, in ns: the Follow_Up's precise origin and correction, and the peer delay. -/
def syncTime (m : PtpSync) : Int :=
  (beField m.followUp 34 6 : Int) * 1000000000 + beField m.followUp 40 4 + signed 64 (beField m.followUp 8 8) / 65536 + m.delay

/-- A Sync and, once it has left, its Follow_Up go on to every port that the domain's record makes a master (Table 15-1). -/
def relaySync (s : State) (dom : Nat) (m : PtpSync) (rx : Int) : State :=
  let ports := (((recs s.pwr.net 0x11).find? (fun r => byteAt r 4 == dom)).map (fun r => fieldOf r 12 2)).getD 0
  (List.range 12).foldl (fun s p => if bitAt ports p ∧ p ≠ m.port.val then
      queueEth s p { cls := 7, data := ptpFrame s p m.sync, follow := some { dom := dom, rx := rx, delay := m.delay, msg := m.followUp } }
    else s) s

/-- PTP_SYNC_RECEIVE (R435, R438): the Follow_Up of a Sync of gPTP domain 0 or 1 has come, and the Sync's stamp gives time
base 0 or 1 its offset sample; Pyotos relays the two messages. -/
def execPtpSyncReceive (dom : Fin 2) (m : PtpSync) (at_ : Nat) (s : State) : Ans :=
  match tget [] s.net.syncRx (syncKey m.port.val dom.val) with
  | [] => did s
  | ts =>
    let rx := ts.getD dom.val 0
    did (sampleOf (relaySync (s.at_ at_) dom.val m rx) dom.val (fun w => tbSource w == 1) (fun _ => syncTime m - rx))

/-- FOLLOW_SAMPLE (R438): FOLLOW_TB + FOLLOW_OFFSET less this time base, read at one instant. -/
def execFollowSample (tb : TbId) (at_ : Nat) (s : State) : Ans :=
  let n := tb.toNat
  doWhen (tb != 3) s (sampleOf (s.at_ at_) n (fun w => tbSource w == 3)
    (fun s => (s.tb (fld (tbSet s n) 2 1 % 4)).nsAt s.now + signed 64 (fld (tbSet s n) 32 8) - (s.tb n).nsAt s.now))

/-! ### Captures (R442) -/

/-- One record into the ring of time base n, when its CAP_MASK names the pin. -/
def captureRecord (p : Nat) (x : CapEdge) (s : State) (n : Nat) : State :=
  let w := tbSet s n
  if ¬ bitAt (fld w 40 1) p then s
  else
    let seq := (s.tb n).capSeq
    let rec_ := leBytes 8 (x.times.getD n 0) ++ leBytes 2 (p + (if x.falling then 256 else 0)) ++ zeros 2 ++ leBytes 4 seq
    writeBy (s.setTb n { (s.tb n) with capSeq := seq + 1 }) midTimeUnit 0 (.slice 0) (fld w 48 8 + 16 * (seq % fld w 42 2)) rec_

/-- The buffered edges of a pin are written, oldest first. -/
def drainPin (s : State) (p : Nat) : State :=
  let xs := tget [] s.net.capEdges p
  let s := s.upNet (fun x => { x with capEdges := tset [] x.capEdges p [] })
  xs.foldl (fun s x => [0, 1, 2, 3].foldl (captureRecord p x) s) s

/-- Buffered captures reach their rings; in PARKED memory cannot be written and they wait. -/
def drainCaptures (s : State) : State := if parked s then s else (List.range 8).foldl drainPin s

/-- An edge is timestamped on all four time bases and buffered; a full buffer drops it. -/
def bufferEdge (s : State) (p : Nat) (falling : Bool) (ts : List Int) : State :=
  if 8 ≤ (tget [] s.net.capEdges p).length then s.upNet (fun x => { x with capDropped := tup 0 x.capDropped p (· + 1) })
  else s.upNet (fun x => { x with capEdges := tup [] x.capEdges p (· ++ [{ falling := falling, times := ts.map (wrapBits 64) }]) })

/-- The PPS sample of a time base from its value at the edge: to the nearest whole second (R438). -/
def ppsOffset (v : Int) : Int :=
  rneDiv v 1000000000 * 1000000000 - v

/-- CAP_EDGE (R438, R442): an edge of a capture pin with a pulse of at least 20 ns. -/
def execCapEdge (p : BitVec 3) (falling : Bool) (pulseNs : Nat) (at_ : Nat) (s : State) : Ans :=
  let src (w : BitVec 4608) : Bool := tbSource w == 2 && fld w 1 1 % 8 == p.toNat && bitAt (fld w 1 1) 7 == falling
  let ts := stamps s 8 at_
  let s1 := bufferEdge { (s.at_ at_) with free := s.free + 1 } p.toNat falling ts
  let s2 := [0, 1, 2].foldl (fun s n => sampleOf s n src (fun _ => ppsOffset (ts.getD n 0))) s1
  doWhen (decide (20 ≤ pulseNs)) s (drainCaptures s2)

/-! ### Safe points and holdover -/

/-- TIMEBASE_SAFE_POINT (R437): 1 ms after acceptance with no sample, or with a new SOURCE of FREE. -/
def execTimebaseSafePoint (tb : TbId) (at_ : Nat) (s : State) : Ans :=
  let s1 := s.at_ at_
  let g := tbGroup tb.toNat
  doWhen ((immediates s g).any (fun c => decide (c.at_ + 1000000 ≤ at_))) s (safePoint s1 g)

/-- TIMEBASE_HOLDOVER (R21, R440): no sample for HOLDOVER_MS; f is held and i frozen. -/
def execTimebaseHoldover (tb : TbId) (at_ : Nat) (s : State) : Ans :=
  let n := tb.toNat
  let w := tbSet s n
  let s1 := s.at_ at_
  doWhen (tbSource w != 0 && (s.tb n).st != 3 && decide ((s.tb n).last + 1000000 * fld w 24 4 ≤ at_)) s
    (s1.setTb n { (s1.tb n) with st := 3, good := 0 })

/-- The group has a safe point between its block's actions: CACHE, SAFETY, ROUTE, and a loop that takes no
samples. -/
def freeSafePoint (s : State) (g : Nat) : Bool :=
  let k := groupKind g
  k == 2 || k == 4 || k == 8 || (k == 9 && (!s.cue.running || !lpEnabled (loopSet s (groupIdx g))))

/-- GROUP_SAFE_POINT_APPLY (R34): a block reaches the safe point of one of its groups. -/
def execGroupSafePointApply (g : Word) (at_ : Nat) (s : State) : Ans :=
  let s1 := s.at_ at_
  doWhen (freeSafePoint s g.toNat) s (safePoint s1 g.toNat)

end Sys2Proof.Machine
end

