-- ==== Sys2Proof/Machine/PyotosAdmin.lean ====
section
/-! DEFINITION. NOP, the diagnostic records, the log, POWER_SET and FW_UPDATE (R356, R360, R361, R369 to R372, R479 to
R481, Table 12-6). -/

namespace Sys2Proof.Machine

/-- NOP (R356). -/
def execNop (n : SliceId) (w : Line) (s : State) : Ans :=
  runCmd { op := 0x0001, zero := false, named := [] } (fun s _ _ _ => .ok s 0) n w s

/-! ### DIAG_READ (R360) -/

/-- Table 5-3: the 64 bytes of a sequence descriptor. -/
def seqState : SeqState → Nat
  | .free => 0
  | .resident => 1
  | .swapOut => 2
  | .swapped => 3
  | .swapIn => 4

def seqBytes (x : KvSeq) : Bytes :=
  leBytes 8 x.root ++ leBytes 4 x.gen.toNat ++ leBytes 1 x.slice.toNat ++ leBytes 1 x.cls.toNat ++ leBytes 1 (seqState x.state) ++
  leBytes 1 x.fmt.toNat ++ leBytes 2 x.headDim ++ leBytes 1 x.kvHeads ++ leBytes 1 (if x.sparse then 1 else 0) ++ leBytes 2 x.layers ++
  leBytes 2 x.window ++ leBytes 4 x.length ++ leBytes 4 x.capacity ++ leBytes 4 x.maxTokens ++ leBytes 4 x.pending ++ leBytes 2 x.nextLayer ++
  zeros 6 ++ leBytes 8 x.lastCue.toNat ++ zeros 8

/-- A mask of the fenced units among k units. -/
def fencedMask (s : State) (k : Nat) (u : Nat → UnitId) : Nat :=
  ((List.range k).map (fun i => if (s.unit (u i)).fenced then 2 ^ i else 0)).foldl (· + ·) 0

/-- The replacements of the active sheet, by fenced core and then by scene. -/
def replacementRecords (s : State) : List Bytes :=
  (List.range 64).flatMap (fun c => (List.range 32).flatMap (fun i =>
    (s.replaced.filter (fun r => r.fenced.toNat = c ∧ r.scene.toNat = i)).map (fun r =>
      leBytes 1 c ++ leBytes 1 i ++ leBytes 1 ((r.by_.map (·.toNat)).getD 0xFE) ++ [0])))

/-- The record of a KIND from 1 to 5. -/
def diagRecord (s : State) (n : SliceId) (kind : Nat) : Bytes :=
  if kind = 1 then (List.range 7).flatMap (fun i => leBytes 8 (tget 0 (s.slice n).diag i).toNat)
  else if kind = 2 then (List.range 6).flatMap (fun i => leBytes 4 (strapOf s i).toNat)
  else if kind = 3 then leBytes 4 (replacementRecords s).length ++ (replacementRecords s).flatten
  else if kind = 4 then
    leBytes 8 (fencedMask s 64 (fun i => .core (BitVec.ofNat 6 i))) ++ leBytes 2 (fencedMask s 16 (fun i => .ae (BitVec.ofNat 4 i))) ++
    leBytes 1 (fencedMask s 4 (fun i => .rfe (BitVec.ofNat 2 i))) ++ zeros 5
  else
    let ps := (s.mem.owner.filter (fun p => (p.2.map (fun o => o.typ == .retired)).getD false)).map (·.1)
    leBytes 4 ps.length ++ ps.flatMap (leBytes 4)

/-- As much of a record as LEN allows is written (R360). -/
def giveRecord (s : State) (n : SliceId) (w : Line) (bs : Bytes) : Res :=
  let k := min (fld w 24 4) bs.length
  withDest s n w 16 k (fun va => .ok (writeBy s midStagehand n (.slice n) va (bs.take k)) (payload [(0, 4, k), (4, 4, bs.length)]))

def diagRead : Body := fun s n _ w =>
  let kind := fld w 8 1
  if kind < 1 ∨ 6 < kind then .err stBadValue 8
  else if 2 ≤ kind ∧ kind ≤ 5 ∧ n ≠ 0 then .err stDenied 8
  else if kind ≠ 6 then giveRecord s n w (diagRecord s n kind)
  else if 15 < fld w 9 1 then .err stBadValue 9
  else if 1023 < fld w 10 2 then .err stBadValue 10
  else match s.kv (BitVec.ofNat 4 (fld w 9 1)) (fld w 10 2) with
    | none => .err stNoObject 10
    | some x => if x.slice ≠ n then .err stDenied 10 else giveRecord s n w (seqBytes x)

/-- DIAG_READ (R360). -/
def execDiagRead (n : SliceId) (w : Line) (s : State) : Ans :=
  runCmd { op := 0x0004, zero := false, named := [(8, 1), (9, 1), (10, 2), (16, 8), (24, 4)] } diagRead n w s

/-! ### LOG_READ (R361) -/

/-- An entry of the log in the layout of Table 11-15; its PHASE is a value the spec does not state. -/
def logBytes (k : Nat) (x : LogEntry) : Bytes :=
  leBytes 2 x.notice.code.toNat ++ leBytes 1 ((Config.freeByte k x.idx).toNat % 2 + 2 * x.notice.vec.toNat) ++ leBytes 1 x.notice.slice.toNat ++
  leBytes 4 (x.idx % 2 ^ 32) ++ leBytes 8 x.notice.cue.toNat ++ leBytes 16 x.notice.payload.toNat

def logRead : Body := fun s n _ w =>
  let es := ((s.log.filter (fun x => decide (fld w 16 8 ≤ x.idx))).take (fld w 32 4 / 32))
  let first := (es.head?.map (·.idx)).getD s.logNext
  let oldest := (s.log.head?.map (·.idx)).getD s.logNext
  withDest s n w 24 (32 * es.length) (fun va =>
    .ok (writeBy { s with free := s.free + 1 } midStagehand n (.slice n) va (es.flatMap (logBytes s.free)))
      (payload [(0, 8, first), (8, 4, es.length), (12, 4, oldest)]))

/-- LOG_READ (R361). -/
def execLogRead (n : SliceId) (w : Line) (s : State) : Ans :=
  runCmd { op := 0x0005, zero := true, named := [(16, 8), (24, 8), (32, 4)] } logRead n w s

/-! ### POWER_SET (R479 to R481) -/

/-- What keeps the device in ACTIVE (R479). -/
def powerBusy (s : State) : Bool :=
  s.jobs.any (fun j => j.phase != .ended) || (List.range 16).any (streamOn s) || (List.range 4).any (fun h => resourceOn s 0 h) ||
  (List.range 32).any (fun l => (s.loop l).tuning.isSome) || !(copying s).isEmpty

/-- The slices whose aperture window is enabled. -/
def openApertures (s : State) : List SliceId := allSlices.filter (fun n => (s.slice n).page.aptEnable)

/-- ACTIVE to PARKED (R479): the windows close and the Stage is cut. -/
def park (s : State) : State :=
  let ns := openApertures s
  let s := ns.foldl (fun s n => s.upPage n (fun p => { p with aptEnable := false })) s
  let s := s.upPwr (fun p => { p with
    state := .parked
    apertures := ns
    dieOff := 0xF
    rejoin := 0
    stepTo := []
    parkedAt := s.now })
  s

/-- A unit out of reset: scrubbed, and its sampling register seeded anew (R65, R74). -/
def resetUnit (s : State) (u : UnitId) : State :=
  (scrubUnit s u).upUnit u (fun x => { x with gated := false, lfsrCue := s.cue.count, lfsrSteps := 0 })

/-- The supply and reset of a Stage die (R40, R74, R481, Table 17-7): its units, links and pools start anew, its cores
scrubbed and at point P0. -/
def powerDie (s : State) (d : Nat) : State :=
  let s := (dieUnits d).foldl (fun s u => (resetUnit s u).upUnit u (fun x => { x with wakeUntil := 0 })) s
  let s := s.upFab (fun f => { f with
    modules := (List.range 8).foldl (fun t i => tup {} t (8 * d + i) (fun m => { m with retraining := false, laneErrors := [], creditFault := false })) f.modules
    credits := (List.range 8).foldl (fun t i => initCredits t (4 * (8 * d + i))) f.credits })
  s.upPwr (fun p => { p with point := tset 0 p.point d 0, p4Since := tset none p.p4Since d none })

/-- The checkers of a Stage die, whose ages stand still while it is cut (R480). -/
def checkerCut : Checker → Bool
  | .te _ => true
  | .ve _ => true
  | .store _ => true
  | .ae _ => true
  | .rfe _ => true
  | .link m => match m.die with
    | .stage _ => true
    | _ => false
  | _ => false

/-- PARKED to ACTIVE (R481): the dies come up and join at the next edge, and the windows open. -/
def unpark (s : State) : State :=
  let s := [0, 1, 2, 3].foldl powerDie s
  let gone := s.now - s.pwr.parkedAt
  let s := s.upSaf (fun f => { f with passed := f.passed.map (fun p => if checkerCut p.1 then (p.1, p.2 + gone) else p) })
  let ns := s.pwr.apertures
  let s := ns.foldl (fun s n => if (s.slice n).valid then s.upPage n (fun p => { p with aptEnable := true }) else s) s
  drainCaptures (s.upPwr (fun p => { p with state := .active, apertures := [], rejoin := 0xF }))

def powerSetParked : Body := fun s n f w =>
  if 1 < fld w 8 1 then .err stBadValue 8
  else if parked s then .ok s 0
  else match heldDomain s parkDomains with
    | some d => .errS (s.emit (.holdMessage d midStagehand.toNat)) stSecureHold 0 0
    | none =>
      if powerBusy s then .err stBusy 8
      else
        let t := sideBand (complete (park s) n f 0 0 0) 6 1
        .wait (if t.pwr.sleepAsked then trySleep t else t) .power

/-- POWER_SET with STATE 1, and with a STATE that is not defined (R393, R479). -/
def execPowerSetParked (n : SliceId) (w : Line) (s : State) : Ans :=
  runCmd { op := 0x0006, zero := true, named := [(8, 1)], mine := fun w => fld w 8 1 != 0 } powerSetParked n w s

def powerSetActive : Body := fun s n f _ =>
  if ¬ parked s then .ok s 0
  else if s.pwr.emergency then .err stRefused 0
  else .wait (sideBand (complete (unpark s) n f 0 0 0) 6 0) .power

/-- POWER_SET with STATE 0 (R481). -/
def execPowerSetActive (n : SliceId) (w : Line) (s : State) : Ans :=
  runCmd { op := 0x0006, zero := true, named := [(8, 1)], mine := fun w => fld w 8 1 == 0 } powerSetActive n w s

/-! ### FW_UPDATE (R372) -/

/-- A bank with a new image of one TYPE beside the running image of the other (R372 steps 2 and 3). -/
def newBank (s : State) (typ : Nat) (img : Bytes) : Bank :=
  let run := { runningBank s with success := 0 }
  let v : Word := BitVec.ofNat 32 (fieldOf img 8 4)
  let kept := img.take (imageSpan img)
  if typ = 1 then { run with rollbackSf := byteAt img 6, versionSf := v, sf := kept }
  else { run with rollbackPy := byteAt img 6, versionPy := v, py := kept }

/-- The bank that is not ACTIVE is written. -/
def writeBank (s : State) (b : Bank) : State :=
  s.upSec (fun x => if x.activeB then { x with bankA := b } else { x with bankB := b })

/-- Steps 2 to 5: the bank is written and becomes ACTIVE. -/
def updateBank (s : State) (typ : Nat) (img : Bytes) : State :=
  (writeBank s (newBank s typ img)).upSec (fun x => { x with activeB := !x.activeB })

/-- The five steps of R372 on an image: step 1 fails before the flash is written, and step 4 where it reads back wrong, with nothing known of what it then holds. -/
def updateWith (s : State) (typ : Nat) (img : Bytes) (faulty : Bool) : Res :=
  if ¬ imageOk s typ img ∨ ¬ bankFits (newBank s typ img) then .err stAuth 0
  else if faulty then .errS (writeBank s {}) stAuth 0 0
  else .ok (updateBank s typ img) 0

def fwUpdate (faulty : Bool) : Body := fun s n _ w =>
  let typ := if fld w 8 1 = 0 then 2 else 1
  if 1 < fld w 8 1 then .err stBadValue 8
  else withStruct s n w 16 (fld w 24 4) (fun s img => updateWith s typ img faulty)

/-- FW_UPDATE (R372). -/
def execFwUpdate (n : SliceId) (w : FlashWrite) (s : State) : Ans :=
  runCmd { op := 0x0007, zero := true, named := [(8, 1), (16, 8), (24, 4)] } (fwUpdate w.faulty) n w.line s

end Sys2Proof.Machine
end

