-- ==== Sys2Proof/Machine/SafetyOps.lean ====
section
/-! DEFINITION. The safety policy, the reactions to events and the curtain (R396 to R404, R413, R416, R417, R420,
R453, R468). -/

namespace Sys2Proof.Machine

/-! ### The policy in force (R398, Table 14-3) -/

def policy (s : State) : BitVec 4608 := committed s 4 0
def transientLimit (s : State) : Nat := fld (policy s) 2 2
def transientWindow (s : State) : Nat := fld (policy s) 4 4
def lfiMs (s : State) : Nat := fld (policy s) 8 4

/-- The reaction to an event: 0 REPORT, 1 DEGRADE, 2 CURTAIN. -/
def reaction (s : State) (code : Byte) : Nat := if code.toNat < 48 then fld (policy s) (16 + code.toNat) 1 else 0

/-! ### The curtain (R399, R400, R403) -/

/-- The 8 bytes of a curtain message (R403). -/
def curtainPayload (s : State) (k : Nat) : Bytes :=
  [0xC7, s.saf.cause, BitVec.ofNat 8 s.host.twinRole.toNat, BitVec.ofNat 8 (min k 255)] ++ leBytes 4 (s.saf.curtainCue.toNat % 2 ^ 32)

/-- The Ethernet frame of a channel: from the port's own address, padded to the minimum size. -/
def curtainEth (s : State) (m : Bytes) (k : Nat) : Bytes :=
  let src := ((ethRec s.pwr.net (byteAt m 1)).map (fun r => (r.drop 8).take 6)).getD (zeros 6)
  let tag := if fieldOf m 14 2 = 0 then [] else netBytes 2 0x8100 ++ netBytes 2 (fieldOf m 14 2)
  let bs := (m.drop 8).take 6 ++ src ++ tag ++ netBytes 2 (fieldOf m 16 2) ++ curtainPayload s k
  bs ++ zeros (60 - bs.length)

/-- One channel's message (Table 14-4): CAN through transmit buffer 0, Ethernet in class 7; a lost port sends none. -/
def curtainChannel (k : Nat) (s : State) (i : Nat) : State :=
  let m := (List.range 32).map (fun b => BitVec.ofNat 8 (fld (policy s) (64 + 32 * i + b) 1))
  let p := byteAt m 1
  let id := fieldOf m 4 4
  if byteAt m 0 = 1 then
    (if canMode s.pwr.net p = 0 ∨ canMode s.pwr.net p = 3 then s
     else s.upCan p (fun x => { x with buf0 := some { id := BitVec.ofNat 29 id, ext := bitAt id 31, fd := bitAt (byteAt m 2) 0,
                                                       brs := bitAt (byteAt m 2) 1, rtr := false, data := curtainPayload s k } }))
  else if byteAt m 0 = 2 ∧ ethMode s.pwr.net p ≠ 0 ∧ (s.eth p).linkUp then sendEth s p 7 (curtainEth s m k)
  else s

/-- The next message on every configured channel. -/
def curtainMessages (s : State) : State :=
  let k := s.saf.messages
  let s := [0, 1, 2, 3].foldl (curtainChannel k) s
  s.upSaf (fun f => { f with messages := k + 1, nextMessage := s.now + 100000000 })

/-- SAFE_OK of an island falls (R402). -/
def pinLow (i : IslandId) (s : State) : State :=
  if (s.island i).pin then (s.upIsland i (fun x => { x with pin := false })).emit (.safeOk i false) else s

/-- The curtain drops (Table 14-5): tunings end, outputs are invalid from here on, both pins are held low, the partner
and slice 0 are told, and the first messages go out. It drops once and stays down. -/
def dropCurtain (s : State) (code : Byte) : State :=
  if s.saf.curtain then s
  else
    let s := endTunings s
    let s := s.upSaf (fun f => { f with curtain := true, cause := code, curtainCue := s.cue.count, messages := 0 })
    let s := pinLow .b (pinLow .a s)
    let s := if s.fab.twinMode ≠ 0 ∧ s.fab.twinUp then s.emit .curtainFrame else s
    curtainMessages (sideBand s 3 0)

/-! ### Reactions (R396, R397, Table 14-2) -/

/-- The bit of a path in DEBUG (Table 14-10). -/
def pathBit : DebugTarget → Byte
  | .unit _ => 1
  | .stagehand => 2
  | .security => 4
  | .control => 8
  | .island .a => 16
  | .island .b => 32
  | .boundary => 0

/-- A path becomes non-safety (R413). -/
def losePath (s : State) (t : DebugTarget) : State :=
  let s := s.upSaf (fun f => { f with nonSafety := f.nonSafety ||| pathBit t })
  match t with
  | .unit u => s.upSaf (fun f => { f with debugUnits := f.debugUnits ++ [UnitId.code u] })
  | .island i => pinLow i s
  | _ => s

/-- The DEGRADE action of an event (Table 14-2). -/
def degrade (s : State) (e : SafetyEvent) : State :=
  if e.code = 0x06 then (match e.die with
    | some (.stage d) => (dieUnits d.toNat).foldl fenceUnit s
    | _ => s)
  else if e.code = 0x11 ∨ e.code = 0x12 then (match e.pkg with
    | some p => s.upSaf (fun f => { f with kafFailed := if p ∈ f.kafFailed then f.kafFailed else f.kafFailed ++ [p] })
    | none => s)
  else if e.code = 0x17 then (match e.checker with
    | some k => s.upSaf (fun f => { f with starvedNow := if k ∈ f.starvedNow then f.starvedNow else f.starvedNow ++ [k] })
    | none => s)
  else if e.code = 0x1C then s.upCtl (fun c => { c with degraded := true })
  else if e.code = 0x1D then (match e.path with
    | some t => losePath s t
    | none => s)
  else if e.code = 0x02 ∨ e.code = 0x03 ∨ e.code = 0x04 ∨ e.code = 0x18 then (match e.unit with
    | some u => fenceUnit s u
    | none => s)
  else s

/-- The unit that an error names becomes SUSPECT (R416); code 0 is the report of a check failure that ended a job
below class 2, for which Table 14-2 has no event. -/
def suspectOf (s : State) (e : SafetyEvent) : State := match e.unit with
  | some u =>
    if [0x00, 0x02, 0x03, 0x18].contains e.code ∧ ¬ (s.unit u).fenced then s.upUnit u (fun x => { x with suspect := true }) else s
  | none => s

/-- The reaction that the policy assigns (R396). -/
def react (s : State) (e : SafetyEvent) : State :=
  if reaction s e.code = 2 then dropCurtain s e.code
  else if reaction s e.code = 1 then degrade s e
  else s

/-- An event is counted: codes 1 to 47 of COUNT (Table 14-10). -/
def countEvent (s : State) (e : SafetyEvent) : State :=
  if e.code = 0 ∨ 48 ≤ e.code.toNat then s
  else s.upSaf (fun f => { f with counts := tup 0 f.counts e.code.toNat (· + 1) })

/-- What an event does beside its count: under the curtain nothing (R397). -/
def actOn (s : State) (e : SafetyEvent) : State := if s.saf.curtain then s else react (suspectOf s e) e

/-- An island latches an event; while it restarts, the reaction acts and the event is held and counted later (R407). -/
def latch (s : State) (i : IslandId) (e : SafetyEvent) : State :=
  if (s.island i).restarting then
    actOn (if (s.island i).queue.length < 256 then s.upIsland i (fun x => { x with queue := x.queue ++ [e] }) else s) e
  else actOn (countEvent s e) e

/-! ### Result signatures (R421) -/

def crcStep64 : Nat → DWord → DWord
  | 0, r => r
  | n + 1, r => crcStep64 n (if r.getLsbD 63 then (r <<< 1) ^^^ 0x42F0E1EBA9EA3693 else r <<< 1)

/-- CRC-64/ECMA-182 of a list of bytes. -/
def crc64 (bs : List Nat) : DWord := bs.foldl (fun r b => crcStep64 8 (r ^^^ ((BitVec.ofNat 64 b) <<< 56))) 0

/-- The signature of a list of carried checks, each fed low byte first. -/
def signature (chk : List Half) : DWord := crc64 (chk.flatMap (fun c => [c.toNat % 256, c.toNat / 256]))

/-- The carried checks of a job's KEPT buffers; a granule outside device DRAM has none the spec states. -/
def keptChecks (s : State) (j : Job) : List Half := match tget none (s.slice j.slice).packages j.handle with
  | none => []
  | some p => (p.bufs.zipIdx.filter (fun b => j.e.kept.getLsbD b.2)).flatMap (fun b =>
      (List.range (b.1.size / 64)).map (fun g =>
        match translate s j.slice (actorOf j) .read (p.dataVa + b.1.offset + 64 * g) with
        | some (.dram d) => storedCheck s (d / 64)
        | _ => BitVec.ofNat 16 (leNat ((List.range 2).map (fun k => Config.freeByte s.free (2 * g + k))))))

end Sys2Proof.Machine
end

