-- ==== Sys2Proof/Machine/Safety.lean ====
section
/-! DEFINITION. The safety islands, lockstep pairs, targeted self-tests, rehearsals, signatures and the curtain's
messages (R396 to R426). -/

namespace Sys2Proof.Machine

/-! ### Events and the curtain -/

/-- The first report of an event leaves the list of those raised. -/
def takeRaised (s : State) (i : IslandId) (e : SafetyEvent) : State := s.upSaf (fun f => { f with raised := f.raised.erase (i, e) })

/-- SAFETY_EVENT_LATCH (R396, R397, R399, R400, R416): an island latches an event that a mechanism has raised, or one of
Table 14-2 from a mechanism that no other row covers. -/
def execSafetyEventLatch (i : IslandId) (e : SafetyEvent) (at_ : Nat) (s : State) : Ans :=
  let known := s.saf.raised.contains (i, e) || (decide (1 ≤ e.code.toNat) && decide (e.code.toNat ≤ 0x24))
  doWhen known s (latch (takeRaised (s.at_ at_) i e) i e)

/-- CURTAIN_MESSAGE_REPEAT (R403): 100 ms after the last message. -/
def execCurtainMessageRepeat (at_ : Nat) (s : State) : Ans :=
  doWhen (s.saf.curtain && s.saf.messages != 0 && decide (s.saf.nextMessage ≤ at_)) s (curtainMessages (s.at_ at_))

/-- CURTAIN_FRAME_RECEIVE (R404): the partner's curtain has dropped. -/
def execCurtainFrameReceive (s : State) : Ans := doWhen (s.fab.twinUp && s.fab.twinMode != 0) s (raiseCode s .b 0x1F)

/-- SAFE_OK_TOGGLE (R402): the pin changes 500 us after its last change, or 5 us earlier, unless it is held low. -/
def execSafeOkToggle (i : IslandId) (at_ : Nat) (s : State) : Ans :=
  let x := s.island i
  let s1 := s.at_ at_
  doWhen (x.mode != .start && !x.restarting && !s.saf.curtain && (s.saf.nonSafety &&& pathBit (.island i)) == 0 && decide (x.lastToggle + 495000 ≤ at_)) s
    ((s1.upIsland i (fun x => { x with pin := !x.pin, lastToggle := at_ })).emit (.safeOk i (!x.pin)))

/-! ### Votes and restarts (R405 to R408) -/

/-- The islands run: the Wings is out of reset. -/
def islandsRun (s : State) : Bool := !([BootPhase.sequencing, .waitPorst, .held].contains s.pwr.phase)

/-- The cores that vote: in service and not the understudy. -/
def voters (x : Island) : List (Fin 3) := ([0, 1, 2] : List (Fin 3)).filter (fun c => x.inService.getLsbD c.val && x.understudy != some c)

/-- How often a core became the understudy within the window of R408. -/
def recentOuts (s : State) (x : Island) (c : Fin 3) : Nat :=
  (x.understudies.filter (fun p => p.1 = c.val ∧ s.cue.count.toNat < p.2 + transientWindow s)).length

/-- Exactly one core disagrees: it becomes the understudy, or leaves for good (R406, R408). -/
def putOut (s : State) (i : IslandId) (c : Fin 3) : State :=
  let s := s.upIsland i (fun x => { x with understudies := x.understudies ++ [(c.val, s.cue.count.toNat)], agreed := false })
  let s := raiseCode s i 0x19
  if transientLimit s ≤ recentOuts s (s.island i) c then
    raiseCode (s.upIsland i (fun x => { x with inService := x.inService &&& ~~~(BitVec.ofNat 3 (2 ^ c.val)) })) i 0x1B
  else s.upIsland i (fun x => { x with understudy := some c })

/-- A checkpoint restart begins (R407). -/
def beginRestart (s : State) (i : IslandId) : State := s.upIsland i (fun x => { x with restarting := true, agreed := false })

/-- VOTER_COMPARE (R405 to R408). -/
def execVoterCompare (i : IslandId) (s0 : Word) (s1 : Word) (s2 : Word) (s : State) : Ans :=
  let x := s.island i
  let sig (c : Fin 3) : Word := [s0, s1, s2].getD c.val 0
  let vs := voters x
  let odd := vs.filter (fun c => vs.all (fun d => d == c || sig d != sig c))
  let t :=
    if odd.isEmpty then s.upIsland i (fun x => { x with agreed := x.understudy.isNone })
    else match vs, odd with
      | [_, _, _], [c] => if x.mode = .service then putOut s i c else beginRestart s i
      | _, _ => beginRestart s i
  doWhen (islandsRun s && !x.restarting) s t

/-- UNDERSTUDY_REJOIN (R406). -/
def execUnderstudyRejoin (i : IslandId) (s : State) : Ans :=
  doWhen ((s.island i).understudy.isSome && !(s.island i).restarting) s (s.upIsland i (fun x => { x with understudy := none }))

/-- Events held during a restart are processed: counted, their reactions having acted (R407). -/
def processHeld (s : State) (i : IslandId) : State :=
  let s1 := (s.island i).queue.foldl countEvent s
  s1.upIsland i (fun x => { x with queue := [] })

/-- ISLAND_RESTART_DONE (R407, R408): the cores run again, and a second restart within 1,000 cues of the first drops the
curtain. -/
def execIslandRestartDone (i : IslandId) (s : State) : Ans :=
  let x := s.island i
  let again := match x.restartCue with
    | some c => decide (s.cue.count.toNat < c.toNat + 1000)
    | none => false
  let s1 := s.upIsland i (fun x => { x with
    restarting := false
    understudy := none
    agreed := true
    mode := if x.mode = .start then .start else .recovery
    restartCue := if again then x.restartCue else some s.cue.count })
  let s2 := processHeld (raiseCode s1 i 0x1A) i
  doWhen x.restarting s (if again then dropCurtain s2 0x1A else s2)

/-- ISLAND_CHECKPOINT_TIMER (R407): every 10 ms while the cue is stopped. -/
def execIslandCheckpointTimer (i : IslandId) (at_ : Nat) (s : State) : Ans :=
  doWhen (!s.cue.running && decide ((s.island i).lastCkpt + 10000000 ≤ at_)) s (checkpoint i (s.at_ at_))

/-- ALIVE_WORD (R410). -/
def execAliveWord (at_ : Nat) (s : State) : Ans :=
  doWhen (islandsRun s && !s.saf.a.restarting) s ((s.at_ at_).upSaf (fun f => { f with lastAlive := at_, silent := false }))

/-- ISLAND_A_SILENT (R410): no alive word for 250 us. -/
def execIslandASilent (at_ : Nat) (s : State) : Ans :=
  doWhen (islandsRun s && !s.saf.silent && decide (s.saf.lastAlive + 250000 ≤ at_)) s
    (raiseCode ((s.at_ at_).upSaf (fun f => { f with silent := true })) .b 0x1E)

/-! ### Lockstep (R411 to R413, R473) -/

/-- A pair still compares its cores: no invasive access has reached it, and the control engine is neither split nor on
one core. -/
def pairCompares (s : State) : LockstepPair → Bool
  | .stagehand => (s.saf.debugPaths &&& pathBit .stagehand) == 0
  | .security => (s.saf.debugPaths &&& pathBit .security) == 0
  | .control => (s.saf.debugPaths &&& pathBit .control) == 0 && !s.ctl.split && !s.ctl.degraded

/-- LOCKSTEP_MISMATCH (R411, R473). -/
def execLockstepMismatch (p : LockstepPair) (s : State) : Ans :=
  doWhen (pairCompares s p) s (raiseCode s .b (if p = .control then 0x1C else 0x08))

/-! ### Targeted self-tests (R416, R417) -/

/-- A unit whose die is powered. -/
def unitPowered (s : State) (u : UnitId) : Bool := !bitAt s.pwr.dieOff.toNat (UnitId.die u)

/-- TARGETED_SELF_TEST (R416): a SUSPECT unit that no job holds starts its test; what it held is lost to its owner. -/
def execTargetedSelfTest (u : UnitId) (s : State) : Ans :=
  let x := s.unit u
  doWhen (x.suspect && !x.fenced && x.job.isNone && x.phase == .idle && unitPowered s u) s
    (s.upUnit u (fun x => { x with phase := .selfTest, resident := [], lastOwner := .nobody }))

/-- A lasting fault: LASTING_FAULT is raised and the unit fenced (R417). -/
def lastingFault (s : State) (u : UnitId) : State := fenceUnit (raiseUnit s 0x04 u) u

/-- TARGETED_SELF_TEST_DONE (R417): a transient error returns the unit, unless it is one too many in the window. -/
def execTargetedSelfTestDone (u : UnitId) (pass : Bool) (s : State) : Ans :=
  let k := UnitId.code u
  let now := s.cue.count.toNat
  let recent := (tget [] s.saf.transients k).filter (fun c => decide (now < c + transientWindow s)) ++ [now]
  let s1 := s.upUnit u (fun x => { x with phase := .idle, suspect := false })
  let s2 := s1.upSaf (fun f => { f with transients := tset [] f.transients k recent })
  doWhen ((s.unit u).phase == .selfTest) s
    (if ¬ pass then lastingFault s1 u
     else if transientLimit s ≤ recent.length then lastingFault s2 u
     else s2)

/-! ### Rehearsals (R418 to R420) -/

/-- The unit whose idle windows a checker's segments use. -/
def checkerUnit : Checker → Option UnitId
  | .te c => some (.core c)
  | .ve c => some (.core c)
  | .store c => some (.core c)
  | .ae a => some (.ae a)
  | .rfe r => some (.rfe r)
  | _ => none

/-- Segments of a checker, and the worst case of one in ns (Table 14-9). -/
def segmentsOf : Checker → Nat × Nat
  | .te _ => (8, 40000)
  | .ve _ => (4, 20000)
  | .store _ => (4, 30000)
  | .ae _ => (4, 30000)
  | .rfe _ => (2, 20000)
  | .floor => (64, 50000)
  | .link _ => (4, 10000)
  | .twin => (4, 10000)
  | .pair _ => (2, 5000)
  | .island _ => (3, 1000)
  | .block _ => (2, 10000)

/-- Every checker of Table 14-9, a die link named by its module 0. -/
def allCheckers : List Checker :=
  ((List.range 64).map (BitVec.ofNat 6)).flatMap (fun c => [.te c, .ve c, .store c]) ++ ((List.range 16).map (fun a => .ae (BitVec.ofNat 4 a)))
  ++ ((List.range 4).map (fun r => .rfe (BitVec.ofNat 2 r))) ++ ((List.range 4).map (fun d => .link { die := .stage (BitVec.ofNat 2 d), idx := 0 }))
  ++ [.floor, .link { die := .wings, idx := 0 }, .twin, .pair .stagehand, .pair .security, .pair .control, .island .a, .island .b,
      .block 0, .block 1, .block 2, .block 3, .block 4]

/-- A checker that is at work: its unit is in service and powered, its link is there, its pair compares. -/
def checkerOn (s : State) (k : Checker) : Bool := match k with
  | .twin => s.fab.twinUp
  | .pair p => pairCompares s p
  | .link m => match m.die with
    | .stage d => !bitAt s.pwr.dieOff.toNat d.toNat && (dieUnits d.toNat).any (fun u => !(s.unit u).fenced)
    | _ => true
  | k => match checkerUnit k with
    | some u => unitPowered s u && !(s.unit u).fenced
    | none => true

/-- A scene of class 2 or 3 names the unit. -/
def namesUnit (sc : Scene) : UnitId → Bool
  | .core c => sc.cores.getLsbD c.toNat
  | .ae a => sc.aes.getLsbD a.toNat
  | .rfe r => sc.rfes.getLsbD r.toNat

/-- No such scene is open, and none opens within `worst` ns, this cue or at the next edge (R419). Nothing is rehearsed
while the cue is stopped (R18). -/
def windowFree (s : State) (u : UnitId) (worst : Nat) : Bool :=
  let t := intoCue s
  (activeScenes s).all (fun sc => decide (sc.cls.toNat < 2) || !namesUnit sc u ||
    (!openAt sc t && !(decide (t ≤ sc.start) && decide (sc.start < t + worst)) && !decide (s.cue.length + sc.start < t + worst)))

/-- A segment may start (R419). -/
def mayRehearse (s : State) (k : Checker) : Bool := match checkerUnit k with
  | some u => (s.unit u).job.isNone && (s.unit u).phase == .idle && windowFree s u (segmentsOf k).2
  | none => match s.saf.lastSegment.find? (fun p => p.1 == k) with
    | some p => decide (p.2 + 10000000 ≤ s.now)
    | none => true

/-- REHEARSAL_SEGMENT (R407, R412, R418, R419): a segment starts; no job starts on the unit meanwhile, and an island's
own voter is tested in TEST mode. -/
def execRehearsalSegment (k : Checker) (at_ : Nat) (s : State) : Ans :=
  let s1 := s.at_ at_
  let s2 := s1.upSaf (fun f => { f with
    segments := f.segments ++ [(k, at_)]
    lastSegment := if (checkerUnit k).isSome then f.lastSegment else f.lastSegment.filter (fun p => p.1 ≠ k) ++ [(k, at_)] })
  let s3 := match k with
    | .island i => s2.upIsland i (fun x => { x with mode := .test })
    | _ => match checkerUnit k with
      | some u => s2.upUnit u (fun x => { x with wakeUntil := at_ + (segmentsOf k).2 })
      | none => s2
  let ready := match k with
    | .island i => (s.island i).mode == .service && !(s.island i).restarting
    | _ => true
  let free := match checkerUnit k with
    | some u => !s.saf.segments.any (fun p => checkerUnit p.1 == some u)
    | none => !s.saf.segments.any (fun p => p.1 == k)
  doWhen (s.host.devReady && s.cue.running && allCheckers.contains k && checkerOn s k && free && ready && mayRehearse s1 k) s s3

/-- The islands that a missed fault is reported at: A for the Stage and the floor, B for the Wings (R410). -/
def checkerIsland : Checker → IslandId
  | .pair _ => .b
  | .island i => i
  | .block _ => .b
  | .twin => .b
  | .link m => if m.die = .wings then .b else .a
  | _ => .a

/-- A segment has run; when every checker at work has run all of its own, the rotation is complete (R420). -/
def countSegment (s : State) (k : Checker) : State :=
  let n := ((s.saf.rotation.find? (fun p => p.1 == k)).map (·.2)).getD 0 + 1
  let rot := s.saf.rotation.filter (fun p => p.1 ≠ k) ++ [(k, n)]
  let full := (allCheckers.filter (checkerOn s)).all (fun c => rot.any (fun p => p.1 == c && decide ((segmentsOf c).1 ≤ p.2)))
  s.upSaf (fun f => if full then { f with
      rotation := []
      rotationMs := BitVec.ofNat 32 ((s.now - f.rotationStart) / 1000000)
      rotationStart := s.now }
    else { f with rotation := rot })

/-- REHEARSAL_SEGMENT_END (R418, R420): the injected fault was reported, or the checker missed it. -/
def execRehearsalSegmentEnd (k : Checker) (detected : Bool) (at_ : Nat) (s : State) : Ans :=
  let s1 := (s.at_ at_).upSaf (fun f => { f with segments := f.segments.filter (fun p => p.1 ≠ k) })
  let s2 := match k with
    | .island i => s1.upIsland i (fun x => { x with mode := if x.mode = .test then .service else x.mode })
    | _ => match checkerUnit k with
      | some u => s1.upUnit u (fun x => { x with wakeUntil := 0 })
      | none => s1
  let s3 := if detected then s2.upSaf (fun f => { f with
      passed := f.passed.filter (fun p => p.1 ≠ k) ++ [(k, s1.now)]
      starvedNow := f.starvedNow.filter (· ≠ k)
      overdue := f.overdue.filter (· ≠ k) })
    else raise s2 (checkerIsland k) { code := 0x18, unit := checkerUnit k, checker := some k }
  doWhen (s.saf.segments.any (fun p => p.1 == k)) s (countSegment s3 k)

/-- The age of a checker in ns at an instant; in PARKED that of a cut checker stands still (R480). -/
def ageOf (s : State) (k : Checker) (t : Nat) : Nat :=
  let cut := s.pwr.state == .parked && (match k with
    | .link m => m.die != .wings
    | k => (checkerUnit k).isSome)
  (if cut then min t s.pwr.parkedAt else t) - ((s.saf.passed.find? (fun p => p.1 == k)).map (·.2)).getD 0

/-- REHEARSAL_STARVED (R412, R420): an age exceeds LFI_MS, once for the checker until it passes again. -/
def execRehearsalStarved (k : Checker) (at_ : Nat) (s : State) : Ans :=
  doWhen (s.host.devReady && allCheckers.contains k && !s.saf.overdue.contains k && decide (1000000 * lfiMs s < ageOf s k at_) &&
      (match k with
        | .pair p => pairCompares s p
        | .twin => s.fab.twinUp
        | _ => true)) s
    (raise ((s.at_ at_).upSaf (fun f => { f with overdue := f.overdue ++ [k] })) .b { code := 0x17, checker := some k })

/-! ### Signatures and cross-checks (R421 to R426) -/

/-- SIGNATURE_READY (R421, R424, R425): the known-answer check, or the paired record, of a job that has ended. -/
def execSignatureReady (j : Nat) (s : State) : Ans :=
  match s.job j with
  | none => did s
  | some x =>
    let sig := signature (keptChecks s x)
    let s1 := { s with free := s.free + 1 }
    let mine := crossRecord x sig
    doWhen (x.phase == .ended && !s.saf.crossMine.any (fun p => p.2 == j)) s (match x.kaf with
      | some k => finishJob (endKaf s1 x k sig) x
      | none =>
        let t := (s1.emit (.crossRecord mine)).upSaf (fun f => { f with crossMine := f.crossMine ++ [(mine, j)] })
        match s.saf.crossTheirs.find? (fun r => sameKey r mine) with
        | some r => compareCross t x mine r
        | none => t)

/-- CROSS_RECORD_RECEIVE (R425): the partner's record is compared with this package's, or kept for it. -/
def execCrossRecordReceive (r : CrossRecord) (s : State) : Ans :=
  let kept := s.upSaf (fun f => { f with crossTheirs := f.crossTheirs ++ [r] })
  doWhen (s.fab.twinUp && s.fab.twinMode == 2) s (match s.saf.crossMine.find? (fun p => sameKey p.1 r) with
    | none => kept
    | some p => match s.job p.2 with
      | some j => compareCross s j p.1 r
      | none => kept)

end Sys2Proof.Machine
end

