-- ==== Sys2Proof/Machine/Power.lean ====
section
/-! DEFINITION. Rails, resets, bring-up and the power states (R259, R291, R314, R370, R371, R393, R394, R409, R474 to R490,
R516). -/

namespace Sys2Proof.Machine

/-! ### Rails (R474, R475) -/

def railIdx : RailGroup → Nat
  | .g2 => 0
  | .g3 => 1
  | .g4 => 2

/-- The PWR_EN that enables a rail; rails 0 and 1 have none (Table 17-1). -/
def railEn (r : Nat) : Option Nat := if r < 2 then none else if r < 5 then some 0 else if r < 7 then some 1 else some 2

/-- PWR_EN[n] rises. -/
def raiseEn (n : Nat) (s : State) : State :=
  if s.pwr.pwrEn.getLsbD n then s
  else (s.upPwr (fun p => { p with pwrEn := p.pwrEn ||| BitVec.ofNat 3 (2 ^ n) })).emit (.pin (["PWR_EN0", "PWR_EN1", "PWR_EN2"].getD n "") true)

/-- STAGE, ERROR, UNIT and SUB of DEV_BOOT (Table 11-6). -/
def bootWord (stage error unit sub : Nat) : Word := BitVec.ofNat 32 (stage * 2 ^ 24 + error % 256 * 2 ^ 16 + unit * 2 ^ 8 + sub)

def setStage (s : State) (stage : Nat) (p : BootPhase) : State :=
  (s.upHost (fun h => { h with boot := bootWord stage 0 0 0 })).upPwr (fun x => { x with phase := p })

def stageOf (s : State) : Nat := bits s.host.boot.toNat 31 24

/-- Bring-up halts (R488). -/
def haltBoot (s : State) (error unit sub : Nat) : State :=
  (s.upHost (fun h => { h with boot := bootWord 0xFF error unit sub })).upPwr (fun x => { x with phase := .halted })

/-- The debug enables that the fuses give (Table 13-8). -/
def fuseDebug : BitVec 4 := if Config.lifecycle = 0 ∨ Config.lifecycle = 2 then 3 else 0

/-- The instants from which intervals of the new bring-up count. -/
def startClocks (s : State) : State :=
  let t := s.now
  let s := s.upNet (fun x => { x with bases := (List.range 4).map (fun i => (i, ({ at_ := t } : TimeBase))) })
  let s := s.upMem (fun m => { m with windowStart := t })
  let s := s.upIntake (fun x => { x with bufferedAt := t })
  let s := s.upSaf (fun f => { f with lastAlive := t, rotationStart := t })
  (s.upIsland .a (fun x => { x with lastCkpt := t, lastToggle := t })).upIsland .b (fun x => { x with lastCkpt := t, lastToggle := t })

/-- Step 1 of Table 17-8: a bring-up starts. The strap 0b11 and a LIFECYCLE of 3 halt it; for the latter Table 11-6 has
no ERROR. -/
def startBringUp (s : State) : State :=
  let s := (startClocks (setStage s 0 .rom)).upPwr (fun p => { p with porst := s.now, i2cOn := false, bringUps := if p.bringUps = 255 then 255 else p.bringUps + 1 })
  let s := s.upSec (fun x => { x with debugBits := fuseDebug })
  if s.host.twinRole = 3 then haltBoot s 8 0 0
  else if Config.lifecycle = 3 then haltBoot { s with free := s.free + 1 } (Config.freeByte s.free 0).toNat 0 0
  else s

/-- Nothing holds the device in reset any longer: rails, PORST_N, the reference, and no reset that is due. -/
def startIfReady (s : State) : State :=
  let p := s.pwr
  if p.phase = .held ∧ p.good = 7 ∧ p.porstHigh ∧ ¬ p.refLost ∧ ¬ p.tripped ∧ p.resetDue = none then startBringUp s else s

/-- AON_POWER_ON (R474, R484): rails 0 and 1 are within limits; nothing that the device held is kept, and group 2 is
enabled. -/
def execAonPowerOn (s : State) : Ans :=
  let s1 : State := { State.reset with
    now := s.now
    out := s.out
    pending := s.pending
    free := s.free
    mem := { hostMem := s.mem.hostMem, retiredList := s.mem.retiredList }
    pwr := { aonUp := true, sensors := s.pwr.sensors }
    sec := flashAfter s }
  doWhen (!s.pwr.aonUp) s (raiseEn 0 s1)

/-- RAIL_GOOD (R474, R475): a group's rails are good; the next one is enabled, and with the last the device may start. -/
def execRailGood (g : RailGroup) (s : State) : Ans :=
  let k := railIdx g
  let s1 := s.upPwr (fun p => { p with good := p.good ||| BitVec.ofNat 3 (2 ^ k) })
  let s2 := if k < 2 then raiseEn (k + 1) s1 else s1
  let s3 := if s2.pwr.good = 7 ∧ s2.pwr.phase = .sequencing then s2.upPwr (fun p => { p with phase := .waitPorst }) else s2
  doWhen (s.pwr.aonUp && s.pwr.pwrEn.getLsbD k && !s.pwr.good.getLsbD k) s (startIfReady s3)

/-- RAIL_ENABLE_TIMEOUT (R474): a rail that is enabled did not become good; every PWR_EN falls until the retry. -/
def execRailEnableTimeout (rail : Fin 9) (s : State) : Ans :=
  let late := match railEn rail.val with
    | some k => s.pwr.pwrEn.getLsbD k && !s.pwr.good.getLsbD k
    | none => false
  let s1 := (lowerRails s).upPwr (fun p => { p with rail := BitVec.ofNat 4 rail.val, enTimeout := true })
  doWhen (late && !s.pwr.enTimeout) s s1

/-- RAIL_RETRY (R474). -/
def execRailRetry (s : State) : Ans :=
  doWhen (s.pwr.aonUp && s.pwr.enTimeout) s (raiseEn 0 (s.upPwr (fun p => { p with enTimeout := false })))

/-- BROWN_OUT (R475): a rail of a good group leaves its limits; while PORST_N is high a chip reset follows. -/
def execBrownOut (rail : Fin 9) (s : State) : Ans :=
  match railEn rail.val with
  | none => did s
  | some k =>
    let s1 := s.upPwr (fun p => { p with good := p.good &&& ~~~(BitVec.ofNat 3 (2 ^ k)) })
    let s2 := s1.upPwr (fun p => { p with rail := BitVec.ofNat 4 rail.val, resetDue := some .brownOut })
    doWhen (s.pwr.good.getLsbD k) s (if s.pwr.porstHigh then s2 else s1)

/-- AON_RAIL_REMOVAL (R482, R490): OFF; only what lies outside the device and its boot flash stays. -/
def execAonRailRemoval (s : State) : Ans :=
  let t := lowerRails (lowerPins s)
  doWhen s.pwr.aonUp s { State.reset with
    now := t.now
    out := t.out
    pending := t.pending
    free := t.free
    mem := { hostMem := t.mem.hostMem, retiredList := t.mem.retiredList }
    pwr := { state := .off, sensors := t.pwr.sensors }
    sec := flashAfter t }

/-! ### Resets (R483, R484, R516) -/

/-- PORST_N_LOW (R484): the whole device is reset; DEV_RESET stays. -/
def execPorstNLow (s : State) : Ans :=
  let s1 := (resetAll s).upPwr (fun p => { p with
    porstHigh := false
    i2cOn := false
    phase := if p.good = 7 then .waitPorst else .sequencing })
  doWhen (s.pwr.aonUp && s.pwr.porstHigh) s s1

/-- PORST_N_RISE (R292, R483, R486, R494, R516): the straps are sampled and the cause is recorded; rails that a trip or
SLEEP has lowered are sequenced again. -/
def execPorstNRise (twin : BitVec 2) (i2c : BitVec 2) (s : State) : Ans :=
  let s1 := if s.pwr.firstPorst then s else recordCause s (if s.pwr.refLost then 7 else 2)
  let s2 := s1.upHost (fun h => { h with twinRole := twin, i2cAddr := i2c })
  let s3 := s2.upPwr (fun p => { p with porstHigh := true, firstPorst := false, tripped := false, refLost := false, resetDue := none, phase := .held })
  let s4 := if s3.pwr.pwrEn = 0 ∧ ¬ s3.pwr.enTimeout then raiseEn 0 s3 else s3
  doWhen (s.pwr.aonUp && !s.pwr.porstHigh) s (startIfReady s4)

/-- CAUSE of a chip reset; a thermal trip has recorded its own (Table 17-6). -/
def causeOf : ResetCause → Option Byte
  | .watchdog => some 3
  | .sleepExit => some 4
  | .brownOut => some 5
  | .thermalTrip => none

/-- CHIP_RESET (R394, R475, R482, R484, R494): the reset that its source has caused; the security processor is told of the
enclaves it ends. -/
def execChipReset (cause : ResetCause) (s : State) : Ans :=
  let s1 := match causeOf cause with
    | some c => recordCause s c
    | none => s
  let s2 := resetAll (overrideHolds s1 s1.pwr.cause.toNat)
  doWhen (s.pwr.resetDue == some cause) s (startIfReady s2)

/-- REFCLK_LOSS (R516): every domain but the always-on one is held in reset until PORST_N next rises. -/
def execRefclkLoss (s : State) : Ans :=
  let lost (t : State) : State := t.upPwr (fun p => { p with refLost := true, resetDue := none })
  doWhen (s.pwr.aonUp && !s.pwr.refLost) s (if s.pwr.state = .sleep then lost s else lost (resetAll s))

/-! ### Bring-up (R485 to R488) -/

/-- SECURE_ROM_START (R390, R486, R520): step 2 of Table 17-8; it also comes when the strap has halted the bring-up. The
boot flash leaves its reset in 1S-1S-1S mode, which it keeps unless it declares 8D-8D-8D support. -/
def execSecureRomStart (r : RomStart) (s : State) : Ans :=
  let s0 := if s.pwr.xspi = .inReset then s.emit (.pin "XSPI_RESET_N" true) else s
  let s1 := (s0.at_ r.at_).upPwr (fun p => { p with i2cOn := true, xspi := if r.octal then .octal else .single })
  let s2 := s1.upSec (fun x => { x with wdtRunning := true, kicked := s1.now, warned := false })
  doWhen (!s.sec.wdtRunning && (s.pwr.phase == .rom || (s.pwr.phase == .halted && s.pwr.resetDue == none))) s
    (if s.pwr.phase = .rom then setStage s2 1 .verify else s2)

/-- CONFIG_RETRY_END (R314): 100 ms after PORST_N rose; the link is up from here on. -/
def execConfigRetryEnd (at_ : Nat) (s : State) : Ans :=
  doWhen (outOfReset s && !s.host.configReady && decide (s.pwr.porst + 100000000 ≤ at_)) s
    ((s.at_ at_).upHost (fun h => { h with configReady := true, linkUp := true }))

/-- The TYPE of the first image of a bank that fails (R370). -/
def failedType (s : State) (b : BankReport) : Option Nat :=
  if ¬ imagePasses s 1 b.sf then some 1
  else if ¬ imagePasses s 2 b.py then some 2
  else none

def State.upBank (s : State) (isB : Bool) (f : Bank → Bank) : State :=
  s.upSec (fun x => if isB then { x with bankB := f x.bankB } else { x with bankA := f x.bankA })

/-- The device boots on a bank: its images' numbers, the network block, and the PLATFORM record (R430, R485). -/
def bootOn (s : State) (isB : Bool) (b : BankReport) : State :=
  let s := s.upBank isB (fun x => { x with rollbackSf := b.sf.rollback, rollbackPy := b.py.rollback, versionSf := b.sf.version, versionPy := b.py.version })
  let plat := (recs b.py.net 0x20).head?
  let s := s.upPwr (fun p => { p with
    net := b.py.net
    bootRate := match plat with
      | some r => BitVec.ofNat 4 (byteAt r 4)
      | none => 5
    capW := match plat with
      | some r => fieldOf r 6 2
      | none => 300 })
  setStage (s.upSec (fun x => { x with bootedB := isB, fallback := isB != x.activeB })) 2 .trim

/-- The images of a bank that is read are known from then on. -/
def seenBank (s : State) (a b : BankRead) (isB : Bool) : State := s.upBank isB (bankImages (if isB then b else a))

/-- IMAGE_VERIFY_DONE (R370, R371): the ACTIVE bank, else the other one; a bank that fails starts its successes anew. -/
def execImageVerifyDone (a : BankRead) (b : BankRead) (s : State) : Ans :=
  let act := s.sec.activeB
  let rep (isB : Bool) : BankReport := readBank (if isB then b else a)
  let seen := seenBank s a b act
  let t := match failedType seen (rep act) with
    | none => bootOn seen act (rep act)
    | some _ =>
      let other := seenBank (seen.upBank act (fun x => { x with success := 0 })) a b (!act)
      match failedType other (rep (!act)) with
      | none => bootOn other (!act) (rep (!act))
      | some typ => haltBoot (other.upBank (!act) (fun x => { x with success := 0 })) 1 (if act then 0 else 1) typ
  doWhen (s.pwr.phase == .verify) s t

/-! ### Die identity and die links (R290, R291, R296) -/

def allDies : List DieId := [.stage 0, .stage 1, .stage 2, .stage 3, .wings, .floor]

/-- The strap a die reports. -/
def reportedStrap (r : TrimReport) (d : DieId) : Option Nat := (r.straps.find? (fun p => p.1 == d)).map (·.2.toNat)

/-- A die reports what its site calls for, and the SUBSTRATE of the first die. -/
def dieFits (r : TrimReport) (d : DieId) : Bool := match reportedStrap r d with
  | none => false
  | some w => bits w 15 12 == bits ((reportedStrap r (.stage 0)).getD 0) 15 12 && (match d with
    | .stage k => bits w 1 0 == 0 && bits w 5 4 == k.toNat
    | .wings => bits w 1 0 == 1
    | .floor => bits w 1 0 == 2)

/-- The five checks of R291. -/
def identityOk (r : TrimReport) : Bool :=
  let ws := allDies.filterMap (reportedStrap r)
  let typ (k : Nat) := ws.filter (fun w => bits w 1 0 == k)
  ws.length == 6 && (typ 1).length == 1 && (typ 2).length == 1 && (typ 3).isEmpty &&
  [0, 1, 2, 3].all (fun d => ((typ 0).filter (fun w => bits w 5 4 == d)).length == 1 && (match reportedStrap r (.stage (BitVec.ofNat 2 d)) with
    | some w => bits w 1 0 == 0 && bits w 5 4 == d
    | none => false)) &&
  (ws.map (fun w => bits w 15 12)).eraseDups.length == 1

/-- The credit loops of every die link at training (Table 1-6). -/
def trainedCredits : Tbl (Option CreditLoop) :=
  ((List.range 34).flatMap (fun m => (List.range 4).map (fun v => 4 * m + v))).map (fun k =>
    (k, some { total := Config.dieCredits k, held := Config.dieCredits k, ct := 0 }))

/-- What a module's own lane tests found. -/
def testedLanes (r : TrimReport) (m : ModId) : List Nat := ((r.lanes.find? (fun p => p.1 == m)).map (·.2)).getD []

/-- The modules of every die link at training, with the lanes that they map out (R296). -/
def trainedModules (s : State) (r : TrimReport) : Tbl Module :=
  allLinks.foldl (fun t m => tset {} t (modKey m) { mapped := badLanes s m (testedLanes r m) }) []

/-- The modules that training cannot repair. -/
def deadLinks (s : State) (r : TrimReport) : List ModId := allLinks.filter (fun m => !repairs s m (testedLanes r m))

/-- A Stage die whose link cannot be repaired is lost (R296). -/
def linkLost (s : State) (m : ModId) : State := match m.die with
  | .stage d => loseDie (s.upModule m (fun x => { x with up := false })) d
  | _ => s

/-- FAB_DIE_STRAP of every die that reports one: its reserved bits read zero (R8, R290). -/
def keptStraps (r : TrimReport) : Tbl (Option Word) :=
  (allDies.zipIdx.filterMap (fun p => (reportedStrap r p.1).map (fun w => (p.2, strapFields (BitVec.ofNat 32 w))))).foldl
    (fun t p => tset none t p.1 (some p.2)) []

/-- TRIM_AND_PLL_LOCK (R291, R296, R486, R490): step 5 of Table 17-8. -/
def execTrimAndPllLock (r : TrimReport) (s : State) : Ans :=
  let s1 := (s.upFab (fun f => { f with
    straps := keptStraps r
    modules := trainedModules s r
    credits := trainedCredits })).emit (.pin "PUMP_PWM" true)
  let t :=
    if r.pllFail.isSome then haltBoot s1 2 0 0
    else if ¬ identityOk r then haltBoot s1 5 (((allDies.find? (fun d => !dieFits r d)).map dieCode).getD 0) 0
    else match (deadLinks s r).find? (fun m => m.die == .wings) with
      | some m => haltBoot s1 6 4 m.idx.toNat
      | none => setStage ((deadLinks s r).foldl linkLost s1) 3 .training
  doWhen (s.pwr.phase == .trim) s t

/-! ### DRAM (R259, R487) -/

/-- The pages of the boot flash's record are RETIRED, every other one UNINIT, and initialisation begins. -/
def startInit (s : State) (caps16 : BitVec 12) : State :=
  let s := s.upHost (fun h => { h with dramRate := s.pwr.bootRate, dram16g := caps16 })
  let s := s.mem.retiredList.foldl (fun s p => setOwner s p { typ := .retired }) s
  setStage s 4 .initing

/-- DRAM_TRAINING_DONE (R259): a channel is retrained once; then every controller steps down, and below 6,400 MT/s the
bring-up halts. -/
def execDramTrainingDone (r : TrainReport) (s : State) : Ans :=
  match r with
  | .pass caps => doWhen (s.pwr.phase == .training) s (startInit s caps)
  | .badCapacity c => doWhen (s.pwr.phase == .training) s (haltBoot s 4 c.val 0)
  | .fail c ch again =>
    let k := 4 * c.val + ch.toNat
    doWhen (s.pwr.phase == .training && s.pwr.retrained.contains k == again) s
      (if ¬ again then s.upPwr (fun p => { p with retrained := p.retrained ++ [k] })
       else if s.pwr.bootRate.toNat ≤ 1 then haltBoot s 3 c.val ch.toNat
       else s.upPwr (fun p => { p with bootRate := p.bootRate - 1, retrained := [] }))

/-- BIST_COMPLETE (R409, R486). -/
def execBistComplete (fail : Option DieId) (islandFail : Bool) (s : State) : Ans :=
  doWhen (s.pwr.phase == .initing && stageOf s == 4) s (match fail with
    | some d => haltBoot s 7 (dieCode d) 0
    | none => if islandFail then haltBoot s 7 4 0 else setStage s 5 .initing)

/-- Pages of the first 16 GiB (R487). -/
def firstPages : Nat := 0x400000000 / 65536

/-- A boot that reaches DEV_READY: the bank's success count, and at the third in a row the fuses follow its ROLLBACK
counts (R371). -/
def bootSuccess (s : State) : State :=
  let s := s.upBank s.sec.bootedB (fun x => { x with success := x.success + 1 })
  let b := runningBank s
  if b.success < 3 then s
  else s.upSec (fun x => { x with fusedSf := max x.fusedSf b.rollbackSf, fusedPy := max x.fusedPy b.rollbackPy })

/-- An island enters SERVICE (R402, R407). -/
def enterService (t : Nat) (i : IslandId) (s : State) : State :=
  s.upIsland i (fun x => { x with mode := .service, lastToggle := t, lastCkpt := t })

/-- The one prefetch range of R329 and its lock, and channel 0 of R373 where the channel table is not locked yet. -/
def setBridge (h : HostSt) : HostSt :=
  { h with
    channels := if h.mbxLock then h.channels else tset {} h.channels 0 { tget {} h.channels 0 with reg := 0xC0000031 }
    ranges := [(0, { valid := true, bar2 := true, first := 0, last := 0xFFFFF })]
    rangesLocked := true
    devReady := true }

/-- What the firmware sets in the bridge before DEV_READY: the range, channel 0, and the lock of R333, which reports clashes. -/
def readyBridge (s : State) : State :=
  let t := s.upHost setBridge
  if s.host.mbxLock then t else lockChannels t

/-- DEV_READY (R329, R333, R344, R371, R373, R390, R407, R486): step 9 of Table 17-8. -/
def execDevReady (at_ : Nat) (s : State) : Ans :=
  let s1 := setStage (s.at_ at_) 6 .ready
  let s2 := bootSuccess (s1.upMem (fun m => { m with initPages := firstPages }))
  let s3 := (readyBridge s2).upSec (fun x => { x with wdtLock := true })
  let s4 := s3.upSlice 0 (fun x => { x with valid := true, partition := 2 })
  let s5 := enterService s1.now .b (enterService s1.now .a s4)
  let s6 := s5.upSaf (fun f => { f with passed := allCheckers.map (fun k => (k, s1.now)), rotationStart := s1.now, lastAlive := s1.now })
  doWhen (s.pwr.phase == .initing && stageOf s == 5) s (sideBand (s6.emit (.pin "DEV_READY" true)) 1 0)

/-- MEMORY_INIT_COMPLETE (R487): step 10 of Table 17-8. -/
def execMemoryInitComplete (s : State) : Ans :=
  let s1 := (s.upMem (fun m => { m with initPages := dataTop s / 65536 })).upHost (fun h => { h with memComplete := true })
  doWhen (s.host.devReady && !s.host.memComplete) s (sideBand s1 2 0)

/-! ### SLEEP and cuts (R393, R482) -/

/-- SLEEP_REQUEST (R482): honoured in PARKED, remembered in ACTIVE. -/
def execSleepRequest (s : State) : Ans :=
  doWhen (outOfReset s && !s.pwr.tripped) s
    (if parked s then trySleep s else s.upPwr (fun p => { p with sleepAsked := true }))

/-- WAKE (R482, R494): in SLEEP the rails are sequenced and a chip reset follows; otherwise SLEEP_N has risen. -/
def execWake (s : State) : Ans :=
  if s.pwr.tripped then did s
  else if s.pwr.state = .sleep then
    doWhen (s.pwr.aonUp && s.pwr.pwrEn == 0 && !s.pwr.enTimeout) s (raiseEn 0 (s.upPwr (fun p => { p with resetDue := some .sleepExit })))
  else did (s.upPwr (fun p => { p with sleepAsked := false }))

/-- A unit that no job holds. -/
def unitIdle (s : State) (u : UnitId) : Bool := (s.unit u).job.isNone && (s.unit u).phase == .idle

/-- The domains of Table 17-3 that a cut stops. -/
def cutDomains : CutTarget → List Nat
  | .core c => [1 + c.toNat / 16]
  | .die d => [1 + d.toNat, 5 + d.toNat]
  | .domain .secure => [24]
  | .domain .control => [27]

/-- The cut itself: an idle core or die, or the control domain. -/
def applyCut (s : State) : CutTarget → State
  | .core c => if unitIdle s (.core c) then s.upUnit (.core c) (fun x => { x with gated := true }) else s
  | .die d => if (dieUnits d.toNat).all (unitIdle s) then s.upPwr (fun p => { p with dieOff := p.dieOff ||| BitVec.ofNat 4 (2 ^ d.toNat) }) else s
  | .domain .secure => s.upPwr (fun p => { p with secureOff := true })
  | .domain .control => s.upPwr (fun p => { p with controlOff := true })

/-- CUT_REQUEST (R392, R393): a held domain refuses it, and the security processor is told. -/
def execCutRequest (d : CutTarget) (s : State) : Ans :=
  doWhen s.host.devReady s (match heldDomain s (cutDomains d) with
    | some h => s.emit (.holdMessage h midStagehand.toNat)
    | none => applyCut s d)

end Sys2Proof.Machine
end

