-- ==== Sys2Proof/Machine/Management.lean ====
section
/-! DEFINITION. The I2C management target, JTAG debug, and domains that wake (R317, R335, R387 to R389, R413, R483, R484,
R518, R519, R521). -/

namespace Sys2Proof.Machine

/-! ### The management target (R518, R519) -/

/-- I2C_OFFSET_WRITE (R518): exactly two bytes set the offset; a third byte or a bad offset is not acknowledged. -/
def execI2cOffsetWrite (data : Bytes) (s : State) : Ans :=
  let off := fieldOf data 0 2
  doWhen s.pwr.i2cOn s
    (if 2 < data.length ∨ (data.length = 2 ∧ off % 4 ≠ 0) then s.emit .i2cNak
     else if data.length = 2 then s.upHost (fun h => { h with i2cOffset := BitVec.ofNat 16 off })
     else s)

/-- I2C_READ (R518, R519): words of page 0 as of one instant, and the offset advances. -/
def execI2cRead (words : Nat) (s : State) : Ans :=
  let off := s.host.i2cOffset.toNat
  let bs := (List.range words).flatMap (fun i => leBytes 4 (if off + 4 * i < 0x10000 then page0Word s (off + 4 * i) else 0))
  doWhen s.pwr.i2cOn s ((s.upHost (fun h => { h with i2cOffset := BitVec.ofNat 16 (off + 4 * words) })).emit (.i2cData bs))

/-- I2C_SCL_TIMEOUT (R518): the target releases SDA and waits for a start; the offset stays. -/
def execI2cSclTimeout (s : State) : Ans := did s

/-! ### JTAG (R387 to R389, R413, R484, R521) -/

/-- The access reaches the secure world: the security processor, or a unit that carries an enclave (R387). -/
def secureTarget (s : State) : DebugTarget → Bool
  | .security => true
  | .unit u => tget 0 s.sec.unitEnc (UnitId.code u) != 0
  | _ => false

/-- The enable of Table 13-8 that an access needs; boundary scan is invasive (R521). -/
def debugEnabled (s : State) (d : DebugTarget) (invasive : Bool) : Bool :=
  s.sec.debugBits.getLsbD ((if secureTarget s d then 2 else 0) + (if invasive || d == .boundary then 1 else 0))

/-- The first invasive access to a path breaks it until reset (R389, R413); the boundary is no path of Table 14-10. -/
def breakPath (s : State) (d : DebugTarget) : State :=
  let s0 := s.upSec (fun x => { x with invUsed := true })
  let seen : Bool := match d with
    | .unit u => s.saf.debugSeen.contains (UnitId.code u)
    | t => (s.saf.debugPaths &&& pathBit t) != 0
  if d == .boundary || seen then s0
  else
    let s1 := s0.upSaf (fun f => { f with
      debugPaths := f.debugPaths ||| pathBit d
      debugSeen := match d with
        | .unit u => f.debugSeen ++ [UnitId.code u]
        | _ => f.debugSeen })
    raise s1 .b { code := 0x1D, path := some d }

/-- SEC and ENC of a JTAG access: those of the unit accessed (R364, Table 13-1). -/
def jtagAttrs (s : State) (d : DebugTarget) : Bool × BitVec 5 := match d with
  | .security => (true, 0)
  | .unit u => (false, tget 0 s.sec.unitEnc (UnitId.code u))
  | _ => (false, 0)

/-- JTAG_DEBUG_ACCESS (R364, R387 to R389, R413): admitted under its attributes, or zero data with an error, counted and reported to island B. -/
def execJtagDebugAccess (d : DebugTarget) (invasive : Bool) (s : State) : Ans :=
  doWhen (outOfReset s) s
    (if ¬ debugEnabled s d invasive then firewallB (s.emit (.jtagData false))
     else
       let a := jtagAttrs s d
       ((if invasive || d == .boundary then breakPath s d else s).emit (.jtagAccess d a.1 a.2)).emit (.jtagData true))

/-- JTAG_TRST (R484): only the JTAG debug access port is reset, of which the spec gives no register. -/
def execJtagTrst (s : State) : Ans := did s

/-! ### Domains that wake (R335, R484) -/

/-- DOMAIN_WAKE_COMPLETE (R335, R484): the domain is up; the control engine's loops start with zero states. -/
def execDomainWakeComplete (d : WakeDomain) (s : State) : Ans :=
  let s1 := s.upPwr (fun p => { p with waking := p.waking.filter (· ≠ d) })
  doWhen (s.pwr.waking.contains d) s (match d with
    | .secure => s1.upPwr (fun p => { p with secureOff := false })
    | .control => (s1.upPwr (fun p => { p with controlOff := false })).upCtl (fun c => { c with
        loops := c.loops.map (fun (p : Nat × LoopSt) => (p.1, { p.2 with states := [] })) }))

end Sys2Proof.Machine
end

