-- ==== Sys2Proof/Machine/PyotosVehicle.lean ====
section
/-! DEFINITION. Known-answer frames, the safety status record, twin mode and channels, enclaves, and the split of the
control engine (R306, R307, R377 to R384, R421, R422, R427, R471, R473, Table 12-9). -/

namespace Sys2Proof.Machine

/-! ### KAF_SET (R421, R422) -/

/-- Registrations that one package holds at most (R422). -/
def kafLimit : Nat := 16

/-- Bytes of a job's declared input buffers. -/
def inputBytes (p : Package) (e : JobEntry) : Nat :=
  ((p.bufs.zipIdx.filter (fun b => e.inputs.getLsbD b.2)).map (·.1.size)).foldl (· + ·) 0

/-- A registration of the same HANDLE and JOB. -/
def sameKaf (a b : Kaf) : Bool := a.slice == b.slice && a.handle == b.handle && a.jobIdx == b.jobIdx

/-- A registration is added, or takes the place of the one it replaces, whose run under way then belongs to none. -/
def addKaf (s : State) (r : Kaf) : State :=
  let old := s.saf.kafs
  let s := releasePages s ((old.filter (sameKaf r)).flatMap (·.pages))
  match old.findIdx? (sameKaf r) with
  | none => s.upSaf (fun f => { f with kafs := old ++ [r] })
  | some k => { s with
      saf := { s.saf with kafs := old.set k r }
      jobs := s.jobs.map (fun j => if j.kaf = some k then { j with kaf := some 1000000 } else j) }

/-- The registration's input and expected signature in Pyotos-owned pages. -/
def registerKaf (s : State) (r : Kaf) (input expect : Bytes) : Res :=
  let k := (input.length + 8 + 65535) / 65536
  let ps := pickPages s k false
  if ps.length < k then .err (shortOf s k ps.length false) 0
  else .ok (addKaf (putPages (grantPages s ps { typ := .pyotos }) ps (input ++ expect)) { r with pages := ps }) 0

/-- The rules of R421 and R422 for a job of a package and a scene: the status and DETAIL. -/
def kafErr (n : SliceId) (p : Package) (e : JobEntry) (sc : Scene) : Option (Nat × Nat) :=
  if sc.slice ≠ n then some (stDenied, 14)
  else if ¬ sc.kaf then some (stRefused, 14)
  else if e.cls.toNat < 2 then some (stRefused, 10)
  else if ¬ keptWhole p e then some (stRefused, 0)
  else none

def kafSet : Body := fun s n _ w =>
  let h := fld w 8 2
  let mine (r : Kaf) : Bool := r.slice == n && r.handle == h && r.jobIdx == fld w 10 2
  if 3 < fld w 13 1 then .err stBadValue 13
  else if 31 < fld w 14 1 then .err stBadValue 14
  else match tget none (s.slice n).packages h with
    | none => .err stNoObject 8
    | some p => match p.jobs[fld w 10 2]? with
      | none => .err stNoObject 10
      | some e =>
        if fld w 16 8 = 0 then (if s.saf.kafs.any mine then .ok (removeKafs s mine) 0 else .err stNoObject 8)
        else if parked s then .err stRefused 0
        else match tget none s.sheets (fld w 13 1) with
          | none => .err stNoObject 13
          | some sh => match sh.scenes[fld w 14 1]? with
            | none => .err stNoObject 14
            | some sc => match kafErr n p e sc with
              | some x => .err x.1 x.2
              | none =>
                if kafLimit ≤ s.saf.kafs.length ∧ ¬ s.saf.kafs.any mine then .err stRefused 0
                else withStruct s n w 16 (inputBytes p e) (fun s input => withStruct s n w 24 8 (fun s expect =>
                  registerKaf s { slice := n, handle := h, jobIdx := fld w 10 2, k := if fld w 12 1 = 0 then 8 else fld w 12 1,
                                  bank := BitVec.ofNat 2 (fld w 13 1), scene := BitVec.ofNat 5 (fld w 14 1), pages := [], len := input.length,
                                  expect := BitVec.ofNat 64 (leNat expect), since := none, running := none } input expect))

/-- KAF_SET (R421, R422). -/
def execKafSet (n : SliceId) (w : Line) (s : State) : Ans :=
  runCmd { op := 0x0A02, zero := false, named := [(8, 2), (10, 2), (12, 1), (13, 1), (14, 1), (16, 8), (24, 8)] } kafSet n w s

/-! ### SAFETY_STATUS (R427) -/

/-- ISLAND_A or ISLAND_B of Table 14-10. -/
def islandByte (s : State) (i : IslandId) : Nat :=
  let x := s.island i
  let mode := match x.mode with
    | .start => 0
    | .service => 1
    | .recovery => 2
    | .test => 3
  let inUse := ((voters x).map (fun c => 2 ^ c.val)).foldl (· + ·) 0
  mode + 4 * inUse + (if (s.saf.debugPaths &&& pathBit (.island i)) = 0 then 0 else 128)

/-- KAF_DUE: the registrations that are due in this cue; none runs in PARKED (R480). -/
def kafDueBits (s : State) : Nat :=
  if parked s then 0 else (s.saf.kafs.zipIdx.map (fun p => if kafDue p.1 then 2 ^ p.2 else 0)).foldl (· + ·) 0

/-- The greatest age of a checker at work, in ms. -/
def oldestMs (s : State) : Nat := ((allCheckers.filter (checkerOn s)).map (fun k => ageOf s k s.now)).foldl max 0 / 1000000

/-- The record of Table 14-10. -/
def statusRecord (s : State) : Bytes :=
  let down := s.saf.curtain
  leBytes 1 (if down then 1 else 0) ++ leBytes 1 (if down then s.saf.cause.toNat else 0) ++ leBytes 1 (islandByte s .a) ++ leBytes 1 (islandByte s .b) ++
  leBytes 1 (if s.fab.twinMode ≠ 2 then 0 else if s.fab.twinUp then 1 else 2) ++ leBytes 1 s.saf.debugPaths.toNat ++ leBytes 2 (kafDueBits s) ++
  leBytes 8 (if down then s.saf.curtainCue.toNat else 0) ++ leBytes 4 s.saf.rotationMs.toNat ++ leBytes 4 (oldestMs s) ++ zeros 40 ++
  (List.range 48).flatMap (fun i => leBytes 4 (tget 0 s.saf.counts i).toNat)

/-- SAFETY_STATUS (R427). -/
def execSafetyStatus (n : SliceId) (w : Line) (s : State) : Ans :=
  runCmd { op := 0x0A03, zero := false, named := [(16, 8)] }
    (fun s n _ w => withDest s n w 16 256 (fun va => .ok (writeBy s midStagehand n (.slice n) va (statusRecord s)) 0)) n w s

/-! ### TWIN_MODE and twin channels (R306, R307) -/

/-- TWIN_MODE (R306). -/
def execTwinMode (n : SliceId) (w : Line) (s : State) : Ans :=
  runCmd { op := 0x0B01, zero := true, named := [(8, 1)] }
    (fun s _ _ w =>
      if 2 < fld w 8 1 then .err stBadValue 8
      else if fld w 8 1 ≠ 0 ∧ ¬ paired s then .err stRefused 0
      else writeShadow s 0x3000000 8 (BitVec.ofNat 4608 (fld w 8 1))) n w s

/-- The other end is set with another LEN, as far as the link tells. -/
def lenDiffers (s : State) (ch len : Nat) : Bool := s.fab.twinUp && (match Config.partnerLen s.free ch with
  | some l => l != len
  | none => false)

/-- The field rules of TWIN_CHANNEL_SET: the status and DETAIL. -/
def channelFieldErr (s : State) (n : SliceId) (w : Line) : Option (Nat × Nat) :=
  let va := fld w 16 8
  let len := fld w 24 4
  if 63 < fld w 8 1 then some (stBadValue, 8)
  else if 1 < fld w 9 1 then some (stBadValue, 9)
  else if 8191 < fld w 10 2 then some (stBadValue, 10)
  else if va % 64 ≠ 0 ∨ 2 ^ 48 ≤ va then some (stBadValue, 16)
  else if len = 0 ∨ len % 64 ≠ 0 then some (stBadValue, 24)
  else match (s.ctr (BitVec.ofNat 13 (fld w 10 2))).slice with
    | none => some (stNoObject, 10)
    | some k =>
      if k ≠ n then some (stDenied, 10)
      else match tget none s.fab.channels (fld w 8 1) with
        | none => none
        | some e => if e.slice ≠ n then some (stDenied, 8) else if e.copying then some (stBusy, 8) else none

/-- TWIN_CHANNEL_SET (R307). -/
def execTwinChannelSet (n : SliceId) (w : Line) (s : State) : Ans :=
  runCmd { op := 0x0B02, zero := false, named := [(8, 1), (9, 1), (10, 2), (16, 8), (24, 4)] }
    (fun s n _ w => match channelFieldErr s n w with
      | some e => .err e.1 e.2
      | none =>
        let t := { s with free := s.free + 1 }
        if ¬ reachable s n (.slice n) (if fld w 9 1 = 1 then .write else .read) (fld w 16 8) (fld w 24 4) then .err stTranslation 16
        else if lenDiffers s (fld w 8 1) (fld w 24 4) then .errS t stRefused 0 0
        else
          let x : TwinEnd := { slice := n, receive := fld w 9 1 == 1, ctr := BitVec.ofNat 13 (fld w 10 2), va := fld w 16 8, len := fld w 24 4, copying := false }
          .ok (armTwin ((disarmTwin t (fld w 8 1)).upFab (fun f => { f with channels := tset none f.channels (fld w 8 1) (some x) })) (fld w 8 1)) 0) n w s

/-- TWIN_CHANNEL_FREE (R307). -/
def execTwinChannelFree (n : SliceId) (w : Line) (s : State) : Ans :=
  runCmd { op := 0x0B03, zero := false, named := [(8, 1)] }
    (fun s n _ w =>
      if 63 < fld w 8 1 then .err stBadValue 8
      else match tget none s.fab.channels (fld w 8 1) with
        | none => .err stNoObject 8
        | some e =>
          if e.slice ≠ n then .err stDenied 8
          else if e.copying then .err stBusy 8
          else .ok ((disarmTwin s (fld w 8 1)).upFab (fun f => { f with channels := tset none f.channels (fld w 8 1) none })) 0) n w s

/-! ### ENCLAVE_CREATE (R377, R378) -/

/-- The cache partition an enclave takes, from the partitions that no slice names. -/
def enclavePartition (s : State) : Option Nat :=
  let open_ := (((List.range 14).map (· + 2)).reverse).filter (fun p => !(slicePartitions s).contains p)
  (open_.find? (fun p => !(enclavePartitions s).contains p)) <|> open_.head?

/-- 64 KiB pages of the tables that map k pages of an enclave: 16 tables to a page (log entry 21). -/
def enclaveTables (k : Nat) : Nat := (2 + (k * 65536 + 2 ^ 30 - 1) / 2 ^ 30 + (k * 65536 + 2 ^ 21 - 1) / 2 ^ 21 + 15) / 16

/-- Pages of region 0 for an enclave and its tables, or the status of a shortfall (R357, R377). -/
def enclavePages (s : State) (k : Nat) : Except Nat (List Nat) :=
  let ps := freePages s (pageFuel s k) 0 (top0 s / 65536) k
  if k ≤ ps.length then .ok ps
  else .error (if k ≤ ps.length + (uninitPages s false - uninitPages s true) then stNotReady else stNoResource)

def enclaveCreate : Body := fun s _ _ w =>
  let host : SliceId := BitVec.ofNat 7 (fld w 8 1)
  let k := fld w 16 8 / 65536
  if 127 < fld w 8 1 then .err stBadValue 8
  else if fld w 16 8 = 0 ∨ fld w 16 8 % 65536 ≠ 0 ∨ 2 ^ 47 < fld w 16 8 then .err stBadValue 16
  else if ¬ (s.slice host).valid ∨ (s.slice host).destroying then .err stNoObject 8
  else if parked s then .err stRefused 0
  else match ((List.range 31).map (· + 1)).find? (fun e => (tget none s.sec.enclaves e).isNone) with
    | none => .err stNoResource 0
    | some e => match enclavePartition s with
      | none => .err stRefused 0
      | some p =>
        if fld (committed s 2 0) (2 * p) 2 = 0 then .err stRefused 0
        else if ¬ fits s host 0 (65536 * k) then .err stQuota 0
        else match enclavePages s (k + enclaveTables k) with
          | .error st => .err st 0
          | .ok ps =>
            let t := grantPages s (ps.take k) { typ := .enclave, id := BitVec.ofNat 7 e, host := host }
            let t := grantPages t (ps.drop k) { typ := .secure }
            .ok (setEnclave t e { host := host, pages := ps.take k, tables := ps.drop k, partition := BitVec.ofNat 4 p, image := 0, data := 0, save := 0, handle := none })
              (payload [(0, 1, e)])

/-- ENCLAVE_CREATE (R377). -/
def execEnclaveCreate (n : SliceId) (w : Line) (s : State) : Ans :=
  runCmd { op := 0x0C01, zero := true, named := [(8, 1), (16, 8)] } enclaveCreate n w s

/-! ### ENCLAVE_LOAD (R379, R380) -/

/-- The wrapper of Table 13-7: the status and offset of the first field that is wrong. -/
def wrapperErr (h : Bytes) : Option (Nat × Nat) :=
  ([(fieldOf h 0 4 == 0x57454E45, stBadValue, 0), (fieldOf h 4 2 == 1, stBadValue, 4), (decide (byteAt h 6 ≤ 15), stBadValue, 6),
    (byteAt h 7 == 0, stReserved, 7), (fieldOf h 8 8 != 0 && fieldOf h 8 8 % 64 == 0 && decide (fieldOf h 8 8 ≤ 2 ^ 36), stBadValue, 8),
    (zerosAt h 28 32, stReserved, 28), (zerosAt h 145 160, stReserved, 145), (zerosAt h 257 288, stReserved, 257),
    (zerosAt h 384 512, stReserved, 384)].find? (fun x => !x.1)).map (fun x => (x.2.1, x.2.2))

/-- Step 1: the supplier's key and signature; never once the sealed keys are gone (R389). -/
def supplierOk (s : State) (h : Bytes) : Bool :=
  let sup := (h.drop 160).take 97
  !s.sec.sealedGone && (match tget none s.sec.slots (byteAt h 6) with
    | some x => leNat (sha384 sup) == x.toNat && ecdsaOk sup (h.take 288) ((h.drop 288).take 96)
    | none => false)

/-- Bytes of the save area: that of the package's largest job. -/
def enclaveSave (img : Bytes) : Nat := ((jobsOf img).map (fun e => 0x100000 * e.cores + 0x10000 * (e.aes + e.rfes))).foldl max 0

/-- The package that a plaintext holds, loaded at the enclave's base, or how R363 ends it. -/
def enclaveImage (img : Bytes) (len : Nat) : Except PkgErr Bytes :=
  match headerErr img true with
  | some e => .error e
  | none =>
    if fieldOf img 8 8 ≠ len then .error { detail := 0xFFFF, off := 8, step := 1 }
    else (loadSteps img enclaveBase (enclaveBase + roundPages len)).mapError (·.1)

/-- A package that passed: in the enclave's pages, under a handle of the host slice. -/
def storeEnclave (s : State) (n : SliceId) (e h : Nat) (x : Enclave) (img : Bytes) : State :=
  let s := putPages s x.pages img
  let s := setPackage s n h (some (packageOf img enclaveBase (enclaveBase + roundPages img.length) (some (BitVec.ofNat 5 e)) []))
  let s := setEnclave s e { x with image := roundPages img.length, data := roundPages (fieldOf img 24 8), save := enclaveSave img, handle := some h }
  invalidate s n (fun va => decide (enclaveBase ≤ va))

/-- The plaintext of a package: nothing where EPHEMERAL is no point of the curve, or the tag is wrong (R379). -/
def enclavePlain (wrap cipher : Bytes) : Option Bytes :=
  (contentKey ((wrap.drop 48).take 97)).bind (fun key => gcmOpen key ((wrap.drop 16).take 12) (wrap.take 16) cipher ((wrap.drop 32).take 16))

/-- Steps 2 to 4; the status, the DETAIL and RESULT of a PACKAGE failure, or the new state. -/
def openEnclave (s : State) (n : SliceId) (e : Nat) (x : Enclave) (wrap cipher : Bytes) : Except (Nat × Nat × BitVec 128) (State × Nat) :=
  let len := fieldOf wrap 8 8
  let size := 65536 * x.pages.length
  if size < len then .error (stRefused, 0, 0)
  else match enclavePlain wrap cipher with
    | none => .error (stAuth, 0, 0)
    | some plain => match enclaveImage plain len with
      | .error p => .error (stPackage, p.detail, pkgResult { p with off := 0 })
      | .ok img =>
        if size < roundPages len + roundPages (fieldOf img 24 8) + enclaveSave img then .error (stRefused, 0, 0)
        else match freeHandle s n with
          | none => .error (stNoResource, 0, 0)
          | some h => .ok (storeEnclave s n e h x img, h)

/-- The wrapper, or the ciphertext, at an address of the host slice, in device DRAM. -/
def withDram (s : State) (n : SliceId) (w : Line) (va len : Nat) (k : State → Bytes → Res) : Res :=
  if (firstOff s n .read va len isDram).isSome then .err stTranslation 16 else withBytes s n w 16 va len k

/-- A load that has failed: the enclave's pages are zeroed. -/
def failLoad (s : State) (e : Nat) (st detail : Nat) (r : BitVec 128) : Res := .errS (wipeEnclave s (BitVec.ofNat 5 e)) st detail r

def enclaveLoad : Body := fun s n _ w =>
  let e := fld w 8 1
  if e < 1 ∨ 31 < e then .err stBadValue 8
  else match tget none s.sec.enclaves e with
    | none => .err stNoObject 8
    | some x =>
      if x.host ≠ n then .err stDenied 8
      else if parked s then .err stRefused 0
      else if x.handle.isSome then .err stBusy 0
      else withDram s n w (fld w 16 8) 512 (fun s wrap => match wrapperErr wrap with
        | some p => .errS (wipeEnclave s (BitVec.ofNat 5 e)) p.1 (inStruct p.2) 0
        | none =>
          if ¬ supplierOk s wrap then failLoad s e stAuth 0 0
          else withDram s n w (fld w 16 8 + 512) (fieldOf wrap 8 8) (fun s cipher => match openEnclave s n e x wrap cipher with
            | .error p => failLoad s e p.1 p.2.1 p.2.2
            | .ok t => .ok t.1 (payload [(0, 2, t.2)])))

/-- ENCLAVE_LOAD (R363, R379, R380). -/
def execEnclaveLoad (n : SliceId) (w : Line) (s : State) : Ans :=
  runCmd { op := 0x0C02, zero := false, named := [(8, 1), (16, 8)] } enclaveLoad n w s

/-! ### ENCLAVE_DESTROY (R384) -/

/-- The enclave's package leaves its host, its pages and tables are zeroed and FREE, and its number and partition return. -/
def destroyEnclave (s : State) (e : Nat) (x : Enclave) : State :=
  let s := match x.handle with
    | some h => dropPackage (removeKafs s (fun k => k.slice == x.host && k.handle == h)) x.host h
    | none => s
  let s := releasePages s (x.pages ++ x.tables)
  checkQuota (invalidate (s.upSec (fun y => { y with enclaves := tset none y.enclaves e none })) x.host (fun va => decide (enclaveBase ≤ va))) x.host

def enclaveDestroy : Body := fun s _ _ w =>
  let e := fld w 8 1
  if e < 1 ∨ 31 < e then .err stBadValue 8
  else match tget none s.sec.enclaves e with
    | none => .err stNoObject 8
    | some x =>
      if parked s then .err stRefused 0
      else if s.jobs.any (fun j => j.enclave == some (BitVec.ofNat 5 e)) then .err stBusy 0
      else .ok (destroyEnclave s e x) 0

/-- ENCLAVE_DESTROY (R384). -/
def execEnclaveDestroy (n : SliceId) (w : Line) (s : State) : Ans :=
  runCmd { op := 0x0C03, zero := true, named := [(8, 1)] } enclaveDestroy n w s

/-! ### CE_SPLIT (R471, R473) -/

/-- What refuses a split: an enabled loop of class 3, a side above its share, a delivery bound missed at the edge. -/
def splitRefused (s : State) : Bool :=
  let ls := enabledLoops s
  let p := (loopTiming s).1
  let bt := (loopTiming s).2
  let side (k : Nat) := ls.filter (fun x => lpSide x.2 == k)
  let n := max 1 (p / bt)
  let late (x : Nat × BitVec 4608) : Bool :=
    let offs := sampleOffsets x.2 p bt n
    offs.contains 0 && decide (minGap p offs ≤ deliveryBound (side (lpSide x.2)) x.1 p bt n 0 8000)
  ls.any (fun x => lpClass x.2 == 3) ||
  (p != 0 && bt != 0 && (!shareOk (side 0) p bt 200000 || !shareOk (side 1) p bt 200000 || ls.any late))

/-- The body of CE_SPLIT in either MODE: it waits for its edge. -/
def splitBody (split : Bool) : Body := fun s _ f w =>
  if 1 < fld w 8 1 then .err stBadValue 8
  else if s.ctl.waiting.isSome then .err stBusy 8
  else if s.ctl.degraded ∨ (split ∧ splitRefused s) then .err stRefused 0
  else .wait (s.upCtl (fun c => { c with waiting := some { split := split, due := dueCount s, tag := f.tag, pos := f.pos } })) .commit

/-- CE_SPLIT with MODE 1, and with a MODE that is not defined (R471). -/
def execCeSplit (n : SliceId) (w : Line) (s : State) : Ans :=
  runCmd { op := 0x0908, zero := true, named := [(8, 1)], mine := fun w => fld w 8 1 != 0 } (splitBody true) n w s

/-- CE_SPLIT with MODE 0 (R471). -/
def execCeJoin (n : SliceId) (w : Line) (s : State) : Ans :=
  runCmd { op := 0x0908, zero := true, named := [(8, 1)], mine := fun w => fld w 8 1 == 0 } (splitBody false) n w s

end Sys2Proof.Machine
end

