-- ==== Sys2Proof/Machine/Secure.lean ====
section
/-! DEFINITION. The secure channel, debug enables and the secure watchdog (R366, R373 to R376, R386 to R391). -/

namespace Sys2Proof.Machine

/-! ### The secure channel (R373) -/

/-- Word i of channel 0, host side first. -/
def secWord (s : State) (i : Nat) : Nat := (tget 0 (s.chan 0).words i).toNat

/-- The message code that waits, and the host address of words 1 and 2. -/
def secCode (s : State) : Nat := secWord s 0 % 65536
def secAddr (s : State) : Nat := secWord s 1 + 2 ^ 32 * secWord s 2

/-- The codes of Table 13-6. -/
def secCodes : List Nat := [0x0101, 0x0102, 0x0103, 0x0104, 0x0105]

/-- Words 9 to 15, then word 8, and the host's doorbell with its interrupt (R335, R345). -/
def secReply (s : State) (status : Nat) (ws : List Nat) : State :=
  let all := secWord s 0 :: status :: (ws ++ List.replicate (6 - ws.length) 0)
  wakeEnd (s.upChan 0 (fun c => { c with
    words := all.zipIdx.foldl (fun t v => tset 0 t (8 + v.2) (BitVec.ofNat 32 v.1)) c.words
    bellA := true
    bellB := false })) 1

/-- The security processor serves the message of host channel page 0: it has the row's code, or one that Table 13-6 does
not define, which is answered as in Table 12-1. -/
def serveSec (code : Nat) (body : State → State) (s : State) : Ans :=
  let c := secCode s
  let known := secCodes.contains c
  doWhen (s.host.devReady && chanOn s 0 && (s.chan 0).bellB && !endOff s 3 && linkOk s && (c == code || !known)) s
    (if known then body s else secReply s stBadOpcode [])

/-- Bytes of host memory at a bus address, read without a PASID. -/
def hostBytes (s : State) (a len : Nat) : Bytes := (List.range len).map (fun i => hostByteAt s (a + i))

/-- The secret of the k-th signature: 1 to the order of the curve less 1. -/
def signSecret (k : Nat) : Nat := Config.signSecret k % (n384 - 1) + 1

/-- The buffer of a GET_KEYS reply: both public points and a signature by TW-ID over them (R374). -/
def keyBuffer (k : Nat) : Bytes :=
  let points := pointBytes (basePoint.mul twId) ++ pointBytes (basePoint.mul twKa)
  points ++ zeros 6 ++ ecdsaSign twId (signSecret k) points

/-- GET_KEYS (R373, R374): the buffer before the reply. -/
def execGetKeys (s : State) : Ans :=
  serveSec 0x0101 (fun s =>
    if secAddr s % 8 ≠ 0 then secReply s stBadValue []
    else secReply (hostWrite { s with free := s.free + 1 } 0 (secAddr s) (keyBuffer s.free) false) 0 []) s

/-- BOOT_INFO (R373): the bank, whether a fallback was taken, and the fused rollback counts. -/
def execBootInfo (s : State) : Ans :=
  serveSec 0x0102 (fun s => secReply s 0 [if s.sec.bootedB then 1 else 0, if s.sec.fallback then 1 else 0, s.sec.fusedSf, s.sec.fusedPy]) s

/-! ### Supplier slots (R375, R376) -/

/-- An owner key that signs: it exists, is not revoked, and the signature verifies. -/
def ownerSigned (key : Nat) (msg sig : Bytes) : Bool := decide (key ≤ 3) && !Config.ownerKeyRevoked key && ecdsaOk (Config.ownerKey key) msg sig

/-- The status of a provisioning record. -/
def provisionStatus (s : State) (r : Bytes) : Nat :=
  if byteAt r 3 ≠ 0 ∨ ¬ zerosAt r 56 96 then stReserved
  else if 15 < byteAt r 0 ∨ 1 < byteAt r 1 ∨ 3 < byteAt r 2 then stBadValue
  else if s.sec.sealedGone ∨ ¬ ownerSigned (byteAt r 2) (r.take 96) ((r.drop 96).take 96) ∨ fieldOf r 4 4 ≤ s.sec.lastCounter.toNat then stAuth
  else 0

/-- The record is applied to the sealed store. -/
def applyProvision (s : State) (r : Bytes) : State :=
  let hash : Option (BitVec 384) := if byteAt r 1 = 1 then some (BitVec.ofNat 384 (leNat ((r.drop 8).take 48))) else none
  s.upSec (fun x => { x with slots := tset none x.slots (byteAt r 0) hash, lastCounter := BitVec.ofNat 32 (fieldOf r 4 4) })

/-- PROVISION (R376, R389). -/
def execProvision (s : State) : Ans :=
  serveSec 0x0103 (fun s =>
    let r := hostBytes s (secAddr s) 192
    let st := provisionStatus s r
    secReply (if st = 0 then applyProvision s r else s) st []) s

/-! ### Debug (R387 to R389) -/

/-- DEBUG_CHALLENGE (R387): a fresh nonce. -/
def execDebugChallenge (s : State) : Ans :=
  serveSec 0x0104 (fun s =>
    let v := Config.random s.free
    let s := { s with free := s.free + 1 }
    secReply (s.upSec (fun x => { x with nonce := some (v, s.now) })) 0 ((List.range 6).map (fun i => fld v (4 * i) 4))) s

/-- A token passes: the nonce of the last challenge and not older than 60 s, the serial number, the signature. -/
def tokenOk (s : State) (t : Bytes) : Bool :=
  (match s.sec.nonce with
    | some (v, at_) => leNat (t.take 24) == v.toNat && decide (s.now ≤ at_ + 60000000000)
    | none => false) &&
  fieldOf t 24 8 == Config.devSerial.toNat && decide (byteAt t 32 < 16) && zerosAt t 34 64 && ownerSigned (byteAt t 33) (t.take 64) ((t.drop 64).take 96)

/-- DEBUG_UNLOCK (R387): a valid token uses its nonce and sets the bits it asks for, unless LOCK is set. -/
def execDebugUnlock (s : State) : Ans :=
  serveSec 0x0105 (fun s =>
    let t := hostBytes s (secAddr s) 160
    if ¬ tokenOk s t then secReply s stAuth []
    else
      let s := s.upSec (fun x => { x with nonce := none })
      secReply (if s.sec.debugLock then s else setDebug s (s.sec.debugBits ||| BitVec.ofNat 4 (byteAt t 32))) 0 []) s

/-- SEC_DEBUG_WRITE (R366, R387): bits 3:0 and LOCK, from the secure world and while LOCK is 0. -/
def execSecDebugWrite (secure : Bool) (v : Word) (s : State) : Ans :=
  did (writeDebug s secure v)

/-! ### The secure watchdog (R390, R391) -/

/-- SEC_WDT_KICK (R366, R390): a write of 0x5A from the secure world restarts the count. -/
def execSecWdtKick (secure : Bool) (v : Word) (s : State) : Ans :=
  did (kickWdt s secure v)

/-- SECURE_WDT_WARNING (R390): half the period has passed without a kick, and the security processor is interrupted. -/
def execSecureWdtWarning (at_ : Nat) (s : State) : Ans :=
  doWhen (s.sec.wdtRunning && !s.sec.warned && decide (s.sec.kicked + 500000 * s.sec.period.toNat ≤ at_)) s
    ((s.at_ at_).upSec (fun x => { x with warned := true }))

/-- SECURE_WDT_EXPIRY (R391): SECURE_WATCHDOG drops the curtain, and the chip reset follows. -/
def execSecureWdtExpiry (at_ : Nat) (s : State) : Ans :=
  let s1 := (s.at_ at_).upSec (fun x => { x with wdtRunning := false })
  doWhen (s.sec.wdtRunning && decide (s.sec.kicked + 1000000 * s.sec.period.toNat ≤ at_)) s
    ((latch s1 .b { code := 0x20 }).upPwr (fun p => { p with resetDue := some .watchdog }))

end Sys2Proof.Machine
end

