-- ==== Sys2Proof/Machine/Stream.lean ====
section
/-! DEFINITION. The stream engine: moves over loop nests and window contexts (R82 to R89, R235, R323). -/

namespace Sys2Proof.Machine

/-- An SE_MOVE (Table 3-5). -/
structure Move where
  toFar : Bool
  neighbour : Bool
  noAlloc : Bool
  nb : Nat
  len : Nat
  far : Nat
  near : Nat
  counts : List Nat
  farStrides : List Int
  nearStrides : List Int
  /-- The point, if any, whose outbound write fails its check at the PCIe exit (R70), and whether it is the one in hand. -/
  exit : Option Nat := none
  poisoned : Bool := false
  deriving DecidableEq, Repr

def decodeMove (d : Line) : Move :=
  let ctrl := fld d 4 2
  { toFar := bitAt ctrl 0, neighbour := bitAt ctrl 1, noAlloc := bitAt ctrl 4, nb := bits ctrl 3 2, len := fld d 6 2, far := fld d 8 8, near := fld d 16 3,
    counts := (List.range 5).map (fun i => fld d (19 + 2 * i) 2)
    farStrides := (List.range 5).map (fun i => signed 32 (fld d (29 + 4 * i) 4))
    nearStrides := (List.range 5).map (fun i => signed 24 (fld d (49 + 3 * i) 3)) }

/-- The offset of the n-th point of the nest along one address (R83). -/
def nestOffset : List Nat → List Int → Nat → Int
  | k :: ks, st :: ss, n => ((n % k : Nat) : Int) * st + nestOffset ks ss (n / k)
  | _, _, _ => 0

def Move.points (m : Move) : Nat := m.counts.foldl (· * ·) 1
def Move.nearAt (m : Move) (n : Nat) : Int := m.near + nestOffset m.counts m.nearStrides n
def Move.farAt (m : Move) (n : Nat) : Int := m.far + nestOffset m.counts m.farStrides n

/-- Lowest and highest offset of a nest: each stride at its first or last count. -/
def extent : List Nat → List Int → Int × Int
  | k :: ks, st :: ss =>
    let r := extent ks ss
    let e := ((k - 1 : Nat) : Int) * st
    (r.1 + min 0 e, r.2 + max 0 e)
  | _, _ => (0, 0)

/-- Every byte of the nest lies in a core store (R83). -/
def inStore (base len : Nat) (ks : List Nat) (ss : List Int) : Bool :=
  let r := extent ks ss
  decide (0 ≤ (base : Int) + r.1) && decide ((base : Int) + r.2 + len ≤ storeSize)

/-- The neighbour core a move names. -/
def neighbourOf (c : CoreId) (k : Nat) : CoreId := BitVec.ofNat 6 (c.toNat / 4 * 4 + k)

/-- An address of a job lies in host memory. -/
def toHost (s : State) (j : Job) (va : Nat) : Bool := match translate s j.slice (actorOf j) .write va with
  | some (.host _) => true
  | _ => false

/-- A move's far write, which with NO_ALLOC takes no line of the cache (R270); a point whose outbound write fails its check
leaves poisoned (R70). -/
def moveOut (s : State) (u : UnitId) (j : Job) (m : Move) (va : Nat) (bs : Bytes) : State :=
  let s := mergeReport s u j va bs.length
  let s := if m.poisoned ∧ toHost s j va then writeExit s (midUnit u) j.slice (actorOf j) va bs [0] else writeVa s j.slice (actorOf j) va bs
  unitAccess s u true .write va bs.length m.noAlloc

/-- What came from the host with EP set for unit u is stored poisoned, and fails when it is consumed (R61, R323). -/
def keepPoison (s : State) (u : UnitId) (j : Job) (far a len : Nat) (t : State) : State :=
  match translate s j.slice (actorOf j) .read far with
  | some (.host h) =>
    if s.host.poisonedIn.any (fun r => r.src == .job u && decide (r.addr < h + len) && decide (h < r.addr + r.len)) then
      t.upMem (fun m => { m with store := m.store.poison a len })
    else t
  | _ => t

/-- The completions of unit u's host reads have been stored. -/
def storedHost (s : State) (u : UnitId) : State := s.upHost (fun h => { h with poisonedIn := h.poisonedIn.filter (fun r => r.src ≠ .job u) })

/-- One piece of a run, `len` bytes within one far granule, moved by core c. -/
def movePiece (m : Move) (c : CoreId) (j : Job) (s : State) (near far len : Nat) : State :=
  let u := UnitId.core c
  let nb := neighbourOf c m.nb
  let bad (c : CoreId) (off : Nat) (go : State) : State := match storeBad s c off len with
    | some p => failCheck s u (if p then 6 else 3) p
    | none => go
  if m.toFar then
    bad c near (let bs := storeRead s c near len
      if m.neighbour then storeWrite s u nb far bs
      else if reachable s j.slice (actorOf j) .write far len then moveOut s u j m far bs
      else failAccess s u far)
  else if m.neighbour then bad nb far (storeWrite s u c near (storeRead s nb far len))
  else match jobRead s j far len with
    | .ok bs => keepPoison s u j far (storeBase c + near) len (unitDraw (storeWrite s u c near bs) u false .read far len m.noAlloc)
    | r => failRead s u r

/-- The granules of a move in the loop order of R83: the point, and the far address and length. -/
def Move.pieces (m : Move) : List (Nat × Nat × Nat) :=
  (List.range m.points).flatMap (fun n => (chunks (chunkFuel m.len) (m.farAt n).toNat m.len).map (fun p => (n, p)))

/-- One of them moves, unless the job has failed: a virtual address outside 48 bits does not translate (R84). -/
def moveStep (m : Move) (c : CoreId) (j : Job) (s : State) (p : Nat × Nat × Nat) : State :=
  if ¬ working s (.core c) then s
  else if m.farAt p.1 < 0 then failUnit s (.core c) 0x04
  else movePiece { m with poisoned := m.exit == some p.1 } c j s ((m.nearAt p.1).toNat + (p.2.1 - (m.farAt p.1).toNat)) p.2.1 p.2.2

/-- The granules that the move at the head of the queue has not moved (R103). -/
def piecesLeft (m : Move) (c : CoreId) (s : State) : List (Nat × Nat × Nat) := m.pieces.drop (headItem s (.core c) .se).part

/-- The host ranges that a move has still to read. -/
def hostPieces (m : Move) (c : CoreId) (j : Job) (s : State) : List (Nat × Nat) :=
  if m.toFar ∨ m.neighbour then []
  else (piecesLeft m c s).filterMap (fun p => match translate s j.slice (actorOf j) .read p.2.1 with
    | some (.host a) => some (a, p.2.2)
    | _ => none)

/-- Adjoining ranges become one request. -/
def joinPieces : List (Nat × Nat) → List (Nat × Nat)
  | [] => []
  | p :: ps => match joinPieces ps with
    | q :: qs => if p.1 + p.2 = q.1 then (p.1, p.2 + q.2) :: qs else p :: q :: qs
    | [] => [p]

/-- A host range cut into the reads that the device issues: at most 512 bytes and Max_Read_Request_Size each, and none across a
4 KiB boundary (R313). -/
def cutReads (size : Nat) : Nat → Nat × Nat → List (Nat × Nat)
  | 0, _ => []
  | k + 1, p =>
    if p.2 = 0 then []
    else
      let n := min p.2 (size - p.1 % size)
      (p.1, n) :: cutReads size k (p.1 + n, p.2 - n)

/-- The size of the device's reads. -/
def readSize (s : State) : Nat := min 512 (128 * 2 ^ s.host.cfg.maxRead.toNat)

/-- The PASID of the slice a unit works for (R266). -/
def pasidOf (s : State) (u : UnitId) : BitVec 20 := match jobOf s u with
  | some j => (s.slice j.slice).pasid
  | none => 0

/-- The requests of a move's host reads are sent, at most 768 outstanding at a time; without a link they end with an error (R313,
R323, R342). -/
def askHost (s : State) (u : UnitId) (ps : List (Nat × Nat)) : State :=
  let rs := (joinPieces ps).flatMap (fun p => cutReads (readSize s) (p.2 / 128 + 2) p)
  if ¬ linkOk s then failUnit s u 0x04
  else
    let t := rs.foldl (fun s p => s.emit (.hostRead (pasidOf s u) p.1 p.2)) s
    let asked := rs.map (fun p => ({ addr := p.1, len := p.2, src := .job u, pasid := pasidOf s u, since := s.now } : HostRead))
    (t.upHost (fun h => { h with reads := h.reads ++ asked })).upSeq u (fun q => { q with asked := true })

/-- The core whose store a move reads, if it reads one. -/
def Move.reads (m : Move) (c : CoreId) : Option CoreId := if m.toFar then some c else if m.neighbour then some (neighbourOf c m.nb) else none

/-- Granules have moved: those that are left wait for the next row, unless the job has failed (R103). -/
def moveEnd (s : State) (u : UnitId) (moved left : Nat) : State :=
  if left ≤ moved ∨ ¬ working s u then ran (storedHost s u) u .se 0
  else upHead s u .se (fun x => { x with part := x.part + moved })

/-- The granules left of the move in loop order, up to the one it stops at; a double-bit error on the store reads of a point
fails the move there (R72). -/
def moveAll (m : Move) (c : CoreId) (j : Job) (k : MoveChk) (s : State) : State :=
  let u := UnitId.core c
  let m := { m with exit := k.exit }
  let left := piecesLeft m c s
  let ps := left.take (k.stop.getD left.length)
  let move (ps : List (Nat × Nat × Nat)) : State := ps.foldl (moveStep m c j) s
  match m.reads c, k.ecc.double with
  | some r, some n =>
    let before := ps.takeWhile (fun p => decide (p.1 < n))
    let t := eccCount (move before) (.core r) k.ecc.corrected
    if working t u ∧ before.length < ps.length then failCheck (storedHost t u) u 3 false else moveEnd t u ps.length left.length
  | some r, none => moveEnd (eccCount (move ps) (.core r) k.ecc.corrected) u ps.length left.length
  | none, _ => moveEnd (move ps) u ps.length left.length

/-- A move into virtual addresses holds a tag until its acknowledgement (R77, R288); an empty pool stalls it. -/
def performMove (s : State) (c : CoreId) (j : Job) (m : Move) (k : MoveChk) : State :=
  let u := UnitId.core c
  if m.toFar ∧ ¬ m.neighbour then
    match freeTag s (poolOf u) with
    | none => s.upMem (fun x => { x with tagStalls := tup 0 x.tagStalls (poolOf u).val (· + 1) })
    | some t =>
      let t := moveAll m c j k (openTxn s { tag := t, pool := poolOf u, src := .job u, mid := midUnit u, enc := tget 0 s.sec.unitEnc (UnitId.code u), write := true, crossing := false, issued := s.now, slice := j.slice })
      if working t u then mergeBy s t u j (m.farAt k.point).toNat m.len k.far else t
  else
    let t := moveAll m c j k s
    if m.neighbour ∨ ¬ working t u then t else readBy s t u j (m.farAt k.point).toNat k.far

/-- The checks of R83 before any byte moves, then the move. -/
def startMove (s : State) (c : CoreId) (j : Job) (d : Line) (k : MoveChk) : State :=
  let m := decodeMove d
  let u := UnitId.core c
  let s := atDesc s u d
  if m.neighbour ∧ m.nb = c.toNat % 4 then failUnit s u 0x01
  else if ¬ inStore m.near m.len m.counts m.nearStrides then failUnit s u 0x05
  else if m.neighbour ∧ ¬ inStore m.far m.len m.counts m.farStrides then failUnit s u 0x05
  else if m.neighbour ∧ (s.unit (.core (neighbourOf c m.nb))).job ≠ some j.id then failUnit s u 0x06
  else
    let ps := if (s.unit u).seq.asked then [] else hostPieces m c j s
    if ps = [] then performMove s c j m k else askHost s u ps

/-- SE_MOVE (R66, R67, R82 to R85): the head of the stream engine's queue moves, once its host reads are answered (R103: what is left of it). -/
def execSeMove (c : CoreId) (k : MoveChk) (s : State) : Ans :=
  match headOf s (.core c) .se, jobOf s (.core c) with
  | some d, some j => doWhen (typeOf d == 3 && s.host.reads.all (fun r => r.src ≠ .job (.core c))) s (startMove s c j d k)
  | _, _ => did s

/-- SE_WINDOW (R77, R87): the context is loaded. -/
def execSeWindow (c : CoreId) (s : State) : Ans :=
  match headOf s (.core c) .se with
  | some d => doWhen (typeOf d == 4) s (ran (s.upCore c (fun x => { x with win := tset none x.win (fld d 4 1) (some d) })) (.core c) .se 0)
  | none => did s

end Sys2Proof.Machine
end

