-- ==== Sys2Proof/Machine/Sync.lean ====
section
/-! DEFINITION. Signals and waits reaching their counters (R250 to R257). -/

namespace Sys2Proof.Machine

/-- SYNC_SIGNAL_APPLY (R251, R254): the oldest signal in flight reaches its counter. -/
def execSyncSignalApply (c : CtrId) (s : State) : Ans :=
  match (s.ctr c).flight with
  | [] => did s
  | g :: gs => did (applySignal (s.upCtr c (fun x => { x with flight := gs })) c g)

/-- The counter is not the job's own (R256). -/
def foreignCtr (s : State) (c : CtrId) (j : Job) : Bool := (s.ctr c).slice != some j.slice

/-- A wait reaches its counter: refused, queued in arrival order, and released when its condition holds. -/
def arriveWait (s : State) (u : UnitId) (w : SyncWait) : State :=
  match jobOf s u with
  | none => s
  | some j =>
    if foreignCtr s w.ctr j then failUnit s u 0x06
    else if (s.ctr w.ctr).dead then failUnit s u 0x10
    else
      let s := s.upSeq u (fun q => { q with arrived := true })
      releaseWaits (s.upCtr w.ctr (fun x => { x with waits := x.waits ++ [w] })) w.ctr

/-- SYNC_WAIT_ARRIVE (R252, R256): the wait a sequencer has issued reaches its counter. -/
def execSyncWaitArrive (u : UnitId) (s : State) : Ans :=
  match (s.unit u).seq.wait with
  | none => did s
  | some w => doWhen (!(s.unit u).seq.arrived && working s u) s (arriveWait s u w)

end Sys2Proof.Machine
end

