-- ==== Sys2Proof/Machine/Tensor.lean ====
section
/-! DEFINITION. The tensor engine: operands, sparsity, accumulation, output conversion and argmax (R54 to
R58, R62 to R64, R91 to R99). -/

namespace Sys2Proof.Machine

/-- A TE_OP (Table 3-9), with its window context when it takes one. -/
structure Te where
  fa : Nat
  fb : Nat
  fo : Nat
  argmax : Nat
  d2s : Bool
  sparse : Bool
  win : Option Win
  m : Nat
  k : Nat
  n : Nat
  a : Nat
  aStride : Nat
  aExp : Nat
  b : Nat
  bExp : Nat
  bMeta : Nat
  out : Nat
  outStride : Nat
  aux : Nat
  scale : Nat
  table : Nat
  deriving DecidableEq, Repr

def decodeTe (d : Line) (win : Option Win) : Te :=
  let w o := fld d o 4
  let post := fld d 7 1
  { fa := fld d 4 1, fb := fld d 5 1, fo := fld d 6 1, argmax := post % 4, d2s := bitAt post 2, sparse := bitAt post 3, win := win,
    m := w 8, k := w 12, n := fld d 16 2, a := w 20, aStride := w 24, aExp := w 28, b := w 32, bExp := w 36, bMeta := w 40, out := w 44,
    outStride := w 48, aux := w 52, scale := w 56, table := w 60 }

/-- Pip blocks in a reduction. -/
def Te.kb (t : Te) : Nat := (t.k + 31) / 32

/-- Bytes between B rows, and the values a row holds (R93, R94). -/
def Te.sb (t : Te) : Nat := 64 * ((t.k * fmtBits t.fb + 511) / 512)
def Te.bLen (t : Te) : Nat := if t.sparse then t.k / 2 else t.k

/-! ### Operands (R89, R93, R94) -/

/-- The output pixel of row p in window mode. -/
def rowPixel (t : Te) (z : Win) (p : Nat) : Nat × Nat := ((t.a + p) / z.outW, (t.a + p) % z.outW)

/-- Raw elements of a run in the store. -/
def rawRun (s : State) (c : CoreId) (w addr n : Nat) : List Nat :=
  let bs := storeRead s c addr ((n * w + 7) / 8)
  (List.range n).map (elemBits w bs)

/-- Row p of A, raw. -/
def aRow (s : State) (c : CoreId) (t : Te) (p : Nat) : List Nat := match t.win with
  | some z => (List.range t.k).map (winElem s c z (rowPixel t z p).1 (rowPixel t z p).2)
  | none => rawRun s c (fmtBits t.fa) (t.a + p * t.aStride) t.k

/-- The exponent codes of row p of A. -/
def aExps (s : State) (c : CoreId) (t : Te) (p : Nat) : List Nat := match t.win with
  | some z => (List.range t.kb).map (fun b => winExp s c z (rowPixel t z p).1 (rowPixel t z p).2 (32 * b))
  | none => (storeRead s c (t.aExp + p * t.kb) t.kb).map (·.toNat)

/-- The metadata code of group g of column j (R94). -/
def metaCode (s : State) (c : CoreId) (t : Te) (j g : Nat) : Nat :=
  let b := byteAt (storeRead s c (t.bMeta + j * (64 * ((t.k + 511) / 512)) + g / 2) 1) 0
  if g % 2 = 0 then b % 16 else b / 16

def metaOk (code : Nat) : Bool := decide (code % 4 < code / 4)

/-- Row j of B, dense and raw (R94). -/
def bRow (s : State) (c : CoreId) (t : Te) (j : Nat) : List Nat :=
  let kept := rawRun s c (fmtBits t.fb) (t.b + j * t.sb) t.bLen
  if ¬ t.sparse then kept
  else (List.range t.k).map (fun k =>
    let code := metaCode s c t j (k / 4)
    if k % 4 = code % 4 then kept.getD (2 * (k / 4)) 0
    else if k % 4 = code / 4 then kept.getD (2 * (k / 4) + 1) 0
    else 0)

def bExps (s : State) (c : CoreId) (t : Te) (j : Nat) : List Nat := (storeRead s c (t.bExp + j * t.kb) t.kb).map (·.toNat)

/-! ### Accumulation (R55 to R57) -/

/-- Integer accumulation of one output. -/
def accInt (t : Te) (a b : List Nat) : FVal :=
  intVal ((List.zipWith (fun x y => signed (fmtBits t.fa) x * signed (fmtBits t.fb) y) a b).foldl (· + ·) 0)

/-- The block products p and their exponents e of one output (R56). -/
def pipProducts (t : Te) (a b : List Nat) (ea eb : List Nat) : List (Int × Nat) :=
  let ps := (groupsOf 32 (List.zipWith (fun x y => signed (fmtBits t.fa) x * signed (fmtBits t.fb) y) a b)).map (fun g => g.foldl (· + ·) 0)
  ps.zip (List.zipWith (· + ·) ea eb)

/-- The row anchor and the row span of block products (R56). -/
def pipAnchor (rows : List (List (Int × Nat))) : Int × Nat :=
  let es := rows.flatMap (fun r => r.map (·.2))
  let top : Nat := es.foldl max 0
  ((top : Int) - 24, top - es.foldl min top)

/-- Block products added at the anchor, in accumulator units (R56). -/
def pipSum (g : Int) (ps : List (Int × Nat)) : Int := (ps.map (fun p => floorScale p.1 ((p.2 : Int) - g))).foldl (· + ·) 0

/-- The accumulators of a row over one block of columns, at the row anchor; whether the span exceeds 24. -/
def accPip (t : Te) (rows : List (List (Int × Nat))) : List FVal × Bool :=
  let g := pipAnchor rows
  let unit : Int := g.1 - 254 - (fmtBits t.fa - 1 : Nat) - (fmtBits t.fb - 1 : Nat)
  (rows.map (fun r => let v := pipSum g.1 r; FVal.fin (decide (v < 0)) v.natAbs unit), decide (24 < g.2))

/-- Row p's accumulators for the columns of one block of 64, with the flags of R57 and R64. -/
def accBlock (s : State) (c : CoreId) (t : Te) (p : Nat) (cols : List Nat) : Flagged (List FVal) :=
  let a := aRow s c t p
  if isInt t.fa then (cols.map (fun j => accInt t a (bRow s c t j)), 0)
  else if isPip t.fa then
    let r := accPip t (cols.map (fun j => pipProducts t a (bRow s c t j) (aExps s c t p) (bExps s c t j)))
    (r.1, if r.2 then fTol else 0)
  else
    let r := gather (cols.map (fun j => fpReduce (a.map (elemVal t.fa)) ((bRow s c t j).map (elemVal t.fb))))
    (r.1, r.2 ||| fTol)

/-! ### The check column (R62 to R64) -/

def sumInt (xs : List Int) : Int := xs.foldl (· + ·) 0

/-- Σ of columns, position by position. -/
def colSums (cols : List (List Int)) : List Int := match cols with
  | [] => []
  | x :: xs => xs.foldl (List.zipWith (· + ·)) x

/-- C_i = D_i modulo 2^64 for a row of integers (R63). -/
def intAgrees (t : Te) (a : List Nat) (bs : List (List Nat)) : Bool :=
  let av := a.map (signed (fmtBits t.fa))
  let bv := bs.map (fun b => b.map (signed (fmtBits t.fb)))
  let d := sumInt (List.zipWith (· * ·) av (colSums bv))
  let c := sumInt (bv.map (fun b => sumInt (List.zipWith (· * ·) av b)))
  wrapBits 64 c == wrapBits 64 d

/-- The block products of the check column: s_k held at the smallest B exponent of its block (R62). -/
def pipCheckProducts (t : Te) (a : List Nat) (bs : List (List Nat)) (ea : List Nat) (ebs : List (List Nat)) : List (Int × Nat) :=
  (List.range t.kb).map (fun g =>
    let low := (ebs.map (fun e => e.getD g 0)).foldl min ((ebs.headD []).getD g 0)
    let s := colSums ((bs.zip ebs).map (fun b => ((b.1.drop (32 * g)).take 32).map (fun x => signed (fmtBits t.fb) x * (2 ^ (b.2.getD g 0 - low) : Nat))))
    (sumInt (List.zipWith (fun x y => signed (fmtBits t.fa) x * y) ((a.drop (32 * g)).take 32) s), ea.getD g 0 + low))

/-- C_i and D_i of a Pip row agree: modulo 2^64, or within 65 units for each k block where the span exceeds 24 (R63, R64). -/
def pipAgrees (t : Te) (a : List Nat) (bs : List (List Nat)) (ea : List Nat) (ebs : List (List Nat)) : Bool :=
  let rows := (bs.zip ebs).map (fun b => pipProducts t a b.1 ea b.2)
  let g := pipAnchor rows
  let c := sumInt (rows.map (pipSum g.1))
  let d := pipSum g.1 (pipCheckProducts t a bs ea ebs)
  if g.2 ≤ 24 then wrapBits 64 c == wrapBits 64 d else decide ((c - d).natAbs ≤ 65 * t.kb)

/-- The least FP32 bit pattern whose value is not below a magnitude; an infinity beyond the largest. -/
def roundUp32 (m : Nat) (e : Int) : FVal :=
  let w := roundMag fp32 m e
  let v := if fp32.maxBits < w then .inf false else decodeF fp32 w
  if cmpV v (.fin false m e) = some .lt then decodeF fp32 (w + 1) else v

def upV : FVal → FVal
  | .fin _ m e => roundUp32 m e
  | _ => .inf false

/-- C_i and D_i of a float row agree within (Kb + 64) × 2^−22 × M_i, M_i rounded upward at each step (R64). A row that a NaN
or an infinity touches has no sum to compare (log entry 99). -/
def floatAgrees (t : Te) (a : List FVal) (bs : List (List FVal)) (acc : List FVal) : Bool :=
  if (a ++ bs.flatten).any (fun v => !v.isFin) then true
  else
    let s := (List.range t.k).map (fun k => sumV (bs.map (fun b => b.getD k zeroV)))
    let d := checkSum (List.zipWith mulV a s)
    let mag := (List.range t.k).map (fun k => upV (sumV (bs.map (fun b => absV (b.getD k zeroV)))))
    let m := (List.zipWith (fun x y => upV (mulV (absV x) y)) a mag).foldl (fun r x => upV (addV r x)) zeroV
    match cmpV (absV (subV (checkSum acc) d)) (mulV m (.fin false (t.kb + 64) (-22))) with
    | some .gt => false
    | _ => true

/-- The check column agrees with a row's accumulators over one block of columns. -/
def rowAgrees (s : State) (c : CoreId) (t : Te) (cols : List Nat) (p : Nat) : Bool :=
  let a := aRow s c t p
  let bs := cols.map (bRow s c t)
  if isInt t.fa then intAgrees t a bs
  else if isPip t.fa then pipAgrees t a bs (aExps s c t p) (cols.map (bExps s c t))
  else floatAgrees t (a.map (elemVal t.fa)) (bs.map (fun b => b.map (elemVal t.fb))) (accBlock s c t p cols).1

/-- What the check of an output block shows (R62 to R64): what the checkers observed of the array, and a failure, which its
recomputation repeats, where C_i and D_i of some row disagree. -/
def blockShows (s : State) (c : CoreId) (t : Te) (b : List Nat × List Nat) (k : Chk) : Chk :=
  if b.1.all (rowAgrees s c t b.2) then k else .fail

/-! ### Output (R93, R96 to R98) -/

/-- Where a run of columns of row p goes: values, auxiliary plane, first column and count. -/
structure Seg where
  addr : Nat
  aux : Nat
  first : Nat
  count : Nat
  deriving DecidableEq, Repr

/-- GH·GW under D2S, else 1. -/
def Te.groups (t : Te) : Nat := match t.win with
  | some z => if t.d2s then z.gh * z.gw else 1
  | none => 1

def Te.cf (t : Te) : Nat := t.n / t.groups

/-- The final pixel that group q of row p is written to, and the final width (R96). -/
def finalPixel (t : Te) (z : Win) (p q : Nat) : Nat × Nat × Nat :=
  let r := rowPixel t z p
  if t.d2s then (z.gh * r.1 + q / z.gw, z.gw * r.2 + q % z.gw, z.outW * z.gw) else (r.1, r.2, z.outW)

def rowSegs (t : Te) (p : Nat) : List Seg := match t.win with
  | none => [{ addr := t.out + p * t.outStride, aux := t.aux + p * ((t.n + 31) / 32), first := 0, count := t.n }]
  | some z => (List.range t.groups).map (fun q =>
      let f := finalPixel t z p q
      { addr := t.out + f.1 * t.outStride + f.2.1 * z.outPixStride
        aux := t.aux + (f.1 * f.2.2 + f.2.1) * ((t.cf + 31) / 32)
        first := q * t.cf
        count := t.cf })

/-- Where the argmax index of row p goes (R98). -/
def indexAddr (t : Te) (p : Nat) : Nat := match t.win with
  | none => t.aux + 2 * p
  | some z => let f := finalPixel t z p 0; t.aux + 2 * (f.1 * f.2.2 + f.2.1)

/-- Some columns of a row converted: their raw elements, their exponent codes (Pip), and their converted values. -/
def convertRow (s : State) (c : CoreId) (t : Te) (cols : List Nat) (acc : List FVal) : Flagged (List Nat × List Nat × List FVal) :=
  if isPip t.fo then
    let n := fmtBits t.fo
    let r := gather ((groupsOf 32 acc).map (toPip n))
    ((r.1.flatMap (fun b => b.ms.map (wrapBits n)), r.1.map (·.e), r.1.flatMap (fun b => b.vals n)), r.2)
  else
    let r := gather ((cols.zip acc).map (fun x => convertOut s c t.fo t.scale t.table x.1 x.2))
    ((r.1, [], r.1.map (elemVal t.fo)), r.2)

/-- The converted values of columns of row p, with the flags of their accumulation and conversion. -/
def rowOut (s : State) (c : CoreId) (t : Te) (p : Nat) (cols : List Nat) : Flagged (List Nat × List Nat × List FVal) :=
  let acc := accBlock s c t p cols
  let x := convertRow s c t cols acc.1
  (x.1, acc.2 ||| x.2)

/-- The index of the largest value, the lowest on a tie (R98). -/
def argmaxOf (vs : List FVal) : Nat :=
  (vs.zipIdx.foldl (fun (b : FVal × Nat) x => if cmpV b.1 x.1 = some .lt then (x.1, x.2) else b) (vs.headD zeroV, 0)).2

/-- The mantissas of a last block of fewer than 32 columns, padded with zeros (R48). -/
def padRun (fo : Nat) (xs : List Nat) : List Nat := if isPip fo then xs ++ List.replicate (((xs.length + 31) / 32) * 32 - xs.length) 0 else xs

/-- The columns lo to lo + n - 1 of a row written where they fall in one run: an element that starts in the middle of a byte
keeps the byte's lower half. -/
def writeSeg (c : CoreId) (t : Te) (r : List Nat × List Nat × List FVal) (lo n : Nat) (s : State) (g : Seg) : State :=
  let u := UnitId.core c
  let w := fmtBits t.fo
  let f := max lo g.first
  let k := min (lo + n) (g.first + g.count) - f
  if k = 0 then s
  else
    let at_ := g.addr + (f - g.first) * w / 8
    let half := if (f - g.first) * w % 8 = 4 then [byteAt (storeRead s c at_ 1) 0 % 16] else []
    let s := storeWrite s u c at_ (packElems w (half ++ padRun t.fo ((r.1.drop (f - lo)).take k)))
    if isPip t.fo then
      storeWrite s u c (g.aux + (f - g.first) / 32) (((r.2.1.drop ((f - lo) / 32)).take ((k + 31) / 32)).map (BitVec.ofNat 8))
    else s

/-- The argmax index of row p, from every column's converted value (R98). -/
def writeIndex (c : CoreId) (t : Te) (s0 : State) (r : Flagged State) (p : Nat) : Flagged State :=
  let vs := (groupsOf 64 (List.range t.n)).flatMap (fun cols => (rowOut s0 c t p cols).1.2.2)
  let nan := vs.any (· == .nan)
  (storeWrite r.1 (.core c) c (indexAddr t p) (leBytes 2 (if nan then 0xFFFF else argmaxOf vs)), r.2 ||| (if nan then fNan else 0))

/-- Row p over one block of columns: accumulated, converted and written, with its flags. The operands are as they were before
the operation, and rows are written in rising order (DESIGN CHOICE, log entry 100). -/
def teRow (c : CoreId) (t : Te) (s0 : State) (cols : List Nat) (r : Flagged State) (p : Nat) : Flagged State :=
  let x := rowOut s0 c t p cols
  (if t.argmax = 1 then r.1 else (rowSegs t p).foldl (writeSeg c t x.1 (cols.headD 0) cols.length) r.1, r.2 ||| x.2)

/-- An output block, rows and columns, written; with its last columns, the indices of its rows. -/
def teBlock (c : CoreId) (t : Te) (s0 : State) (r : Flagged State) (b : List Nat × List Nat) : Flagged State :=
  let r := b.1.foldl (teRow c t s0 b.2) r
  if t.argmax ≠ 0 ∧ b.2.getLast? = some (t.n - 1) then b.1.foldl (writeIndex c t s0) r else r

/-- The output blocks of 128 rows by 64 columns in the order of the dataflow. -/
def teBlocks (t : Te) : List (List Nat × List Nat) :=
  (groupsOf 64 (List.range t.n)).flatMap (fun cols => (groupsOf 128 (List.range t.m)).map (fun rows => (rows, cols)))

/-! ### Ranges and checks -/

/-- The store ranges a TE_OP reads. -/
def teReads (t : Te) : List (Nat × Nat) :=
  let rowBytes w n := (n * w + 7) / 8
  (if t.win.isSome then [] else (List.range t.m).map (fun p => (t.a + p * t.aStride, rowBytes (fmtBits t.fa) t.k)))
  ++ (if t.win.isSome ∨ ¬ isPip t.fa then [] else [(t.aExp, t.m * t.kb)])
  ++ (List.range t.n).map (fun j => (t.b + j * t.sb, rowBytes (fmtBits t.fb) t.bLen))
  ++ (if isPip t.fb then [(t.bExp, t.n * t.kb)] else [])
  ++ (if t.sparse then [(t.bMeta, t.n * (64 * ((t.k + 511) / 512)))] else [])
  ++ (if bitAt t.scale 30 ∨ bitAt t.scale 31 then [(t.table, 8 * t.n)] else [])

/-- The store ranges that window mode reads for rows of A (R89). -/
def teWindow (t : Te) : List (Nat × Nat) := match t.win with
  | some z => (List.range t.m).flatMap (fun p => winReads z (rowPixel t z p).1 (rowPixel t z p).2)
  | none => []

/-- The store ranges it writes. -/
def teWrites (t : Te) : List (Nat × Nat) :=
  (List.range t.m).flatMap (fun p =>
    (if t.argmax = 1 then [] else (rowSegs t p).flatMap (fun g =>
      [(g.addr, (((if isPip t.fo then (g.count + 31) / 32 * 32 else g.count) * fmtBits t.fo) + 7) / 8)]
      ++ (if isPip t.fo then [(g.aux, (g.count + 31) / 32)] else [])))
    ++ (if t.argmax = 0 then [] else [(indexAddr t p, 2)]))

/-- What a TE_OP in window mode asks of its context (Table 3-9); that FMT_A is the context's format is DESIGN CHOICE, log
entry 101. -/
def teFits (t : Te) : Bool := match t.win with
  | none => true
  | some z => z.fmt == t.fa && z.kLen == t.k && decide (t.a + t.m ≤ z.outH * z.outW) &&
      (!t.d2s || (t.n % (z.gh * z.gw) == 0 && (!isPip t.fo || t.cf % 32 == 0)))

/-- The operation of R67 that an output block is: the descriptors done before it, and its number. -/
def blockKey (s : State) (c : CoreId) (i : Nat) : Nat := 4 * ((s.unit (.core c)).seq.done.toNat + 2 ^ 32 * i)

/-- The blocks before number i are done: the operation has run, or waits for its next row (R103). -/
def blocksEnd (c : CoreId) (d : Line) (t : Te) (i : Nat) (r : Flagged State) : State :=
  if (teBlocks t).length ≤ i then ran r.1 (.core c) .te (statusWord (tagOf d) 1 r.2)
  else upHead r.1 (.core c) .te (fun x => { x with part := i, flags := r.2 })

/-- Output blocks from number i in order, each checked before it is converted and written (R60, R67, R99): the first that
fails its check for good, or whose reads meet a double-bit error (R72), ends the job, and the blocks before it stay. -/
def runBlocks (c : CoreId) (d : Line) (t : Te) (s0 : State) (double : Option Nat) : List (List Nat × List Nat) → Nat → List Chk → Flagged State → State
  | [], i, _, r => blocksEnd c d t i r
  | b :: bs, i, ks, r =>
    let u := UnitId.core c
    let key := blockKey s0 c i
    if double = some i then failCheck r.1 u 3 false
    else match chkOutcome r.1 u key (blockShows s0 c t b (ks.headD .pass)) with
      | .pass => runBlocks c d t s0 double bs (i + 1) ks.tail (teBlock c t s0 r b)
      | .transient =>
        let x := teBlock c t s0 r b
        runBlocks c d t s0 double bs (i + 1) ks.tail (transientCheck (noteRetry x.1 u key) u 1, x.2 ||| fRetry)
      | .fail => failCheck r.1 u 1 false
      | .corrected => runBlocks c d t s0 double bs (i + 1) ks.tail (let x := teBlock c t s0 r b; (eccCount x.1 u 1, x.2))
      | .double => failCheck r.1 u 3 false

/-- The operation, every operand valid: the blocks left of it, up to the one it stops at (R103). -/
def runTe (s : State) (c : CoreId) (k : TeChk) (d : Line) (t : Te) : State :=
  let x := headItem s (.core c) .te
  let left := (teBlocks t).drop x.part
  runBlocks c d t s (k.ecc.double.map (· + x.part)) (left.take (k.stop.getD left.length)) x.part k.blocks (eccCount s (.core c) k.ecc.corrected, x.flags)

/-- A TE_OP starts: its context, ranges, operand checks and metadata come first (R60, R80, R95); that an invalid code leaves
every output unwritten is DESIGN CHOICE, log entry 102. -/
def startTe (s : State) (c : CoreId) (k : TeChk) (d : Line) : State :=
  let u := UnitId.core c
  let s := atDesc s u d
  let post := fld d 7 1
  let ctx := if bitAt post 4 then tget none (s.core c).win (bits post 6 5) else none
  let t := decodeTe d (ctx.map decodeWin)
  if bitAt post 4 ∧ ctx.isNone then failUnit s u 0x01
  else if ¬ teFits t then failUnit s u 0x01
  else if ¬ rangesFit (teReads t) ∨ ¬ rangesFit (teWrites t) ∨ ¬ rangesFit (teWindow t) then failUnit s u 0x05
  else match (teReads t ++ teWindow t).findSome? (fun r => storeBad s c r.1 r.2) with
    | some p => failCheck s u (if p then 6 else 3) p
    | none =>
      if t.sparse ∧ (List.range t.n).any (fun j => (List.range (t.k / 4)).any (fun g => !metaOk (metaCode s c t j g))) then failUnit s u 0x09
      else runTe s c k d t

/-- TE_OP (R54 to R58, R62 to R64, R91 to R99): the head of the tensor engine's queue. -/
def execTeOp (c : CoreId) (k : TeChk) (s : State) : Ans :=
  match headOf s (.core c) .te with
  | some d => did (startTe s c k d)
  | none => did s

end Sys2Proof.Machine
end

