-- ==== Sys2Proof/Machine/Thermal.lean ====
section
/-! DEFINITION. Sensors, throttling, emergencies, power measurement, memory temperature and gated cores (R260, R394, R476,
R477, R491 to R497). -/

namespace Sys2Proof.Machine

/-- The sensors that throttle die d: its own eight and those of the floor (R492). -/
def dieSensors (d : Nat) : List Nat := (List.range 8).map (8 * d + ·) ++ (List.range 8).map (32 + ·)

/-- A sensor of the list reads at least `t` m°C. -/
def hot (s : State) (is : List Nat) (t : Int) : Bool := is.any (fun i => decide (t ≤ sensorOf s i))

/-- The power cap in force, in mW (R495). -/
def powerCap (s : State) : Nat := match s.ctl.cap with
  | some v => (max 50000 (min 340000 v)).toNat
  | none => 1000 * s.pwr.capW

/-- A Stage die that runs. -/
def dieOn (s : State) (d : BitVec 2) : Bool := s.pwr.state == .active && s.host.devReady && !bitAt s.pwr.dieOff.toNat d.toNat

def pointOf (s : State) (d : BitVec 2) : Nat := tget 0 s.pwr.point d.toNat

/-- A step of a die's operating point begins. -/
def beginStep (s : State) (d : BitVec 2) (q : Nat) : State := s.upPwr (fun p => { p with stepTo := tset none p.stepTo d.toNat (some q) })

/-- THERMAL_SENSOR_UPDATE (R491). -/
def execThermalSensorUpdate (i : Fin 44) (milliC : Int) (s : State) : Ans :=
  doWhen s.pwr.aonUp s (s.upPwr (fun p => { p with sensors := tset 0 p.sensors i.val milliC }))

/-- The notices of the first throttle step and of the first cap action in a cue (R341, R492, R495). -/
def throttleNotices (s : State) (heat cap : Bool) : State :=
  let s := if heat && !s.pwr.throttleTold then sideBand (s.upPwr (fun p => { p with throttleTold := true })) 7 0 else s
  if cap && !s.pwr.capTold then sideBand (s.upPwr (fun p => { p with capTold := true })) 8 0 else s

/-- THROTTLE_STEP (R492, R495): a die that is hot, or any die while power exceeds the cap, goes down one point. -/
def execThrottleStep (d : BitVec 2) (s : State) : Ans :=
  let heat := hot s (dieSensors d.toNat) 105000
  let cap := decide (powerCap s < s.pwr.powerMw)
  doWhen (dieOn s d && (heat || cap) && decide (pointOf s d < 4) && (tget none s.pwr.stepTo d.toNat).isNone) s
    (throttleNotices (beginStep s d (pointOf s d + 1)) heat cap)

/-- THROTTLE_STEP_UP (R492, R495): cool, and below 0.95 of the cap. -/
def execThrottleStepUp (d : BitVec 2) (s : State) : Ans :=
  doWhen (dieOn s d && !hot s (dieSensors d.toNat) 100001 && decide (100 * s.pwr.powerMw < 95 * powerCap s) && decide (0 < pointOf s d) &&
      (tget none s.pwr.stepTo d.toNat).isNone) s
    (beginStep s d (pointOf s d - 1))

/-- OPERATING_POINT_STEP_DONE (R477). -/
def execOperatingPointStepDone (d : BitVec 2) (s : State) : Ans :=
  match tget none s.pwr.stepTo d.toNat with
  | none => did s
  | some k => did (s.upPwr (fun p => { p with
      point := tset 0 p.point d.toNat k
      stepTo := tset none p.stepTo d.toNat none
      p4Since := tset none p.p4Since d.toNat (if k = 4 then some s.now else none) }))

/-- POWER_MEASURE (R495). -/
def execPowerMeasure (milliW : Nat) (s : State) : Ans := doWhen s.pwr.aonUp s (s.upPwr (fun p => { p with powerMw := milliW }))

/-! ### Emergencies (R394, R493, R494) -/

/-- A die has been at P4 for 10 ms with one of its sensors at 115 °C or above. -/
def stuckHot (s : State) (d : Nat) : Bool := match tget none s.pwr.p4Since d with
  | some t => decide (t + 10000000 ≤ s.now) && hot s (dieSensors d) 115000
  | none => false

/-- The conditions of R493. -/
def emergencyNow (s : State) : Bool := hot s (List.range 44) 125000 || (List.range 4).any (stuckHot s)

/-- The jobs that hold a Stage unit. -/
def stageJobs (s : State) : List Nat := ((allUnits.filterMap (fun u => (s.unit u).job)).eraseDups)

/-- THERMAL_EMERGENCY (R394, R493): the jobs end with ABORTED, the security processor is told, and every Stage die is cut. -/
def execThermalEmergency (s : State) : Ans :=
  let s1 := raiseCode s .b 0x21
  let s2 := (stageJobs s1).foldl (fun s j => terminateJob s j none 0x0B 0x0B) s1
  let s3 := overrideHolds s2 0x21
  doWhen (s.host.devReady && !s.pwr.emergency && emergencyNow s) s
    (s3.upPwr (fun p => { p with dieOff := 0xF, emergency := true, rejoin := 0, stepTo := [], p4Since := [] }))

/-- THERMAL_RECOVERY (R493): every sensor reads at most 95 °C; outside PARKED the dies come up and rejoin at the next
edge. -/
def execThermalRecovery (s : State) : Ans :=
  let s1 := s.upPwr (fun p => { p with emergency := false })
  let s2 := ([0, 1, 2, 3].foldl powerDie s1).upPwr (fun p => { p with rejoin := 0xF })
  doWhen (s.pwr.emergency && !hot s (List.range 44) 95001) s (if parked s then s1 else s2)

/-- THERMAL_TRIP (R494): every PWR_EN falls without firmware, and only PORST_N brings the device back. -/
def execThermalTrip (s : State) : Ans :=
  let s1 := lowerRails (recordCause s 6)
  doWhen (s.pwr.aonUp && !s.pwr.tripped && hot s (List.range 44) 135000) s
    (s1.upPwr (fun p => { p with tripped := true, resetDue := some .thermalTrip }))

/-! ### Memory temperature and gated cores -/

/-- MR4_READ (R260, R497): the refresh rate, and the report of a temperature above the memory's limit. -/
def execMr4Read (k : Fin 12) (mult : RefreshRate) (overTemp : Bool) (s : State) : Ans :=
  let bit : BitVec 12 := BitVec.ofNat 12 (2 ^ k.val)
  let s1 := s.upMem (fun m => { m with refresh := tset .x1 m.refresh k.val mult })
  let s2 := s1.upPwr (fun p => { p with overTemp := if overTemp then p.overTemp ||| bit else p.overTemp &&& ~~~bit })
  doWhen (s.host.dramRate != 0) s (if overTemp && !s.pwr.overTemp.getLsbD k.val then raiseCode s2 .a 0x0F else s2)

/-- IVR_CORE_WAKE (R476): a gated core returns scrubbed; the first of a die that Stagehand has cut brings the die up. -/
def execIvrCoreWake (c : CoreId) (s : State) : Ans :=
  let d := c.toNat / 16
  let cut := bitAt s.pwr.dieOff.toNat d && !bitAt s.pwr.rejoin.toNat d
  let up := (powerDie s d).upPwr (fun p => { p with dieOff := p.dieOff &&& ~~~(BitVec.ofNat 4 (2 ^ d)) })
  let awake := resetUnit s (.core c)
  doWhen (s.pwr.state == .active && !s.pwr.emergency && s.host.devReady && (cut || (s.unit (.core c)).gated)) s (if cut then up else awake)

end Sys2Proof.Machine
end

