-- ==== Sys2Proof/Machine/Vblank.lean ====
section
/-! DEFINITION. The start of vertical blanking: the frame record, the release of retained buffers, the commits and
flips that apply, and the repeat of a frame (R191, R194 to R198). -/

namespace Sys2Proof.Machine

/-- The record of the frame just sent (R194, R196). -/
def frameRecord (s : State) (h : HeadId) (w : BitVec 4608) : Bytes :=
  let x := s.head h
  let b (k : Nat) (v : Bool) : Nat := if v then 2 ^ k else 0
  leBytes 4 x.frame ++ leBytes 2 x.lastFlip.toNat
    ++ leBytes 1 (b 0 (!x.underrun && !x.check && !s.saf.curtain) + b 1 x.repeating + b 2 x.underrun + b 3 x.check + b 4 s.saf.curtain)
    ++ zeros 1 ++ leBytes 8 (tbNow s (fld w 7 1))

/-- The record is written in its slot, and the next frame begins. -/
def endFrame (s : State) (h : HeadId) : State :=
  let w := headSet s h
  let n := headSlice s h
  let s := writeBy s midDisplay n (.slice n) (fld w 44 8 + 16 * ((s.head h).frame % max 1 (fld w 42 2))) (frameRecord s h w)
  let s := (List.range 8).foldl (releaseBuf h) s
  s.upHead h (fun x => { x with
    frame := (x.frame + 1) % 2 ^ 32, line := 0, underrun := false, check := false, scanned := true, back := x.back.filter (· < 8)
    training := x.training.filter (fun t => decide (s.now < t)) })

/-- A flip accepted before the set that applies here was never shown (R191). -/
def lostFlips (s : State) (h : HeadId) (fs : List Flip) : State := fs.foldl (fun s f => displayNotice s h 3 f.buf.flip) s

/-- The latch point: the last set in time applies, then the flips accepted after it (R191, R198). -/
def latchSets (s : State) (h : HeadId) : State :=
  let set := ((immediates s (6 * 0x1000000 + h.toNat)).filter (fun c => decide (c.at_ + 2000 ≤ s.now))).getLast?
  let ready := (s.head h).flips.filter (fun f => decide (f.at_ + 2000 ≤ s.now))
  let s := s.upHead h (fun x => { x with flips := x.flips.filter (fun f => ¬ (f.at_ + 2000 ≤ s.now)) })
  let was := s.head h
  let s := headSafePoint s h
  let fresh := freshLayers was (s.head h)
  let old := match set with
    | some c => ready.filter (fun f => decide (f.at_ ≤ c.at_))
    | none => []
  let new := ready.filter (fun f => !old.contains f)
  let s := new.zipIdx.foldl (latchFlip h fresh new) (lostFlips s h old)
  if new.isEmpty then s else s.upCue (fun c => { c with noLend := c.noLend.filter (fun p => p.2 ≠ h.toNat) })

/-- The head repeats its frame while a render bound to it has not flipped (R194). -/
def repeatFrame (s : State) (h : HeadId) : State :=
  let ns := renderBound s h
  let s := s.upHead h (fun x => { x with repeating := !ns.isEmpty, dropped := [], repeats := x.repeats + (if ns.isEmpty then 0 else 1) })
  ns.foldl (fun s n => notify s n 0x09 1
    (payload [(0, 1, h.toNat), (1, 1, 0), (2, 2, (s.head h).lastFlip.toNat), (4, 4, (s.head h).frame)])) s

/-- VBLANK_START (R191, R194 to R198): the record of the frame sent, the buffers released, then the latch point. A
head that is off has only its safe point. -/
def execVblankStart (h : HeadId) (at_ : Nat) (s : State) : Ans :=
  let s1 := s.at_ at_
  let s2 := if headOn s1 h then endFrame s1 h else s1
  let s3 := latchSets s2 h
  did (if headOn s3 h then repeatFrame s3 h else s3)

end Sys2Proof.Machine
end

