-- ==== Sys2Proof/Machine/VeMove.lean ====
section
/-! DEFINITION. Conversions, moves, permutes, reductions and predicate operations of Table 4-4 (R113,
R118 to R120). -/

namespace Sys2Proof.Machine

/-! ### Conversions between widths (R119) -/

/-- Lane j of part q of a register at width b, of `n` lanes. -/
def partLanes (b q n : Nat) (v : BitVec 2048) : List Nat := ((lanesOf b v).drop (q * n)).take n

/-- Results written into part q of V[D] at width b (R119): other parts unchanged. -/
def putPart (x : VeSt) (i : VI) (b q : Nat) (act : List Bool) (rs : List (Flagged Nat)) : VeSt :=
  let old := lanesOf b (x.vr i.d)
  let n := rs.length
  let mid := ((old.drop (q * n)).take n).zip (act.zip rs)
  let new := mid.map (fun p => if p.2.1 then p.2.2.1 else if i.zm then 0 else p.1)
  let fl := (act.zip rs).foldl (fun f p => if p.1 then f ||| p.2.2 else f) 0
  (x.setV i.d (ofLanes b (old.take (q * n) ++ new ++ old.drop (q * n + n)))).flag fl

/-- The part number is one the two widths allow (R119). -/
def partOk (wa wb : Nat) (part : Nat) : Bool :=
  let r := max wa wb / min wa wb
  decide (part < r)

/-- A conversion from lanes of width `sb` to lanes of width `db`, part `q` of the narrower (R119). Lane i is active by predicate
lane i at the width of ET, whichever part it is (log entry 123). -/
def convLanes (x : VeSt) (i : VI) (sb db q : Nat) (f : Nat → Flagged Nat) : VeSt :=
  let n := 2048 / max sb db
  let src := if sb < db then partLanes sb q n (x.vr i.a) else lanesOf sb (x.vr i.a)
  let act := activeLanes x i n
  if db < sb then putPart x i db q act (src.map f) else putLanes x i db i.d act (src.map f)

/-- CVT of one lane (R51, R52, R119, R120): an infinity that the target cannot hold sets NAN as a NaN does (Table 2-3). -/
def cvtLane (i : VI) (a : Nat) : Flagged Nat :=
  let sb := etBits i.c
  let db := etBits i.et
  if i.c ≤ 2 then
    let v := laneInt (bitAt i.mod 2) sb a
    if i.et ≤ 2 then
      let r := satS db v
      (wrapBits db r.1, if r.2 then fSat else 0)
    else convertF (etFmt i.et) (intVal v)
  else
    let v := decodeF (etFmt i.c) a
    if i.et ≤ 2 then (let y := convertI db v; (wrapBits db y.1, y.2)) else convertF (etFmt i.et) v

/-- CVT (R113, R119). -/
def execCvt (c : CoreId) (k : Chk) (s : State) : Ans :=
  veReg { op := 0x60, et := etAny, d := .v, a := .v, c := .typ, mod := 7 }
    (fun i => partOk (etBits i.c) (etBits i.et) (i.mod % 4) && (!bitAt i.mod 2 || decide (i.c ≤ 2)))
    (fun i => if i.et ≤ 2 ∧ i.c ≤ 2 then 4 else 5) k
    (fun x i => convLanes x i (etBits i.c) (etBits i.et) (i.mod % 4) (cvtLane i)) c s

def fp8Of (i : VI) : FFmt := if bitAt i.mod 2 then e5m2 else e4m3

/-- F8PACK (R113, R51). -/
def execF8pack (c : CoreId) (k : Chk) (s : State) : Ans :=
  veReg { op := 0x61, et := etF, d := .v, a := .v, mod := 7 } (fun i => partOk (etBits i.et) 8 (i.mod % 4)) sampled k
    (fun x i => convLanes x i (etBits i.et) 8 (i.mod % 4) (fun a =>
      let v := decodeF (etFmt i.et) a
      convertF (fp8Of i) v)) c s

/-- F8UNPK (R113): exact. -/
def execF8unpk (c : CoreId) (k : Chk) (s : State) : Ans :=
  veReg { op := 0x62, et := etF, d := .v, a := .v, mod := 7 } (fun i => partOk (etBits i.et) 8 (i.mod % 4)) sampled k
    (fun x i => convLanes x i 8 (etBits i.et) (i.mod % 4) (fun a =>
      let v := decodeF (fp8Of i) a
      convertF (etFmt i.et) v)) c s

/-- I4PACK (R113): half MOD[0] of D takes the INT4 pairs of A, saturated. -/
def execI4pack (c : CoreId) (k : Chk) (s : State) : Ans :=
  veReg { op := 0x63, et := [0], d := .v, a := .v, mod := 1 } always residue k
    (fun x i =>
      let rs := (aLanes x i).map (fun a => let r := satS 4 (signed 8 a); ((wrapBits 4 r.1, if r.2 then fSat else 0) : Flagged Nat))
      putPart x i 4 (i.mod % 2) (activeLanes x i 256) rs) c s

/-- I4UNPK (R113): the INT4 pairs of half MOD[0] of A, sign-extended. -/
def execI4unpk (c : CoreId) (k : Chk) (s : State) : Ans :=
  veReg { op := 0x64, et := [0], d := .v, a := .v, mod := 1 } always residue k
    (fun x i => putV x i ((partLanes 4 (i.mod % 2) 256 (x.vr i.a)).map (fun a => (wrapBits 8 (signed 4 a), 0)))) c s

/-- NARROW (R52, R113): rne(A × 2^−IMM[4:0]) saturated to ET. That a source of equal width is allowed, and a narrower or a
float one ILLEGAL, is DESIGN CHOICE, log entry 105. -/
def execNarrow (c : CoreId) (k : Chk) (s : State) : Ans :=
  veReg { op := 0x65, et := etI, d := .v, a := .v, c := .typ, imm := .low 5, mod := 3 }
    (fun i => decide (i.c ≤ 2) && decide (etBits i.et ≤ etBits i.c) && partOk (etBits i.c) (etBits i.et) i.mod) residue k
    (fun x i => convLanes x i (etBits i.c) (etBits i.et) i.mod (fun a =>
      let r := narrow (etBits i.et) i.imm.toNat (signed (etBits i.c) a)
      (wrapBits (etBits i.et) r.1, r.2))) c s

/-! ### Moves and permutes -/

/-- VSEL (R113): requires PE; ZM is ignored. -/
def execVsel (c : CoreId) (k : Chk) (s : State) : Ans :=
  veReg { op := 0x68, et := etAny, d := .v, a := .v, b := .any } (fun i => i.pe) sampled k
    (fun x i => x.setV i.d (ofLanes (etBits i.et)
      (((aLanes x i).zip (bLanes x i)).zip (activeLanes x i (etLanes i.et)) |>.map (fun p => if p.2 then p.1.1 else p.1.2)))) c s

/-- VMOV (R113). -/
def execVmov (c : CoreId) (k : Chk) (s : State) : Ans :=
  veReg { op := 0x69, et := etAny, d := .v, b := .any } always sampled k (fun x i => putV x i ((bLanes x i).map (fun v => (v, 0)))) c s

/-- VPERM (R113). -/
def execVperm (c : CoreId) (k : Chk) (s : State) : Ans :=
  veReg { op := 0x6A, et := etAny, d := .v, a := .v, b := .any } always sampled k
    (fun x i => putV x i ((bLanes x i).map (fun n => ((aLanes x i).getD (n % etLanes i.et) 0, 0)))) c s

/-- VROT (R113): BSEL 1 or 2. -/
def execVrot (c : CoreId) (k : Chk) (s : State) : Ans :=
  veReg { op := 0x6B, et := etAny, d := .v, a := .v, b := .rot } always sampled k
    (fun x i => putV x i (((bLanes x i).zipIdx).map (fun p => ((aLanes x i).getD ((p.2 + p.1) % etLanes i.et) 0, 0)))) c s

/-- VEXT (R113): lane IMM, sign-extended unless MOD[0]. -/
def execVext (c : CoreId) (k : Chk) (s : State) : Ans :=
  veReg { op := 0x6C, et := etAny, d := .s, a := .v, imm := .lane, mod := 1 } always sampled k
    (fun x i => x.setS i.d (BitVec.ofNat 64 (wrapBits 64 (laneInt (bitAt i.mod 0) (etBits i.et) ((aLanes x i).getD i.imm.toNat 0))))) c s

/-- VINS (R113): lane IMM of D, when it is active. -/
def execVins (c : CoreId) (k : Chk) (s : State) : Ans :=
  veReg { op := 0x6D, et := etAny, d := .v, a := .s, imm := .lane } always sampled k
    (fun x i =>
      let b := etBits i.et
      let act := (activeLanes x i (etLanes i.et)).getD i.imm.toNat false
      x.setV i.d (ofLanes b (((lanesOf b (x.vr i.d)).zipIdx).map (fun p =>
        if p.2 = i.imm.toNat then (if act then (x.s i.a).toNat % 2 ^ b else if i.zm then 0 else p.1) else p.1)))) c s

/-! ### Reductions (R118) -/

/-- The fixed tree: lane i combined with lane i + L/2, level by level. -/
def treeReduce {α : Type} (f : α → α → α) : Nat → List α → List α
  | 0, xs => xs
  | fuel + 1, xs => if xs.length ≤ 1 then xs else treeReduce f fuel (List.zipWith f (xs.take (xs.length / 2)) (xs.drop (xs.length / 2)))

/-- A reduction: inactive lanes replaced by the identity, the value zero-extended into S[D]. -/
def reduce (idt : VI → Nat) (g : VI → Nat → Nat → Flagged Nat) (x : VeSt) (i : VI) : VeSt :=
  let act := activeLanes x i (etLanes i.et)
  let xs : List (Flagged Nat) := ((aLanes x i).zip act).map (fun p => (if p.2 then p.1 else idt i, 0))
  let r := ((treeReduce (fun (a b : Flagged Nat) => let y := g i a.1 b.1; (y.1, a.2 ||| b.2 ||| y.2)) 8 xs).head?).getD (0, 0)
  let fl := if i.et ≤ 2 then 0 else (((aLanes x i).zip act).foldl (fun f p => if p.2 then f ||| readFlags [decodeF (etFmt i.et) p.1] else f) 0)
  (x.setS i.d (BitVec.ofNat 64 r.1)).flag (r.2 ||| fl)

def redShape (op : Nat) : VeShape := { op := op, et := etAny, d := .s, a := .v }

def laneLess (i : VI) (a b : Nat) : Bool :=
  if i.et ≤ 2 then decide (signed (etBits i.et) a < signed (etBits i.et) b) else belowV (decodeF (etFmt i.et) a) (decodeF (etFmt i.et) b)

/-- A combination of float lanes that gives a value of the format: a NaN lane is passed over, and −0 orders below +0, as in R116
(log entry 123). -/
def floatPick (g : FVal → FVal → FVal) (i : VI) (a b : Nat) : Flagged Nat :=
  ((resultF (etFmt i.et) false (g (decodeF (etFmt i.et) a) (decodeF (etFmt i.et) b))).1, 0)

/-- VREDADD (R118): an integer sum wraps; a float sum rounds at each step. -/
def execVredadd (c : CoreId) (k : Chk) (s : State) : Ans :=
  veReg (redShape 0x6E) always (fun i => if i.et ≤ 2 then 4 else 5) k
    (reduce (fun _ => 0) (fun i a b =>
      if i.et ≤ 2 then ((a + b) % 2 ^ etBits i.et, 0)
      else
        let u := decodeF (etFmt i.et) a
        let v := decodeF (etFmt i.et) b
        resultF (etFmt i.et) (u.isFin && v.isFin) (addV u v))) c s

/-- VREDMAX (R118). -/
def execVredmax (c : CoreId) (k : Chk) (s : State) : Ans :=
  veReg (redShape 0x6F) always sampled k
    (reduce (fun i => if i.et ≤ 2 then 2 ^ (etBits i.et - 1) else signBit (etFmt i.et) true (etFmt i.et).infBits)
      (fun i a b => if i.et ≤ 2 then (if laneLess i a b then b else a, 0) else floatPick maxV i a b)) c s

/-- VREDMIN (R118). -/
def execVredmin (c : CoreId) (k : Chk) (s : State) : Ans :=
  veReg (redShape 0x70) always sampled k
    (reduce (fun i => if i.et ≤ 2 then 2 ^ (etBits i.et - 1) - 1 else (etFmt i.et).infBits)
      (fun i a b => if i.et ≤ 2 then (if laneLess i b a then b else a, 0) else floatPick minV i a b)) c s

/-- VIDX (R113). -/
def execVidx (c : CoreId) (k : Chk) (s : State) : Ans :=
  veReg { op := 0x71, et := etI, d := .v } always sampled k
    (fun x i => putV x i ((List.range (etLanes i.et)).map (fun n => (n % 2 ^ etBits i.et, 0)))) c s

/-! ### Predicates: PE is ignored (R113) -/

def predLanes (x : VeSt) (i : VI) (n : Nat) : List Bool := (List.range (etLanes i.et)).map (predLane (etBits i.et) (x.pr n))

/-- PAND (R113). -/
def execPand (c : CoreId) (k : Chk) (s : State) : Ans :=
  veReg { op := 0x74, et := etAny, d := .p, a := .p, b := .reg .p } always sampled k
    (fun x i => x.setP i.d (predOf (etBits i.et) (List.zipWith (· && ·) (predLanes x i i.a) (predLanes x i i.b)))) c s

/-- POR (R113). -/
def execPor (c : CoreId) (k : Chk) (s : State) : Ans :=
  veReg { op := 0x75, et := etAny, d := .p, a := .p, b := .reg .p } always sampled k
    (fun x i => x.setP i.d (predOf (etBits i.et) (List.zipWith (· || ·) (predLanes x i i.a) (predLanes x i i.b)))) c s

/-- PNOT (R113). -/
def execPnot (c : CoreId) (k : Chk) (s : State) : Ans :=
  veReg { op := 0x76, et := etAny, d := .p, a := .p } always sampled k
    (fun x i => x.setP i.d (predOf (etBits i.et) ((predLanes x i i.a).map (!·)))) c s

/-- PFIRSTN (R113): n = S[A] as signed, limited to 0 to L. -/
def execPfirstn (c : CoreId) (k : Chk) (s : State) : Ans :=
  veReg { op := 0x77, et := etAny, d := .p, a := .s } always sampled k
    (fun x i =>
      let n := (clampTo 0 (etLanes i.et) (signed 64 (x.s i.a).toNat)).1
      x.setP i.d (predOf (etBits i.et) ((List.range (etLanes i.et)).map (fun (j : Nat) => decide ((j : Int) < n))))) c s

/-- PCNT (R113). -/
def execPcnt (c : CoreId) (k : Chk) (s : State) : Ans :=
  veReg { op := 0x78, et := etAny, d := .s, a := .p } always sampled k
    (fun x i => x.setS i.d (BitVec.ofNat 64 ((predLanes x i i.a).filter id).length)) c s

end Sys2Proof.Machine
end

