-- ==== Sys2Proof/Machine/VeScalar.lean ====
section
/-! DEFINITION. The scalar and flow instructions of Table 4-4 (R110 to R114, R127 to R131). -/

namespace Sys2Proof.Machine

/-- A branch: PC += IMM when taken (R113, R127). -/
def branchIf (t : Bool) (x : VeSt) (i : VI) : VeRes := .jump x (if t then x.pc + i.imm else x.pc + 1)

/-- A scalar operation of two 64-bit operands (R113). -/
def scalarOp (f : VI → Nat → Nat → Nat) (x : VeSt) (i : VI) : VeSt :=
  x.setS i.d (BitVec.ofNat 64 (f i (x.s i.a).toNat (bScalar x i)))

/-- The shape of a two-operand scalar row. -/
def scalarShape (op mod : Nat) : VeShape := { op := op, et := etZ, d := .s, a := .s, b := .sc, mod := mod }

/-- NOP (R113): no effect but the count and PC. -/
def execVeNop (c : CoreId) (s : State) : Ans :=
  veReg { op := 0x00, et := etZ } always noCheck .pass (fun x _ => x) c s

/-- HALT (R128): the grid point ends. -/
def execHalt (c : CoreId) (s : State) : Ans :=
  veStep { op := 0x01, et := etZ } always noCheck .pass (fun _ _ _ => .halt) c s

/-- BR (R113). -/
def execBr (c : CoreId) (s : State) : Ans :=
  veStep { op := 0x02, et := etZ, imm := .full } always noCheck .pass (fun _ x i => branchIf true x i) c s

/-- BRZ (R113). -/
def execBrz (x : CoreChk) (s : State) : Ans :=
  veStep { op := 0x03, et := etZ, a := .s, imm := .full } always noCheck (regChk x.k) (fun _ v i => branchIf (v.s i.a == 0) v i) x.c s

/-- BRNZ (R113). -/
def execBrnz (x : CoreChk) (s : State) : Ans :=
  veStep { op := 0x04, et := etZ, a := .s, imm := .full } always noCheck (regChk x.k) (fun _ v i => branchIf (v.s i.a != 0) v i) x.c s

/-- Some lane of P[A] is set at width ET. -/
def anyLane (x : VeSt) (i : VI) : Bool := (List.range (etLanes i.et)).any (predLane (etBits i.et) (x.pr i.a))

/-- BRANY (R113). -/
def execBrany (x : CoreChk) (s : State) : Ans :=
  veStep { op := 0x05, et := etAny, a := .p, imm := .full } always noCheck (regChk x.k) (fun _ v i => branchIf (anyLane v i) v i) x.c s

/-- BRNONE (R113). -/
def execBrnone (x : CoreChk) (s : State) : Ans :=
  veStep { op := 0x06, et := etAny, a := .p, imm := .full } always noCheck (regChk x.k) (fun _ v i => branchIf (!anyLane v i) v i) x.c s

/-- LOOP (R113): S[A] falls by 1, and the branch is taken while it is not zero. -/
def execLoop (c : CoreId) (k : Chk) (s : State) : Ans :=
  veStep { op := 0x07, et := etZ, a := .s, imm := .full } always residue k
    (fun _ x i => let y := x.setS i.a (x.s i.a - 1); branchIf (y.s i.a != 0) y i) c s

/-- TRAP (R131): raises TRAP, INFO the immediate. -/
def execTrap (c : CoreId) (s : State) : Ans :=
  veStep { op := 0x08, et := etZ, imm := .full } always noCheck .pass (fun _ _ i => .exc 7 0xFFFF (wrapBits 32 i.imm)) c s

/-- SADD (R113). -/
def execSadd (c : CoreId) (k : Chk) (s : State) : Ans :=
  veReg (scalarShape 0x10 0) always residue k (scalarOp (fun _ a b => a + b)) c s

/-- SSUB (R113). -/
def execSsub (c : CoreId) (k : Chk) (s : State) : Ans :=
  veReg (scalarShape 0x11 0) always residue k (scalarOp (fun _ a b => a + (2 ^ 64 - b))) c s

/-- SMUL (R113). -/
def execSmul (c : CoreId) (k : Chk) (s : State) : Ans :=
  veReg (scalarShape 0x12 0) always residue k (scalarOp (fun _ a b => a * b)) c s

/-- SAND (R113). -/
def execSand (c : CoreId) (k : Chk) (s : State) : Ans :=
  veReg (scalarShape 0x13 0) always sampled k (scalarOp (fun _ a b => a &&& b)) c s

/-- SOR (R113). -/
def execSor (c : CoreId) (k : Chk) (s : State) : Ans :=
  veReg (scalarShape 0x14 0) always sampled k (scalarOp (fun _ a b => a ||| b)) c s

/-- SXOR (R113). -/
def execSxor (c : CoreId) (k : Chk) (s : State) : Ans :=
  veReg (scalarShape 0x15 0) always sampled k (scalarOp (fun _ a b => a ^^^ b)) c s

/-- SSHL (R113): by B[5:0]. -/
def execSshl (c : CoreId) (k : Chk) (s : State) : Ans :=
  veReg (scalarShape 0x16 0) always residue k (scalarOp (fun _ a b => a <<< (b % 64))) c s

/-- SSHR (R113): by B[5:0], logical with MOD[0]. -/
def execSshr (c : CoreId) (k : Chk) (s : State) : Ans :=
  veReg (scalarShape 0x17 1) always sampled k
    (scalarOp (fun i a b => if bitAt i.mod 0 then a >>> (b % 64) else wrapBits 64 (signed 64 a / (2 ^ (b % 64) : Nat)))) c s

/-- SMIN (R113): unsigned with MOD[0]. -/
def execSmin (c : CoreId) (k : Chk) (s : State) : Ans :=
  veReg (scalarShape 0x18 1) always sampled k
    (scalarOp (fun i a b => if laneInt (bitAt i.mod 0) 64 b < laneInt (bitAt i.mod 0) 64 a then b else a)) c s

/-- SMAX (R113): unsigned with MOD[0]. -/
def execSmax (c : CoreId) (k : Chk) (s : State) : Ans :=
  veReg (scalarShape 0x19 1) always sampled k
    (scalarOp (fun i a b => if laneInt (bitAt i.mod 0) 64 a < laneInt (bitAt i.mod 0) 64 b then b else a)) c s

/-- SCMP (R113, R114): unsigned with C[0]. -/
def execScmp (c : CoreId) (k : Chk) (s : State) : Ans :=
  veReg { scalarShape 0x1A 7 with c := .bit } (condOk true) sampled k
    (scalarOp (fun i a b => if cond i.mod (some (compare (laneInt (i.c == 1) 64 a) (laneInt (i.c == 1) 64 b))) then 1 else 0)) c s

/-- SMOVI (R113). -/
def execSmovi (c : CoreId) (k : Chk) (s : State) : Ans :=
  veReg { op := 0x1B, et := etZ, d := .s, imm := .full } always sampled k (fun x i => x.setS i.d (BitVec.ofNat 64 (wrapBits 64 i.imm))) c s

end Sys2Proof.Machine
end

