-- ==== Sys2Proof/Machine/Dispatch.lean ====
section
/-! DEFINITION. What each command does: one arm per row of spec/opcode_table.json. -/

namespace Sys2Proof.Machine

/-- The effect of a command on everything but the queue. -/
def exec (i : Instr) (s : State) : Host.Outcome State Fault Refusal :=
  match i with
  | .nop n w => Sys2Proof.Machine.execNop n w s
  | .commit n w => Sys2Proof.Machine.execCommit n w s
  | .cancel n w => Sys2Proof.Machine.execCancel n w s
  | .diagRead n w => Sys2Proof.Machine.execDiagRead n w s
  | .logRead n w => Sys2Proof.Machine.execLogRead n w s
  | .powerSetParked n w => Sys2Proof.Machine.execPowerSetParked n w s
  | .powerSetActive n w => Sys2Proof.Machine.execPowerSetActive n w s
  | .fwUpdate n w => Sys2Proof.Machine.execFwUpdate n w s
  | .sliceCreate n w => Sys2Proof.Machine.execSliceCreate n w s
  | .sliceDestroy n w => Sys2Proof.Machine.execSliceDestroy n w s
  | .quotaSet n w => Sys2Proof.Machine.execQuotaSet n w s
  | .assign n w => Sys2Proof.Machine.execAssign n w s
  | .cacheSet n w => Sys2Proof.Machine.execCacheSet n w s
  | .memMap n w => Sys2Proof.Machine.execMemMap n w s
  | .memUnmap n w => Sys2Proof.Machine.execMemUnmap n w s
  | .apertureSet n w => Sys2Proof.Machine.execApertureSet n w s
  | .swapAreaSet n w => Sys2Proof.Machine.execSwapAreaSet n w s
  | .graphLoad n w => Sys2Proof.Machine.execGraphLoad n w s
  | .graphUnload n w => Sys2Proof.Machine.execGraphUnload n w s
  | .jobStart n w => Sys2Proof.Machine.execJobStart n w s
  | .jobAbort n w => Sys2Proof.Machine.execJobAbort n w s
  | .sheetWrite n w => Sys2Proof.Machine.execSheetWrite n w s
  | .cueSet n w => Sys2Proof.Machine.execCueSet n w s
  | .cueStart n w => Sys2Proof.Machine.execCueStart n w s
  | .cueStop n w => Sys2Proof.Machine.execCueStop n w s
  | .syncAlloc n w => Sys2Proof.Machine.execSyncAlloc n w s
  | .syncFree n w => Sys2Proof.Machine.execSyncFree n w s
  | .syncSet n w => Sys2Proof.Machine.execSyncSet n w s
  | .syncSignal n w => Sys2Proof.Machine.execSyncSignal n w s
  | .syncRead n w => Sys2Proof.Machine.execSyncRead n w s
  | .kvPoolSet n w => Sys2Proof.Machine.execKvPoolSet n w s
  | .seqCreate n w => Sys2Proof.Machine.execSeqCreate n w s
  | .seqFree n w => Sys2Proof.Machine.execSeqFree n w s
  | .seqGlobals n w => Sys2Proof.Machine.execSeqGlobals n w s
  | .seqSwapOut n w => Sys2Proof.Machine.execSeqSwapOut n w s
  | .seqSwapIn n w => Sys2Proof.Machine.execSeqSwapIn n w s
  | .sampleSubmit n w => Sys2Proof.Machine.execSampleSubmit n w s
  | .dictLoad n w => Sys2Proof.Machine.execDictLoad n w s
  | .camSet n w => Sys2Proof.Machine.execCamSet n w s
  | .sampleRelease n w => Sys2Proof.Machine.execSampleRelease n w s
  | .headSet n w => Sys2Proof.Machine.execHeadSet n w s
  | .layerSet n w => Sys2Proof.Machine.execLayerSet n w s
  | .fallbackLoad n w => Sys2Proof.Machine.execFallbackLoad n w s
  | .routeSet n w => Sys2Proof.Machine.execRouteSet n w s
  | .timebaseSet n w => Sys2Proof.Machine.execTimebaseSet n w s
  | .timeSet n w => Sys2Proof.Machine.execTimeSet n w s
  | .timeRead n w => Sys2Proof.Machine.execTimeRead n w s
  | .loopSet n w => Sys2Proof.Machine.execLoopSet n w s
  | .loopCoeff n w => Sys2Proof.Machine.execLoopCoeff n w s
  | .loopTuneStop n w => Sys2Proof.Machine.execLoopTuneStop n w s
  | .loopTuneInject n w => Sys2Proof.Machine.execLoopTuneInject n w s
  | .loopTuneRelay n w => Sys2Proof.Machine.execLoopTuneRelay n w s
  | .safetyPolicy n w => Sys2Proof.Machine.execSafetyPolicy n w s
  | .kafSet n w => Sys2Proof.Machine.execKafSet n w s
  | .safetyStatus n w => Sys2Proof.Machine.execSafetyStatus n w s
  | .twinMode n w => Sys2Proof.Machine.execTwinMode n w s
  | .twinChannelSet n w => Sys2Proof.Machine.execTwinChannelSet n w s
  | .twinChannelFree n w => Sys2Proof.Machine.execTwinChannelFree n w s
  | .enclaveCreate n w => Sys2Proof.Machine.execEnclaveCreate n w s
  | .enclaveLoad n w => Sys2Proof.Machine.execEnclaveLoad n w s
  | .enclaveDestroy n w => Sys2Proof.Machine.execEnclaveDestroy n w s
  | .ceSplit n w => Sys2Proof.Machine.execCeSplit n w s
  | .ceJoin n w => Sys2Proof.Machine.execCeJoin n w s
  | .identify n => Sys2Proof.Machine.execIdentify n s
  | .echo n => Sys2Proof.Machine.execEcho n s
  | .stopSlice n => Sys2Proof.Machine.execStopSlice n s
  | .getKeys => Sys2Proof.Machine.execGetKeys s
  | .bootInfo => Sys2Proof.Machine.execBootInfo s
  | .provision => Sys2Proof.Machine.execProvision s
  | .debugChallenge => Sys2Proof.Machine.execDebugChallenge s
  | .debugUnlock => Sys2Proof.Machine.execDebugUnlock s
  | .descriptorIssue u k => Sys2Proof.Machine.execDescriptorIssue u k s
  | .begin_ u => Sys2Proof.Machine.execBegin u s
  | .end_ u => Sys2Proof.Machine.execEnd u s
  | .seMove c k => Sys2Proof.Machine.execSeMove c k s
  | .seWindow c => Sys2Proof.Machine.execSeWindow c s
  | .teOp c k => Sys2Proof.Machine.execTeOp c k s
  | .veLaunch c => Sys2Proof.Machine.execVeLaunch c s
  | .veLaunchConv c k => Sys2Proof.Machine.execVeLaunchConv c k s
  | .syncWait u => Sys2Proof.Machine.execSyncWait u s
  | .syncSignalDescriptor u => Sys2Proof.Machine.execSyncSignalDescriptor u s
  | .yield_ u => Sys2Proof.Machine.execYield u s
  | .aeAppend a k => Sys2Proof.Machine.execAeAppend a k s
  | .aeGather a k => Sys2Proof.Machine.execAeGather a k s
  | .aeDecode a k => Sys2Proof.Machine.execAeDecode a k s
  | .rfeRender r k => Sys2Proof.Machine.execRfeRender r k s
  | .rfeClear r => Sys2Proof.Machine.execRfeClear r s
  | .rfeResolve r => Sys2Proof.Machine.execRfeResolve r s
  | .tileIssue r k => Sys2Proof.Machine.execTileIssue r k s
  | .veNop c => Sys2Proof.Machine.execVeNop c s
  | .halt c => Sys2Proof.Machine.execHalt c s
  | .br c => Sys2Proof.Machine.execBr c s
  | .brz c => Sys2Proof.Machine.execBrz c s
  | .brnz c => Sys2Proof.Machine.execBrnz c s
  | .brany c => Sys2Proof.Machine.execBrany c s
  | .brnone c => Sys2Proof.Machine.execBrnone c s
  | .loop c k => Sys2Proof.Machine.execLoop c k s
  | .trap c => Sys2Proof.Machine.execTrap c s
  | .sadd c k => Sys2Proof.Machine.execSadd c k s
  | .ssub c k => Sys2Proof.Machine.execSsub c k s
  | .smul c k => Sys2Proof.Machine.execSmul c k s
  | .sand c k => Sys2Proof.Machine.execSand c k s
  | .sor c k => Sys2Proof.Machine.execSor c k s
  | .sxor c k => Sys2Proof.Machine.execSxor c k s
  | .sshl c k => Sys2Proof.Machine.execSshl c k s
  | .sshr c k => Sys2Proof.Machine.execSshr c k s
  | .smin c k => Sys2Proof.Machine.execSmin c k s
  | .smax c k => Sys2Proof.Machine.execSmax c k s
  | .scmp c k => Sys2Proof.Machine.execScmp c k s
  | .smovi c k => Sys2Proof.Machine.execSmovi c k s
  | .vadd c k => Sys2Proof.Machine.execVadd c k s
  | .vsub c k => Sys2Proof.Machine.execVsub c k s
  | .vmul c k => Sys2Proof.Machine.execVmul c k s
  | .vmulh c k => Sys2Proof.Machine.execVmulh c k s
  | .vmad c k => Sys2Proof.Machine.execVmad c k s
  | .vdot4 c k => Sys2Proof.Machine.execVdot4 c k s
  | .vabs c k => Sys2Proof.Machine.execVabs c k s
  | .vneg c k => Sys2Proof.Machine.execVneg c k s
  | .vmin c k => Sys2Proof.Machine.execVmin c k s
  | .vmax c k => Sys2Proof.Machine.execVmax c k s
  | .vand c k => Sys2Proof.Machine.execVand c k s
  | .vor c k => Sys2Proof.Machine.execVor c k s
  | .vxor c k => Sys2Proof.Machine.execVxor c k s
  | .vnot c k => Sys2Proof.Machine.execVnot c k s
  | .vshl c k => Sys2Proof.Machine.execVshl c k s
  | .vshr c k => Sys2Proof.Machine.execVshr c k s
  | .vcmp c k => Sys2Proof.Machine.execVcmp c k s
  | .vclz c k => Sys2Proof.Machine.execVclz c k s
  | .vld c => Sys2Proof.Machine.execVld c s
  | .vst c => Sys2Proof.Machine.execVst c s
  | .vlds c => Sys2Proof.Machine.execVlds c s
  | .vsts c => Sys2Proof.Machine.execVsts c s
  | .vgath c => Sys2Proof.Machine.execVgath c s
  | .vscat c => Sys2Proof.Machine.execVscat c s
  | .vldbc c => Sys2Proof.Machine.execVldbc c s
  | .vldpip c => Sys2Proof.Machine.execVldpip c s
  | .vstpip c k => Sys2Proof.Machine.execVstpip c k s
  | .sld c => Sys2Proof.Machine.execSld c s
  | .sst c => Sys2Proof.Machine.execSst c s
  | .tsample c k => Sys2Proof.Machine.execTsample c k s
  | .tsampleResult c => Sys2Proof.Machine.execTsampleResult c s
  | .fadd c k => Sys2Proof.Machine.execFadd c k s
  | .fsub c k => Sys2Proof.Machine.execFsub c k s
  | .fmul c k => Sys2Proof.Machine.execFmul c k s
  | .ffma c k => Sys2Proof.Machine.execFfma c k s
  | .ffms c k => Sys2Proof.Machine.execFfms c k s
  | .fmin c k => Sys2Proof.Machine.execFmin c k s
  | .fmax c k => Sys2Proof.Machine.execFmax c k s
  | .fabs c k => Sys2Proof.Machine.execFabs c k s
  | .fneg c k => Sys2Proof.Machine.execFneg c k s
  | .fcmp c k => Sys2Proof.Machine.execFcmp c k s
  | .fdiv c k => Sys2Proof.Machine.execFdiv c k s
  | .fsqrt c k => Sys2Proof.Machine.execFsqrt c k s
  | .frcp c k => Sys2Proof.Machine.execFrcp c k s
  | .frsq c k => Sys2Proof.Machine.execFrsq c k s
  | .fexp2 c k => Sys2Proof.Machine.execFexp2 c k s
  | .flog2 c k => Sys2Proof.Machine.execFlog2 c k s
  | .fsin c k => Sys2Proof.Machine.execFsin c k s
  | .fcos c k => Sys2Proof.Machine.execFcos c k s
  | .ftanh c k => Sys2Proof.Machine.execFtanh c k s
  | .fsigm c k => Sys2Proof.Machine.execFsigm c k s
  | .ffloor c k => Sys2Proof.Machine.execFfloor c k s
  | .fround c k => Sys2Proof.Machine.execFround c k s
  | .fclamp c k => Sys2Proof.Machine.execFclamp c k s
  | .cvt c k => Sys2Proof.Machine.execCvt c k s
  | .f8pack c k => Sys2Proof.Machine.execF8pack c k s
  | .f8unpk c k => Sys2Proof.Machine.execF8unpk c k s
  | .i4pack c k => Sys2Proof.Machine.execI4pack c k s
  | .i4unpk c k => Sys2Proof.Machine.execI4unpk c k s
  | .narrow c k => Sys2Proof.Machine.execNarrow c k s
  | .vsel c k => Sys2Proof.Machine.execVsel c k s
  | .vmov c k => Sys2Proof.Machine.execVmov c k s
  | .vperm c k => Sys2Proof.Machine.execVperm c k s
  | .vrot c k => Sys2Proof.Machine.execVrot c k s
  | .vext c k => Sys2Proof.Machine.execVext c k s
  | .vins c k => Sys2Proof.Machine.execVins c k s
  | .vredadd c k => Sys2Proof.Machine.execVredadd c k s
  | .vredmax c k => Sys2Proof.Machine.execVredmax c k s
  | .vredmin c k => Sys2Proof.Machine.execVredmin c k s
  | .vidx c k => Sys2Proof.Machine.execVidx c k s
  | .pand c k => Sys2Proof.Machine.execPand c k s
  | .por c k => Sys2Proof.Machine.execPor c k s
  | .pnot c k => Sys2Proof.Machine.execPnot c k s
  | .pfirstn c k => Sys2Proof.Machine.execPfirstn c k s
  | .pcnt c k => Sys2Proof.Machine.execPcnt c k s
  | .doorbellCmd n => Sys2Proof.Machine.execDoorbellCmd n s
  | .doorbellMbx n => Sys2Proof.Machine.execDoorbellMbx n s
  | .ringEnable n v => Sys2Proof.Machine.execRingEnable n v s
  | .ringDisable n v => Sys2Proof.Machine.execRingDisable n v s
  | .cplHeadWrite n v => Sys2Proof.Machine.execCplHeadWrite n v s
  | .ntcHeadWrite n v => Sys2Proof.Machine.execNtcHeadWrite n v s
  | .ntcLostRead n speculative => Sys2Proof.Machine.execNtcLostRead n speculative s
  | .pdStatusClear v => Sys2Proof.Machine.execPdStatusClear v s
  | .counterFetchAdd n ctr v => Sys2Proof.Machine.execCounterFetchAdd n ctr v s
  | .counterSwapCas n ctr => Sys2Proof.Machine.execCounterSwapCas n ctr s
  | .bar0InvalidAccess write off size => Sys2Proof.Machine.execBar0InvalidAccess write off size s
  | .apertureRead n off r => Sys2Proof.Machine.execApertureRead n off r s
  | .apertureWrite n off data r => Sys2Proof.Machine.execApertureWrite n off data r s
  | .pasidPrefixedRequest bar2 => Sys2Proof.Machine.execPasidPrefixedRequest bar2 s
  | .channelDoorbell ch master => Sys2Proof.Machine.execChannelDoorbell ch master s
  | .channelWordAccess ch master write idx v => Sys2Proof.Machine.execChannelWordAccess ch master write idx v s
  | .mbxLockSet => Sys2Proof.Machine.execMbxLockSet s
  | .secWdtKick secure v => Sys2Proof.Machine.execSecWdtKick secure v s
  | .secDebugWrite secure v => Sys2Proof.Machine.execSecDebugWrite secure v s
  | .registerWrite r secure v => Sys2Proof.Machine.execRegisterWrite r secure v s
  | .i2cOffsetWrite data => Sys2Proof.Machine.execI2cOffsetWrite data s
  | .i2cRead words => Sys2Proof.Machine.execI2cRead words s
  | .i2cSclTimeout => Sys2Proof.Machine.execI2cSclTimeout s
  | .jtagDebugAccess d invasive => Sys2Proof.Machine.execJtagDebugAccess d invasive s
  | .jtagTrst => Sys2Proof.Machine.execJtagTrst s
  | .aonPowerOn => Sys2Proof.Machine.execAonPowerOn s
  | .railGood g => Sys2Proof.Machine.execRailGood g s
  | .railEnableTimeout rail => Sys2Proof.Machine.execRailEnableTimeout rail s
  | .railRetry => Sys2Proof.Machine.execRailRetry s
  | .brownOut rail => Sys2Proof.Machine.execBrownOut rail s
  | .porstNLow => Sys2Proof.Machine.execPorstNLow s
  | .porstNRise twin i2c => Sys2Proof.Machine.execPorstNRise twin i2c s
  | .chipReset cause => Sys2Proof.Machine.execChipReset cause s
  | .secureRomStart r => Sys2Proof.Machine.execSecureRomStart r s
  | .configRetryEnd at_ => Sys2Proof.Machine.execConfigRetryEnd at_ s
  | .imageVerifyDone a b => Sys2Proof.Machine.execImageVerifyDone a b s
  | .trimAndPllLock r => Sys2Proof.Machine.execTrimAndPllLock r s
  | .dramTrainingDone r => Sys2Proof.Machine.execDramTrainingDone r s
  | .bistComplete fail islandFail => Sys2Proof.Machine.execBistComplete fail islandFail s
  | .devReady at_ => Sys2Proof.Machine.execDevReady at_ s
  | .memoryInitComplete => Sys2Proof.Machine.execMemoryInitComplete s
  | .refclkLoss => Sys2Proof.Machine.execRefclkLoss s
  | .sleepRequest => Sys2Proof.Machine.execSleepRequest s
  | .wake => Sys2Proof.Machine.execWake s
  | .thermalSensorUpdate x milliC => Sys2Proof.Machine.execThermalSensorUpdate x milliC s
  | .throttleStep d => Sys2Proof.Machine.execThrottleStep d s
  | .throttleStepUp d => Sys2Proof.Machine.execThrottleStepUp d s
  | .operatingPointStepDone d => Sys2Proof.Machine.execOperatingPointStepDone d s
  | .thermalEmergency => Sys2Proof.Machine.execThermalEmergency s
  | .thermalRecovery => Sys2Proof.Machine.execThermalRecovery s
  | .thermalTrip => Sys2Proof.Machine.execThermalTrip s
  | .powerMeasure milliW => Sys2Proof.Machine.execPowerMeasure milliW s
  | .mr4Read k mult overTemp => Sys2Proof.Machine.execMr4Read k mult overTemp s
  | .ivrCoreWake c => Sys2Proof.Machine.execIvrCoreWake c s
  | .pcieLinkDown => Sys2Proof.Machine.execPcieLinkDown s
  | .d3hotEntry => Sys2Proof.Machine.execD3hotEntry s
  | .d0Return => Sys2Proof.Machine.execD0Return s
  | .hostCompletion a st data => Sys2Proof.Machine.execHostCompletion a st data s
  | .hostCompletionTimeout a => Sys2Proof.Machine.execHostCompletionTimeout a s
  | .bridgePrefetch n off len at_ => Sys2Proof.Machine.execBridgePrefetch n off len at_ s
  | .prefetchExpiry at_ => Sys2Proof.Machine.execPrefetchExpiry at_ s
  | .noticeDeliver n => Sys2Proof.Machine.execNoticeDeliver n s
  | .completionWrite n => Sys2Proof.Machine.execCompletionWrite n s
  | .coalesceTimer n v at_ => Sys2Proof.Machine.execCoalesceTimer n v at_ s
  | .cueEdge at_ => Sys2Proof.Machine.execCueEdge at_ s
  | .conservationAudit r => Sys2Proof.Machine.execConservationAudit r s
  | .beatStart at_ => Sys2Proof.Machine.execBeatStart at_ s
  | .cameraTrigger c at_ => Sys2Proof.Machine.execCameraTrigger c at_ s
  | .fsyncFall p at_ => Sys2Proof.Machine.execFsyncFall p at_ s
  | .sceneOpen x at_ => Sys2Proof.Machine.execSceneOpen x at_ s
  | .sceneClose x at_ => Sys2Proof.Machine.execSceneClose x at_ s
  | .jobPlace x => Sys2Proof.Machine.execJobPlace x s
  | .jobTerminate u => Sys2Proof.Machine.execJobTerminate u s
  | .jobEnd j => Sys2Proof.Machine.execJobEnd j s
  | .preemptRequest u => Sys2Proof.Machine.execPreemptRequest u s
  | .forcedSpill u => Sys2Proof.Machine.execForcedSpill u s
  | .preemptSaveDone u => Sys2Proof.Machine.execPreemptSaveDone u s
  | .contextRestore u => Sys2Proof.Machine.execContextRestore u s
  | .displayReclaim h => Sys2Proof.Machine.execDisplayReclaim h s
  | .coreFence u => Sys2Proof.Machine.execCoreFence u s
  | .regulationWindow at_ => Sys2Proof.Machine.execRegulationWindow at_ s
  | .syncSignalApply ctr => Sys2Proof.Machine.execSyncSignalApply ctr s
  | .syncWaitArrive u => Sys2Proof.Machine.execSyncWaitArrive u s
  | .farWriteAck tag => Sys2Proof.Machine.execFarWriteAck tag s
  | .transactionTimeout tag => Sys2Proof.Machine.execTransactionTimeout tag s
  | .translationChangeDone => Sys2Proof.Machine.execTranslationChangeDone s
  | .patrolScrubBlock r => Sys2Proof.Machine.execPatrolScrubBlock r s
  | .floorSramScrub e => Sys2Proof.Machine.execFloorSramScrub e s
  | .writeLinkEccError page again => Sys2Proof.Machine.execWriteLinkEccError page again s
  | .pageTest page pass => Sys2Proof.Machine.execPageTest page pass s
  | .flitCrcFail m => Sys2Proof.Machine.execFlitCrcFail m s
  | .laneErrorRetrain m => Sys2Proof.Machine.execLaneErrorRetrain m s
  | .linkRetrainDone m repaired => Sys2Proof.Machine.execLinkRetrainDone m repaired s
  | .rawFrameReceive st d ok0 ok1 payload => Sys2Proof.Machine.execRawFrameReceive st d ok0 ok1 payload s
  | .cuePredictedEdge d => Sys2Proof.Machine.execCuePredictedEdge d s
  | .pllLockLoss d => Sys2Proof.Machine.execPllLockLoss d s
  | .twinLinkUp roundTrip => Sys2Proof.Machine.execTwinLinkUp roundTrip s
  | .twinLinkDown => Sys2Proof.Machine.execTwinLinkDown s
  | .twinCodewordUncorrectable => Sys2Proof.Machine.execTwinCodewordUncorrectable s
  | .twinAlignmentTimeout => Sys2Proof.Machine.execTwinAlignmentTimeout s
  | .twinCueFrame f => Sys2Proof.Machine.execTwinCueFrame f s
  | .farLockRequest line => Sys2Proof.Machine.execFarLockRequest line s
  | .farLockTimeout line at_ => Sys2Proof.Machine.execFarLockTimeout line at_ s
  | .twinChannelCopy ch => Sys2Proof.Machine.execTwinChannelCopy ch s
  | .twinChannelCopyDone ch r data => Sys2Proof.Machine.execTwinChannelCopyDone ch r data s
  | .curtainFrameReceive => Sys2Proof.Machine.execCurtainFrameReceive s
  | .crossRecordReceive r => Sys2Proof.Machine.execCrossRecordReceive r s
  | .safetyEventLatch x e at_ => Sys2Proof.Machine.execSafetyEventLatch x e at_ s
  | .curtainMessageRepeat at_ => Sys2Proof.Machine.execCurtainMessageRepeat at_ s
  | .safeOkToggle x at_ => Sys2Proof.Machine.execSafeOkToggle x at_ s
  | .voterCompare x s0 s1 s2 => Sys2Proof.Machine.execVoterCompare x s0 s1 s2 s
  | .understudyRejoin x => Sys2Proof.Machine.execUnderstudyRejoin x s
  | .islandRestartDone x => Sys2Proof.Machine.execIslandRestartDone x s
  | .islandCheckpointTimer x at_ => Sys2Proof.Machine.execIslandCheckpointTimer x at_ s
  | .aliveWord at_ => Sys2Proof.Machine.execAliveWord at_ s
  | .islandASilent at_ => Sys2Proof.Machine.execIslandASilent at_ s
  | .lockstepMismatch p => Sys2Proof.Machine.execLockstepMismatch p s
  | .targetedSelfTest u => Sys2Proof.Machine.execTargetedSelfTest u s
  | .targetedSelfTestDone u pass => Sys2Proof.Machine.execTargetedSelfTestDone u pass s
  | .rehearsalSegment k at_ => Sys2Proof.Machine.execRehearsalSegment k at_ s
  | .rehearsalSegmentEnd k detected at_ => Sys2Proof.Machine.execRehearsalSegmentEnd k detected at_ s
  | .rehearsalStarved k at_ => Sys2Proof.Machine.execRehearsalStarved k at_ s
  | .signatureReady j => Sys2Proof.Machine.execSignatureReady j s
  | .secureWdtWarning at_ => Sys2Proof.Machine.execSecureWdtWarning at_ s
  | .secureWdtExpiry at_ => Sys2Proof.Machine.execSecureWdtExpiry at_ s
  | .csi2LongPacket p data => Sys2Proof.Machine.execCsi2LongPacket p data s
  | .csi2FrameStart p at_ => Sys2Proof.Machine.execCsi2FrameStart p at_ s
  | .csi2FrameEnd p => Sys2Proof.Machine.execCsi2FrameEnd p s
  | .cameraWindowExpiry c at_ => Sys2Proof.Machine.execCameraWindowExpiry c at_ s
  | .cameraFrameDone c => Sys2Proof.Machine.execCameraFrameDone c s
  | .sampleStart e at_ => Sys2Proof.Machine.execSampleStart e at_ s
  | .sampleEnd e at_ => Sys2Proof.Machine.execSampleEnd e at_ s
  | .sampleBudgetExpiry e progress at_ => Sys2Proof.Machine.execSampleBudgetExpiry e progress at_ s
  | .vblankStart h at_ => Sys2Proof.Machine.execVblankStart h at_ s
  | .lineSend h complete => Sys2Proof.Machine.execLineSend h complete s
  | .headLinkTrained h => Sys2Proof.Machine.execHeadLinkTrained h s
  | .kvRefill a => Sys2Proof.Machine.execKvRefill a s
  | .swapOutComplete a q => Sys2Proof.Machine.execSwapOutComplete a q s
  | .epochPageRelease a => Sys2Proof.Machine.execEpochPageRelease a s
  | .canFrameReceive c f at_ => Sys2Proof.Machine.execCanFrameReceive c f at_ s
  | .ethFrameReceive p k data at_ => Sys2Proof.Machine.execEthFrameReceive p k data at_ s
  | .minGapExpiry r at_ => Sys2Proof.Machine.execMinGapExpiry r at_ s
  | .routeStale r at_ => Sys2Proof.Machine.execRouteStale r at_ s
  | .canBusoffRecovery c => Sys2Proof.Machine.execCanBusoffRecovery c s
  | .gclEntry p at_ => Sys2Proof.Machine.execGclEntry p at_ s
  | .capEdge p falling pulseNs at_ => Sys2Proof.Machine.execCapEdge p falling pulseNs at_ s
  | .ptpSyncReceive dom m at_ => Sys2Proof.Machine.execPtpSyncReceive dom m at_ s
  | .followSample tb at_ => Sys2Proof.Machine.execFollowSample tb at_ s
  | .timebaseSafePoint tb at_ => Sys2Proof.Machine.execTimebaseSafePoint tb at_ s
  | .timebaseHoldover tb at_ => Sys2Proof.Machine.execTimebaseHoldover tb at_ s
  | .groupSafePointApply g at_ => Sys2Proof.Machine.execGroupSafePointApply g at_ s
  | .loopSample at_ => Sys2Proof.Machine.execLoopSample at_ s
  | .descriptorComplete u e => Sys2Proof.Machine.execDescriptorComplete u e s
  | .swapInComplete a q => Sys2Proof.Machine.execSwapInComplete a q s
  | .canFrameTransmitted c r at_ => Sys2Proof.Machine.execCanFrameTransmitted c r at_ s
  | .ethPortLinkChange p up => Sys2Proof.Machine.execEthPortLinkChange p up s
  | .farLockResponse line r => Sys2Proof.Machine.execFarLockResponse line r s
  | .domainWakeComplete d => Sys2Proof.Machine.execDomainWakeComplete d s
  | .cutRequest d => Sys2Proof.Machine.execCutRequest d s
  | .aonRailRemoval => Sys2Proof.Machine.execAonRailRemoval s

end Sys2Proof.Machine
end

