-- ==== Sys2Proof/Safety.lean ====
section
/-! DEFINITION. What counts as a safe state, in the terms the statements use: the cue sheets keep scenes apart, the
locks hold, and what few commands may change. -/

namespace Sys2Proof.Machine

/-- What only a few commands change: the queue, the cue sheets, the two locks of the security registers, the supplier
slots, and the two locks of the bridge. -/
structure Lasting where
  pending : List Instr
  sheets : Tbl (Option Sheet)
  wdtLock : Bool
  debugLock : Bool
  slots : Tbl (Option (BitVec 384))
  mbxLock : Bool
  rangesLocked : Bool

def State.lasting (s : State) : Lasting :=
  { pending := s.pending, sheets := s.sheets, wdtLock := s.sec.wdtLock, debugLock := s.sec.debugLock, slots := s.sec.slots,
    mbxLock := s.host.mbxLock, rangesLocked := s.host.rangesLocked }

/-- An addressed RAM is in canonical form: bytes and granule checks listed in rising order, none of its default. -/
def Ram.wf (m : Ram) : Bool := twf 0 0 m.bytes && twf 0 0 m.syn

/-- The memories of the part are in canonical form: DRAM, the core stores, host memory and the page owners. -/
def MemSt.wf (m : MemSt) : Bool := m.dram.wf && m.store.wf && twf none 0 m.hostMem && twf none 0 m.owner

/-! ### Vector instructions -/

/-- Lane n of a vector register at a width of b bits (R108). -/
def laneAt (b : Nat) (v : BitVec 2048) (n : Nat) : Nat := v.toNat / 2 ^ (b * n) % 2 ^ b

/-- Lane n of an instruction is active (R109). -/
def laneActive (x : VeSt) (i : VI) (n : Nat) : Bool := !i.pe || (x.pr i.p).getLsbD (n * (etBits i.et / 8))

/-- The B operand of lane n: a register, S[B], or IMM as the type takes it (R111, R112). -/
def laneB (x : VeSt) (i : VI) (n : Nat) : Nat :=
  let b := etBits i.et
  if i.bsel = 0 then laneAt b (x.vr i.b) n
  else if i.bsel = 1 then (x.s i.b).toNat % 2 ^ b
  else if i.et ≤ 2 then wrapBits b i.imm
  else if i.et = 5 then wrapBits 24 i.imm * 256
  else wrapBits 24 i.imm % 65536

/-- The B operand of a scalar operation: S[B], or IMM sign-extended (R112). -/
def scalarB (x : VeSt) (i : VI) : DWord := if i.bsel = 2 then BitVec.ofInt 64 i.imm else x.s i.b

/-- Core c's kernel runs, nothing waits on the texture unit, w is the word at PC and the budget is not used up
(R127, R129, R131). -/
def VeRuns (s : State) (c : CoreId) (w : DWord) : Prop :=
  veReady s c = true ∧ veWord (s.ve c) = some w ∧ (s.ve c).count < fld (s.ve c).d 16 4

/-- The instruction has run with vector-engine state y: PC moves to the next word and the count rises. -/
def veRan (s : State) (c : CoreId) (y : VeSt) : State := s.upVe c (fun _ => y.next ((s.ve c).pc + 1))

/-- One row of Table 4-4 at PC: with every field one the row allows, P; otherwise the ILLEGAL exception (R113, R131). -/
def VeRow (s : State) (c : CoreId) (w : DWord) (z : VeShape) (extra : VI → Bool) (cmd : Chk → Instr) (P : Prop) : Prop :=
  (decodeVi w).op = z.op →
    (z.ok (decodeVi w) = true ∧ extra (decodeVi w) = true → P) ∧
    (¬ (z.ok (decodeVi w) = true ∧ extra (decodeVi w) = true) →
      ∀ k, exec (cmd k) s = .next (veException s c 1 w.toNat 0xFFFF 0))

/-- How the row ends when t is the state it leads to: the check passes; it fails twice; it fails once and its retry
passes, which sets RETRY, or fails when the same operation was retried in this cue already; the error correction of the
registers corrects, or meets a double-bit error. An instruction of row 5 steps the sampling register, and one that is not
sampled shows no failed check (R65 to R67, Table 2-7). -/
def VeEnds (s : State) (c : CoreId) (cmd : Chk → Instr) (row : Nat) (t : State) : Prop :=
  let u := UnitId.core c
  let key := veKey (s.ve c)
  let drawn (t : State) : State := veDraw t c (if row = 5 then 1 else 0)
  let unsampled : Prop := row = 5 ∧ veSelected s c 0 = false
  let stopped (r : Nat) : State := failCheck (atDesc s u (s.ve c).d) u r false
  exec (cmd .pass) s = .next (drawn t) ∧
  exec (cmd .corrected) s = .next (drawn (eccCount t u 1)) ∧
  exec (cmd .double) s = .next (drawn (stopped 3)) ∧
  (unsampled → exec (cmd .fail) s = .next (drawn t) ∧ exec (cmd .transient) s = .next (drawn t)) ∧
  (¬ unsampled → exec (cmd .fail) s = .next (drawn (stopped row)) ∧
    exec (cmd .transient) s = .next (drawn (if retryKey s u key ∈ s.cue.retried then stopped row
      else transientCheck (noteRetry (t.upVe c (fun x => x.flag fRetry)) u key) u row)))

/-- How a row that no check of Table 2-6 covers ends when t is the state it leads to: the error correction of what it reads
corrects, or meets an error that it cannot correct, which ends the job as core store. A row that reads the store (`mem`) may
also meet a carried check; what it would store in part is then poisoned (R65, R72, R122). -/
def VePlain (s : State) (c : CoreId) (cmd : Chk → Instr) (mem : Bool) (r : VeRes) (t : State) : Prop :=
  let u := UnitId.core c
  let stopped : State := failCheck (mergeLost (atDesc s u (s.ve c).d) c r) u 3 false
  exec (cmd .pass) s = .next t ∧ exec (cmd .transient) s = .next t ∧ exec (cmd .corrected) s = .next (eccCount t u 1) ∧
  exec (cmd .double) s = .next stopped ∧ exec (cmd .fail) s = .next (if mem then stopped else t)

/-- The same with vector-engine state y as the result. -/
def VeOutcome (s : State) (c : CoreId) (cmd : Chk → Instr) (row : Nat) (y : VeSt) : Prop := VeEnds s c cmd row (veRan s c y)

/-- r is V[D] after an operation at a width of b bits that gives lane q·n + j the result f j, for j below n: an inactive
lane keeps its value or becomes 0 (ZM), a lane elsewhere keeps its value, and g holds the flags of the active lanes
(R109, R119, R120). -/
structure PartResult (x : VeSt) (i : VI) (b q n : Nat) (f : Nat → Flagged Nat) (r : BitVec 2048) (g : Byte) : Prop where
  lane : ∀ m < 2048 / b, laneAt b r m =
    if q * n ≤ m ∧ m < q * n + n then
      (if laneActive x i (m - q * n) then (f (m - q * n)).1 % 2 ^ b else if i.zm then 0 else laneAt b (x.vr i.d) m)
    else laneAt b (x.vr i.d) m
  flags : ∀ k, g.getLsbD k = true ↔ ∃ j < n, laneActive x i j = true ∧ (f j).2.getLsbD k = true

/-- The row writes part q of V[D], and its flags, and nothing else. -/
def PartOp (s : State) (c : CoreId) (i : VI) (cmd : Chk → Instr) (row b q n : Nat) (f : Nat → Flagged Nat) : Prop :=
  ∃ r g, PartResult (s.ve c) i b q n f r g ∧ VeOutcome s c cmd row (((s.ve c).setV i.d r).flag g)

/-- The row writes every lane of V[D]. -/
def LaneOp (s : State) (c : CoreId) (i : VI) (cmd : Chk → Instr) (row : Nat) (f : Nat → Flagged Nat) : Prop :=
  PartOp s c i cmd row (etBits i.et) 0 (etLanes i.et) f

/-- The row writes the bits of P[D] lane by lane, every bit of a lane alike (R108, R109), and flags g. -/
def PredOp (s : State) (c : CoreId) (i : VI) (cmd : Chk → Instr) (g : Byte → Prop) (f : Nat → Bool) : Prop :=
  ∃ r fl, (∀ m < 256, r.getLsbD m =
      let n := m / (etBits i.et / 8)
      if laneActive (s.ve c) i n then f n else if i.zm then false else ((s.ve c).pr i.d).getLsbD m) ∧ g fl ∧
    VeOutcome s c cmd 5 (((s.ve c).setP i.d r).flag fl)

/-- Lane n of predicate p at the width of the instruction's type. -/
def predAt (x : VeSt) (i : VI) (p n : Nat) : Bool := (x.pr p).getLsbD (n * (etBits i.et / 8))

/-- The row writes P[D] whole, lane by lane, whatever PE (R113). -/
def PredAll (s : State) (c : CoreId) (i : VI) (cmd : Chk → Instr) (f : Nat → Bool) : Prop :=
  ∃ r, (∀ m < 256, r.getLsbD m = f (m / (etBits i.et / 8))) ∧ VeOutcome s c cmd 5 ((s.ve c).setP i.d r)

/-- Level k of the fixed tree of R118 over L lanes: a value of the level below with the one L / 2^(k+1) further. -/
def treeLane {α : Type} (comb : α → α → α) (leaf : Nat → α) (L : Nat) : Nat → Nat → α
  | 0, n => leaf n
  | k + 1, n => comb (treeLane comb leaf L k n) (treeLane comb leaf L k (n + L / 2 ^ (k + 1)))

/-- Levels of the tree of a type. -/
def treeLevels (et : Nat) : Nat := if et = 0 then 8 else if et = 2 ∨ et = 5 then 6 else 7

/-- The row reduces the lanes of A, inactive ones replaced by `idt`, along the fixed tree into S[D] (R118). -/
def Reduces (s : State) (c : CoreId) (i : VI) (cmd : Chk → Instr) (row idt : Nat) (comb : Nat → Nat → Flagged Nat) : Prop :=
  let x := s.ve c
  let leaf n : Flagged Nat := (if laneActive x i n then laneAt (etBits i.et) (x.vr i.a) n else idt, 0)
  let r := treeLane (fun (a b : Flagged Nat) => let y := comb a.1 b.1; (y.1, a.2 ||| b.2 ||| y.2)) leaf (etLanes i.et) (treeLevels i.et) 0
  ∃ g : Byte, (∀ k, g.getLsbD k = true ↔ 2 < i.et ∧ ∃ n < etLanes i.et, laneActive x i n = true ∧
      (readFlags [decodeF (etFmt i.et) (laneAt (etBits i.et) (x.vr i.a) n)]).getLsbD k = true) ∧
    VeOutcome s c cmd row ((x.setS i.d (BitVec.ofNat 64 r.1)).flag (r.2 ||| g))

/-- The lanes that access memory, lowest first. -/
def activeList (x : VeSt) (i : VI) : List Nat := (List.range (etLanes i.et)).filter (fun n => laneActive x i n)

/-- A row that loads one element of each active lane from `addr`: every access in range and aligned and every granule
good, V[D] is loaded; the first bad access in lane order is its exception; a bad granule fails the job (R122, R131). -/
def Loads (s : State) (c : CoreId) (i : VI) (cmd : Chk → Instr) (addr : Nat → Nat) : Prop :=
  let x := s.ve c
  let z := etBits i.et / 8
  let good n := addr n + z ≤ storeSize ∧ addr n % z = 0
  ((∀ n ∈ activeList x i, good n ∧ storeBad s c (addr n) z = none) →
    ∃ r, PartResult x i (etBits i.et) 0 (etLanes i.et) (fun n => (leNat (storeRead s c (addr n) z), 0)) r 0 ∧
      VePlain s c cmd true (.ok ((x.setV i.d r).flag 0)) (veRan s c ((x.setV i.d r).flag 0))) ∧
  (∀ n ∈ activeList x i, ¬ good n → (∀ m ∈ activeList x i, m < n → good m) →
    ∀ k, exec (cmd k) s = .next (veException s c (if storeSize < addr n + z then 2 else 3) i.w.toNat n (addr n % 2 ^ 32))) ∧
  (∀ n ∈ activeList x i, ∀ p, (∀ m ∈ activeList x i, good m) → storeBad s c (addr n) z = some p →
    (∀ m ∈ activeList x i, m < n → storeBad s c (addr m) z = none) →
    ∀ k, exec (cmd k) s = .next (failCheck (atDesc s (.core c) x.d) (.core c) (if p then 6 else 3) p))

/-- A row that stores lane n of V[D] at `addr n` for each active lane, the higher lane last; a granule that the lanes cover
together is written whole, and another is verified once (R60, R122, R123). -/
def Stores (s : State) (c : CoreId) (i : VI) (cmd : Chk → Instr) (addr : Nat → Nat) : Prop :=
  let x := s.ve c
  let z := etBits i.et / 8
  let good n := addr n + z ≤ storeSize ∧ addr n % z = 0
  ((∀ n ∈ activeList x i, good n) →
    let ws := (activeList x i).map (fun n => (addr n, leBytes z (laneAt (etBits i.et) (x.vr i.d) n)))
    VePlain s c cmd false (.store x ws) (storeParts (veRan s c x) (.core c) c ws)) ∧
  (∀ n ∈ activeList x i, ¬ good n → (∀ m ∈ activeList x i, m < n → good m) →
    ∀ k, exec (cmd k) s = .next (veException s c (if storeSize < addr n + z then 2 else 3) i.w.toNat n (addr n % 2 ^ 32)))

/-- S[A] + IMM as 64 bits (R122). -/
def effAddr (x : VeSt) (i : VI) : Nat := (x.s i.a + BitVec.ofInt 64 i.imm).toNat


/-- The rows of the vector engine, for core c and the answer k of its checker. -/
def veRows (c : CoreId) (k : Chk) : List Instr :=
  [.veNop c, .halt c, .br c, .brz ⟨c, k⟩, .brnz ⟨c, k⟩, .brany ⟨c, k⟩, .brnone ⟨c, k⟩, .loop c k, .trap c, .sadd c k, .ssub c k, .smul c k]
  ++ [.sand c k, .sor c k, .sxor c k, .sshl c k, .sshr c k, .smin c k, .smax c k, .scmp c k, .smovi c k, .vadd c k, .vsub c k, .vmul c k]
  ++ [.vmulh c k, .vmad c k, .vdot4 c k, .vabs c k, .vneg c k, .vmin c k, .vmax c k, .vand c k, .vor c k, .vxor c k, .vnot c k, .vshl c k]
  ++ [.vshr c k, .vcmp c k, .vclz c k, .vld ⟨c, k⟩, .vst ⟨c, k⟩, .vlds ⟨c, k⟩, .vsts ⟨c, k⟩, .vgath ⟨c, k⟩, .vscat ⟨c, k⟩, .vldbc ⟨c, k⟩, .vldpip ⟨c, k⟩, .vstpip c k]
  ++ [.sld ⟨c, k⟩, .sst ⟨c, k⟩, .fadd c k, .fsub c k, .fmul c k, .ffma c k, .ffms c k, .fmin c k, .fmax c k, .fabs c k, .fneg c k, .fcmp c k]
  ++ [.fdiv c k, .fsqrt c k, .frcp c k, .frsq c k, .fexp2 c k, .flog2 c k, .fsin c k, .fcos c k, .ftanh c k, .fsigm c k, .ffloor c k, .fround c k]
  ++ [.fclamp c k, .cvt c k, .f8pack c k, .f8unpk c k, .i4pack c k, .i4unpk c k, .narrow c k, .vsel c k, .vmov c k, .vperm c k, .vrot c k, .vext c k]
  ++ [.vins c k, .vredadd c k, .vredmax c k, .vredmin c k, .vidx c k, .pand c k, .por c k, .pnot c k, .pfirstn c k, .pcnt c k, .tsample c k]

/-! ### Pyotos commands -/

/-- The entry at CMD_HEAD of slice n's ring is taken and carries this opcode, from slice 0 where the command is
slice 0's alone, with every reserved byte zero (R319, R320, R348, R350). -/
def Sent (op : Nat) (zero : Bool) (named : List (Nat × Nat)) (s : State) (n : SliceId) (w : Line) : Prop :=
  canTake s n w = true ∧ fld w 0 2 = op ∧ (zero = true → n = 0) ∧ badReserved w named = none

/-- What holds of a command's row when its entry is taken: of the state that took it, of its flight, and of the
outcome that the command has. -/
def OnRow (row : SliceId → Line → Instr) (op : Nat) (zero : Bool) (named : List (Nat × Nat))
    (P : State → SliceId → Line → Flight → (Res → Prop) → Prop) : Prop :=
  ∀ s n w, Sent op zero named s n w →
    P (accept s n w) n w (flightOf s n w) (fun r => exec (row n w) s = .next (settle (accept s n w) n (flightOf s n w) r))

/-- A structure of `len` bytes at `va`, named by the field at `off`, that can be read (R348, R480). -/
def StructAt (a : State) (n : SliceId) (w : Line) (off va len : Nat) (bs : Bytes) : Prop :=
  fld w off 8 % 64 = 0 ∧ fld w off 8 < 2 ^ 48 ∧ ¬ (parked a = true ∧ inDram a n va len = true) ∧ readVa a n (.slice n) .read va len = .ok bs

/-- A destination of `len` bytes, named by the field at `off`, that can be written (R348, R480). -/
def DestAt (a : State) (n : SliceId) (w : Line) (off len : Nat) : Prop :=
  fld w off 8 % 64 = 0 ∧ fld w off 8 < 2 ^ 48 ∧ ¬ (parked a = true ∧ inDram a n (fld w off 8) len = true) ∧
  reachable a n (.slice n) .write (fld w off 8) len = true

/-- The rows of Tables 12-6 to 12-9: opcode, slice 0 alone, named body fields, and the entries that are this row's. -/
structure CmdRow where
  row : SliceId → Line → Instr
  op : Nat
  zero : Bool
  named : List (Nat × Nat)
  mine : Line → Bool := fun _ => true

def cmdRows0 : List CmdRow :=
  [{ row := .nop, op := 0x0001, zero := false, named := [] },
   { row := .commit, op := 0x0002, zero := false, named := [(8, 1), (9, 1), (16, 8), (24, 40)] },
   { row := .cancel, op := 0x0003, zero := false, named := [(8, 4)] },
   { row := .diagRead, op := 0x0004, zero := false, named := [(8, 1), (9, 1), (10, 2), (16, 8), (24, 4)] },
   { row := .logRead, op := 0x0005, zero := true, named := [(16, 8), (24, 8), (32, 4)] },
   { row := .powerSetParked, op := 0x0006, zero := true, named := [(8, 1)], mine := fun w => fld w 8 1 != 0 },
   { row := .powerSetActive, op := 0x0006, zero := true, named := [(8, 1)], mine := fun w => fld w 8 1 == 0 },
   { row := fun n w => .fwUpdate n { line := w }, op := 0x0007, zero := true, named := [(8, 1), (16, 8), (24, 4)] },
   { row := .sliceCreate, op := 0x0101, zero := true, named := [(8, 1), (9, 1), (10, 1), (12, 4)] },
   { row := .sliceDestroy, op := 0x0102, zero := true, named := [(8, 1)] },
   { row := .quotaSet, op := 0x0103, zero := true, named := [(8, 1), (9, 1), (10, 1), (16, 8)] },
   { row := .assign, op := 0x0104, zero := true, named := [(8, 1), (9, 1), (10, 2)] }]

def cmdRows1 : List CmdRow :=
  [{ row := .cacheSet, op := 0x0105, zero := true, named := [(16, 8)] },
   { row := .memMap, op := 0x0106, zero := false, named := [(8, 1), (9, 1), (16, 8), (24, 8), (32, 8)] },
   { row := .memUnmap, op := 0x0107, zero := false, named := [(16, 8), (24, 8)] },
   { row := .apertureSet, op := 0x0108, zero := false, named := [(8, 1), (16, 8)] },
   { row := .swapAreaSet, op := 0x0109, zero := false, named := [(16, 8), (24, 8)] },
   { row := .graphLoad, op := 0x0201, zero := false, named := [(16, 8), (24, 8)] },
   { row := .graphUnload, op := 0x0202, zero := false, named := [(8, 2)] },
   { row := .jobStart, op := 0x0301, zero := false, named := [(8, 2), (10, 2), (12, 1), (13, 1), (14, 1), (15, 1), (16, 2), (24, 8), (32, 8), (40, 8)] },
   { row := .jobAbort, op := 0x0302, zero := false, named := [(8, 4)] },
   { row := .sheetWrite, op := 0x0401, zero := true, named := [(8, 1), (16, 8)] },
   { row := .cueSet, op := 0x0402, zero := true, named := [(8, 4), (12, 4), (16, 1), (17, 1)] },
   { row := .cueStart, op := 0x0403, zero := true, named := [] }]

def cmdRows2 : List CmdRow :=
  [{ row := .cueStop, op := 0x0404, zero := true, named := [] },
   { row := .syncAlloc, op := 0x0501, zero := false, named := [(8, 2), (12, 4)] },
   { row := .syncFree, op := 0x0502, zero := false, named := [(8, 2), (10, 2)] },
   { row := .syncSet, op := 0x0503, zero := false, named := [(8, 2), (12, 4)] },
   { row := .syncSignal, op := 0x0504, zero := false, named := [(8, 2), (12, 4)] },
   { row := .syncRead, op := 0x0505, zero := false, named := [(8, 2)] },
   { row := .kvPoolSet, op := 0x0601, zero := true, named := [(8, 1), (12, 4)] },
   { row := .seqCreate, op := 0x0602, zero := false, named := [(8, 1), (9, 1), (10, 1), (11, 1), (12, 2), (14, 2), (16, 1), (18, 2), (20, 4)] },
   { row := .seqFree, op := 0x0603, zero := false, named := [(8, 1), (10, 2)] },
   { row := .seqGlobals, op := 0x0604, zero := false, named := [(8, 1), (10, 2), (12, 1), (16, 8)] },
   { row := .seqSwapOut, op := 0x0605, zero := false, named := [(8, 1), (10, 2)] },
   { row := .seqSwapIn, op := 0x0606, zero := false, named := [(8, 1), (10, 2)] }]

def cmdRows3 : List CmdRow :=
  [{ row := .sampleSubmit, op := 0x0701, zero := false, named := [(8, 2), (16, 8)] },
   { row := .dictLoad, op := 0x0702, zero := false, named := [(8, 1), (16, 8)] },
   { row := .camSet, op := 0x0703, zero := false, named := [(8, 1), (16, 8)] },
   { row := .sampleRelease, op := 0x0704, zero := false, named := [(16, 8)] },
   { row := .headSet, op := 0x0801, zero := false, named := [(8, 1), (16, 8)] },
   { row := .layerSet, op := 0x0802, zero := false, named := [(8, 1), (9, 1), (16, 8)] },
   { row := .fallbackLoad, op := 0x0803, zero := false, named := [(8, 1), (16, 8), (24, 8), (32, 4)] },
   { row := .routeSet, op := 0x0901, zero := false, named := [(8, 2), (10, 2), (16, 8)] },
   { row := .timebaseSet, op := 0x0902, zero := true, named := [(8, 1), (16, 8)] },
   { row := .timeSet, op := 0x0903, zero := true, named := [(8, 1), (16, 8)] },
   { row := .timeRead, op := 0x0904, zero := false, named := [(8, 1)] },
   { row := .loopSet, op := 0x0905, zero := false, named := [(8, 1), (16, 8)] }]

def cmdRows4 : List CmdRow :=
  [{ row := .loopCoeff, op := 0x0906, zero := false, named := [(8, 1), (9, 1), (16, 16)] },
   { row := .loopTuneStop, op := 0x0907, zero := false, named := [(8, 1), (9, 1), (16, 8), (24, 8)], mine := fun w => fld w 9 1 != 1 && fld w 9 1 != 2 },
   { row := .loopTuneInject, op := 0x0907, zero := false, named := [(8, 1), (9, 1), (16, 8), (24, 8)], mine := fun w => fld w 9 1 == 1 },
   { row := .loopTuneRelay, op := 0x0907, zero := false, named := [(8, 1), (9, 1), (16, 8), (24, 8)], mine := fun w => fld w 9 1 == 2 },
   { row := .safetyPolicy, op := 0x0A01, zero := true, named := [(16, 8)] },
   { row := .kafSet, op := 0x0A02, zero := false, named := [(8, 2), (10, 2), (12, 1), (13, 1), (14, 1), (16, 8), (24, 8)] },
   { row := .safetyStatus, op := 0x0A03, zero := false, named := [(16, 8)] },
   { row := .twinMode, op := 0x0B01, zero := true, named := [(8, 1)] },
   { row := .twinChannelSet, op := 0x0B02, zero := false, named := [(8, 1), (9, 1), (10, 2), (16, 8), (24, 4)] },
   { row := .twinChannelFree, op := 0x0B03, zero := false, named := [(8, 1)] },
   { row := .enclaveCreate, op := 0x0C01, zero := true, named := [(8, 1), (16, 8)] },
   { row := .enclaveLoad, op := 0x0C02, zero := false, named := [(8, 1), (16, 8)] }]

def cmdRows5 : List CmdRow :=
  [{ row := .enclaveDestroy, op := 0x0C03, zero := true, named := [(8, 1)] },
   { row := .ceSplit, op := 0x0908, zero := true, named := [(8, 1)], mine := fun w => fld w 8 1 != 0 },
   { row := .ceJoin, op := 0x0908, zero := true, named := [(8, 1)], mine := fun w => fld w 8 1 == 0 }]

/-- Every command of the tables. -/
def cmdRows : List CmdRow := cmdRows0 ++ cmdRows1 ++ cmdRows2 ++ cmdRows3 ++ cmdRows4 ++ cmdRows5

/-! ### What holds of every command -/

/-- The commands that can end in a reset of the whole device, or of all but the always-on domain (R482, R484, R490, R516). -/
def mayReset : Instr → Bool
  | .aonPowerOn => true
  | .aonRailRemoval => true
  | .porstNLow => true
  | .chipReset _ => true
  | .refclkLoss => true
  | .sleepRequest => true
  | .powerSetParked _ _ => true
  | _ => false

/-- The static conditions that R22, R230 to R233, R275 and R422 put on a sheet and its scenes: the period's range, 1 to 32 scenes; every
scene at least 20,000 ns long and ended before the slew of the period could cut it, with some unit, at most 942 GB/s,
no label 7, a lending scene naming another that overlaps it, is of class 0 or 1 and does not lend, a known-answer scene
of class 2 or 3 that does not lend; and no unit named by two scenes that overlap. -/
structure SheetSafe (sh : Sheet) : Prop where
  period : 1000000 ≤ sh.period ∧ sh.period ≤ 200000000
  count : 1 ≤ sh.scenes.length ∧ sh.scenes.length ≤ 32
  length : ∀ x ∈ sh.scenes, 20000 ≤ x.duration
  inside : ∀ x ∈ sh.scenes, x.start + x.duration ≤ sh.period - sh.period / 10000
  units : ∀ x ∈ sh.scenes, x.cores ≠ 0 ∨ x.aes ≠ 0 ∨ x.rfes ≠ 0
  gbps : ∀ x ∈ sh.scenes, x.gbps ≤ 942
  label : ∀ x ∈ sh.scenes, x.label ≠ 7
  lends : ∀ (i : Nat) x, sh.scenes[i]? = some x → x.lending = true →
    ∃ t, sh.scenes[x.lendTo.toNat]? = some t ∧ x.lendTo.toNat ≠ i ∧ overlap x t = true ∧ t.cls.toNat ≤ 1 ∧ t.lending = false
  kaf : ∀ x ∈ sh.scenes, x.kaf = true → x.lending = false ∧ 2 ≤ x.cls.toNat
  apart : ∀ (i j : Nat) x y, i < j → sh.scenes[i]? = some x → sh.scenes[j]? = some y → overlap y x = true →
    y.cores &&& x.cores = 0 ∧ y.aes &&& x.aes = 0 ∧ y.rfes &&& x.rfes = 0

/-- Every written bank holds a sheet of that form. -/
def SheetsSafe (s : State) : Prop := ∀ (b : Nat) (sh : Sheet), tget none s.sheets b = some sh → SheetSafe sh

/-! ### The host and the masters -/

/-- An inbound request arrives and is served: the link is up and the function is not in D3hot (R342, R343). -/
def Arrives (s : State) : Prop := s.host.linkUp = true ∧ s.host.d3hot = false

/-- The page of slice n answers it (R316). -/
def OnPage (s : State) (n : SliceId) : Prop := Arrives s ∧ s.host.devReady = true ∧ (s.slice n).valid = true

/-- A master of channel requests: the host through the link, or a bus master of the device. -/
def MasterArrives (s : State) (m : BitVec 4) : Prop := m = 1 → Arrives s

/-- Stagehand's secure processor serves the message of this code in channel 0 (R373). -/
def SecServes (s : State) (code : Nat) : Prop :=
  s.host.devReady = true ∧ chanOn s 0 = true ∧ (s.chan 0).bellB = true ∧ endOff s 3 = false ∧ linkOk s = true ∧ secCode s = code

end Sys2Proof.Machine
end

