-- ==== Sys2Proof/Certificates/Slice0/Obligations.lean ====
section
/-! DEFINITION. The statements about the model, for the provers. Each docstring names the rules it formalises. -/

open Sys2Proof Sys2Proof.Machine


/-! ### Every command -/

/-- The model's step: with a command at the front of its queue it does what that command does to the state with the queue's rest.
The model's choices it rests on: log entry 9. -/
def Obligations.StepRunsTheFrontCommand : Prop :=
  ∀ (s : State) (c : Instr) (cs : List Instr), s.pending = c :: cs → step s = exec c { s with pending := cs }

/-- The model's choice (log entry 2): on an empty queue a step moves the reference clock on by one period of 100 MHz, and nothing else. -/
def Obligations.EmptyQueueIdles : Prop :=
  ∀ (s : State), s.pending = [] → step s = .next { s with now := s.now + 10 }

/-- No command stops the block: in every state each of them answers a next state, for every value of its operands.
The model's choices it rests on: log entry 1. -/
def Obligations.EveryCommandCompletes : Prop :=
  (∀ (i : Instr) (s : State), ∃ t, exec i s = .next t) ∧ (∀ (s : State), ∃ t, step s = .next t)

/-- Commands leave the queue to step: what waits is served first in, first out.
The model's choices it rests on: log entry 9. -/
def Obligations.CommandsLeaveTheQueue : Prop :=
  (∀ (i : Instr) (s t : State), exec i s = .next t → t.pending = s.pending) ∧
  (∀ (s t : State) (c : Instr) (cs : List Instr), s.pending = c :: cs → step s = .next t → t.pending = cs)

/-- R22, R230 to R233, R275, R422: from any state whose written cue sheets meet the static conditions of a sheet, every step leaves sheets that
meet them: no command can make two scenes that overlap share a core, an attention engine or a raster front end. -/
def Obligations.SheetsStaySafe : Prop :=
  ∀ (s t : State), SheetsSafe s → step s = .next t → SheetsSafe t

/-- The state after reset has safe sheets. -/
def Obligations.ResetSheetsSafe : Prop := SheetsSafe State.reset

/-- R10, R329, R333, R387, R390: a lock that is set stays set through every command but those that can reset the device: MBX_LOCK, the lock of the
range entries, the watchdog's, and LOCK of SEC_DEBUG. -/
def Obligations.LocksHold : Prop :=
  ∀ (i : Instr) (s t : State), mayReset i = false → exec i s = .next t →
    (s.host.mbxLock = true → t.host.mbxLock = true) ∧ (s.host.rangesLocked = true → t.host.rangesLocked = true) ∧
    (s.sec.wdtLock = true → t.sec.wdtLock = true) ∧ (s.sec.debugLock = true → t.sec.debugLock = true)

/-- R375, R376: the supplier slots are written by PROVISION alone; no reset and no other command changes them. R230, R232: outside the commands that can reset the device only SHEET_WRITE changes a cue sheet, and it changes one bank at most. -/
def Obligations.SlotsAndSheetsHaveOneWriter : Prop :=
  (∀ (i : Instr) (s t : State), i ≠ .provision → exec i s = .next t → t.sec.slots = s.sec.slots) ∧
  ((∀ (i : Instr) (s t : State), mayReset i = false → (∀ n w, i ≠ .sheetWrite n w) → exec i s = .next t → t.sheets = s.sheets) ∧
  (∀ (n : SliceId) (w : Line) (s t : State), exec (.sheetWrite n w) s = .next t → ∀ b, b ≠ fld w 8 1 → tget none t.sheets b = tget none s.sheets b))

/-- The values that the spec's register tables give for reset (R13, R17, R18, R263, R319, R320, R329, R333, R354, R387, R390): the cue is stopped and its count 0, no
slice is valid, all ring registers are 0, no page has an owner, no lock is set, SEC_DEBUG is 0, the watchdog's period is
1,000 ms, the default SAFETY and TIMEBASE sets are committed, and no other group holds anything. -/
def Obligations.ResetValues : Prop :=
  let s := State.reset
  s.cue.running = false ∧ s.cue.count = 0 ∧ s.pending = [] ∧ s.jobs = [] ∧ s.commits = [] ∧
  (∀ n, (s.slice n).valid = false ∧ (s.slice n).page.enable = false ∧ (s.slice n).page.error = false ∧ (s.slice n).page.cmdHead = 0 ∧
    (s.slice n).page.cplTail = 0 ∧ (s.slice n).page.ntcTail = 0 ∧ (s.slice n).page.ntcLost = 0 ∧ (s.slice n).page.aptEnable = false) ∧
  (∀ p, (ownerOf s p).typ = .uninit) ∧ (∀ c, (s.ctr c).slice = none ∧ (s.ctr c).value = 0) ∧
  s.host.mbxLock = false ∧ s.host.rangesLocked = false ∧ s.host.linkUp = false ∧ s.host.devReady = false ∧ s.host.drop = 0 ∧
  s.sec.debugLock = false ∧ s.sec.debugBits = 0 ∧ s.sec.wdtLock = false ∧ s.sec.period = 1000 ∧
  (s.group 0x4000000).committed = defaultSafety ∧ (∀ k < 4, (s.group (0x5000000 + k)).committed = defaultTimebase) ∧
  (∀ g, groupKind g ≠ 4 → groupKind g ≠ 5 → (s.group g).committed = 0 ∧ (s.group g).shadow = 0) ∧ s.saf.curtain = false ∧ s.pwr.state = .active

/-- R261: the map of device physical addresses puts every address below DATA_TOP on a byte of its own, within the data bytes of
one of the twelve controllers. -/
def Obligations.AddressMapIsFaithful : Prop :=
  ∀ (s : State),
    (∀ a, a < dataTop s → (dpaMap s a).1 < 12 ∧ (dpaMap s a).2 < dataBytes s (dpaMap s a).1) ∧
    (∀ a b, a < dataTop s → b < dataTop s → dpaMap s a = dpaMap s b → a = b)

/-! ### Vector engine -/

/-- R115: an integer result of a lane of b bits either wraps modulo 2^b and sets no flag, or is the nearest value of the signed or
unsigned range with SAT set exactly when that differs. R113: the integer operations lane by lane, with the result that MOD[1]
and MOD[0] choose for VADD, VSUB, VMUL, VABS and VNEG, wrapping for VDOT4 and VMAD, and the check each row names. R65, R67: an
instruction of a residue row is checked, one of a sampled row where the sampling register selects it.
The model's choices it rests on: log entries 18, 19, 104 and 106. -/
def Obligations.VeIntegerLanes : Prop :=
  (∀ (b : Nat) (v : Int), 1 ≤ b →
    let lo : Int := -(2 : Int) ^ (b - 1)
    let hi : Int := (2 : Int) ^ (b - 1) - 1
    let top : Int := (2 : Int) ^ b - 1
    (∀ uns, (((intResult false uns b v).1 : Int) = v % (2 : Int) ^ b ∧ (intResult false uns b v).2 = 0)) ∧
    (signed b (intResult true false b v).1 = max lo (min hi v) ∧ (intResult true false b v).1 < 2 ^ b) ∧
    ((intResult true false b v).2 = if lo ≤ v ∧ v ≤ hi then 0 else fSat) ∧
    (((intResult true true b v).1 : Int) = max 0 (min top v)) ∧
    ((intResult true true b v).2 = if 0 ≤ v ∧ v ≤ top then 0 else fSat)) ∧
  (∀ (s : State) (c : CoreId) (w : DWord), VeRuns s c w →
    let x := s.ve c
    let i := decodeVi w
    let b := etBits i.et
    let u := bitAt i.mod 0
    let sat := bitAt i.mod 1
    let A n := laneAt b (x.vr i.a) n
    let B n := laneB x i n
    let C n := laneAt b (x.vr i.c) n
    let I v := laneInt u b v
    let N n := signed b (laneAt b (x.vr i.a) n)
    let J v := laneInt u 8 v
    VeRow s c w (intShape 0x20 3) always (.vadd c) (LaneOp s c i (.vadd c) 4 fun n => intResult sat u b (I (A n) + I (B n))) ∧
    VeRow s c w (intShape 0x21 3) always (.vsub c) (LaneOp s c i (.vsub c) 4 fun n => intResult sat u b (I (A n) - I (B n))) ∧
    VeRow s c w (intShape 0x22 3) always (.vmul c) (LaneOp s c i (.vmul c) 4 fun n => intResult sat u b (N n * signed b (B n))) ∧
    VeRow s c w (intShape 0x23 1) always (.vmulh c) (LaneOp s c i (.vmulh c) 4 fun n => (wrapBits b (I (A n) * I (B n) / (2 ^ b : Nat)), 0)) ∧
    VeRow s c w { intShape 0x24 0 with c := .v } always (.vmad c) (LaneOp s c i (.vmad c) 4 fun n => (A n * B n + C n, 0)) ∧
    VeRow s c w { intShape 0x25 1 with et := [2], c := .v } always (.vdot4 c) (LaneOp s c i (.vdot4 c) 4 fun n =>
      (wrapBits 32 (C n + J (A n % 256) * J (B n % 256) + J (A n / 2 ^ 8 % 256) * J (B n / 2 ^ 8 % 256)
        + J (A n / 2 ^ 16 % 256) * J (B n / 2 ^ 16 % 256) + J (A n / 2 ^ 24 % 256) * J (B n / 2 ^ 24 % 256)), 0)) ∧
    VeRow s c w { intShape 0x26 3 with b := .no } always (.vabs c) (LaneOp s c i (.vabs c) 4 fun n => intResult sat u b (N n).natAbs) ∧
    VeRow s c w { intShape 0x27 3 with b := .no } always (.vneg c) (LaneOp s c i (.vneg c) 4 fun n => intResult sat u b (-N n)) ∧
    VeRow s c w (intShape 0x28 1) always (.vmin c) (LaneOp s c i (.vmin c) 5 fun n => (if I (B n) < I (A n) then B n else A n, 0)) ∧
    VeRow s c w (intShape 0x29 1) always (.vmax c) (LaneOp s c i (.vmax c) 5 fun n => (if I (A n) < I (B n) then B n else A n, 0)) ∧
    VeRow s c w (intShape 0x2A 0) always (.vand c) (LaneOp s c i (.vand c) 5 fun n => (A n &&& B n, 0)) ∧
    VeRow s c w (intShape 0x2B 0) always (.vor c) (LaneOp s c i (.vor c) 5 fun n => (A n ||| B n, 0)) ∧
    VeRow s c w (intShape 0x2C 0) always (.vxor c) (LaneOp s c i (.vxor c) 5 fun n => (A n ^^^ B n, 0)) ∧
    VeRow s c w { intShape 0x2D 0 with b := .no } always (.vnot c) (LaneOp s c i (.vnot c) 5 fun n => (2 ^ b - 1 - A n, 0)) ∧
    VeRow s c w (intShape 0x2E 0) always (.vshl c) (LaneOp s c i (.vshl c) 4 fun n => (A n * 2 ^ (B n % b), 0)) ∧
    VeRow s c w (intShape 0x2F 1) always (.vshr c) (LaneOp s c i (.vshr c) 5 fun n => (wrapBits b (I (A n) / (2 ^ (B n % b) : Nat)), 0)) ∧
    VeRow s c w { intShape 0x31 0 with b := .no } always (.vclz c) (LaneOp s c i (.vclz c) 5 fun n => (b - bitLen (A n), 0)) ∧
    VeRow s c w { intShape 0x30 7 with d := .p, c := .bit } (condOk true) (.vcmp c) (PredOp s c i (.vcmp c) (· = 0) fun n =>
      Machine.cond i.mod (some (compare (laneInt (i.c == 1) b (A n)) (laneInt (i.c == 1) b (B n))))))

/-- R116, R117, R120: the floating-point operations, each lane computed from exact operands and rounded once.
The model's choices it rests on: log entries 15, 18 and 19. -/
def Obligations.VeFloatLanes : Prop :=
  ∀ (s : State) (c : CoreId) (w : DWord), VeRuns s c w →
    let x := s.ve c
    let i := decodeVi w
    let b := etBits i.et
    let f := etFmt i.et
    let A n := decodeF f (laneAt b (x.vr i.a) n)
    let B n := decodeF f (laneB x i n)
    let C n := decodeF f (laneAt b (x.vr i.c) n)
    let T op n := transLane op f (laneAt b (x.vr i.a) n)
    VeRow s c w (floatShape2 0x40) always (.fadd c) (LaneOp s c i (.fadd c) 5 fun n => floatRes f [A n, B n] (addV (A n) (B n))) ∧
    VeRow s c w (floatShape2 0x41) always (.fsub c) (LaneOp s c i (.fsub c) 5 fun n => floatRes f [A n, B n] (addV (A n) (negV (B n)))) ∧
    VeRow s c w (floatShape2 0x42) always (.fmul c) (LaneOp s c i (.fmul c) 5 fun n => floatRes f [A n, B n] (mulV (A n) (B n))) ∧
    VeRow s c w (floatShape3 0x43) always (.ffma c) (LaneOp s c i (.ffma c) 5 fun n => floatRes f [A n, B n, C n] (addV (mulV (A n) (B n)) (C n))) ∧
    VeRow s c w (floatShape3 0x44) always (.ffms c) (LaneOp s c i (.ffms c) 5 fun n => floatRes f [A n, B n, C n] (addV (mulV (A n) (B n)) (negV (C n)))) ∧
    VeRow s c w (floatShape2 0x45) always (.fmin c) (LaneOp s c i (.fmin c) 5 fun n => floatRes f [A n, B n] (minV (A n) (B n))) ∧
    VeRow s c w (floatShape2 0x46) always (.fmax c) (LaneOp s c i (.fmax c) 5 fun n => floatRes f [A n, B n] (maxV (A n) (B n))) ∧
    VeRow s c w (floatShape1 0x47) always (.fabs c) (LaneOp s c i (.fabs c) 5 fun n => floatRes f [A n] (if negOf (A n) then negV (A n) else A n)) ∧
    VeRow s c w (floatShape1 0x48) always (.fneg c) (LaneOp s c i (.fneg c) 5 fun n => floatRes f [A n] (negV (A n))) ∧
    VeRow s c w { floatShape2 0x49 with d := .p, mod := 7 } (condOk false) (.fcmp c) (PredOp s c i (.fcmp c)
      (fun g => ∀ k, g.getLsbD k = true ↔ ∃ n < etLanes i.et, laneActive x i n = true ∧ (readFlags [A n, B n]).getLsbD k = true)
      fun n => Machine.cond i.mod (cmpV (A n) (B n))) ∧
    VeRow s c w (floatShape2 0x4A) always (.fdiv c) (LaneOp s c i (.fdiv c) 5 fun n => floatRes f [A n, B n] (divV (A n) (B n))) ∧
    VeRow s c w (floatShape1 0x4B) always (.fsqrt c) (LaneOp s c i (.fsqrt c) 5 fun n => floatRes f [A n] (sqrtV (A n))) ∧
    VeRow s c w (floatShape1 0x4C) always (.frcp c) (LaneOp s c i (.frcp c) 5 (T 0x4C)) ∧
    VeRow s c w (floatShape1 0x4D) always (.frsq c) (LaneOp s c i (.frsq c) 5 (T 0x4D)) ∧
    VeRow s c w (floatShape1 0x4E) always (.fexp2 c) (LaneOp s c i (.fexp2 c) 5 (T 0x4E)) ∧
    VeRow s c w (floatShape1 0x4F) always (.flog2 c) (LaneOp s c i (.flog2 c) 5 (T 0x4F)) ∧
    VeRow s c w (floatShape1 0x50) always (.fsin c) (LaneOp s c i (.fsin c) 5 (T 0x50)) ∧
    VeRow s c w (floatShape1 0x51) always (.fcos c) (LaneOp s c i (.fcos c) 5 (T 0x51)) ∧
    VeRow s c w (floatShape1 0x52) always (.ftanh c) (LaneOp s c i (.ftanh c) 5 (T 0x52)) ∧
    VeRow s c w (floatShape1 0x53) always (.fsigm c) (LaneOp s c i (.fsigm c) 5 (T 0x53)) ∧
    VeRow s c w (floatShape1 0x54) always (.ffloor c) (LaneOp s c i (.ffloor c) 5 fun n => floatRes f [A n] (floorV (A n))) ∧
    VeRow s c w (floatShape1 0x55) always (.fround c) (LaneOp s c i (.fround c) 5 fun n => floatRes f [A n] (roundV (A n))) ∧
    VeRow s c w (floatShape3 0x56) always (.fclamp c) (LaneOp s c i (.fclamp c) 5 fun n => floatRes f [A n, B n, C n] (minV (maxV (A n) (B n)) (C n)))

/-- R119, R120, R51, R52: conversions, in the part of the wider register that MOD names.
The model's choices it rests on: log entries 18, 19, 105 and 123. -/
def Obligations.VeConversions : Prop :=
  ∀ (s : State) (c : CoreId) (w : DWord), VeRuns s c w →
    let x := s.ve c
    let i := decodeVi w
    let P cmd row sb db q g := PartOp s c i cmd row db (if db < sb then q else 0) (2048 / max sb db)
      fun n => g (laneAt sb (x.vr i.a) ((if sb < db then q * (2048 / max sb db) else 0) + n))
    let flags (r : Flagged Nat) (v : FVal) : Flagged Nat := (r.1, (r.2 &&& (fSat ||| fUfl)) ||| (if v = .nan then fNan else 0))
    VeRow s c w { op := 0x60, et := etAny, d := .v, a := .v, c := .typ, mod := 7 }
      (fun i => partOk (etBits i.c) (etBits i.et) (i.mod % 4) && (!bitAt i.mod 2 || decide (i.c ≤ 2))) (.cvt c)
      (P (.cvt c) (if i.et ≤ 2 ∧ i.c ≤ 2 then 4 else 5) (etBits i.c) (etBits i.et) (i.mod % 4) (cvtLane i)) ∧
    VeRow s c w { op := 0x61, et := etF, d := .v, a := .v, mod := 7 } (fun i => partOk (etBits i.et) 8 (i.mod % 4)) (.f8pack c)
      (P (.f8pack c) 5 (etBits i.et) 8 (i.mod % 4) fun a =>
        flags (convertF (if bitAt i.mod 2 then e5m2 else e4m3) (decodeF (etFmt i.et) a)) (decodeF (etFmt i.et) a)) ∧
    VeRow s c w { op := 0x62, et := etF, d := .v, a := .v, mod := 7 } (fun i => partOk (etBits i.et) 8 (i.mod % 4)) (.f8unpk c)
      (P (.f8unpk c) 5 8 (etBits i.et) (i.mod % 4) fun a =>
        flags (convertF (etFmt i.et) (decodeF (if bitAt i.mod 2 then e5m2 else e4m3) a)) (decodeF (if bitAt i.mod 2 then e5m2 else e4m3) a)) ∧
    VeRow s c w { op := 0x63, et := [0], d := .v, a := .v, mod := 1 } always (.i4pack c)
      (PartOp s c i (.i4pack c) 4 4 (i.mod % 2) 256 fun n =>
        let v := satS 4 (signed 8 (laneAt 8 (x.vr i.a) n))
        (wrapBits 4 v.1, if v.2 then fSat else 0)) ∧
    VeRow s c w { op := 0x64, et := [0], d := .v, a := .v, mod := 1 } always (.i4unpk c)
      (LaneOp s c i (.i4unpk c) 4 fun n => (wrapBits 8 (signed 4 (laneAt 4 (x.vr i.a) (256 * (i.mod % 2) + n))), 0)) ∧
    VeRow s c w { op := 0x65, et := etI, d := .v, a := .v, c := .typ, imm := .low 5, mod := 3 }
      (fun i => decide (i.c ≤ 2) && decide (etBits i.et ≤ etBits i.c) && partOk (etBits i.c) (etBits i.et) i.mod) (.narrow c)
      (P (.narrow c) 4 (etBits i.c) (etBits i.et) i.mod fun a =>
        let r := narrow (etBits i.et) i.imm.toNat (signed (etBits i.c) a)
        (wrapBits (etBits i.et) r.1, r.2))

/-- R113: moves, permutes and single lanes.
The model's choices it rests on: log entries 18, 19 and 123. -/
def Obligations.VeMoves : Prop :=
  ∀ (s : State) (c : CoreId) (w : DWord), VeRuns s c w →
    let x := s.ve c
    let i := decodeVi w
    let b := etBits i.et
    let L := etLanes i.et
    let A n := laneAt b (x.vr i.a) n
    let B n := laneB x i n
    VeRow s c w { op := 0x68, et := etAny, d := .v, a := .v, b := .any } (fun i => i.pe) (.vsel c)
      (∃ r, (∀ n < L, laneAt b r n = if laneActive x i n then A n else B n) ∧ VeOutcome s c (.vsel c) 5 (x.setV i.d r)) ∧
    VeRow s c w { op := 0x69, et := etAny, d := .v, b := .any } always (.vmov c) (LaneOp s c i (.vmov c) 5 fun n => (B n, 0)) ∧
    VeRow s c w { op := 0x6A, et := etAny, d := .v, a := .v, b := .any } always (.vperm c)
      (LaneOp s c i (.vperm c) 5 fun n => (A (B n % L), 0)) ∧
    VeRow s c w { op := 0x6B, et := etAny, d := .v, a := .v, b := .rot } always (.vrot c)
      (LaneOp s c i (.vrot c) 5 fun n => (A ((n + B n) % L), 0)) ∧
    VeRow s c w { op := 0x6C, et := etAny, d := .s, a := .v, imm := .lane, mod := 1 } always (.vext c)
      (VeOutcome s c (.vext c) 5 (x.setS i.d (BitVec.ofInt 64 (laneInt (bitAt i.mod 0) b (A i.imm.toNat))))) ∧
    VeRow s c w { op := 0x6D, et := etAny, d := .v, a := .s, imm := .lane } always (.vins c)
      (∃ r, (∀ n < L, laneAt b r n =
          if n = i.imm.toNat then (if laneActive x i n then (x.s i.a).toNat % 2 ^ b else if i.zm then 0 else laneAt b (x.vr i.d) n)
          else laneAt b (x.vr i.d) n) ∧ VeOutcome s c (.vins c) 5 (x.setV i.d r)) ∧
    VeRow s c w { op := 0x71, et := etI, d := .v } always (.vidx c) (LaneOp s c i (.vidx c) 5 fun n => (n, 0))

/-- R118: reductions along the fixed tree, and R113: predicate operations.
The model's choices it rests on: log entries 18, 19 and 123. -/
def Obligations.VeReductions : Prop :=
  ∀ (s : State) (c : CoreId) (w : DWord), VeRuns s c w →
    let x := s.ve c
    let i := decodeVi w
    let b := etBits i.et
    let f := etFmt i.et
    let L := etLanes i.et
    VeRow s c w (redShape 0x6E) always (.vredadd c) (Reduces s c i (.vredadd c) (if i.et ≤ 2 then 4 else 5) 0 fun v y =>
      if i.et ≤ 2 then ((v + y) % 2 ^ b, 0) else resultF f ((decodeF f v).isFin && (decodeF f y).isFin) (addV (decodeF f v) (decodeF f y))) ∧
    VeRow s c w (redShape 0x6F) always (.vredmax c)
      (Reduces s c i (.vredmax c) 5 (if i.et ≤ 2 then 2 ^ (b - 1) else signBit f true f.infBits) fun v y =>
        if i.et ≤ 2 then (if signed b v < signed b y then y else v, 0) else ((resultF f false (maxV (decodeF f v) (decodeF f y))).1, 0)) ∧
    VeRow s c w (redShape 0x70) always (.vredmin c)
      (Reduces s c i (.vredmin c) 5 (if i.et ≤ 2 then 2 ^ (b - 1) - 1 else f.infBits) fun v y =>
        if i.et ≤ 2 then (if signed b y < signed b v then y else v, 0) else ((resultF f false (minV (decodeF f v) (decodeF f y))).1, 0)) ∧
    VeRow s c w { op := 0x74, et := etAny, d := .p, a := .p, b := .reg .p } always (.pand c)
      (PredAll s c i (.pand c) fun n => predAt x i i.a n && predAt x i i.b n) ∧
    VeRow s c w { op := 0x75, et := etAny, d := .p, a := .p, b := .reg .p } always (.por c)
      (PredAll s c i (.por c) fun n => predAt x i i.a n || predAt x i i.b n) ∧
    VeRow s c w { op := 0x76, et := etAny, d := .p, a := .p } always (.pnot c)
      (PredAll s c i (.pnot c) fun n => !predAt x i i.a n) ∧
    VeRow s c w { op := 0x77, et := etAny, d := .p, a := .s } always (.pfirstn c)
      (PredAll s c i (.pfirstn c) fun n => decide ((n : Int) < (x.s i.a).toInt)) ∧
    VeRow s c w { op := 0x78, et := etAny, d := .s, a := .p } always (.pcnt c)
      (VeOutcome s c (.pcnt c) 5 (x.setS i.d (BitVec.ofNat 64 ((List.range L).countP (predAt x i i.a)))))

/-- R112 to R114: the scalar operations on 64-bit registers; S0 reads as zero and is not written.
The model's choices it rests on: log entries 18 and 19. -/
def Obligations.VeScalars : Prop :=
  ∀ (s : State) (c : CoreId) (w : DWord), VeRuns s c w →
    let x := s.ve c
    let i := decodeVi w
    let a := x.s i.a
    let b := scalarB x i
    let u := bitAt i.mod 0
    let O cmd row v := VeOutcome s c cmd row (x.setS i.d v)
    VeRow s c w (scalarShape 0x10 0) always (.sadd c) (O (.sadd c) 4 (a + b)) ∧
    VeRow s c w (scalarShape 0x11 0) always (.ssub c) (O (.ssub c) 4 (a - b)) ∧
    VeRow s c w (scalarShape 0x12 0) always (.smul c) (O (.smul c) 4 (a * b)) ∧
    VeRow s c w (scalarShape 0x13 0) always (.sand c) (O (.sand c) 5 (a &&& b)) ∧
    VeRow s c w (scalarShape 0x14 0) always (.sor c) (O (.sor c) 5 (a ||| b)) ∧
    VeRow s c w (scalarShape 0x15 0) always (.sxor c) (O (.sxor c) 5 (a ^^^ b)) ∧
    VeRow s c w (scalarShape 0x16 0) always (.sshl c) (O (.sshl c) 4 (a <<< (b.toNat % 64))) ∧
    VeRow s c w (scalarShape 0x17 1) always (.sshr c) (O (.sshr c) 5 (if u then a >>> (b.toNat % 64) else a.sshiftRight (b.toNat % 64))) ∧
    VeRow s c w (scalarShape 0x18 1) always (.smin c) (O (.smin c) 5 (if (if u then decide (b < a) else b.slt a) then b else a)) ∧
    VeRow s c w (scalarShape 0x19 1) always (.smax c) (O (.smax c) 5 (if (if u then decide (a < b) else a.slt b) then b else a)) ∧
    VeRow s c w { scalarShape 0x1A 7 with c := .bit } (condOk true) (.scmp c)
      (O (.scmp c) 5 (if Machine.cond i.mod (some (if i.c = 1 then compare a.toNat b.toNat else compare a.toInt b.toInt)) then 1 else 0)) ∧
    VeRow s c w { op := 0x1B, et := etZ, d := .s, imm := .full } always (.smovi c) (O (.smovi c) 5 (BitVec.ofInt 64 i.imm)) ∧
    (∀ y : VeSt, y.s 0 = 0 ∧ ∀ v, y.setS 0 v = y)

/-- R110, R113, R127 to R131: branches, the end of a grid point and the trap.
The model's choices it rests on: log entries 18, 19 and 123. -/
def Obligations.VeFlow : Prop :=
  ∀ (s : State) (c : CoreId) (w : DWord), VeRuns s c w →
    let x := s.ve c
    let i := decodeVi w
    let u := UnitId.core c
    let Jump (taken : Prop) (y : VeSt) (t : State) : Prop :=
      (taken → t = s.upVe c (fun _ => y.next (x.pc + i.imm))) ∧ (¬ taken → t = s.upVe c (fun _ => y.next (x.pc + 1)))
    let Goes (cmd : CoreChk → Instr) (taken : Prop) :=
      ∃ t, VePlain s c (fun k => cmd ⟨c, k⟩) false (.jump x (x.pc + 1)) t ∧ Jump taken x t
    VeRow s c w { op := 0x00, et := etZ } always (fun _ => .veNop c) (exec (.veNop c) s = .next (veRan s c x)) ∧
    VeRow s c w { op := 0x02, et := etZ, imm := .full } always (fun _ => .br c) (exec (.br c) s = .next (s.upVe c (fun _ => x.next (x.pc + i.imm)))) ∧
    VeRow s c w { op := 0x03, et := etZ, a := .s, imm := .full } always (fun k => .brz ⟨c, k⟩) (Goes .brz (x.s i.a = 0)) ∧
    VeRow s c w { op := 0x04, et := etZ, a := .s, imm := .full } always (fun k => .brnz ⟨c, k⟩) (Goes .brnz (x.s i.a ≠ 0)) ∧
    VeRow s c w { op := 0x05, et := etAny, a := .p, imm := .full } always (fun k => .brany ⟨c, k⟩)
      (Goes .brany (∃ n < etLanes i.et, predAt x i i.a n = true)) ∧
    VeRow s c w { op := 0x06, et := etAny, a := .p, imm := .full } always (fun k => .brnone ⟨c, k⟩)
      (Goes .brnone (∀ n < etLanes i.et, predAt x i i.a n = false)) ∧
    VeRow s c w { op := 0x07, et := etZ, a := .s, imm := .full } always (.loop c)
      (let y := x.setS i.a (x.s i.a - 1)
       ∃ t, VeEnds s c (.loop c) 4 t ∧ Jump (y.s i.a ≠ 0) y t) ∧
    VeRow s c w { op := 0x08, et := etZ, imm := .full } always (fun _ => .trap c)
      (exec (.trap c) s = .next (veException s c 7 w.toNat 0xFFFF (BitVec.ofInt 32 i.imm).toNat)) ∧
    VeRow s c w { op := 0x01, et := etZ } always (fun _ => .halt c)
      (let y := { x with count := x.count + 1 }
       let X := fld x.d 6 2
       let Y := fld x.d 8 2
       let t := s.upVe c (fun _ => { y with running := false })
       let word := statusWord (tagOf x.d) 2 x.flags
       (x.gx + 1 < X → exec (.halt c) s = .next (s.upVe c (fun _ => startPoint s c (x.gx + 1) x.gy y))) ∧
       (X ≤ x.gx + 1 → x.gy + 1 < Y → exec (.halt c) s = .next (s.upVe c (fun _ => startPoint s c 0 (x.gy + 1) y))) ∧
       (X ≤ x.gx + 1 → Y ≤ x.gy + 1 → exec (.halt c) s = .next (if x.driver = none then ran t u .ve word else logFlags t u word)))

/-- R122 to R124: loads and stores of the core store. R124, R47 to R49: Pip loads and stores of two blocks of 32 elements.
The model's choices it rests on: log entries 18, 19, 89 and 123. -/
def Obligations.VeMemoryAndPip : Prop :=
  (∀ (s : State) (c : CoreId) (w : DWord), VeRuns s c w →
    let x := s.ve c
    let i := decodeVi w
    let u := UnitId.core c
    let z := etBits i.et / 8
    let base := effAddr x i
    let at64 a := a % 2 ^ 64
    let failed p := failCheck (atDesc s u x.d) u (if p then 6 else 3) p
    let R op (cmd : CoreChk → Instr) et b (P : (Chk → Instr) → Prop) :=
      VeRow s c w { op := op, et := et, d := .v, a := .s, b := b, imm := .full } always (fun k => cmd ⟨c, k⟩) (P fun k => cmd ⟨c, k⟩)
    R 0x34 .vld etAny .no (Loads s c i · fun n => base + n * z) ∧
    R 0x36 .vlds etAny (.reg .s) (Loads s c i · fun n => at64 (base + n * (x.s i.b).toNat)) ∧
    R 0x38 .vgath [2, 5] (.reg .v) (Loads s c i · fun n => at64 (base + laneAt 32 (x.vr i.b) n)) ∧
    R 0x3A .vldbc etAny .no (Loads s c i · fun _ => base) ∧
    R 0x35 .vst etAny .no (Stores s c i · fun n => base + n * z) ∧
    R 0x37 .vsts etAny (.reg .s) (Stores s c i · fun n => at64 (base + n * (x.s i.b).toNat)) ∧
    R 0x39 .vscat [2, 5] (.reg .v) (Stores s c i · fun n => at64 (base + laneAt 32 (x.vr i.b) n)) ∧
    VeRow s c w { op := 0x3D, et := etZ, d := .s, a := .s, imm := .full } always (fun k => .sld ⟨c, k⟩)
      ((base + 8 ≤ storeSize → base % 8 = 0 → storeBad s c base 8 = none →
        let y := x.setS i.d (BitVec.ofNat 64 (leNat (storeRead s c base 8)))
        VePlain s c (fun k => .sld ⟨c, k⟩) true (.ok y) (veRan s c y)) ∧
       (∀ k p, base + 8 ≤ storeSize → base % 8 = 0 → storeBad s c base 8 = some p → exec (.sld ⟨c, k⟩) s = .next (failed p)) ∧
       (∀ k, storeSize < base + 8 → exec (.sld ⟨c, k⟩) s = .next (veException s c 2 w.toNat 0xFFFF (base % 2 ^ 32))) ∧
       (∀ k, base + 8 ≤ storeSize → base % 8 ≠ 0 → exec (.sld ⟨c, k⟩) s = .next (veException s c 3 w.toNat 0xFFFF (base % 2 ^ 32)))) ∧
    VeRow s c w { op := 0x3E, et := etZ, d := .s, a := .s, imm := .full } always (fun k => .sst ⟨c, k⟩)
      ((base + 8 ≤ storeSize → base % 8 = 0 →
        let ws := [(base, leBytes 8 (x.s i.d).toNat)]
        VePlain s c (fun k => .sst ⟨c, k⟩) false (.store x ws) (storeParts (veRan s c x) u c ws)) ∧
       (∀ k, storeSize < base + 8 → exec (.sst ⟨c, k⟩) s = .next (veException s c 2 w.toNat 0xFFFF (base % 2 ^ 32))) ∧
       (∀ k, base + 8 ≤ storeSize → base % 8 ≠ 0 → exec (.sst ⟨c, k⟩) s = .next (veException s c 3 w.toNat 0xFFFF (base % 2 ^ 32))))) ∧
  (∀ (s : State) (c : CoreId) (w : DWord), VeRuns s c w →
    let x := s.ve c
    let i := decodeVi w
    let n := modPip i
    let base := effAddr x i
    let es := (x.s i.b).toNat
    let codes := storeRead s c es 2
    let ok : Prop := base + 8 * n ≤ storeSize ∧ es + 2 ≤ storeSize
    let exc cmd := exec cmd s = .next (veException s c 2 w.toNat 0xFFFF ((if storeSize < base + 8 * n then base else es) % 2 ^ 32))
    VeRow s c w { op := 0x3B, et := [5], d := .v, a := .s, b := .reg .s, imm := .full, mod := 3 } pipOk (fun k => .vldpip ⟨c, k⟩)
      ((ok → storeBad s c base (8 * n) = none → storeBad s c es 2 = none →
        ∃ r, (∀ m < 64, laneAt 32 r m =
            (resultF fp32 true (pipVal n (byteAt codes (m / 32)) ((pipUnpack n (storeRead s c (base + 4 * n * (m / 32)) (4 * n))).getD (m % 32) 0))).1 % 2 ^ 32) ∧
          VePlain s c (fun k => .vldpip ⟨c, k⟩) true (.ok ((x.setV i.d r).flag 0)) (veRan s c ((x.setV i.d r).flag 0))) ∧
       (¬ ok → ∀ k, exc (.vldpip ⟨c, k⟩))) ∧
    VeRow s c w { op := 0x3C, et := [5], d := .v, a := .s, b := .reg .s, imm := .full, mod := 3 } pipOk (.vstpip c)
      ((ok →
        let vs := (List.range 64).map (fun m => decodeF fp32 (laneAt 32 (x.vr i.d) m))
        let b0 := toPip n (vs.take 32)
        let b1 := toPip n (vs.drop 32)
        VeEnds s c (.vstpip c) 5 (storeParts (veRan s c (x.flag (b0.2 ||| b1.2))) (.core c) c [(base, pipPack n b0.1.ms ++ pipPack n b1.1.ms),
          (es, [BitVec.ofNat 8 b0.1.e, BitVec.ofNat 8 b1.1.e])])) ∧
       (¬ ok → ∀ k, exc (.vstpip c k))))

/-- R113, R127, R131: PC outside the loaded code, a used-up budget and an undefined OP raise their exceptions, whichever
instruction row is driven.
The model's choices it rests on: log entries 6 and 123. -/
def Obligations.VeExceptions : Prop :=
  ∀ (s : State) (c : CoreId) (k : Chk), veReady s c = true → ∀ cmd ∈ veRows c k,
    let x := s.ve c
    (veWord x = none → ∃ v, exec cmd s = .next (veException { s with free := s.free + 1 } c 4 v 0xFFFF 0)) ∧
    (∀ w, veWord x = some w → fld x.d 16 4 ≤ x.count → exec cmd s = .next (veException s c 5 0 0xFFFF 0)) ∧
    (∀ w, veWord x = some w → x.count < fld x.d 16 4 → (decodeVi w).op ∉ veOps →
      exec cmd s = .next (veException s c 1 w.toNat 0xFFFF 0))

/-! ### Sequencers, engines and counters -/

/-- R75 to R77, R80, R81, R105: what the sequencer does with each of its own descriptors, and an engine's completion.
The model's choices it rests on: log entries 18, 69 and 85. -/
def Obligations.SequencerDescriptors : Prop :=
  ∀ (s : State) (u : UnitId) (j : Job), jobOf s u = some j →
    let q := (s.unit u).seq
    let next (s : State) := s.upSeq u (fun q => { q with cur := none, done := q.done + 1 })
    (∀ d bs, working s u = true → q.cur = none → q.wait = none → q.idx < q.len →
      readVa s j.slice (actorOf j) .fetch (q.base + 64 * q.idx) 64 = .ok bs → lineOf bs = d →
      (descOk (kindOf u) q.preemptible q.idx q.len d = false → ∀ k, exec (.descriptorIssue u k) s = .next (failUnit (atDesc s u d) u 0x01)) ∧
      (descOk (kindOf u) q.preemptible q.idx q.len d = true → mayIssue u q d = true →
        exec (.descriptorIssue u .pass) s = .next (unitAccess (s.upSeq u (fun q =>
          let q := { q with idx := q.idx + 1, tag := tagOf d }
          match routeOf u (typeOf d) with
          | some e => q.setQueue e (q.queue e ++ [{ d := d, ran := false, status := 0 }])
          | none => { q with cur := some d })) u false .fetch (q.base + 64 * q.idx) 64 false))) ∧
    (∀ d, working s u = true → q.cur = some d →
      (typeOf d = 1 → exec (.begin_ u) s =
        .next ((next s).upSeq u (fun q => { q with preemptible := preOf d, liveBase := fld d 8 2, liveSize := fld d 10 2 }))) ∧
      (typeOf d = 2 → q.se = [] → q.te = [] → q.ve = [] → q.own = [] → ∃ t, exec (.end_ u) s = .next t ∧
        t = (helperRfes s u j.id).foldl finishUnit (finishUnit (atDesc (next s) u d) u)) ∧
      (typeOf d = 7 → exec (.syncWait u) s = .next ((atDesc s u d).upSeq u (fun q => { q with
        cur := none
        wait := some { who := .unit u j.id, ctr := BitVec.ofNat 13 (fld d 4 2), mode1 := fld d 6 1 == 1, value := BitVec.ofNat 32 (fld d 8 4) }
        arrived := false }))) ∧
      (typeOf d = 8 → (s.ctr (BitVec.ofNat 13 (fld d 4 2))).slice = some j.slice →
        exec (.syncSignalDescriptor u) s = .next ((next s).upCtr (BitVec.ofNat 13 (fld d 4 2)) (fun x => { x with
          issued := x.issued + 1
          flight := x.flight ++ [{ value := BitVec.ofNat 32 (fld d 8 4), src := .program u j.id }] }))) ∧
      (typeOf d = 8 → (s.ctr (BitVec.ofNat 13 (fld d 4 2))).slice ≠ some j.slice →
        exec (.syncSignalDescriptor u) s = .next (failUnit (atDesc s u d) u 0x06)) ∧
      (typeOf d = 9 → q.se = [] → q.te = [] → q.ve = [] → q.own = [] → (j.carryOver = false ∨ fld d 8 4 = 0) →
        exec (.yield_ u) s = .next ((atDesc (next s) u d).upSeq u
          (fun q => if fld d 6 2 = 0 then q else { q with liveBase := fld d 4 2, liveSize := fld d 6 2 })))) ∧
    (∀ d b at_, (s.unit u).phase = .preemptAsked at_ b → q.cur = some d → typeOf d = 9 → q.se = [] → q.te = [] → q.ve = [] → q.own = [] →
      exec (.yield_ u) s = .next (((atDesc (next s) u d).upSeq u
        (fun q => if fld d 6 2 = 0 then q else { q with liveBase := fld d 4 2, liveSize := fld d 6 2 })).upUnit u
          (fun x => { x with phase := .preemptStopped b }))) ∧
    (∀ e x xs, working s u = true → q.queue e = x :: xs → x.ran = true → (e = .se → ∀ t ∈ s.mem.txns, t.src ≠ .job u) →
      exec (.descriptorComplete u e) s = .next (aeOpEnd (logFlags (s.upSeq u (fun q => { (q.setQueue e xs) with done := q.done + 1 })) u x.status) u))

/-- R250 to R256: a signal that reaches its counter adds its value, is refused at
the limit with a notice to the counter's slice, or meets a counter out of service; a program whose signal has not been added stops; and a wait that reaches a
counter of its own slice joins the waits. -/
def Obligations.SyncCounters : Prop :=
  (∀ (s : State) (c : CtrId) g gs, (s.ctr c).flight = g :: gs →
    let t := s.upCtr c (fun x => { x with flight := gs, applied := x.applied + 1 })
    let stop (code : Byte) (r : State) : State := match g.src with
      | .program u j => if (r.unit u).job = some j then failUnit r u code else r
      | _ => r
    ((s.ctr c).dead = false → (s.ctr c).value.toNat + g.value.toNat < 2 ^ 32 → exec (.syncSignalApply c) s =
      .next (releaseWaits (t.upCtr c (fun x => { x with value := x.value + g.value, added := x.added + g.value.toNat })) c)) ∧
    (∀ n, (s.ctr c).dead = false → (s.ctr c).slice = some n → 2 ^ 32 ≤ (s.ctr c).value.toNat + g.value.toNat →
      exec (.syncSignalApply c) s = .next (stop 0x0F (notify (t.upCtr c (fun x => { x with overflows := x.overflows + 1 })) n 0x0A 1
        (payload [(0, 2, c.toNat), (2, 1, sourceCode g.src)])))) ∧
    ((s.ctr c).dead = true → exec (.syncSignalApply c) s = .next (stop 0x10 t))) ∧
  (∀ (s : State) (u : UnitId) (w : SyncWait) (j : Job), (s.unit u).seq.wait = some w → (s.unit u).seq.arrived = false → working s u = true →
    jobOf s u = some j →
    ((s.ctr w.ctr).slice ≠ some j.slice → exec (.syncWaitArrive u) s = .next (failUnit s u 0x06)) ∧
    ((s.ctr w.ctr).slice = some j.slice → (s.ctr w.ctr).dead = true → exec (.syncWaitArrive u) s = .next (failUnit s u 0x10)) ∧
    ((s.ctr w.ctr).slice = some j.slice → (s.ctr w.ctr).dead = false → exec (.syncWaitArrive u) s =
      .next (releaseWaits ((s.upSeq u (fun q => { q with arrived := true })).upCtr w.ctr (fun x => { x with waits := x.waits ++ [w] })) w.ctr)))

/-- R252: after a change of a counter's value, every MODE 0 wait whose condition holds is released, whatever its position, and then the
MODE 1 waits from the oldest while the value allows, each taking its value; the others stay in the order of their arrival. A sequencer whose
wait is released goes on with its SYNC_WAIT done; one whose wait is not released is left as it is. -/
def Obligations.WaitsReleasedInOrder : Prop :=
  ∀ (s : State) (c : CtrId),
    let x := s.ctr c
    let t := releaseWaits s c
    let ones := x.waits.filter (fun w => w.mode1)
    ∃ k, k ≤ ones.length ∧
      ((ones.take k).map (fun w => w.value.toNat)).sum + (t.ctr c).value.toNat = x.value.toNat ∧
      (∀ w, ones[k]? = some w → (t.ctr c).value.toNat < w.value.toNat) ∧
      (t.ctr c).waits.filter (fun w => w.mode1) = ones.drop k ∧
      (t.ctr c).waits.filter (fun w => !w.mode1) = x.waits.filter (fun w => !w.mode1 && decide (x.value.toNat < w.value.toNat)) ∧
      (∀ u j w, (s.unit u).seq.wait = some w → w.who = .unit u j →
        (w ∈ ones.take k ∨ (w ∈ x.waits ∧ w.mode1 = false ∧ w.value.toNat ≤ x.value.toNat) →
          (t.unit u).seq.wait = none ∧ (t.unit u).seq.done = (s.unit u).seq.done + 1) ∧
        (¬ (w ∈ ones.take k ∨ (w ∈ x.waits ∧ w.mode1 = false ∧ w.value.toNat ≤ x.value.toNat)) → t.unit u = s.unit u))

/-- R83 to R87, R91 to R99, R103, R126 to R135, R187: the engines of a core perform the head of their queue.
The model's choices it rests on: log entries 18, 19, 60, 61, 68, 97, 98, 99, 100, 101, 102, 103 and 123. -/
def Obligations.CoreEngines : Prop :=
  ∀ (s : State) (c : CoreId) (d : Line) (j : Job), jobOf s (.core c) = some j →
    let u := UnitId.core c
    let t := atDesc s u d
    (headOf s u .se = some d →
      (typeOf d = 4 → exec (.seWindow c) s = .next (ran (s.upCore c (fun x => { x with win := tset none x.win (fld d 4 1) (some d) })) u .se 0)) ∧
      (typeOf d = 3 → (∀ r ∈ s.host.reads, r.src ≠ .job u) →
        let m := decodeMove d
        (m.neighbour = true → m.nb = c.toNat % 4 → ∀ k, exec (.seMove c k) s = .next (failUnit t u 0x01)) ∧
        ((m.neighbour = true → m.nb ≠ c.toNat % 4) → inStore m.near m.len m.counts m.nearStrides = false →
          ∀ k, exec (.seMove c k) s = .next (failUnit t u 0x05)) ∧
        (m.neighbour = true → m.nb ≠ c.toNat % 4 → inStore m.near m.len m.counts m.nearStrides = true →
          inStore m.far m.len m.counts m.farStrides = true → (s.unit (.core (neighbourOf c m.nb))).job = some j.id →
          ∀ k, exec (.seMove c k) s = .next (moveAll m c j k t)) ∧
        (m.neighbour = false → inStore m.near m.len m.counts m.nearStrides = true →
          (m.toFar = false → hostPieces m c j t = [] → ∀ k, k.far = .pass →
            exec (.seMove c k) s = .next (moveAll m c j k t)) ∧
          (∀ g k, m.toFar = true → freeTag t (poolOf u) = some g → k.far = .pass → exec (.seMove c k) s = .next (moveAll m c j k
            (openTxn t { tag := g, pool := poolOf u, src := .job u, mid := midUnit u, enc := tget 0 s.sec.unitEnc (UnitId.code u), write := true, crossing := false, issued := s.now, slice := j.slice }))) ∧
          (∀ k, m.toFar = true → freeTag t (poolOf u) = none →
            exec (.seMove c k) s = .next (t.upMem (fun x => { x with tagStalls := tup 0 x.tagStalls (poolOf (.core c)).val (· + 1) })))))) ∧
    (headOf s u .te = some d →
      let post := fld d 7 1
      let x := decodeTe d ((if bitAt post 4 then tget none (s.core c).win (bits post 6 5) else none).map decodeWin)
      (bitAt post 4 = true → (tget none (s.core c).win (bits post 6 5)).isSome = true) → teFits x = true →
      let fits : Prop := rangesFit (teReads x) = true ∧ rangesFit (teWrites x) = true ∧ rangesFit (teWindow x) = true
      (¬ fits → ∀ k, exec (.teOp c k) s = .next (failUnit t u 0x05)) ∧
      (fits → (∀ r ∈ teReads x ++ teWindow x, storeBad t c r.1 r.2 = none) →
        let valid : Prop := ∀ j < x.n, ∀ g < x.k / 4, metaOk (metaCode t c x j g) = true
        let begun (k : TeChk) := eccCount t u k.ecc.corrected
        (x.sparse = true → ¬ valid → ∀ k, exec (.teOp c k) s = .next (failUnit t u 0x09)) ∧
        ((x.sparse = true → valid) →
          (∀ k, k.ecc.double = none → k.blocks = [] →
            let left := (teBlocks x).drop (headItem t u .te).part
            let now := left.take (k.stop.getD left.length)
            (∀ b ∈ now, ∀ p ∈ b.1, rowAgrees t c x b.2 p = true) →
            exec (.teOp c k) s = .next (blocksEnd c d x ((headItem t u .te).part + now.length) (now.foldl (teBlock c x t) (begun k, (headItem t u .te).flags)))) ∧
          (∀ k b bs, (teBlocks x).drop (headItem t u .te).part = b :: bs → k.stop ≠ some 0 →
            (k.ecc.double ≠ some 0 → ((∃ p ∈ b.1, rowAgrees t c x b.2 p = false) ∨ k.blocks.head? = some .fail) →
              exec (.teOp c k) s = .next (failCheck (begun k) u 1 false)) ∧
            (k.ecc.double = some 0 → exec (.teOp c k) s = .next (failCheck (begun k) u 3 false)))))) ∧
    (headOf s u .ve = some d → (s.ve c).running = false →
      (fld d 4 1 = 0 → bitAt (fld d 5 1) 0 = false → storeBad s c (fld d 12 4) (8 * fld d 10 2) = none →
        exec (.veLaunch c) s = .next (s.upVe c (fun _ => startPoint s c 0 0
          { running := true, d := d, code := codeOf (storeRead s c (fld d 12 4) (8 * fld d 10 2)),
            codeKey := some ((s.unit u).job.getD 0, fld d 12 4, fld d 10 2), launches := (s.ve c).launches + 1 }))) ∧
      (∀ win, fld d 4 1 = 1 → tget none (s.core c).win (fld d 6 1 % 4) = some win → convFits d win = true → rangesFit (convReads d (decodeWin win)) = true →
        convTableFits d win = true → convBad s c d win = none →
        let begun := convBegin t c
        let total := fld d 40 4 * convTaps win
        let at0 := convDone begun c win
        let drawn (n : Nat) (r : State) : State := veDraw r c (convDrawn d win at0 (at0 + n))
        (∀ k, k.taps = none → total ≤ k.tap →
          exec (.veLaunchConv c k) s = .next (veDraw (convEnd (convRun c d win (total - at0) begun) c d win) c (convDrawn d win at0 total))) ∧
        (∀ k n, k.taps = some n → at0 + n < total → at0 + n ≤ k.tap →
          exec (.veLaunchConv c k) s = .next (drawn n (convEnd (convRun c d win n begun) c d win)))))

/-- R125, R187 to R189: a TSAMPLE goes to the texture unit and its four registers come back, or a slot that is not bound,
not readable or of an undefined format raises TEXTURE.
The model's choices it rests on: log entries 15, 18, 44, 106, 107 and 123. -/
def Obligations.TextureSamples : Prop :=
  ∀ (s : State) (c : CoreId) (w : DWord),
    let i := decodeVi w
    (VeRuns s c w →
      VeRow s c w { op := 0x3F, et := [5], d := .v, a := .v, b := .any, c := .v, imm := .low 8, mod := 1 }
        (fun i => decide (i.d ≤ 28) && (bitAt i.mod 0 || i.c == 0)) (.tsample c)
        (∀ k,
          (∀ ctx j, boundCtx s c = some (ctx, j) → slotNo i < fld ctx 88 2 →
            exec (.tsample c k) s = .next ((s.upVe c (fun x => { x with tex := some w })).upVe c (fun x => { x with texChk := k }))) ∧
          (∀ ctx j, boundCtx s c = some (ctx, j) → fld ctx 88 2 ≤ slotNo i → exec (.tsample c k) s = .next (veException s c 6 w.toNat 0xFFFF 0)) ∧
          (boundCtx s c = none → exec (.tsample c k) s = .next (veException s c 6 w.toNat 0xFFFF 0)))) ∧
    (∀ r ctx j, r.core = c → (s.ve c).tex = some w → boundCtx s c = some (ctx, j) → (s.ve c).running = true → working s (.core c) = true →
      let after := s.upVe c (fun x => { x with tex := none, texChk := .pass })
      (∀ bs rs, r.read = .pass → (s.ve c).texChk = .pass → jobRead s j (texSlotVa ctx i) 32 = .ok bs → (slotOf bs).fmt ≤ 0x0B →
        sampleLanes s j (slotOf bs) (leNat (bs.take 16)) (s.ve c) i ((activeLanes (s.ve c) i 64).zipIdx) = .ok rs →
        ∃ t, exec (.tsampleResult r) s = .next t ∧ t = veDraw (s.upVe c (fun x => putSample x i rs)) c 1 ∧
          (t.ve c).tex = none ∧ (t.ve c).pc = (s.ve c).pc + 1 ∧ (t.ve c).count = (s.ve c).count + 1) ∧
      (∀ bs, jobRead s j (texSlotVa ctx i) 32 = .ok bs → 0x0B < (slotOf bs).fmt →
        exec (.tsampleResult r) s = .next (reachPoint (veException after c 6 w.toNat 0xFFFF 0) (.core c))) ∧
      (∀ va, jobRead s j (texSlotVa ctx i) 32 = .fault va →
        exec (.tsampleResult r) s = .next (reachPoint (veException after c 6 w.toNat 0xFFFF 0) (.core c))))

/-- R148 to R156, R164, R167: appends and gathers of a resident sequence run to their status word, a decode takes its entries in
turn and marks those it refuses; the checks that end the job come first, and an operation under way goes on from its place.
The model's choices it rests on: log entries 18, 19, 62, 63, 67, 108 and 124. -/
def Obligations.AttentionEngines : Prop :=
  ∀ (s : State) (a : AeId) (d : Line) (j : Job), let u := UnitId.ae a
    headOf s u .own = some d → jobOf s u = some j →
    let q := fld d 4 2
    let s1 := startOp (atDesc s u d) a [q]
    (∀ o k, (s.ae a).op = some o →
      (∀ x, typeOf d = 0x10 → opSeq s o q = some x → exec (.aeAppend a k) s = .next (runAppend s a k j d q x o)) ∧
      (∀ x, typeOf d = 0x11 → opSeq s o q = some x → exec (.aeGather a k) s = .next (runGather s a k d q x o)) ∧
      (typeOf d = 0x12 → exec (.aeDecode a k) s = .next (runBatch s a k j d o))) ∧
    ((s.ae a).op = none → typeOf d = 0x10 →
      (∀ k r, appendErr s1 a j d (s.kv a q) = some r → r ≠ 0x0C → exec (.aeAppend a k) s = .next (failUnit s1 u r)) ∧
      (∀ k x, appendErr s1 a j d (s.kv a q) = some 0x0C → s.kv a q = some x →
        exec (.aeAppend a k) s = .next (failUnit (kvFull s1 a q x.slice) u 0x0C)) ∧
      (∀ o x kb vb ke ve, (s1.ae a).op = some o → s.kv a q = some x → appendErr s1 a j d (some x) = none →
        let layer := fld d 6 2
        let count := fld d 8 4
        let space := fld d 12 1
        let src := fld d 13 1
        let m := count * x.kvHeads * kvM src x.headDim
        let e := count * x.kvHeads * kvX src x.headDim
        let keys := layerKeys x layer ((tokenPages x x.length count).map (fun p => entryOf x p.1))
        aeRead s1 a j space (fld d 16 8) m = .ok kb → aeRead s1 a j space (fld d 24 8) m = .ok vb →
        aeRead s1 a j space (fld d 32 8) e = .ok ke → aeRead s1 a j space (fld d 40 8) e = .ok ve →
        (∀ r, walksBad s1 o.home q x keys = some r → ∀ k, exec (.aeAppend a k) s = .next (walkFail s1 u r)) ∧
        (walksBad s1 o.home q x keys = none →
          let all := (appendRuns s1 o.home q x layer src count kb vb ke ve).flatMap (fun r => (cutGranules r.pa r.bs).map (fun g => (g, r.flags)))
          let part := all.drop o.pos
          let flags := part.foldl (fun f g => f ||| g.2) (o.flags ||| 0)
          let t := cacheWalks (part.foldl (fun s g => kvWrite u j s g.1.1 g.1.2) s1) o.home q x (treeKeys keys)
          let t := aeDraw (aeDraw (aeDraw (aeDraw t a space (fld d 16 8) m) a space (fld d 24 8) m) a space (fld d 32 8) e) a space (fld d 40 8) e
          exec (.aeAppend a {}) s = .next (ran (stepSeq (setOp t a { o with pos := o.pos + part.length, flags := flags }) o.home (stepKey j.id (s1.unit u).entry) q layer count)
            u .own (statusWord (tagOf d) 3 flags))))) ∧
    ((s.ae a).op = none → typeOf d = 0x11 →
      (∀ k r, gatherErr s1 a j d (s.kv a q) = some r → exec (.aeGather a k) s = .next (failUnit s1 u r)) ∧
      (∀ o x gl, (s1.ae a).op = some o → s.kv a q = some x → gatherErr s1 a j d (some x) = none → rootGlobals s1 x = .ok gl →
        let v := bitAt (fld d 9 1) 0
        let first := fld d 12 4
        let y := { x with globals := gl }
        let keys := (List.range (fld d 16 4)).map (fun i => (fld d 6 2 * x.kvHeads + fld d 8 1, gatherEntry y (first + i)))
        let rows := gatherRows d y
        let fs := keys.map (fun k => pageAt s1 o.home q y k.1 k.2)
        (∀ r, walksBad s1 o.home q y keys = some r → ∀ k, exec (.aeGather a k) s = .next (walkFail s1 u r)) ∧
        (walksBad s1 o.home q y keys = none → (∀ r ∈ rows.1, r.1 + r.2 ≤ storeSize) → rows.2.1 + rows.2.2 ≤ storeSize →
          (∀ p ∈ fs.zipIdx, kvBad s1 y p.1 (first + p.2) v = none) →
          let g := gatherData s1 d y fs
          let all := gatherGranules d y g.1
          let part := all.drop o.pos
          let core := spaceCore a (bits (fld d 9 1) 3 2 + 1)
          let t := cacheWalks (part.foldl (fun s g => storeWrite s u core g.1 g.2) s1) o.home q y (treeKeys keys.eraseDups)
          let t := setOp t a { o with pos := o.pos + part.length, flags := o.flags ||| 0 }
          exec (.aeGather a {}) s = .next (ran (fs.zipIdx.foldl (fun s p => kvDraw s u y p.1 (first + p.2) v) t) u .own
            (statusWord (tagOf d) 3 (o.flags ||| 0 ||| g.2)))))) ∧
    ((s.ae a).op = none → typeOf d = 0x12 → ∀ k,
      let t := atDesc s u d
      let len := 32 * fld d 6 2
      (spaceOk s a j (fld d 23 1) = false → exec (.aeDecode a k) s = .next (failUnit t u 0x06)) ∧
      (spaceOk s a j (fld d 23 1) = true →
        (∀ va, firstUnreachable s j.slice (actorOf j) .write (fld d 8 8) len = some va → exec (.aeDecode a k) s = .next (failAccess t u va)) ∧
        (∀ tbl, firstUnreachable s j.slice (actorOf j) .write (fld d 8 8) len = none → jobRead s j (fld d 8 8) len = .ok tbl →
          exec (.aeDecode a k) s = .next (goBatch (startBatch (unitAccess t u false .read (fld d 8 8) len false) a d tbl) a k j d)))) ∧
    (∀ k r o i st, typeOf d = 0x12 → (r.st.ae a).op = some o → r.halt = false → r.left ≠ some 0 → o.begun = false →
      let q := fieldOf ((o.table.drop (32 * i)).take 32) 0 2 % 1024
      let dup := (List.range i).any (fun i' => fieldOf o.table (32 * i') 2 % 1024 == q)
      let gen := ((opSeq r.st o q).map (fun x => x.gen.toNat)).getD 0
      entryStatus j d (opSeq r.st o q) dup = st → st ≠ 0 →
      decodeEntry a j d k r i = { r with st := entryOver (entryFailed r.st u o.home j q st dup) a j d o i st gen 0 })

/-- R172 to R185: the raster front end latches its context and bins; clears and resolves touch every tile; a tile goes to a
waiting core.
The model's choices it rests on: log entries 18, 43 and 113. -/
def Obligations.RasterFrontEnds : Prop :=
  (∀ (s : State) (r : RfeId) (d : Line) (j : Job) (bs : Bytes), let u := UnitId.rfe r
    headOf s u .own = some d → jobOf s u = some j → jobRead s j (fld d 8 8) 128 = .ok bs →
    let x : Rc := BitVec.ofNat 1024 (leNat bs)
    (ctxOk x = false → typeOf d = 0x21 → exec (.rfeClear r) s = .next (failUnit (atDesc s u d) u 0x01)) ∧
    (ctxOk x = true →
      (typeOf d = 0x20 → (s.raster r).ctx = none →
        let t := (atDesc s u d).upRaster r (fun _ => { ctx := some x })
        ((s.ctr (BitVec.ofNat 13 (fld x 78 2))).slice ≠ some j.slice → ∀ k, exec (.rfeRender r k) s = .next (failUnit t u 0x06)) ∧
        ((s.ctr (BitVec.ofNat 13 (fld x 78 2))).slice = some j.slice →
          (∀ n, exec (.rfeRender r { upTo := n }) s = .next (settleTiles (bin (atDesc s u d) r j x n { ctx := some x }) r j x)) ∧
          exec (.rfeRender r { chk := .fail }) s = .next (failCheck t u 1 false))) ∧
      (typeOf d = 0x21 → exec (.rfeClear r) s = .next (rfeRan ((List.range x.tiles).foldl (fun s t => upMeta s r j x (fun v =>
        v ||| (fld d 4 1 % 4)) t) (atDesc s u d)) r)) ∧
      (typeOf d = 0x22 → exec (.rfeResolve r) s = .next (rfeRan ((List.range x.tiles).foldl (resolveTile r j x) (atDesc s u d)) r)))) ∧
  (∀ (s : State) (r : RfeId) (d : Line) (j : Job) (x : Rc), headOf s (.rfe r) .own = some d → jobOf s (.rfe r) = some j → typeOf d = 0x20 →
    (s.raster r).ctx = some x → (s.ctr (BitVec.ofNat 13 (fld x 78 2))).slice = some j.slice →
    ∀ n, exec (.rfeRender r { upTo := n }) s = .next (if (s.raster r).finishing then s
      else settleTiles (bin s r j x (n.map (· + (s.raster r).triangles)) (s.raster r)) r j x)) ∧
  (∀ (s : State) (r lead : RfeId) (j : Job) (x : Rc), jobOf s (.rfe r) = some j → leadOf j = some lead → (s.raster lead).ctx = some x →
    (s.raster lead).finishing = true → working s (.rfe r) = true → working s (.rfe lead) = true →
    let b := s.raster lead
    let ready := b.work.filterMap (fun w => (entryCore s j r w.entry).bind (fun c => if awaitsTile s x c then some (c, w) else none))
    (∀ c w ws, ready = (c, w) :: ws → w.rest = [] → ∀ k, exec (.tileIssue r k) s = .next (yieldFronts (writeOut s lead j x c w) lead j)) ∧
    (∀ c w ws, ready = (c, w) :: ws → w.rest ≠ [] → ∀ k, exec (.tileIssue r k) s = .next (yieldFronts (shadeBatch s r lead j x c w k) lead j)) ∧
    (∀ n ns c, ready = [] → b.todo = n :: ns → entryCore s j r 0 = some c → j.e.cores = 1 → b.work = [] → awaitsTile s x c = true →
      ∀ k, exec (.tileIssue r k) s = .next (loadTile (s.upRaster lead (fun y => { y with
        todo := ns
        work := y.work ++ [{ entry := 0, tile := n, rest := (tget [] b.lists n).reverse, draw := tget none b.lastDraw 0 }] })) c j x n)))

/-! ### Pyotos commands -/

/-- R319, R320, R348, R350 and Table 12-4, for every command of the tables: an entry that can be taken answers
BAD_OPCODE where no table defines its opcode, DENIED where the command is slice 0's alone, and RESERVED with the first
reserved byte that is not zero in DETAIL; such an entry is taken from the ring, and nothing but its completion
happens. An entry that cannot be taken, or that is another row's, changes nothing. R349: an entry with BARRIER that finds a command
before it in flight is taken and waits, and it starts when those have completed. The order of the three checks is the
model's choice (log entry 12).
The model's choices it rests on: log entries 28 and 131. -/
def Obligations.CommandChecks : Prop :=
  ∀ c ∈ cmdRows, ∀ (s : State) (n : SliceId) (w : Line),
    let rejects (status detail : Nat) := exec (c.row n w) s = .next (complete (accept s n w) n (flightOf s n w) status detail 0)
    (canTake s n w = true → fld w 0 2 ∉ opcodes → rejects 1 0) ∧
    (canTake s n w = true → fld w 0 2 = c.op → c.mine w = true → c.zero = true → n ≠ 0 → rejects 4 0) ∧
    (∀ o, canTake s n w = true → fld w 0 2 = c.op → c.mine w = true → (c.zero = true → n = 0) → badReserved w c.named = some o → rejects 2 o) ∧
    (mayTake s n = false → released s n w = none → exec (c.row n w) s = .next s) ∧
    (fld w 0 2 ∈ opcodes → fld w 0 2 ≠ c.op → exec (c.row n w) s = .next s) ∧
    (mustWait s n w = true → fld w 0 2 = c.op → c.mine w = true →
      exec (c.row n w) s = .next (awaitEvent (accept s n w) n (flightOf s n w) (.barrier w))) ∧
    (∀ f, released s n w = some f → fld w 0 2 = c.op → c.mine w = true → c.zero = true → n ≠ 0 →
      exec (c.row n w) s = .next (complete (awaitEvent s n f .nothing) n { f with wait := .nothing } 4 0 0))

/-- R319, R349: what taking an entry does: CMD_HEAD moves by one, the CMD bit stays only where the device has seen a later tail,
the command joins those in flight with its TAG and ring position, the visit goes on, and nothing else of the state changes. A
BARRIER starts only with no earlier command in flight, and no later one is taken while it waits. Pyotos takes up to 8 commands of a
slice and then turns to the next that has one, by rising number; in this order two slices never stand equal.
The model's choices it rests on: log entry 131. -/
def Obligations.TakingAnEntry : Prop :=
  (∀ (s : State) (n : SliceId) (w : Line),
    let p := (s.slice n).page
    ((accept s n w).slice n).page = { p with cmdHead := p.cmdHead + 1, dbCmd := decide (p.cmdHead + 1 ≠ p.seenTail) } ∧
    ((accept s n w).slice n).flight = (s.slice n).flight ++ [{ tag := BitVec.ofNat 32 (fld w 4 4), pos := p.cmdHead, op := BitVec.ofNat 16 (fld w 0 2), wait := .nothing }] ∧
    (∀ m, m ≠ n → (accept s n w).slice m = s.slice m) ∧ { accept s n w with slices := s.slices, host := s.host } = s ∧
    (accept s n w).host = { s.host with visit := n, visited := if n = s.host.visit ∧ s.host.visited < 8 then s.host.visited + 1 else 1 }) ∧
  (∀ (s : State) (n : SliceId) (w : Line), canTake s n w = true →
    (s.slice n).page.enable = true ∧ (s.slice n).page.error = false ∧ (s.slice n).page.cmdHead ≠ (s.slice n).page.seenTail ∧
    (s.slice n).flight.length < 1024 ∧ (fld w 2 1 % 2 = 1 → (s.slice n).flight = []) ∧ (∀ f ∈ (s.slice n).flight, ∀ w', f.wait ≠ .barrier w') ∧
    (∀ p ∈ s.slices, ringReady p.2 = true → turnOf s n ≤ turnOf s (BitVec.ofNat 7 p.1))) ∧
  (∀ (s : State) (n m : SliceId), turnOf s n = turnOf s m → n = m) ∧
  (∀ (s : State) (n : SliceId), s.host.visited < 8 → turnOf s s.host.visit ≤ turnOf s n) ∧
  (∀ (s : State) (n : SliceId), 8 ≤ s.host.visited → turnOf s n ≤ turnOf s s.host.visit)

/-- R344, R356, R360, R361, R369 to R372, R479, R481 (Table 12-6): NOP, DIAG_READ, LOG_READ, POWER_SET and FW_UPDATE. R345, R352, Table 12-1: the three mailbox messages and their replies. R335, R336: an end of a channel that is
enabled rings the other end, writes the words that the other end reads, and reads any word, while the reader's domain is on.
The model's choices it rests on: log entries 12, 27, 29, 30 and 82. -/
def Obligations.AdminCommandsAndMailbox : Prop :=
  (OnRow .nop 0x0001 false [] (fun a _ _ _ gives => gives (.ok a 0)) ∧
  OnRow .diagRead 0x0004 false [(8, 1), (9, 1), (10, 2), (16, 8), (24, 4)] (fun a n w _ gives =>
    let kind := fld w 8 1
    (kind < 1 ∨ 6 < kind → gives (.err 3 8)) ∧
    (2 ≤ kind → kind ≤ 5 → n ≠ 0 → gives (.err 4 8)) ∧
    (∀ bs, (kind = 1 ∨ (2 ≤ kind ∧ kind ≤ 5 ∧ n = 0)) ∧ bs = diagRecord a n kind ∨
        (kind = 6 ∧ fld w 9 1 ≤ 15 ∧ fld w 10 2 ≤ 1023 ∧
          ∃ x, a.kv (BitVec.ofNat 4 (fld w 9 1)) (fld w 10 2) = some x ∧ x.slice = n ∧ bs = seqBytes x) →
      DestAt a n w 16 (min (fld w 24 4) bs.length) →
      gives (.ok (writeBy a midStagehand n (.slice n) (fld w 16 8) (bs.take (min (fld w 24 4) bs.length)))
        (payload [(0, 4, min (fld w 24 4) bs.length), (4, 4, bs.length)])))) ∧
  OnRow .logRead 0x0005 true [(16, 8), (24, 8), (32, 4)] (fun a n w _ gives =>
    let es := ((a.log.filter (fun x => decide (fld w 16 8 ≤ x.idx))).take (fld w 32 4 / 32))
    DestAt a n w 24 (32 * es.length) →
      gives (.ok (writeBy { a with free := a.free + 1 } midStagehand n (.slice n) (fld w 24 8) (es.flatMap (logBytes a.free)))
        (payload [(0, 8, (es.head?.map (·.idx)).getD a.logNext), (8, 4, es.length), (12, 4, (a.log.head?.map (·.idx)).getD a.logNext)]))) ∧
  OnRow .powerSetParked 0x0006 true [(8, 1)] (fun a n w f gives =>
    (1 < fld w 8 1 → gives (.err 3 8)) ∧
    (fld w 8 1 = 1 → parked a = true → gives (.ok a 0)) ∧
    (fld w 8 1 = 1 → parked a = false → heldDomain a parkDomains = none → powerBusy a = true → gives (.err 6 8)) ∧
    (fld w 8 1 = 1 → parked a = false → heldDomain a parkDomains = none → powerBusy a = false →
      let t := sideBand (complete (park a) n f 0 0 0) 6 1
      gives (.wait (if t.pwr.sleepAsked then trySleep t else t) .power))) ∧
  OnRow .powerSetActive 0x0006 true [(8, 1)] (fun a n w f gives =>
    (fld w 8 1 = 0 → parked a = false → gives (.ok a 0)) ∧
    (fld w 8 1 = 0 → parked a = true → a.pwr.emergency = true → gives (.err 9 0)) ∧
    (fld w 8 1 = 0 → parked a = true → a.pwr.emergency = false → gives (.wait (sideBand (complete (unpark a) n f 0 0 0) 6 0) .power))) ∧
  (∀ faulty, OnRow (fun n w => .fwUpdate n { line := w, faulty := faulty }) 0x0007 true [(8, 1), (16, 8), (24, 4)] (fun a n w _ gives =>
    let typ := if fld w 8 1 = 0 then 2 else 1
    (1 < fld w 8 1 → gives (.err 3 8)) ∧
    (∀ img, fld w 8 1 ≤ 1 → StructAt a n w 16 (fld w 16 8) (fld w 24 4) img → let a := structRead a n (fld w 16 8) (fld w 24 4);
      let passes := imageOk a typ img && bankFits (newBank a typ img)
      (passes = false → gives (.err 23 0)) ∧ (passes = true → faulty = false → gives (.ok (updateBank a typ img) 0)) ∧
      (passes = true → faulty = true → gives (.errS (writeBank a {}) 23 0 0)))))) ∧
  (∀ (s : State) (n : SliceId), s.host.devReady = true → (s.slice n).valid = true → (s.slice n).page.dbMbx = true →
    let code := (tget 0 (s.slice n).page.words 0).toNat % 65536
    let word (i : Nat) := (tget 0 (s.slice n).page.words i).toNat
    let k : SliceId := BitVec.ofNat 7 (word 1)
    (code = 1 → exec (.identify n) s = .next (reply s n 0 [(runningBank s).versionPy.toNat, 0x10000, (runningBank s).versionSf.toNat, 1024])) ∧
    (code = 2 → exec (.echo n) s = .next (reply s n 0 [word 1, word 2, word 3, word 4, word 5, word 6])) ∧
    (code = 3 → n ≠ 0 → k ≠ n → exec (.stopSlice n) s = .next (reply s n 4 [])) ∧
    (code = 3 → (n = 0 ∨ k = n) → (s.slice k).valid = false → exec (.stopSlice n) s = .next (reply s n 5 [])) ∧
    (code = 3 → (n = 0 ∨ k = n) → (s.slice k).valid = true → exec (.stopSlice n) s = .next (reply (stopSlice s k) n 0 [])) ∧
    (code ≠ 1 → code ≠ 2 → code ≠ 3 → ∀ row ∈ [Instr.identify n, .echo n, .stopSlice n], exec row s = .next (reply s n 1 []))) ∧
  (∀ (s : State) (ch : ChanId) (m : BitVec 4), MasterArrives s m → chanOn s ch = true → (m.toNat = endA (s.chan ch) ∨ m.toNat = endB (s.chan ch)) →
    exec (.channelDoorbell ch { master := m }) s = .next (ring s ch (decide (m.toNat = endA (s.chan ch)))) ∧
    exec (.channelDoorbell ch { master := m, take := true }) s = .next (takeBell s ch (decide (m.toNat = endA (s.chan ch)))) ∧
    (∀ (i : BitVec 4) (v : Word), let reader := if i.toNat < 8 then endB (s.chan ch) else endA (s.chan ch)
      endOff s reader = false →
      (m.toNat ≠ reader → exec (.channelWordAccess ch m true i v) s = .next (s.upChan ch (fun c => { c with words := tset 0 c.words i.toNat v }))) ∧
      exec (.channelWordAccess ch m false i v) s = .next (s.emit (.readData (leBytes 4 (tget 0 (s.chan ch).words i.toNat).toNat)))))

/-- R266, R269, R271 to R274, R321, R352, R357, R523 (Table 12-6): the commands on slices, quotas, assignments and mappings.
The model's choices it rests on: log entries 12, 20, 21, 22, 23, 24, 25, 26, 130 and 133. -/
def Obligations.SliceCommands : Prop :=
  OnRow .sliceCreate 0x0101 true [(8, 1), (9, 1), (10, 1), (12, 4)] (fun a _ w _ gives =>
    let k : SliceId := BitVec.ofNat 7 (fld w 8 1)
    let ranges := 1 ≤ fld w 8 1 ∧ fld w 8 1 ≤ 127 ∧ 2 ≤ fld w 9 1 ∧ fld w 9 1 ≤ 15 ∧ fld w 10 1 ≤ 6 ∧ 1 ≤ fld w 12 4 ∧ fld w 12 4 ≤ 1048575
    let clash := ∃ m, m ≠ (0 : SliceId) ∧ (a.slice m).valid = true ∧ (a.slice m).pasid.toNat = fld w 12 4
    (ranges → (a.slice k).valid = true → gives (.err 6 8)) ∧
    (ranges → (a.slice k).valid = false → clash → gives (.err 6 12)) ∧
    (ranges → (a.slice k).valid = false → ¬ clash → fld w 9 1 ∉ enclavePartitions a →
      gives (.ok (a.upSlice k (fun _ => { valid := true, pasid := BitVec.ofNat 20 (fld w 12 4), partition := BitVec.ofNat 4 (fld w 9 1), label := BitVec.ofNat 3 (fld w 10 1) })) 0))) ∧
  OnRow .sliceDestroy 0x0102 true [(8, 1)] (fun a _ w f gives =>
    let k : SliceId := BitVec.ofNat 7 (fld w 8 1)
    (1 ≤ fld w 8 1 → fld w 8 1 ≤ 127 → (a.slice k).valid = false → gives (.err 5 8)) ∧
    (1 ≤ fld w 8 1 → fld w 8 1 ≤ 127 → (a.slice k).valid = true → (a.slice k).destroying = false →
      (∀ p ∈ a.sec.enclaves, ∀ e, p.2 = some e → e.host ≠ k) →
      gives (.wait ((stopSlice (a.upSlice k (fun x => { x with destroying := true })) k).upMem (fun m => { m with
        unmaps := m.unmaps ++ [{ slice := k, pages := [], tag := f.tag, pos := f.pos, op := f.op, result := 0 }] })) (.destroy k)))) ∧
  OnRow .quotaSet 0x0103 true [(8, 1), (9, 1), (10, 1), (16, 8)] (fun a _ w _ gives =>
    let k : SliceId := BitVec.ofNat 7 (fld w 8 1)
    let row := fld w 9 1
    let reclaim := bitAt (fld w 10 1) 0
    let t := flagQuota (unflag k (a.upSlice k (fun x => { x with
      quota := tset none x.quota row (some (fld w 16 8))
      reclaim := if row = 0 then reclaim else x.reclaim })) row) k row
    fld w 8 1 ≤ 127 → row ≤ 5 → fld w 10 1 ≤ 1 → (a.slice k).valid = true → (a.slice k).destroying = false →
    (quotaOk a k row (fld w 16 8) = false → gives (.err 3 16)) ∧
    (quotaOk a k row (fld w 16 8) = true → (reclaim = true → (a.slice k).swapArea.isSome = true) →
      gives (.ok (if row = 0 then reclaimNow k t else t) (payload [(0, 8, usage a k row)])))) ∧
  OnRow .assign 0x0104 true [(8, 1), (9, 1), (10, 2)] (fun a _ w _ gives =>
    let kind := fld w 8 1
    let k : SliceId := BitVec.ofNat 7 (fld w 9 1)
    let i := fld w 10 2
    kind ≤ 3 → fld w 9 1 ≤ 127 → i < (if kind = 0 then 4 else if kind = 3 then 32 else 16) → (a.slice k).valid = true → (a.slice k).destroying = false →
    (resourceOn a kind i = true → gives (.err 6 10)) ∧
    (resourceOn a kind i = false → gives (.ok { a with assigned := tset 0 a.assigned (65536 * kind + i) k } 0))) ∧
  OnRow .memMap 0x0106 false [(8, 1), (9, 1), (16, 8), (24, 8), (32, 8)] (fun a n w _ gives =>
    let psz := if fld w 8 1 = 0 then 4096 else if fld w 8 1 = 1 then 65536 else 2097152
    let va := fld w 16 8
    let size := fld w 24 8
    let host := bitAt (fld w 9 1) 3
    fld w 8 1 ≤ 2 → fld w 9 1 ≤ 31 → va % psz = 0 → va < 2 ^ 48 → 0 < size → size % psz = 0 → va + size ≤ 2 ^ 48 →
    (host = true → fld w 32 8 % psz = 0 ∧ fld w 32 8 + size ≤ 2 ^ 48) →
    (meets va size intakeLo (intakeHi - intakeLo) = true ∨ (∃ l ∈ (a.slice n).maps, meets va size l.va l.size = true) → gives (.err 9 0)) ∧
    (meets va size intakeLo (intakeHi - intakeLo) = false → (∀ l ∈ (a.slice n).maps, meets va size l.va l.size = false) → (parked a = true → host = true) →
      ∀ t, mapRange a n va psz (size / psz) (fld w 9 1) (fld w 32 8) = .ok t → gives (.ok t 0))) ∧
  OnRow .memUnmap 0x0107 false [(16, 8), (24, 8)] (fun a n w f gives =>
    let va := fld w 16 8
    let size := fld w 24 8
    let gone := (a.slice n).maps.filter (fun l => meets va size l.va l.size)
    va % 4096 = 0 → va < 2 ^ 48 → 0 < size → size % 4096 = 0 → va + size ≤ 2 ^ 48 → meets va size intakeLo (intakeHi - intakeLo) = false →
    ((∃ l ∈ gone, l.va < va ∨ va + size < l.va + l.size) → gives (.err 9 16)) ∧
    ((∀ l ∈ gone, va ≤ l.va ∧ l.va + l.size ≤ va + size) → holdsImage (a.slice n) va size = true → gives (.err 6 16)) ∧
    ((∀ l ∈ gone, va ≤ l.va ∧ l.va + l.size ≤ va + size) → holdsImage (a.slice n) va size = false →
      gives (awaitUnmap (removeLeaves a n gone) n f))) ∧
  OnRow .apertureSet 0x0108 false [(8, 1), (16, 8)] (fun a n w _ gives =>
    (1 < fld w 8 1 → gives (.err 3 8)) ∧
    (fld w 8 1 ≤ 1 → fld w 16 8 % 2 ^ 25 = 0 → fld w 16 8 < 2 ^ 48 → gives (.ok (setAperture a n (fld w 8 1 == 1) (fld w 16 8)) 0))) ∧
  OnRow .swapAreaSet 0x0109 false [(16, 8), (24, 8)] (fun a n w _ gives =>
    fld w 16 8 % 64 = 0 → fld w 16 8 < 2 ^ 48 → 0 < fld w 24 8 → fld w 16 8 + fld w 24 8 ≤ 2 ^ 48 → (a.slice n).swapSlots = [] →
      hostMapped a n (fld w 16 8) (fld w 24 8) = true → gives (.ok (a.upSlice n (fun x => { x with swapArea := some (fld w 16 8, fld w 24 8) })) 0))

/-- R358, R363, R524 (Table 12-7): loading and unloading a package, starting and aborting a job.
The model's choices it rests on: log entries 12, 20, 41 and 132. -/
def Obligations.JobCommands : Prop :=
  OnRow .graphLoad 0x0201 false [(16, 8), (24, 8)] (fun a n w f gives =>
    let va := fld w 16 8
    let dataVa := fld w 24 8
    (parked a = true → gives (.err 9 0)) ∧
    (parked a = false → va % 65536 ≠ 0 → gives (.err 3 16)) ∧
    (∀ h k, parked a = false → va % 65536 = 0 → dataVa % 64 = 0 → dataVa < 2 ^ 48 → StructAt a n w 16 va 64 h → let a := structRead a n va 64; freeHandle a n = some k →
      (∀ e, headerErr h false = some e → gives (.errR 17 e.detail (pkgResult e))) ∧
      (∀ img, headerErr h false = none → mapErr a n va (fieldOf h 8 8) dataVa (fieldOf h 24 8) = none → StructAt a n w 16 va (fieldOf h 8 8) img → let a := structRead a n va (fieldOf h 8 8);
        (∀ e b, loadSteps img va dataVa = .error (e, b) → gives (.errS (writeImage a n va img b) 17 e.detail (pkgResult e))) ∧
        (∀ b, loadSteps img va dataVa = .ok b → gives (finishLoad a n f va dataVa k img b))))) ∧
  OnRow .graphUnload 0x0202 false [(8, 2)] (fun a n w _ gives =>
    (tget none (a.slice n).packages (fld w 8 2) = none → gives (.err 5 8)) ∧
    (∀ p, tget none (a.slice n).packages (fld w 8 2) = some p →
      (packageBusy a n (fld w 8 2) = true → gives (.err 6 8)) ∧
      (packageBusy a n (fld w 8 2) = false → gives (.ok (dropPackage a n (fld w 8 2)) 0)))) ∧
  OnRow .jobStart 0x0301 false [(8, 2), (10, 2), (12, 1), (13, 1), (14, 1), (15, 1), (16, 2), (24, 8), (32, 8), (40, 8)] (fun a n w f gives =>
    ∀ p e sh sc, jobFieldErr w = none → tget none (a.slice n).packages (fld w 8 2) = some p → p.jobs[fld w 10 2]? = some e →
      tget none a.sheets (fld w 12 1) = some sh → sh.scenes[fld w 13 1]? = some sc → parked a = false →
      (sc.slice ≠ n → gives (.err 4 13)) ∧
      (∀ r, jobRefusal a n w p e sc = some r → gives (.err r.1 r.2)) ∧
      (jobRefusal a n w p e sc = none → jobAddrErr a n w (e.cores + e.aes + e.rfes) = none →
        let k := if e.preemptible = true ∧ p.enclave.isNone = true then 16 * e.cores + e.aes + e.rfes else 0
        (k ≠ 0 → fits a n 0 (65536 * k) = true) → k ≤ (pickPages a k false).length →
          gives (.wait { (grantPages a (pickPages a k false) { typ := .pyotos }) with
            jobs := a.jobs ++ [newJob a n f w p e sc (pickPages a k false)]
            jobNext := a.jobNext + 1 } (.job a.jobNext)))) ∧
  OnRow .jobAbort 0x0302 false [(8, 4)] (fun a n w _ gives =>
    let mine (j : Job) : Bool := j.kaf.isNone && j.tag.toNat == fld w 8 4
    ((∀ j ∈ a.jobs, ¬ (j.slice = n ∧ mine j = true)) → gives (.err 5 8)) ∧
    ((∃ j ∈ a.jobs, j.slice = n ∧ mine j = true) → gives (.ok ((a.jobs.filter (fun j => j.slice == n && mine j)).foldl abortJob a) 0)))

/-- R17, R18, R22, R230 to R233, R359 (Table 12-7): writing a cue sheet, starting and stopping the cue.
The model's choices it rests on: log entries 12, 35, 36 and 94. -/
def Obligations.CueCommands : Prop :=
  OnRow .sheetWrite 0x0401 true [(8, 1), (16, 8)] (fun a n w _ gives =>
    ∀ h, fld w 8 1 ≤ 3 → StructAt a n w 16 (fld w 16 8) 64 h → let a := structRead a n (fld w 16 8) 64; structReserved h [(0, 5)] = none →
      let period := fieldOf h 0 4
      let k := byteAt h 4
      (period < 1000000 ∨ 200000000 < period → gives (.err 3 0x8000)) ∧
      (1000000 ≤ period → period ≤ 200000000 → k < 1 ∨ 32 < k → gives (.err 3 0x8004)) ∧
      (∀ raw sc, 1000000 ≤ period → period ≤ 200000000 → 1 ≤ k → k ≤ 32 → StructAt a n w 16 (fld w 16 8 + 64) (64 * k) raw → let a := structRead a n (fld w 16 8 + 64) (64 * k); sheetEntries raw k = .ok sc →
        (∀ i, firstFailing a period sc = some i → gives (.err 9 i)) ∧
        (firstFailing a period sc = none → bankBusy a (fld w 8 1) = true → gives (.err 6 8)) ∧
        (firstFailing a period sc = none → bankBusy a (fld w 8 1) = false →
          gives (.ok { a with sheets := tset none a.sheets (fld w 8 1) (some { period := period, scenes := sc }) } 0)))) ∧
  OnRow .cueStart 0x0403 true [] (fun a _ _ _ gives =>
    (isFollower a = true → gives (.err 4 0)) ∧
    (isFollower a = false → a.cue.running = true ∨ a.cue.starting = true → gives (.err 6 0)) ∧
    (isFollower a = false → a.cue.running = false → a.cue.starting = false →
      (startSet a = none → gives (.err 10 0)) ∧
      (∀ c, startSet a = some c → tget none a.sheets c.bank = none → gives (.err 10 0)) ∧
      (∀ c sh, startSet a = some c → tget none a.sheets c.bank = some sh →
        let t := firstEdge (a.tb c.tb) (a.now + 1000000) c.period
        gives (.ok (a.upCue (fun x => { x with
            starting := true, next := t, count := 0, slewing := false, slewLeft := 0, edgePeriod := c.period, edgeTb := BitVec.ofNat 2 c.tb }))
          (payload [(0, 8, wrapBits 64 (nearestMultiple ((a.tb c.tb).nsAt t) c.period))]))))) ∧
  OnRow .cueStop 0x0404 true [] (fun a _ _ _ gives =>
    (a.cue.starting = true → gives (.ok (startCancelled (a.upCue (fun c => { c with starting := false }))) 0)) ∧
    (a.cue.starting = false → a.cue.running = false → gives (.ok a 0)) ∧
    (a.cue.starting = false → a.cue.running = true → gives (.wait (a.upCue (fun c => { c with stopping := true })) .cueStop)))

/-- R250, R254, R256, R257 (Table 12-7): the sync-counter commands.
The model's choices it rests on: log entry 12. -/
def Obligations.CounterCommands : Prop :=
  let own (a : State) (n : SliceId) (c : Nat) : Prop := c < 8192 ∧ (a.ctr (BitVec.ofNat 13 c)).slice = some n
  OnRow .syncAlloc 0x0501 false [(8, 2), (12, 4)] (fun a n w _ gives =>
    let k := fld w 8 2
    (k < 1 ∨ 256 < k → gives (.err 3 8)) ∧
    (1 ≤ k → k ≤ 256 → fits a n 3 k = false → gives (.err 7 3)) ∧
    (1 ≤ k → k ≤ 256 → fits a n 3 k = true → freeRun a k = none → gives (.err 8 0)) ∧
    (∀ b, 1 ≤ k → k ≤ 256 → fits a n 3 k = true → freeRun a k = some b →
      gives (.ok ((List.range k).foldl (fun s i => s.upCtr (BitVec.ofNat 13 (b + i))
        (fun _ => { slice := some n, value := BitVec.ofNat 32 (fld w 12 4), initial := fld w 12 4 })) a) (payload [(0, 2, b)])))) ∧
  OnRow .syncFree 0x0502 false [(8, 2), (10, 2)] (fun a n w _ gives =>
    let b := fld w 8 2
    let k := fld w 10 2
    1 ≤ k → b + k ≤ 8192 → (∀ i < k, (a.ctr (BitVec.ofNat 13 (b + i))).slice = some n) →
      ((∃ i < k, ctrBusy (a.ctr (BitVec.ofNat 13 (b + i))) = true) → gives (.err 6 8)) ∧
      ((∀ i < k, ctrBusy (a.ctr (BitVec.ofNat 13 (b + i))) = false) →
        gives (.ok (checkQuota ((List.range k).foldl (fun s i => s.upCtr (BitVec.ofNat 13 (b + i)) (fun x => { dead := x.dead })) a) n) 0))) ∧
  OnRow .syncSet 0x0503 false [(8, 2), (12, 4)] (fun a n w _ gives =>
    let c : CtrId := BitVec.ofNat 13 (fld w 8 2)
    own a n (fld w 8 2) → (a.ctr c).dead = false →
      (ctrBusy (a.ctr c) = true → gives (.err 6 8)) ∧
      (ctrBusy (a.ctr c) = false → gives (.ok (conservationNotice (a.upCtr c (fun x => { x with
        value := BitVec.ofNat 32 (fld w 12 4), initial := fld w 12 4, added := 0, consumed := 0, issued := 0, applied := 0 }))
        3 1 c.toNat (a.ctr c).value.toNat (fld w 12 4)) 0))) ∧
  OnRow .syncSignal 0x0504 false [(8, 2), (12, 4)] (fun a n w _ gives =>
    let c : CtrId := BitVec.ofNat 13 (fld w 8 2)
    let v := fld w 12 4
    let t := applySignal (a.upCtr c (fun x => { x with issued := x.issued + 1 })) c { value := BitVec.ofNat 32 v, src := .command n }
    own a n (fld w 8 2) → (a.ctr c).dead = false →
      (v = 0 → gives (.err 3 12)) ∧
      (0 < v → (a.ctr c).value.toNat + v < 2 ^ 32 → gives (.ok t 0)) ∧
      (0 < v → 2 ^ 32 ≤ (a.ctr c).value.toNat + v → gives (.errS t 24 0 0))) ∧
  OnRow .syncRead 0x0505 false [(8, 2)] (fun a n w _ gives =>
    (8192 ≤ fld w 8 2 → gives (.err 3 8)) ∧
    (fld w 8 2 < 8192 → (a.ctr (BitVec.ofNat 13 (fld w 8 2))).slice = none → gives (.err 5 8)) ∧
    (∀ m, fld w 8 2 < 8192 → (a.ctr (BitVec.ofNat 13 (fld w 8 2))).slice = some m → m ≠ n → gives (.err 4 8)) ∧
    (own a n (fld w 8 2) → (a.ctr (BitVec.ofNat 13 (fld w 8 2))).dead = false →
      gives (.ok a (payload [(0, 4, (a.ctr (BitVec.ofNat 13 (fld w 8 2))).value.toNat)]))))

/-- R33 to R38, R354, R355 and Table 12-5: each command that writes a group's shadow writes the whole or its part of it
and marks it written, unless a pending AT_CUE commit locks the group (BUSY). The committed set does not change.
The model's choices it rests on: log entries 12 and 32. -/
def Obligations.ShadowCommands : Prop :=
  let puts (gives : Res → Prop) (a : State) (g detail : Nat) (x : BitVec 4608) : Prop :=
    (locked a g = true → gives (.err 6 detail)) ∧ (locked a g = false → gives (.ok (a.upGroup g (fun y => { y with shadow := x, written := true })) 0))
  OnRow .cueSet 0x0402 true [(8, 4), (12, 4), (16, 1), (17, 1)] (fun a _ w _ gives =>
    let p := fld w 8 4
    let b := fld w 12 4
    (p < 1000000 ∨ 200000000 < p → gives (.err 3 8)) ∧
    (1000000 ≤ p → p ≤ 200000000 → b < 20000 + p / 10000 ∨ p < b ∨ 1024 < p / b → gives (.err 3 12)) ∧
    (1000000 ≤ p → p ≤ 200000000 → 20000 + p / 10000 ≤ b → b ≤ p → p / b ≤ 1024 → fld w 16 1 ≤ 3 → fld w 17 1 ≤ 3 →
      puts gives a 0x1000000 8 (setFld (setFld (setFld (setFld (0 : BitVec 4608) 0 4 p) 4 4 b) 8 1 (fld w 16 1)) 9 1 (fld w 17 1)))) ∧
  OnRow .cacheSet 0x0105 true [(16, 8)] (fun a n w _ gives => ∀ bs, StructAt a n w 16 (fld w 16 8) 32 bs → let a := structRead a n (fld w 16 8) 32;
    puts gives a 0x2000000 8 (BitVec.ofNat 4608 (leNat bs))) ∧
  OnRow .twinMode 0x0B01 true [(8, 1)] (fun a _ w _ gives => fld w 8 1 ≤ 2 → (fld w 8 1 ≠ 0 → paired a = true) →
    puts gives a 0x3000000 8 (BitVec.ofNat 4608 (fld w 8 1))) ∧
  OnRow .safetyPolicy 0x0A01 true [(16, 8)] (fun a n w _ gives => ∀ bs, StructAt a n w 16 (fld w 16 8) 256 bs → let a := structRead a n (fld w 16 8) 256;
    safetyErr (bytesAtOff bs 0 0) = none → puts gives a 0x4000000 8 (bytesAtOff bs 0 0)) ∧
  OnRow .timebaseSet 0x0902 true [(8, 1), (16, 8)] (fun a n w _ gives => ∀ bs, fld w 8 1 ≤ 3 → StructAt a n w 16 (fld w 16 8) 64 bs → let a := structRead a n (fld w 16 8) 64;
    (fld w 8 1 = 3 → inRange 1 (tbSource (bytesAtOff bs 0 0)) 3 = false) → timebaseErr (bytesAtOff bs 0 0) (fld w 8 1) = none →
    puts gives a (0x5000000 + fld w 8 1) 8 (bytesAtOff bs 0 0)) ∧
  OnRow .headSet 0x0801 false [(8, 1), (16, 8)] (fun a n w _ gives => ∀ bs, fld w 8 1 < 4 → ownerSlice a 0 (fld w 8 1) = n →
    StructAt a n w 16 (fld w 16 8) 64 bs → let a := structRead a n (fld w 16 8) 64; headErr (BitVec.ofNat 4608 (BitVec.ofNat 512 (leNat bs)).toNat) (fld w 8 1) = none →
    puts gives a (0x6000000 + fld w 8 1) 8 (bytesAtOff bs 0 (a.group (0x6000000 + fld w 8 1)).shadow)) ∧
  OnRow .layerSet 0x0802 false [(8, 1), (9, 1), (16, 8)] (fun a n w _ gives => ∀ bs, fld w 8 1 < 4 → ownerSlice a 0 (fld w 8 1) = n → fld w 9 1 ≤ 7 →
    StructAt a n w 16 (fld w 16 8) 64 bs → let a := structRead a n (fld w 16 8) 64; layerErr (BitVec.ofNat 512 (leNat bs)) = none →
    puts gives a (0x6000000 + fld w 8 1) 8 (bytesAtOff bs (64 + 64 * fld w 9 1) (a.group (0x6000000 + fld w 8 1)).shadow)) ∧
  OnRow .camSet 0x0703 false [(8, 1), (16, 8)] (fun a n w _ gives => ∀ bs, fld w 8 1 < 16 → ownerSlice a 1 (fld w 8 1) = n →
    StructAt a n w 16 (fld w 16 8) 128 bs → let a := structRead a n (fld w 16 8) 128; camErr (camOf (bytesAtOff bs 0 0)) = none →
    puts gives a (0x7000000 + fld w 8 1) 8 (bytesAtOff bs 0 0)) ∧
  OnRow .loopSet 0x0905 false [(8, 1), (16, 8)] (fun a n w _ gives => ∀ bs, fld w 8 1 < 32 → ownerSlice a 3 (fld w 8 1) = n →
    StructAt a n w 16 (fld w 16 8) 320 bs → let a := structRead a n (fld w 16 8) 320; loopUndefined (bytesAtOff bs 0 0) = none →
    puts gives a (0x9000000 + fld w 8 1) 8 (bytesAtOff bs 0 0)) ∧
  OnRow .routeSet 0x0901 false [(8, 2), (10, 2), (16, 8)] (fun a n w _ gives => ∀ bs rs, 1 ≤ fld w 10 2 → fld w 10 2 ≤ 256 → fld w 8 2 % 256 + fld w 10 2 ≤ 256 →
    fld w 8 2 < 4096 → ownerSlice a 2 (fld w 8 2 / 256) = n → StructAt a n w 16 (fld w 16 8) (64 * fld w 10 2) bs → let a := structRead a n (fld w 16 8) (64 * fld w 10 2);
    routeTable bs (fld w 8 2) (fld w 10 2) = .ok rs →
    ((∃ p ∈ rs, locked a p.1 = true) → gives (.err 6 8)) ∧
    ((∀ p ∈ rs, locked a p.1 = false) → gives (.ok (rs.foldl (fun s p => s.upGroup p.1 (fun x => { x with shadow := p.2, written := true })) a) 0)))

/-- R34 to R38, R354, R355: COMMIT checks its groups in order and then the whole set; what passes becomes a pending commit with
the shadows as they stand, at the next edge that it can still reach or the edge it names. CANCEL drops a pending
AT_CUE commit that can still be cancelled, and answers TOO_LATE or NO_OBJECT otherwise.
The model's choices it rests on: log entries 12, 32, 33, 34 and 35. -/
def Obligations.CommitCommands : Prop :=
  OnRow .commit 0x0002 false [(8, 1), (9, 1), (16, 8), (24, 40)] (fun a n w f gives =>
    let items := (commitGroups w).map (fun g => (g, (a.group g).shadow))
    fld w 8 1 ≤ 1 → 1 ≤ fld w 9 1 → fld w 9 1 ≤ 10 → (∀ i < 10, fld w 9 1 ≤ i → fld w (24 + 4 * i) 4 = 0) →
    (∀ e, commitErr a n w = some e → gives (.err e.1 e.2)) ∧
    (commitErr a n w = none → fld w 16 8 ≠ 0 → fld w 8 1 = 0 ∨ fld w 16 8 < a.cue.count.toNat + 2 → gives (.err 3 16)) ∧
    (commitErr a n w = none → (fld w 16 8 ≠ 0 → fld w 8 1 = 1 ∧ a.cue.count.toNat + 2 ≤ fld w 16 8) →
      (commitFits a items = false → gives (.err 9 0)) ∧
      (commitFits a items = true →
        let c : Commit := { slice := n, groups := items.map (fun p => BitVec.ofNat 32 p.1), sets := items.map (·.2), atCue := fld w 8 1 == 1, due := dueCount a
                            target := if fld w 16 8 = 0 then none else some (BitVec.ofNat 64 (fld w 16 8)), twinAgreed := false, tag := f.tag, pos := f.pos, at_ := a.now }
        let t : State := { a with commits := a.commits ++ [c] }
        (fld w 16 8 = 0 → fld w 8 1 = 1 → gives (.ok t (payload [(0, 8, c.due.toNat)]))) ∧
        (fld w 16 8 = 0 → fld w 8 1 = 0 → gives (.wait t .commit)) ∧
        (fld w 16 8 ≠ 0 → paired a = false ∨ a.fab.twinUp = false → gives (.err 12 0)) ∧
        (fld w 16 8 ≠ 0 → paired a = true → a.fab.twinUp = true → gives (.wait ((t.upFab (fun x => { x with
          ops := x.ops ++ [{ line := commitLine n f, requested := a.now, pos := f.pos, slice := n }] })).emit (.farRequest (commitLine n f))) .twinAgree))))) ∧
  OnRow .cancel 0x0003 false [(8, 4)] (fun a n w _ gives =>
    (∀ e, groupErr a n (fld w 8 4) 8 = some e → gives (.err e.1 e.2)) ∧
    (groupErr a n (fld w 8 4) 8 = none →
      let hit := a.commits.find? (fun c => c.atCue && (setFor c (fld w 8 4)).isSome)
      (hit = none → gives (.err 5 8)) ∧
      (∀ c, hit = some c → cancellable a c = true → gives (.ok (dropCommit a c) 0)) ∧
      (∀ c, hit = some c → cancellable a c = false → gives (.err 13 0))))

/-- R141 to R166 (Table 12-8): the pool command and the commands on sequences. A command on a sequence names an AE below 16, a
descriptor below 1,024 that holds a sequence of the issuing slice, and is refused in PARKED. R159 to R166: refills, swaps and the release of pages by epoch.
The model's choices it rests on: log entries 12, 20, 64, 65, 66, 108, 109 and 128. -/
def Obligations.SequenceMemory : Prop :=
  (let names (a : State) (n : SliceId) (w : Line) (x : KvSeq) : Prop :=
    fld w 8 1 ≤ 15 ∧ fld w 10 2 ≤ 1023 ∧ a.kv (BitVec.ofNat 4 (fld w 8 1)) (fld w 10 2) = some x ∧ x.slice = n ∧ parked a = false
  let ae (w : Line) : AeId := BitVec.ofNat 4 (fld w 8 1)
  OnRow .kvPoolSet 0x0601 true [(8, 1), (12, 4)] (fun a _ w _ gives =>
    let pages := fld w 12 4
    let e := a.ae (ae w)
    fld w 8 1 ≤ 15 → 1 ≤ pages → pages ≤ 1048576 → parked a = false →
    (pages < e.total → e.free.length < e.total - pages → gives (.err 9 0)) ∧
    (pages < e.total → e.total - pages ≤ e.free.length → gives (.ok (shrinkPool a (ae w) (e.total - pages) pages) 0)) ∧
    (e.total ≤ pages →
      let ps := pickPages a ((pages - e.total + 1) / 2) false
      ps.length = (pages - e.total + 1) / 2 →
        gives (.ok ((grantPages a ps { typ := .pyotos }).upAe (ae w) (fun x => { x with total := pages, free := x.free ++ (halves ps).take (pages - e.total) })) 0))) ∧
  OnRow .seqCreate 0x0602 false [(8, 1), (9, 1), (10, 1), (11, 1), (12, 2), (14, 2), (16, 1), (18, 2), (20, 4)] (fun a n w _ gives =>
    let streams := fld w 14 2 * fld w 11 1
    let ps := pickPages a (tablePages streams) false
    let x := newSeq a n w (ae w) 0 ps
    let pages := if x.cls.toNat < 2 then 0 else fullNeed x * streams
    seqFieldErr w = none → parked a = false →
    (fits a n 4 1 = false → gives (.err 7 4)) ∧
    (fits a n 4 1 = true → fits a n 0 (8192 + 16384 * streams + 32768 * pages) = false → gives (.err 7 0)) ∧
    (∀ q, fits a n 4 1 = true → fits a n 0 (8192 + 16384 * streams + 32768 * pages) = true → ps.length = tablePages streams → pages ≤ (a.ae (ae w)).free.length →
      freeDescriptor a (ae w) = some q → gives (.ok (createSeq a n (ae w) q (newSeq a n w (ae w) q ps)) (payload [(0, 2, q)])))) ∧
  OnRow .seqFree 0x0603 false [(8, 1), (10, 2)] (fun a n w _ gives => ∀ x, names a n w x →
    (latched a (ae w) (fld w 10 2) = true ∨ x.state = .swapOut ∨ x.state = .swapIn → gives (.err 6 10)) ∧
    (latched a (ae w) (fld w 10 2) = false → x.state ≠ .swapOut → x.state ≠ .swapIn → gives (.ok (freeSeq a (ae w) (fld w 10 2)) 0))) ∧
  OnRow .seqGlobals 0x0604 false [(8, 1), (10, 2), (12, 1), (16, 8)] (fun a n w _ gives => ∀ x bs, names a n w x → fld w 12 1 ≤ 64 →
    StructAt a n w 16 (fld w 16 8) (4 * fld w 12 1) bs → let a := structRead a n (fld w 16 8) (4 * fld w 12 1);
    let ts := (List.range (fld w 12 1)).map (fun i => fieldOf bs (4 * i) 4)
    (ascending 0 ts = false ∨ (∃ t ∈ ts, x.length ≤ t) → gives (.err 9 0)) ∧
    (ascending 0 ts = true → (∀ t ∈ ts, t < x.length) → x.sparse = true → x.state = .resident →
      fits a n 0 (8192 + 16384 * x.streams) = true → ∀ t, cowTables a (ae w) (fld w 10 2) x (globalTree x ts) ts = some t →
      gives (.ok t 0))) ∧
  OnRow .seqSwapOut 0x0605 false [(8, 1), (10, 2)] (fun a n w _ gives => ∀ x, names a n w x →
    (2 ≤ x.cls.toNat ∨ x.state ≠ .resident ∨ (a.slice n).swapArea = none → gives (.err 9 0)) ∧
    (x.cls.toNat < 2 → x.state = .resident → (a.slice n).swapArea.isSome = true → gives (.ok (startSwapOut a (ae w) (fld w 10 2)) 0))) ∧
  OnRow .seqSwapIn 0x0606 false [(8, 1), (10, 2)] (fun a n w _ gives => ∀ x, names a n w x →
    let ps := pickPages a (tablePages x.streams) false
    (x.state ≠ .swapped → gives (.err 9 0)) ∧
    (x.state = .swapped → fits a n 0 x.bytes = false → gives (.err 7 0)) ∧
    (x.state = .swapped → fits a n 0 x.bytes = true → ps.length = tablePages x.streams → x.frames.length ≤ (a.ae (ae w)).free.length →
      gives (.wait (startSwapIn a n (ae w) (fld w 10 2) x ps) (.swapIn (ae w) (BitVec.ofNat 10 (fld w 10 2))))))) ∧
  (∀ (s : State) (a : AeId),
    (refillHead s a = none → exec (.kvRefill a) s = .next s) ∧
    (∀ q x, refillHead s a = some q → s.kv a q.toNat = some x →
      (∀ r ∈ (s.ae a).refills, seqClass s a r ≤ seqClass s a q) ∧
      let t := unmapStale s a q.toNat
      (x.state ≠ .resident ∨ x.maxTokens ≤ x.capacity → exec (.kvRefill a) s = .next (dropRefill s a q)) ∧
      (x.state = .resident → x.capacity < x.maxTokens → 2 ≤ x.cls.toNat → exec (.kvRefill a) s = .next (turnRing s a q)) ∧
      (x.state = .resident → x.capacity < x.maxTokens → x.cls.toNat < 2 → fits t x.slice 0 (32768 * x.streams) = false →
        exec (.kvRefill a) s = .next (refillRefused t a q x.slice)) ∧
      (x.state = .resident → x.capacity < x.maxTokens → x.cls.toNat < 2 → fits t x.slice 0 (32768 * x.streams) = true →
        ((t.ae a).free.length < x.streams → exec (.kvRefill a) s = .next (refillWaits t a q)) ∧
        (∀ y, x.streams ≤ (t.ae a).free.length → t.kv a q.toNat = some y →
          (entryTaken y = true → exec (.kvRefill a) s = .next t) ∧
          (entryTaken y = false → exec (.kvRefill a) s = .next (mapRefill (takeSpare t a q.toNat x.streams) a q))))) ∧
    (∀ (q : SeqId) x, s.kv a q.toNat = some x →
      (x.state ≠ .swapOut ∨ (oldest (s.ae a)).toNat ≤ x.swapTag.toNat → exec (.swapOutComplete a q) s = .next s) ∧
      (x.state = .swapOut → x.swapTag.toNat < (oldest (s.ae a)).toNat →
        let place := swapPlace (s.slice x.slice) (swapPageSize * x.frames.length)
        (place = none → exec (.swapOutComplete a q) s = .next (reclaimNow x.slice (swapRefused s a q.toNat x))) ∧
        (∀ va, place = some va → badPage s x = false → exec (.swapOutComplete a q) s = .next (reclaimNow x.slice (swapDone s a q.toNat x va))) ∧
        (∀ va, place = some va → badPage s x = true →
          exec (.swapOutComplete a q) s = .next (reclaimNow x.slice (kvNotice (freeSeq (copyOut s x va) a q.toNat) a q.toNat 3 x.slice)))) ∧
      (x.state ≠ .swapIn → exec (.swapInComplete a q) s = .next s) ∧
      (x.state = .swapIn → ∀ slot ps, (s.slice x.slice).swapSlots.find? (fun k => k.ae = a ∧ k.seq = q) = some slot → swapPages s x slot = some ps →
        let t := (x.frames.zip ps).foldl (fun s p => s.upMem (fun m => { m with dram := m.dram.write p.1 p.2 })) s
        let t := dropSlot (t.setKv a q.toNat (some { x with state := .resident })) a q.toNat x.slice
        exec (.swapInComplete a q) s = .next (swapInDone (kvNotice (pageTraffic t x true) a q.toNat 2 x.slice) a q x.slice 0)) ∧
      (x.state = .swapIn → (s.slice x.slice).swapSlots.find? (fun k => k.ae = a ∧ k.seq = q) = none →
        exec (.swapInComplete a q) s = .next (swapInDone (kvNotice (freeSeq s a q.toNat) a q.toNat 4 x.slice) a q x.slice 25))) ∧
    (exec (.epochPageRelease a) s = .next (allSlices.foldl (fun s n => reclaimNow n s) (returnPages s a))))

/-- R196, R398, R436, R439, R440, R465, R468 to R473 (Tables 12-8 and 12-9): the fallback surface of a head, the time commands, and
the commands of the control engine.
The model's choices it rests on: log entries 12, 36, 42, 53, 54 and 55. -/
def Obligations.TimeAndLoopCommands : Prop :=
  OnRow .fallbackLoad 0x0803 false [(8, 1), (16, 8), (24, 8), (32, 4)] (fun a n w _ gives =>
    (∀ ls bs, fld w 8 1 < 4 → ownerSlice a 0 (fld w 8 1) = n → 0 < fld w 32 4 → parked a = false → StructAt a n w 16 (fld w 16 8) 64 ls → let a := structRead a n (fld w 16 8) 64;
      layerErr (BitVec.ofNat 512 (leNat ls)) = none → StructAt a n w 24 (fld w 24 8) (fld w 32 4) bs → let a := structRead a n (fld w 24 8) (fld w 32 4);
      gives (loadFallback a (BitVec.ofNat 2 (fld w 8 1)) (BitVec.ofNat 512 (leNat ls)) (fld w 24 8) bs))) ∧
  OnRow .timeSet 0x0903 true [(8, 1), (16, 8)] (fun a _ w _ gives =>
    (3 < fld w 8 1 → gives (.err 3 8)) ∧ (fld w 8 1 = 3 → gives (.err 9 0)) ∧
    (fld w 8 1 < 3 → gives (.ok (stepBase a (fld w 8 1) ((fld w 16 8 : Int) - (tbNow a (fld w 8 1) : Int))) 0))) ∧
  OnRow .timeRead 0x0904 false [(8, 1)] (fun a _ w _ gives =>
    (3 < fld w 8 1 → gives (.err 3 8)) ∧
    (fld w 8 1 ≤ 3 → gives (.ok a (payload [(0, 8, tbNow a (fld w 8 1)), (8, 1, (a.tb (fld w 8 1)).st.toNat)])))) ∧
  OnRow .loopCoeff 0x0906 false [(8, 1), (9, 1), (16, 16)] (fun a n w f gives =>
    let l := fld w 8 1
    let k := fld w 9 1
    let x : BitVec 128 := BitVec.ofNat 128 (fld w 16 16)
    let c := lpWord (loopSet a l) k
    l < 32 → ownerSlice a 3 l = n → k ≤ 7 → wordOk x (slotOrder a l k) = true →
    locked a (0x9000000 + l) = false → (a.loop l).tuning = none →
    ((a.loop l).mode ≠ .off → loopSafe a l (loopSet a l) = false → k < lpStages (loopSet a l) → swType x = swType c → swOrder x = swOrder c →
      gives (.wait ((a.upGroup (0x9000000 + l) (fun y => { y with shadow := setFld y.shadow (192 + 16 * k) 16 x.toNat, written := true })).upLoop l
        (fun y => { y with coeffs := y.coeffs ++ [{ stage := k, word := x, at_ := a.now, tag := f.tag, pos := f.pos, slice := n }] })) .commit)) ∧
    ((a.loop l).mode = .off ∨ lpStages (loopSet a l) ≤ k ∨ swType x ≠ swType c ∨ swOrder x ≠ swOrder c → gives (.err 9 0))) ∧
  OnRow .loopTuneStop 0x0907 false [(8, 1), (9, 1), (16, 8), (24, 8)] (fun a n w _ gives =>
    fld w 8 1 < 32 → ownerSlice a 3 (fld w 8 1) = n → fld w 9 1 = 0 → gives (.ok (endTuning a (fld w 8 1) 2) 0)) ∧
  (∀ (row : SliceId → Line → Instr) (relay : Bool), row = (if relay then Instr.loopTuneRelay else Instr.loopTuneInject) →
    OnRow row 0x0907 false [(8, 1), (9, 1), (16, 8), (24, 8)] (fun a n w _ gives => ∀ bs,
      let l := fld w 8 1
      let t : Line := BitVec.ofNat 512 (leNat bs)
      fld w 9 1 = (if relay then 2 else 1) → l < 32 → ownerSlice a 3 l = n → StructAt a n w 16 (fld w 16 8) 64 bs → let a := structRead a n (fld w 16 8) 64; tuneErr t relay = none →
      DestAt a n w 24 (if relay then 32 else 16 * fld t 8 4) →
      (∀ e, tuneRefusal a l relay = some e → gives (.err e.1 e.2)) ∧
      (tuneRefusal a l relay = none → gives (.wait (a.upLoop l (fun x => { x with
        mode := .tune
        tuning := some { relay := relay, w := t, dest := fld w 24 8, slice := n, n := 0, phi := 0, recs := [], last := tget 0 x.outs 0, ups := [], es := [] } }))
        (.tune (BitVec.ofNat 5 l)))))) ∧
  (∀ (row : SliceId → Line → Instr) (split : Bool), row = (if split then Instr.ceSplit else Instr.ceJoin) →
    OnRow row 0x0908 true [(8, 1)] (fun a _ w f gives => fld w 8 1 = (if split then 1 else 0) →
      (a.ctl.waiting.isSome = true → gives (.err 6 8)) ∧
      (a.ctl.waiting = none → a.ctl.degraded = true ∨ (split = true ∧ splitRefused a = true) → gives (.err 9 0)) ∧
      (a.ctl.waiting = none → a.ctl.degraded = false → (split = true → splitRefused a = false) →
        gives (.wait (a.upCtl (fun c => { c with waiting := some { split := split, due := dueCount a, tag := f.tag, pos := f.pos } })) .commit))))

/-- R211, R213, R217, R221, R222 (Table 12-8): the commands of the intake. R212, R213, R217, R220, R225, R228: an engine with room takes the sample whose turn it is; the oldest sample ends with its record and notice, or is cut
once its budget is spent.
The model's choices it rests on: log entries 1, 12, 47, 48, 49, 74, 75 and 117. -/
def Obligations.IntakeSamples : Prop :=
  (OnRow .sampleSubmit 0x0701 false [(8, 2), (16, 8)] (fun a n w _ gives =>
    let k := fld w 8 2
    (k < 1 ∨ 256 < k → gives (.err 3 8)) ∧
    (∀ bs, 1 ≤ k → k ≤ 256 → parked a = false → StructAt a n w 16 (fld w 16 8) (64 * k) bs → let a := structRead a n (fld w 16 8) (64 * k);
      let ds := (List.range k).map (fun i => (bs.drop (64 * i)).take 64)
      (∀ d ∈ ds, sampleErr d = none) →
      ((∃ t ∈ [1, 2, 3], 1024 < slotsUsed a t n + (ds.filter (fun d => byteAt d 0 == t)).length) → gives (.err 6 8)) ∧
      ((∀ t ∈ [1, 2, 3], slotsUsed a t n + (ds.filter (fun d => byteAt d 0 == t)).length ≤ 1024) →
        gives (.ok (a.upIntake (fun x => { x with
          queues := ds.foldl (fun q d => tup [] q (queueKey (byteAt d 0) n) (fun l => l ++ [BitVec.ofNat 512 (leNat d)])) x.queues })) 0)))) ∧
  OnRow .dictLoad 0x0702 false [(8, 1), (16, 8)] (fun a n w _ gives =>
    (7 < fld w 8 1 → gives (.err 3 8)) ∧
    (∀ h img es, fld w 8 1 ≤ 7 → (∀ m, dictOwner a (fld w 8 1) = some m → m = n) → StructAt a n w 16 (fld w 16 8) 64 h → let a := structRead a n (fld w 16 8) 64; dictHeadErr h = none →
      StructAt a n w 16 (fld w 16 8) (fieldOf h 16 4) img → let a := structRead a n (fld w 16 8) (fieldOf h 16 4);
      let base := if fieldOf h 12 4 = 0xFFFFFFFF then none else some (fieldOf h 12 4)
      dictRecords img (fieldOf h 16 4) (fieldOf h 8 4) base (fieldOf h 4 4) 64 0 [] = .ok es →
        gives (.ok (putDict a (fld w 8 1) { slice := n, entries := es, unk := fieldOf h 8 4, base := base }) 0))) ∧
  OnRow .sampleRelease 0x0704 false [(16, 8)] (fun a n w f gives =>
    ((∀ t ∈ a.intake.tensors, t.slice = n → t.va ≠ fld w 16 8) → gives (.err 5 16)) ∧
    (∀ t, a.intake.tensors.find? (fun t => t.slice == n && t.va == fld w 16 8) = some t →
      let b := (a.upIntake (fun y => { y with tensors := y.tensors.erase t })).upSlice n (fun y => { y with intakeUsed := y.intakeUsed - 65536 * t.pages.length })
      gives (awaitUnmap (removeLeaves b n ((a.slice n).maps.filter (fun l => meets t.va (65536 * t.pages.length) l.va l.size))) n f)))) ∧
  (∀ (s : State) (e : IntakeEngine) (at_ : Nat),
    let k := IntakeEngine.code e
    (nextQueue s k = none → exec (.sampleStart e at_) s = .next s) ∧
    (∀ n d ds, nextQueue s k = some n → s.queueOf k n = d :: ds →
      ((s.runningOn k).length < (if k = 3 then 4 else 1) → exec (.sampleStart e at_) s = .next ((s.at_ at_).upIntake (fun x => { x with
        queues := tset [] x.queues (queueKey k n) ds
        running := tset [] x.running k (s.runningOn k ++ [{ slice := n, d := d, start := (s.at_ at_).now, maxPixels := quotaOf (s.at_ at_) n 2 }])
        turn := tset 0 x.turn k n.toNat }))) ∧
      ((if k = 3 then 4 else 1) ≤ (s.runningOn k).length → exec (.sampleStart e at_) s = .next s)) ∧
    (s.runningOn k = [] → exec (.sampleEnd e at_) s = .next s) ∧
    (∀ x xs, s.runningOn k = x :: xs →
      (k = 3 ∨ at_ ≤ x.start + 1000 * budgetUs s k x →
        exec (.sampleEnd e at_) s = .next (endSample (sampleResult (s.at_ at_) k x).1 k x (sampleResult (s.at_ at_) k x).2)) ∧
      (k ≠ 3 → x.start + 1000 * budgetUs s k x < at_ → exec (.sampleEnd e at_) s = .next s) ∧
      (∀ p, k ≠ 3 → cuts s k x p = false → x.start + 1000 * budgetUs s k x ≤ at_ →
        exec (.sampleBudgetExpiry e p at_) s = .next (endSample (sampleResult (s.at_ at_) k x).1 k x (sampleResult (s.at_ at_) k x).2)) ∧
      (∀ p, k ≠ 3 → cuts s k x p = true → x.start + 1000 * budgetUs s k x ≤ at_ →
        exec (.sampleBudgetExpiry e p at_) s = .next (endSample (cutResult (s.at_ at_) k x p).1 k x (cutResult (s.at_ at_) k x p).2)) ∧
      (∀ p, at_ < x.start + 1000 * budgetUs s k x → exec (.sampleBudgetExpiry e p at_) s = .next s)))

/-- R306, R307, R377 to R384, R421, R422, R427 (Table 12-9): known-answer frames, the safety status record, twin channels and
enclaves.
The model's choices it rests on: log entries 12, 14, 20, 21, 59, 77, 78 and 119. -/
def Obligations.VehicleCommands : Prop :=
  OnRow .kafSet 0x0A02 false [(8, 2), (10, 2), (12, 1), (13, 1), (14, 1), (16, 8), (24, 8)] (fun a n w _ gives =>
    let mine (r : Kaf) : Bool := r.slice == n && r.handle == fld w 8 2 && r.jobIdx == fld w 10 2
    ∀ p e, fld w 13 1 ≤ 3 → fld w 14 1 ≤ 31 → tget none (a.slice n).packages (fld w 8 2) = some p → p.jobs[fld w 10 2]? = some e →
    (fld w 16 8 = 0 → a.saf.kafs.any mine = true → gives (.ok (removeKafs a mine) 0)) ∧
    (fld w 16 8 = 0 → a.saf.kafs.any mine = false → gives (.err 5 8)) ∧
    (∀ sh sc input expect, fld w 16 8 ≠ 0 → parked a = false → tget none a.sheets (fld w 13 1) = some sh → sh.scenes[fld w 14 1]? = some sc →
      kafErr n p e sc = none → a.saf.kafs.length < 16 ∨ a.saf.kafs.any mine = true →
      StructAt a n w 16 (fld w 16 8) (inputBytes p e) input → let a := structRead a n (fld w 16 8) (inputBytes p e); StructAt a n w 24 (fld w 24 8) 8 expect → let a := structRead a n (fld w 24 8) 8;
      gives (registerKaf a { slice := n, handle := fld w 8 2, jobIdx := fld w 10 2, k := if fld w 12 1 = 0 then 8 else fld w 12 1,
                             bank := BitVec.ofNat 2 (fld w 13 1), scene := BitVec.ofNat 5 (fld w 14 1), pages := [], len := input.length,
                             expect := BitVec.ofNat 64 (leNat expect), since := none, running := none } input expect))) ∧
  OnRow .safetyStatus 0x0A03 false [(16, 8)] (fun a n w _ gives => DestAt a n w 16 256 →
    gives (.ok (writeBy a midStagehand n (.slice n) (fld w 16 8) (statusRecord a)) 0)) ∧
  OnRow .twinChannelSet 0x0B02 false [(8, 1), (9, 1), (10, 2), (16, 8), (24, 4)] (fun a n w _ gives =>
    fld w 8 1 ≤ 63 → fld w 9 1 ≤ 1 → fld w 10 2 ≤ 8191 → fld w 16 8 % 64 = 0 → fld w 16 8 < 2 ^ 48 → 0 < fld w 24 4 → fld w 24 4 % 64 = 0 →
    (a.ctr (BitVec.ofNat 13 (fld w 10 2))).slice = some n → (∀ e, tget none a.fab.channels (fld w 8 1) = some e → e.slice = n ∧ e.copying = false) →
    (reachable a n (.slice n) (if fld w 9 1 = 1 then .write else .read) (fld w 16 8) (fld w 24 4) = false → gives (.err 15 16)) ∧
    (reachable a n (.slice n) (if fld w 9 1 = 1 then .write else .read) (fld w 16 8) (fld w 24 4) = true → lenDiffers a (fld w 8 1) (fld w 24 4) = false →
      let e : TwinEnd := { slice := n, receive := fld w 9 1 == 1, ctr := BitVec.ofNat 13 (fld w 10 2), va := fld w 16 8, len := fld w 24 4, copying := false }
      gives (.ok (armTwin ((disarmTwin { a with free := a.free + 1 } (fld w 8 1)).upFab (fun f => { f with
        channels := tset none f.channels (fld w 8 1) (some e) })) (fld w 8 1)) 0))) ∧
  OnRow .twinChannelFree 0x0B03 false [(8, 1)] (fun a n w _ gives => fld w 8 1 ≤ 63 →
    (tget none a.fab.channels (fld w 8 1) = none → gives (.err 5 8)) ∧
    (∀ e, tget none a.fab.channels (fld w 8 1) = some e →
      (e.slice ≠ n → gives (.err 4 8)) ∧ (e.slice = n → e.copying = true → gives (.err 6 8)) ∧
      (e.slice = n → e.copying = false → gives (.ok ((disarmTwin a (fld w 8 1)).upFab (fun f => { f with channels := tset none f.channels (fld w 8 1) none })) 0)))) ∧
  OnRow .enclaveCreate 0x0C01 true [(8, 1), (16, 8)] (fun a _ w _ gives =>
    let host : SliceId := BitVec.ofNat 7 (fld w 8 1)
    let k := fld w 16 8 / 65536
    ∀ e p ps, fld w 8 1 ≤ 127 → 0 < fld w 16 8 → fld w 16 8 % 65536 = 0 → fld w 16 8 ≤ 2 ^ 47 → (a.slice host).valid = true → (a.slice host).destroying = false →
      parked a = false → ((List.range 31).map (· + 1)).find? (fun e => (tget none a.sec.enclaves e).isNone) = some e → enclavePartition a = some p →
      fld (committed a 2 0) (2 * p) 2 ≠ 0 → fits a host 0 (65536 * k) = true → enclavePages a (k + enclaveTables k) = .ok ps →
      gives (.ok (setEnclave (grantPages (grantPages a (ps.take k) { typ := .enclave, id := BitVec.ofNat 7 e, host := host }) (ps.drop k) { typ := .secure }) e
        { host := host, pages := ps.take k, tables := ps.drop k, partition := BitVec.ofNat 4 p, image := 0, data := 0, save := 0, handle := none })
        (payload [(0, 1, e)]))) ∧
  OnRow .enclaveLoad 0x0C02 false [(8, 1), (16, 8)] (fun a n w _ gives =>
    ∀ x wrap, 1 ≤ fld w 8 1 → fld w 8 1 ≤ 31 → tget none a.sec.enclaves (fld w 8 1) = some x →
    (x.host ≠ n → gives (.err 4 8)) ∧
    (x.host = n → parked a = false → x.handle = none → firstOff a n .read (fld w 16 8) 512 isDram = none → StructAt a n w 16 (fld w 16 8) 512 wrap → let a := structRead a n (fld w 16 8) 512;
      (wrapperErr wrap = none → supplierOk a wrap = false → gives (.errS (wipeEnclave a (BitVec.ofNat 5 (fld w 8 1))) 23 0 0)) ∧
      (∀ cipher, wrapperErr wrap = none → supplierOk a wrap = true → firstOff a n .read (fld w 16 8 + 512) (fieldOf wrap 8 8) isDram = none →
        StructAt a n w 16 (fld w 16 8 + 512) (fieldOf wrap 8 8) cipher → let a := structRead a n (fld w 16 8 + 512) (fieldOf wrap 8 8);
        (∀ t, openEnclave a n (fld w 8 1) x wrap cipher = .ok t → gives (.ok t.1 (payload [(0, 2, t.2)]))) ∧
        (∀ st o r, openEnclave a n (fld w 8 1) x wrap cipher = .error (st, o, r) → gives (.errS (wipeEnclave a (BitVec.ofNat 5 (fld w 8 1))) st o r))))) ∧
  OnRow .enclaveDestroy 0x0C03 true [(8, 1)] (fun a _ w _ gives => ∀ x, 1 ≤ fld w 8 1 → fld w 8 1 ≤ 31 → tget none a.sec.enclaves (fld w 8 1) = some x → parked a = false →
    ((∃ j ∈ a.jobs, j.enclave = some (BitVec.ofNat 5 (fld w 8 1))) → gives (.err 6 0)) ∧
    ((∀ j ∈ a.jobs, j.enclave ≠ some (BitVec.ofNat 5 (fld w 8 1))) → gives (.ok (destroyEnclave a (fld w 8 1) x) 0)))

/-! ### The host, the rings and the channels -/

/-- R316, R319, R320, R345 and Tables 11-9 to 11-11: the doorbells, RING_CTRL and the head pointers of an answering page. A command ring
whose tail runs ahead of its head by more than the ring is in ERROR; RING_CTRL with ENABLE 1 starts a page that is
disabled with all pointers 0 when its sizes and bases are in range, and sets ERROR otherwise; a head moved past its
tail is an ERROR.
The model's choices it rests on: log entries 91, 122 and 125. -/
def Obligations.RingRegisters : Prop :=
  ∀ (s : State) (n : SliceId) (v : Word), OnPage s n →
    let p := (s.slice n).page
    let set (q : Page) := s.upPage n (fun _ => q)
    let pv : Page := { p with cmdLog2 := v.extractLsb' 0 5, cplLog2 := v.extractLsb' 5 5, ntcLog2 := v.extractLsb' 10 5 }
    (p.enable = false ∨ p.error = true → exec (.doorbellCmd n) s = .next (set { p with dbCmd := true })) ∧
    (p.enable = true → p.error = false → 2 ^ p.cmdLog2.toNat < (p.cmdTail - p.cmdHead).toNat →
      exec (.doorbellCmd n) s = .next (set { p with error := true, dbCmd := true })) ∧
    (p.enable = true → p.error = false → (p.cmdTail - p.cmdHead).toNat ≤ 2 ^ p.cmdLog2.toNat →
      exec (.doorbellCmd n) s = .next (set { p with seenTail := p.cmdTail, dbCmd := decide (p.cmdTail ≠ p.cmdHead) })) ∧
    (exec (.doorbellMbx n) s = .next (set { p with dbMbx := true })) ∧
    (p.enable = true → exec (.ringEnable n v) s = .next s) ∧
    (p.enable = false →
      (6 ≤ pv.cmdLog2.toNat ∧ pv.cmdLog2.toNat ≤ 16 ∧ 6 ≤ pv.cplLog2.toNat ∧ pv.cplLog2.toNat ≤ 16 ∧ 6 ≤ pv.ntcLog2.toNat ∧ pv.ntcLog2.toNat ≤ 16 ∧
        p.cmdBase.toNat % 4096 = 0 ∧ p.cplBase.toNat % 4096 = 0 ∧ p.ntcBase.toNat % 4096 = 0 →
        exec (.ringEnable n v) s = .next (afterEnable (set { pv with
          enable := true, error := false, cmdTail := 0, seenTail := 0, cmdHead := 0, cplTail := 0, cplHead := 0, ntcTail := 0, ntcHead := 0, dbCmd := false }) n)) ∧
      (pv.cmdLog2.toNat < 6 ∨ 16 < pv.cmdLog2.toNat ∨ p.cmdBase.toNat % 4096 ≠ 0 → exec (.ringEnable n v) s = .next (set { pv with error := true }))) ∧
    (exec (.ringDisable n v) s = .next (s.upSlice n (fun x => { x with
      page := { pv with enable := false }
      held := []
      lossCpls := if x.recovering then x.lossCpls + BitVec.ofNat 32 x.held.length else x.lossCpls }))) ∧
    (exec (.cplHeadWrite n v) s = .next (set { p with
      cplHead := v, error := p.error || decide ((p.cplTail - p.cplHead).toNat < (v - p.cplHead).toNat) })) ∧
    (exec (.ntcHeadWrite n v) s = .next (set { p with
      ntcHead := v, error := p.error || decide ((p.ntcTail - p.ntcHead).toNat < (v - p.ntcHead).toNat) })) ∧
    (∀ sp, exec (.ntcLostRead n sp) s = .next (if sp then s.emit (.readData (leBytes 4 p.ntcLost.toNat))
      else (s.emit (.readData (leBytes 4 p.ntcLost.toNat))).upPage n (fun q => { q with ntcLost := 0 })))

/-- R342, R343: with the link down no inbound request reaches the part, and in D3hot each is answered with Unsupported Request and
does nothing else; this covers every row of the host's memory requests.
The model's choices it rests on: log entries 88, 91 and 125. -/
def Obligations.RequestsWithoutLink : Prop :=
  ∀ (s : State) (n : SliceId) (v : Word) (c : CtrId) (off : BitVec 25) (len : Nat) (d : Bytes) (b : Bool) (f : FloorAns) (o : BitVec 24),
    ∀ row ∈ [Instr.doorbellCmd n, .doorbellMbx n, .ringEnable n v, .ringDisable n v, .cplHeadWrite n v, .ntcHeadWrite n v, .ntcLostRead n b, .pdStatusClear v,
             .counterFetchAdd n c v, .counterSwapCas n c, .apertureRead n off { len := len, atomic := b, floor := f }, .apertureWrite n off d { ep := b, floor := f }, .pasidPrefixedRequest b,
             .bar0InvalidAccess b o len, .registerWrite (.bar0 o b) b (.write (v.setWidth 64)), .registerWrite (.bar0 o b) b .read],
      (s.host.linkUp = false → exec row s = .next s) ∧
      (s.host.linkUp = true → s.host.d3hot = true → exec row s = .next (s.emit .unsupported))

/-- R316, R321, R322, R326, R336: the counter window, the aperture, refused accesses and the power-domain status register. R289, R323, R329 to R331, R342, R343: the link lost and regained, D3hot, completions from the host, and prefetch. R333: MBX_LOCK is
set once, and each clash of host pages then goes to island B.
The model's choices it rests on: log entries 8, 10, 57, 68, 88, 91, 93, 110, 120, 122, 125 and 133. -/
def Obligations.LinkAndAccesses : Prop :=
  (∀ (s : State), s.host.mbxLock = true → exec .mbxLockSet s = .next s) ∧
  (∀ (s : State), s.host.mbxLock = false →
    let clashes := (List.range 32).filter (fun k => chanValid (s.chan (BitVec.ofNat 5 k)) && chanClash s (BitVec.ofNat 5 k))
    exec .mbxLockSet s = .next ((List.range clashes.length).foldl (fun s _ => raiseCode s .b 0x00) (s.upHost (fun h => { h with mbxLock := true })))) ∧
  (∀ (s : State), Arrives s →
    let drop (t : State) : State := t.upHost (fun h => { h with drop := h.drop + 1 })
    (∀ (v : Word), v.getLsbD 31 = true → exec (.pdStatusClear v) s = .next (s.upHost (fun h => { h with pdValid := false, pdCount := 0 }))) ∧
    (∀ (v : Word), v.getLsbD 31 = false → exec (.pdStatusClear v) s = .next s) ∧
    (∀ (n : SliceId) (c : CtrId) (v : Word), s.host.devReady = true → (s.ctr c).dead = false → (s.slice n).valid = true → (s.ctr c).slice = some n →
      let t := s.emit (.readData (leBytes 4 (s.ctr c).value.toNat))
      (v = 0 → exec (.counterFetchAdd n c v) s = .next t) ∧
      (v ≠ 0 → exec (.counterFetchAdd n c v) s =
        .next (applySignal (t.upCtr c (fun x => { x with issued := x.issued + 1 })) c { value := v, src := .host n }))) ∧
    (∀ (n : SliceId) (c : CtrId), s.host.devReady = true → (s.ctr c).dead = false → (s.ctr c).slice ≠ some n →
      exec (.counterFetchAdd n c 0) s = .next (s.emit (.readData (zeros 4)))) ∧
    (∀ (n : SliceId) (c : CtrId), exec (.counterSwapCas n c) s = .next (drop (s.emit .completerAbort))) ∧
    (∀ b, exec (.pasidPrefixedRequest b) s = .next (drop (s.emit .unsupported))) ∧
    (∀ (n : SliceId) (off : BitVec 25) (len : Nat),
      let va := (s.slice n).page.aptBase.toNat + off.toNat
      (∀ f, exec (.apertureRead n off { len := len, atomic := true, floor := f }) s = .next (drop (s.emit .completerAbort))) ∧
      (s.host.devReady = false → ∀ a f, exec (.apertureRead n off { len := len, atomic := a, floor := f }) s = .next (drop (s.emit .completerAbort))) ∧
      (s.host.devReady = true → (s.slice n).valid = false ∨ (s.slice n).page.aptEnable = false →
        ∀ f, exec (.apertureRead n off { len := len, floor := f }) s = .next (drop (s.emit (.readData (ones len))))) ∧
      (s.host.devReady = true → (s.slice n).valid = true → (s.slice n).page.aptEnable = true → meetsHost s n va len = false →
        (∀ bs, readVa s n (.slice n) .read va len = .ok bs →
          let t := sliceAccess ((usePrefetch s n off.toNat len).emit (.readData bs)) midHost n false va len
          exec (.apertureRead n off { len := len }) s = .next t ∧
          exec (.apertureRead n off { len := len, floor := .retried }) s = .next (passedCheckOf t .b midHost n) ∧
          exec (.apertureRead n off { len := len, floor := .timeout }) s =
            .next (notify (raiseCode (s.emit (.readData (ones len))) .a 0x0B) n 0x0C 3 (payload [(0, 1, 3)]))) ∧
        (∀ x, readVa s n (.slice n) .read va len = .fault x →
          ∀ f, exec (.apertureRead n off { len := len, floor := f }) s = .next (notify (drop (meetEntry (s.emit (.readData (ones len))) portW n (.slice n) x)) n 0x0C 3 (payload [(0, 1, 1), (8, 8, x)]))) ∧
        (∀ x p, readVa s n (.slice n) .read va len = .check x p →
          ∀ f, exec (.apertureRead n off { len := len, floor := f }) s = .next (notify (countCheck (s.emit (.readData (ones len))) .b midHost) n 0x0C 3 (payload [(0, 1, 2), (8, 8, x)]))))) ∧
    (∀ (n : SliceId) (off : BitVec 25) (d : Bytes),
      let va := (s.slice n).page.aptBase.toNat + off.toNat
      (s.host.devReady = false ∨ (s.slice n).valid = false ∨ (s.slice n).page.aptEnable = false → ∀ r, exec (.apertureWrite n off d r) s = .next (drop s)) ∧
      (s.host.devReady = true → (s.slice n).valid = true → (s.slice n).page.aptEnable = true → meetsHost s n va d.length = false → ∀ x r, firstUnreachable s n (.slice n) .write va d.length = some x →
        exec (.apertureWrite n off d r) s = .next (notify (drop (meetEntry s portW n (.slice n) x)) n 0x0C 3 (payload [(0, 1, 1), (8, 8, x)]))) ∧
      (s.host.devReady = true → (s.slice n).valid = true → (s.slice n).page.aptEnable = true → meetsHost s n va d.length = false →
        firstUnreachable s n (.slice n) .write va d.length = none →
        let t := sliceAccess (writeBy (hitPrefetch s n off.toNat d.length) midHost n (.slice n) va d) midHost n true va d.length
        exec (.apertureWrite n off d {}) s = .next t ∧
        exec (.apertureWrite n off d { floor := .timeout }) s = .next (notify (raiseCode (drop s) .a 0x0B) n 0x0C 3 (payload [(0, 1, 3)])) ∧
        exec (.apertureWrite n off d { ep := true }) s = .next (notify (poisonVa t n va d.length) n 0x0B 3 (payload [(0, 8, va)])))) ∧
    (∀ (off : BitVec 24) (size : Nat), bar0Accepts s off.toNat size = false →
      exec (.bar0InvalidAccess true off size) s = .next (drop s) ∧ exec (.bar0InvalidAccess false off size) s = .next (drop (s.emit .completerAbort))) ∧
    (∀ (off : BitVec 24) (size : Nat), bar0Accepts s off.toNat size = true →
      exec (.bar0InvalidAccess false off size) s = .next (readBar0 s off.toNat size)) ∧
    (∀ (off : BitVec 24) (v : DWord) (b : Bool),
      (bar0Accepts s off.toNat 4 = true → absentPage s (bar0Of off.toNat) = false →
        exec (.registerWrite (.bar0 off false) b (.write v)) s = .next (writeBar0 s off.toNat (v.extractLsb' 0 32))) ∧
      (bar0Accepts s off.toNat 8 = true → absentPage s (bar0Of off.toNat) = false → exec (.registerWrite (.bar0 off true) b (.write v)) s =
        .next (writeBar0 (writeBar0 s off.toNat (v.extractLsb' 0 32)) (off.toNat + 4) (v.extractLsb' 32 32))) ∧
      (∀ wide, bar0Accepts s off.toNat (if wide then 8 else 4) = false ∨ absentPage s (bar0Of off.toNat) = true →
        exec (.registerWrite (.bar0 off wide) b (.write v)) s = .next (drop s))) ∧
    (∀ (n : SliceId) (v : Word), s.host.devReady = false ∨ (s.slice n).valid = false →
      ∀ row ∈ [Instr.doorbellCmd n, .doorbellMbx n, .ringEnable n v, .ringDisable n v, .cplHeadWrite n v, .ntcHeadWrite n v], exec row s = .next (drop s))) ∧
  (∀ (s : State),
    (s.host.linkUp = true → exec .pcieLinkDown s = .next (raiseCode (bridgeStops (s.upHost (fun h => { h with linkUp := false }))) .b 0x22)) ∧
    (s.host.linkUp = true → s.host.d3hot = false → exec .d3hotEntry s = .next (bridgeStops (s.upHost (fun h => { h with d3hot := true })))) ∧
    (s.host.configReady = true → exec .d0Return s = .next (s.upHost (fun h => { h with d3hot := false, linkUp := true }))) ∧
    (∀ (a : BitVec 64) (d : Bytes), linkOk s = true →
      let rs := readsAt s a.toNat
      let t := s.upHost (fun h => { h with reads := readsKept h a.toNat })
      exec (.hostCompletion a .ok d) s = .next (rs.foldl answered (pokeHost t a.toNat d)) ∧
      exec (.hostCompletion a .unsupported d) s = .next (rs.foldl (failHostRead 0x04 1) t) ∧
      exec (.hostCompletion a .abort d) s = .next (rs.foldl (failHostRead 0x04 1) t) ∧
      exec (.hostCompletion a .poisoned d) s = .next ((rs.foldl answered (pokeHost t a.toNat d)).upHost (fun h => { h with
        poisonedIn := h.poisonedIn ++ rs.filter (·.forJob) }))) ∧
    (∀ (r : HostRead) n tag pos status result, r.src = .semaphore n tag pos status result →
      (let old := leNat ((List.range 8).map (fun i => hostByteAt s (r.addr + i)))
       answered s r = completeStart (pokeHost s r.addr (leBytes 8 (old + 1))) n tag pos status result) ∧
      (∀ reason cause, failHostRead reason cause s r = completeStart (notify s n 0x16 1 (payload [(0, 4, tag.toNat), (4, 1, cause)])) n tag pos status result)) ∧
    (∀ (a : BitVec 64) (at_ : Nat),
      let rs := readsAt s a.toNat
      let inTime (r : HostRead) : Prop := at_ < r.since + (timeoutLeast s.host.cfg.timeout.toNat).getD 0
      (rs = [] ∨ (∃ r ∈ rs, inTime r) → exec (.hostCompletionTimeout { addr := a, at_ := at_ }) s = .next s) ∧
      (rs ≠ [] → (∀ r ∈ rs, ¬ inTime r) → exec (.hostCompletionTimeout { addr := a, at_ := at_ }) s = .next (rs.foldl (failHostRead 0x11 1) (raiseCode ((s.at_ at_).upHost (fun h => { h with
          completionTimeouts := h.completionTimeouts + 1
          reads := readsKept h a.toNat })) .a 0x0B)))) ∧
    (∀ (n : SliceId) (off : BitVec 25) (len at_ : Nat) bs, mayPrefetch s n off.toNat len = true → (s.slice n).page.aptEnable = true →
      meetsHost s n ((s.slice n).page.aptBase.toNat + off.toNat) len = false → readVa s n (.slice n) .read ((s.slice n).page.aptBase.toNat + off.toNat) len = .ok bs →
      exec (.bridgePrefetch n off len at_) s = .next ((s.at_ at_).upHost (fun h => { h with
        prefetched := h.prefetched ++ (chunks (chunkFuel len) off.toNat len).map (fun c => { slice := n, off := c.1, len := c.2, since := (s.at_ at_).now }) }))) ∧
    (∀ at_, let old (p : Prefetched) : Bool := decide (p.since + 10000 ≤ at_)
      exec (.prefetchExpiry at_) s = .next ((s.at_ at_).upHost (fun h => { h with
        prefetchDiscard := h.prefetchDiscard + BitVec.ofNat 32 (((h.prefetched.filter old).map (fun p => (granules p.off p.len).length)).foldl (· + ·) 0)
        prefetched := h.prefetched.filter (fun p => !old p) }))))

/-- R333 to R336 and Tables 11-13, 11-14: only the two ends of an enabled channel may ring or access it; a write of a word is its
writer's alone; words of a domain that is off are recorded in MBX_PD_STATUS; every other access is refused with an
error, counted and reported to island B. The answer of a read that is refused is the model's choice.
The model's choices it rests on: log entries 122 and 125. -/
def Obligations.Channels : Prop :=
  (∀ (s : State) (ch : ChanId) (m : BitVec 4), MasterArrives s m →
    let by_ (take : Bool) : DoorbellBy := { master := m, take := take }
    (chanOn s ch = true → m.toNat = endA (s.chan ch) →
      exec (.channelDoorbell ch (by_ false)) s = .next (ring s ch true) ∧
      exec (.channelDoorbell ch (by_ true)) s = .next (s.upChan ch (fun c => { c with bellA := false }))) ∧
    (chanOn s ch = true → m.toNat ≠ endA (s.chan ch) → m.toNat = endB (s.chan ch) →
      exec (.channelDoorbell ch (by_ false)) s = .next (ring s ch false) ∧
      exec (.channelDoorbell ch (by_ true)) s = .next (s.upChan ch (fun c => { c with bellB := false }))) ∧
    (chanOn s ch = false ∨ (m.toNat ≠ endA (s.chan ch) ∧ m.toNat ≠ endB (s.chan ch)) →
      let refused (write : Bool) : State := firewallB (if m = 1 then (if write then s else s.emit .completerAbort) else s.emit (.errorResponse m))
      (∀ take, exec (.channelDoorbell ch (by_ take)) s = .next (refused true)) ∧
      ∀ wr i v, exec (.channelWordAccess ch m wr i v) s = .next (refused wr))) ∧
  (∀ (s : State) (ch : ChanId) (m : BitVec 4) (i : BitVec 4) (v : Word), MasterArrives s m → chanOn s ch = true →
    let reader := if i.toNat < 8 then endB (s.chan ch) else endA (s.chan ch)
    let writer := if i.toNat < 8 then endA (s.chan ch) else endB (s.chan ch)
    (m.toNat = endA (s.chan ch) ∨ m.toNat = endB (s.chan ch)) →
      (endOff s reader = true → exec (.channelWordAccess ch m true i v) s = .next (pdRecord s ch true reader) ∧
        exec (.channelWordAccess ch m false i v) s = .next ((pdRecord s ch false reader).emit .completerAbort)) ∧
      (endOff s reader = false → m.toNat = writer →
        exec (.channelWordAccess ch m true i v) s = .next (s.upChan ch (fun c => { c with words := tset 0 c.words i.toNat v }))) ∧
      (endOff s reader = false → m.toNat ≠ writer → exec (.channelWordAccess ch m true i v) s = .next s) ∧
      (endOff s reader = false → exec (.channelWordAccess ch m false i v) s = .next (s.emit (.readData (leBytes 4 (tget 0 (s.chan ch).words i.toNat).toNat))))) ∧
  (∀ (s : State) (ch : ChanId) (wr : Bool) (e : Nat),
    (s.host.pdValid = false → pdRecord s ch wr e = s.upHost (fun h => { h with
      pdValid := true, pdWrite := wr, pdCount := 1, pdChannel := BitVec.ofNat 8 ch.toNat, pdEndpoint := BitVec.ofNat 4 e })) ∧
    (s.host.pdValid = true → pdRecord s ch wr e = s.upHost (fun h => { h with pdCount := BitVec.ofNat 8 (min 255 (h.pdCount.toNat + 1)) })))

/-- R337 to R340: a notice takes the next SEQ of its slice and goes to the log; it enters the ring at once when nothing is staged and
the ring has room, else the staging of 64, else it is lost and counted. The staged ones follow in order, then the
overflow notice; a timer that has run out sends its one MSI-X. -/
def Obligations.NoticeRings : Prop :=
  (∀ (s : State) (n : SliceId) (code : Half) (v : BitVec 3) (d : BitVec 128), (s.slice n).valid = true →
    let x := s.slice n
    let e : Notice := { code := code, vec := v, slice := n, seq := x.seq, cue := s.cue.count, payload := d }
    let t := (logPush false e s).upSlice n (fun x => { x with seq := x.seq + 1 })
    let room := decide ((x.page.ntcTail - x.page.ntcHead).toNat < 2 ^ x.page.ntcLog2.toNat)
    (x.staged = [] → x.page.enable = true → room = true → linkOk s = true → notify s n code v d = writeNotice t n e) ∧
    (x.page.enable = false ∨ room = false → x.staged.length < 64 → notify s n code v d = t.upSlice n (fun x => { x with staged := x.staged ++ [e] })) ∧
    (x.staged.length = 64 → notify s n code v d = t.upSlice n (fun x => { x with
      lostPending := x.lostPending + 1
      page := { x.page with ntcLost := x.page.ntcLost + 1 }
      diag := tup 0 x.diag 5 (· + 1) }))) ∧
  (∀ (s : State) (n : SliceId) e es, (∀ x ∈ s.cue.owed, x.slice ≠ n) → (s.slice n).staged = e :: es → ntcRoom (s.slice n).page = true → linkOk s = true →
    let t := writeNotice (s.upSlice n (fun x => { x with staged := es })) n e
    ((s.slice n).lostPending = 0 → exec (.noticeDeliver n) s = .next t) ∧
    ((s.slice n).lostPending ≠ 0 → exec (.noticeDeliver n) s =
      .next (notify (t.upSlice n (fun x => { x with lostPending := 0 })) n 0xF0 3 (payload [(0, 4, (s.slice n).lostPending.toNat)])))) ∧
  (∀ (s : State) (n : SliceId) e es, (s.slice n).held = e :: es → (s.slice n).page.enable = true → cplRoom (s.slice n).page = true →
    exec (.completionWrite n) s = .next (writeCpl (s.upSlice n (fun x => { x with held := es })) n e)) ∧
  (∀ (s : State) (n : SliceId) (due at_ : Nat), due ≤ at_ →
    ((s.slice n).timer0 = some due → exec (.coalesceTimer n 0 at_) s = .next (sendMsix ((s.at_ at_).upSlice n (fun x => { x with timer0 := none })) (16 * n.toNat))) ∧
    ((s.slice n).timer1 = some due → exec (.coalesceTimer n 1 at_) s = .next (sendMsix ((s.at_ at_).upSlice n (fun x => { x with timer1 := none })) (16 * n.toNat + 1))))

/-! ### The cue, time bases, cameras, displays and networks -/

/-- R17 to R26 and Table 1-4: an edge comes when it is planned and the cue runs or starts; it takes its count first, 0 after
a start and one more than the last otherwise, and then the sheet's overruns, commits, suspensions, replacements and
checkpoints in the order of the table. A stop takes effect at the edge after step 2. R24, R27, R238, R240, R244, R424, R451: a beat comes B after the last while its index is below the number of beats; a scene opens at
its START and closes DURATION later.
The model's choices it rests on: log entries 1, 10, 33, 36, 37, 38, 94 and 126. -/
def Obligations.CueEvents : Prop :=
  (∀ (s : State) (at_ : Nat),
    ((s.cue.running = false ∧ s.cue.starting = false) ∨ at_ ≠ s.cue.next → exec (.cueEdge at_) s = .next s) ∧
    (s.cue.running = true ∨ s.cue.starting = true → at_ = s.cue.next →
      let t := edgeStart (s.at_ at_)
      (s.cue.stopping = true → exec (.cueEdge at_) s = .next (checkpoint .b (checkpoint .a (leadFrame (restartWindows (cueStopped t)) true)))) ∧
      (s.cue.stopping = false → exec (.cueEdge at_) s = .next (checkpoint .b (checkpoint .a (edgeRun t (!s.cue.running)))))) ∧
    (s.cue.adopt = none → edgeCount s = if s.cue.running then s.cue.count + 1 else 0) ∧
    (∀ k, s.cue.adopt = some k → edgeCount s = k)) ∧
  ((∀ (s : State) (at_ : Nat), s.cue.running = true → s.cue.beat ≠ 0 → s.cue.beatIdx < beatCount s → at_ = s.cue.last + s.cue.beatIdx * s.cue.beat →
    exec (.beatStart at_) s = .next (sendPeriodic ((s.at_ at_).upCue (fun c => { c with beatIdx := s.cue.beatIdx + 1 })) s.cue.beatIdx)) ∧
  (∀ (s : State) (at_ : Nat), beatCount s ≤ s.cue.beatIdx ∨ at_ ≠ s.cue.last + s.cue.beatIdx * s.cue.beat → exec (.beatStart at_) s = .next s) ∧
  (∀ (s : State) (i : SceneId) (sc : Scene) (at_ : Nat), sceneOf s i = some sc → s.cue.running = true →
    (at_ = s.cue.last + sc.start →
      let t := if sc.kaf then (s.at_ at_).saf.kafs.zipIdx.foldl (queueKaf i) (s.at_ at_) else s.at_ at_
      exec (.sceneOpen i at_) s = .next (placeAll (t.jobs.length + 1) t i)) ∧
    (at_ = s.cue.last + sc.start + sc.duration →
      let t := closeScene (s.at_ at_) i
      exec (.sceneClose i at_) s = .next ((t.jobs.filter (fun j => ofScene t i j)).foldl dropKaf t))) ∧
  (∀ (s : State) (i : SceneId) (at_ : Nat), s.cue.running = false → exec (.sceneOpen i at_) s = .next s ∧ exec (.sceneClose i at_) s = .next s))

/-- R41, R42, R257, R300, R301 and Table 1-6: the audit of each pool agrees silently, and reports a difference with what it expected and found.
The model's choices it rests on: log entries 39 and 92. -/
def Obligations.ConservationAudits : Prop :=
  ∀ (s : State),
    let Due (r : AuditReport) : Prop := auditDue s r = true
    let noted (r : AuditReport) : State := s.upCue (fun c => { c with audited := c.audited.map (auditKey r :: ·) })
    (∀ r, auditDue s r = false → exec (.conservationAudit r) s = .next s) ∧
    (∀ (c : CtrId), Due (.sync c) →
      let x := s.ctr c
      let ledger := x.initial + x.added - x.consumed
      (x.dead = false → x.value.toNat = ledger → x.issued = x.applied + x.flight.length → exec (.conservationAudit (.sync c)) s = .next (noted (.sync c))) ∧
      (x.dead = true ∨ x.value.toNat ≠ ledger ∨ x.issued ≠ x.applied + x.flight.length →
        exec (.conservationAudit (.sync c)) s = .next (auditFault (noted (.sync c)) .a 3 c.toNat ledger x.value.toNat))) ∧
    (∀ (a : AeId), Due (.kvPages a) →
      ((poolFrames (s.ae a)).length = (s.ae a).total → exec (.conservationAudit (.kvPages a)) s = .next (noted (.kvPages a))) ∧
      ((poolFrames (s.ae a)).length ≠ (s.ae a).total →
        exec (.conservationAudit (.kvPages a)) s = .next (auditFault (noted (.kvPages a)) .a 4 a.toNat (s.ae a).total (poolFrames (s.ae a)).length))) ∧
    (∀ q h f, Due (.buffers q h f) →
      (slotStaged s q + h + f = slotTotal s q → exec (.conservationAudit (.buffers q h f)) s = .next (noted (.buffers q h f))) ∧
      (slotStaged s q + h + f ≠ slotTotal s q →
        exec (.conservationAudit (.buffers q h f)) s = .next (auditFault (noted (.buffers q h f)) .b 2 (slotIndex q) (slotTotal s q) (slotStaged s q + h + f)))) ∧
    (∀ k, Due (.bandwidth k) → let x := tget {} s.mem.acct k
      (x.tokens + x.drawn = x.issued → exec (.conservationAudit (.bandwidth k)) s = .next (noted (.bandwidth k))) ∧
      (x.tokens + x.drawn ≠ x.issued → exec (.conservationAudit (.bandwidth k)) s = .next (auditFault (noted (.bandwidth k)) .a 5 k x.issued (x.tokens + x.drawn)))) ∧
    (∀ p free used, Due (.tags p free used) →
      (free + used = poolSize p → used = (poolTxns s p).length → exec (.conservationAudit (.tags p free used)) s = .next (noted (.tags p free used))) ∧
      (free + used ≠ poolSize p ∨ used ≠ (poolTxns s p).length →
        exec (.conservationAudit (.tags p free used)) s = .next (auditFault (noted (.tags p free used)) .a 6 p.val (poolSize p) (free + (poolTxns s p).length)))) ∧
    (let kept (t : State) (key : Nat) (y : CreditLoop) (x : LoopRec) : State :=
       t.upFab (fun f => { f with credits := tset none f.credits key (some { y with held := x.h, ct := x.ct }) })
     (∀ (req : Bool) x y, let key := if req then 1000 else 1001
       let r : AuditReport := .twinLink req x
       Due r → tget none s.fab.credits key = some y →
       (loopSum x = y.total → exec (.conservationAudit r) s = .next (kept (noted r) key y x)) ∧
       (loopSum x ≠ y.total → exec (.conservationAudit r) s = .next (retrainTwin key (auditFault (noted r) .b 1 key y.total (loopSum x))))) ∧
     (∀ (m : ModId) (vc : BitVec 2) x y, let key := 4 * modKey m + vc.toNat
       let r : AuditReport := .dieLink m vc x
       Due r → tget none s.fab.credits key = some y →
       (loopSum x = y.total → exec (.conservationAudit r) s = .next (kept (noted r) key y x)) ∧
       (loopSum x ≠ y.total → exec (.conservationAudit r) s =
         .next (startRetrain (auditFault (noted r) (if m.die = .wings then .b else .a) 1 key y.total (loopSum x)) m true))))

/-- R21, R34, R436 to R442: samples of the time bases, captures, holdover and the safe points at which staged sets apply. R459 to R464: at a sample instant every loop that is due is sampled, in order, while the cue runs and the domain is on. R17, R24, R26, R238: at its own time an edge, a beat, and the opening and the closing of a scene each take
place, in every state where the cue runs (an edge also where it starts).
The model's choices it rests on: log entries 1, 10, 36, 52, 56 and 111. -/
def Obligations.TimeAndLoopEvents : Prop :=
  (∀ (s : State) (at_ : Nat),
    (∀ (dom : Fin 2) (m : PtpSync),
      (tget [] s.net.syncRx (syncKey m.port.val dom.val) = [] → exec (.ptpSyncReceive dom m at_) s = .next s) ∧
      (tget [] s.net.syncRx (syncKey m.port.val dom.val) ≠ [] →
        let rx := (tget [] s.net.syncRx (syncKey m.port.val dom.val)).getD dom.val 0
        exec (.ptpSyncReceive dom m at_) s = .next (sampleOf (relaySync (s.at_ at_) dom.val m rx) dom.val (fun w => tbSource w == 1) (fun _ => syncTime m - rx)))) ∧
    (∀ (tb : TbId), tb ≠ 3 → exec (.followSample tb at_) s = .next (sampleOf (s.at_ at_) tb.toNat (fun w => tbSource w == 3)
      (fun s => (s.tb (fld (tbSet s tb.toNat) 2 1 % 4)).nsAt s.now + signed 64 (fld (tbSet s tb.toNat) 32 8) - (s.tb tb.toNat).nsAt s.now))) ∧
    (exec (.followSample 3 at_) s = .next s) ∧
    (∀ (p : BitVec 3) (fall : Bool) (ns : Nat),
      (ns < 20 → exec (.capEdge p fall ns at_) s = .next s) ∧
      (20 ≤ ns →
        let ts := stamps s 8 at_
        exec (.capEdge p fall ns at_) s = .next (drainCaptures ([0, 1, 2].foldl (fun s n => sampleOf s n
          (fun w => tbSource w == 2 && fld w 1 1 % 8 == p.toNat && bitAt (fld w 1 1) 7 == fall) (fun _ => ppsOffset (ts.getD n 0)))
            (bufferEdge { (s.at_ at_) with free := s.free + 1 } p.toNat fall ts))))) ∧
    (∀ (tb : TbId), (∃ c ∈ immediates s (tbGroup tb.toNat), c.at_ + 1000000 ≤ at_) →
      exec (.timebaseSafePoint tb at_) s = .next (safePoint (s.at_ at_) (tbGroup tb.toNat))) ∧
    (∀ (tb : TbId), tbSource (tbSet s tb.toNat) ≠ 0 → (s.tb tb.toNat).st ≠ 3 → (s.tb tb.toNat).last + 1000000 * fld (tbSet s tb.toNat) 24 4 ≤ at_ →
      exec (.timebaseHoldover tb at_) s = .next ((s.at_ at_).setTb tb.toNat { ((s.at_ at_).tb tb.toNat) with st := 3, good := 0 })) ∧
    (∀ (g : Word), freeSafePoint s g.toNat = true → exec (.groupSafePointApply g at_) s = .next (safePoint (s.at_ at_) g.toNat))) ∧
  (∀ (s : State) (at_ : Nat),
    (s.cue.running = true → s.pwr.controlOff = false → s.cue.last ≤ at_ → at_ < s.cue.next →
      let t := loopSafePoints (s.at_ at_)
      exec (.loopSample at_) s = .next ((dueLoops t).foldl (fun r p => sampleLoop t r p.1 p.2) t)) ∧
    (s.cue.running = false ∨ s.pwr.controlOff = true → exec (.loopSample at_) s = .next s)) ∧
  (∀ (s : State),
    (s.cue.running = true ∨ s.cue.starting = true → exec (.cueEdge s.cue.next) s = .next (checkpoint .b (checkpoint .a
      (if s.cue.stopping = true then leadFrame (restartWindows (cueStopped (edgeStart (s.at_ s.cue.next)))) true else edgeRun (edgeStart (s.at_ s.cue.next)) (!s.cue.running))))) ∧
    (s.cue.running = true → s.cue.beat ≠ 0 → s.cue.beatIdx < beatCount s →
      exec (.beatStart (s.cue.last + s.cue.beatIdx * s.cue.beat)) s =
        .next (sendPeriodic ((s.at_ (s.cue.last + s.cue.beatIdx * s.cue.beat)).upCue (fun c => { c with beatIdx := s.cue.beatIdx + 1 })) s.cue.beatIdx)) ∧
    (∀ (i : SceneId) (sc : Scene), sceneOf s i = some sc → s.cue.running = true →
      (let t := s.at_ (s.cue.last + sc.start)
       sc.kaf = false → exec (.sceneOpen i (s.cue.last + sc.start)) s = .next (placeAll (t.jobs.length + 1) t i)) ∧
      (let t := s.at_ (s.cue.last + sc.start)
       let u := t.saf.kafs.zipIdx.foldl (queueKaf i) t
       sc.kaf = true → exec (.sceneOpen i (s.cue.last + sc.start)) s = .next (placeAll (u.jobs.length + 1) u i)) ∧
      (let t := closeScene (s.at_ (s.cue.last + sc.start + sc.duration)) i
       exec (.sceneClose i (s.cue.last + sc.start + sc.duration)) s = .next ((t.jobs.filter (fun j => ofScene t i j)).foldl dropKaf t))))

/-- R199 to R209: a trigger's safe point and edge, the pin's fall, the packets of a frame, a window without a frame and a frame that is done.
The model's choices it rests on: log entries 1, 10, 45, 73 and 116. -/
def Obligations.CameraEvents : Prop :=
  ∀ (s : State),
    (∀ (c : CamId) (at_ : Nat), s.cue.running = true → (s.cam c.toNat).fired = false →
      at_ = s.cue.last + triggerAt s (edgeSet s c.toNat) →
      let t := safePoint (endPrevious (s.at_ at_) c.toNat) (0x7000000 + c.toNat)
      (camUsed t c.toNat = false → exec (.cameraTrigger c at_) s = .next t) ∧
      (camUsed t c.toNat = true → exec (.cameraTrigger c at_) s = .next (fsyncRise (t.upCam c.toNat (fun x => { x with
        k := x.k + 1, trigAt := (s.at_ at_).now, set := camSet t c.toNat, cue := (s.at_ at_).cue.count, openedAt := some (s.at_ at_).now, taken := false, fired := true }))
        (camSet t c.toNat)))) ∧
    (∀ (p : BitVec 4) (at_ : Nat),
      let names (c : Nat) : Prop := (s.cam c).k ≠ 0 ∧ bitAt (fld (s.cam c).set 62 1) 7 = true ∧ fld (s.cam c).set 62 1 % 16 = p.toNat
      s.intake.fsync.getLsbD p.toNat = true → (∃ c < 16, names c) → (∀ c < 16, names c → (s.cam c).trigAt + fld (s.cam c).set 68 4 ≤ at_) →
      exec (.fsyncFall p at_) s = .next (((s.at_ at_).upIntake (fun x => { x with fsync := x.fsync &&& ~~~((1 : Half) <<< p.toNat) })).emit (.fsync p false))) ∧
    (∀ (p : CsiPacket) (at_ : Nat),
      (p.eccOk = false → exec (.csi2FrameStart p at_) s = .next (s.at_ at_) ∧ exec (.csi2FrameEnd p) s = .next s) ∧
      (p.eccOk = true →
        let t := (s.at_ at_).upIntake (fun x => { x with embedded := tset [] x.embedded (embeddedKey p) [] })
        (streamsOf (s.at_ at_) p = [] → exec (.csi2FrameStart p at_) s = .next (unmatchedPacket t p)) ∧
        (streamsOf (s.at_ at_) p ≠ [] → exec (.csi2FrameStart p at_) s = .next ((streamsOf (s.at_ at_) p).foldl frameStart t))) ∧
      (p.eccOk = true → streamsOf s p = [] → exec (.csi2FrameEnd p) s = .next (unmatchedPacket s p)) ∧
      (p.eccOk = true → streamsOf s p ≠ [] → exec (.csi2FrameEnd p) s = .next ((streamsOf s p).foldl frameEnd s))) ∧
    (∀ (p : CsiPacket) (d : Bytes),
      let hit := (streamsOf s p).find? (fun c => fld (camNow s c) 2 1 == p.dt.toNat)
      (p.dt = 0x12 → exec (.csi2LongPacket p d) s = .next (if p.eccOk then takeEmbedded s p d else s)) ∧
      (p.dt ≠ 0x12 → hit = none → exec (.csi2LongPacket p d) s = .next (unmatchedPacket s p)) ∧
      (∀ c f, p.dt ≠ 0x12 → hit = some c → (s.cam c).frame = some f → f.ended = false → exec (.csi2LongPacket p d) s = .next (takeLine s c f (p.eccOk && p.crcOk) d)) ∧
      (∀ c, p.dt ≠ 0x12 → hit = some c → (s.cam c).frame = none → exec (.csi2LongPacket p d) s = .next s)) ∧
    (∀ (c : CamId) (at_ t : Nat), (s.cam c.toNat).openedAt = some t → t + 1000 * fld (s.cam c.toNat).set 72 4 ≤ at_ →
      exec (.cameraWindowExpiry c at_) s = .next (if (s.cam c.toNat).taken then (s.at_ at_).upCam c.toNat (fun x => { x with openedAt := none })
        else missingFrame (s.at_ at_) c.toNat)) ∧
    (∀ (c : CamId) f, (s.cam c.toNat).frame = some f → f.ended = true → exec (.cameraFrameDone c) s = .next (finishFrame s c.toNat f))

/-- R191 to R198: a head sends its lines while it is on, each pixel the composition of its layers where its data came in time and
the background otherwise; the blank closes the frame and latches the next sets; training ends.
The model's choices it rests on: log entries 1, 42, 112, 113 and 129. -/
def Obligations.DisplayEvents : Prop :=
  ∀ (s : State) (h : HeadId),
    (exec (.headLinkTrained h) s = .next (s.upHead h (fun x => { x with training := none }))) ∧
    (∀ at_, exec (.vblankStart h at_) s = .next
      (let t := latchSets (if headOn (s.at_ at_) h then endFrame (s.at_ at_) h else s.at_ at_) h
       if headOn t h then repeatFrame t h else t)) ∧
    (∀ n, headOn s h = false ∨ vActive (headSet s h) ≤ (s.head h).line → exec (.lineSend h n) s = .next s) ∧
    (headOn s h = true → (s.head h).line < vActive (headSet s h) → trains s (s.head h) = false →
      let w := headSet s h
      let ps := (List.range (hActive w)).map (headPixel s h w (s.head h).line)
      let bad := (ps.flatMap (·.2)).eraseDups
      let dark := s.saf.curtain && (safeFrame w == 1 || safeFrame w == 2)
      let t := (s.emit (.line h (ps.map (fun p => outPixel (fld w 3 1) p.1)))).upHead h (fun y => { y with
        line := y.line + 1, check := y.check || !bad.isEmpty, back := (y.back ++ bad).eraseDups, scanned := y.scanned && !dark })
      exec (.lineSend h (hActive w)) s = .next (drawTokens ((bad.filter (fun i => !(s.head h).back.contains i)).foldl
        (fun s _ => reportCheckOf s .b midDisplay (headSlice s h) false) t) (.realTime (rtRank 0 midDisplay)) (lineBytesOf w (s.head h).line)))

/-- R432 to R434, R443 to R452: frames received and sent on CAN and Ethernet, gates, staleness and least gaps.
The model's choices it rests on: log entries 1, 10, 50, 51, 86, 87, 111 and 115. -/
def Obligations.NetworkEvents : Prop :=
  ∀ (s : State),
    (∀ (c : CanId) (f : CanFrame) (at_ : Nat), canTakes s c f = true →
      let t := (s.at_ at_).upCan c.toNat (fun x => { x with rec_ := x.rec_ - 1 })
      let p (x : Nat × BitVec 4608) : Bool := fld x.2 1 1 == 0 && fld x.2 2 1 == c.toNat && canMatch x.2 f.id.toNat f.ext
      ((∃ x ∈ routes s, isSignal x.2 = true ∧ p x = true) → exec (.canFrameReceive c f at_) s = .next (sourceEvent t f.data p)) ∧
      ((∀ x ∈ routes s, isSignal x.2 = true → p x = false) →
        exec (.canFrameReceive c f at_) s = .next (t.upCan c.toNat (fun x => { x with dropped := x.dropped + 1 })))) ∧
    (∀ (c : CanId) (f : CanFrame) (at_ : Nat), canTakes s c f = false → exec (.canFrameReceive c f at_) s = .next s) ∧
    (∀ (c : CanId) (at_ : Nat) q, canOffer (s.can c.toNat) = some q → (canMode s.pwr.net c.toNat = 1 ∨ canMode s.pwr.net c.toNat = 2) → (s.can c.toNat).busOff = false →
      let once (y : CanSt) : CanSt := if canOneShot s.pwr.net c.toNat then canDrop y q else y
      exec (.canFrameTransmitted c .sent at_) s = .next (((s.at_ at_).upCan c.toNat (fun y => { (canDrop y q) with tec := y.tec - 1 })).emit (.canFrame c q.2)) ∧
      exec (.canFrameTransmitted c .checkFailed at_) s = .next (reportCheckOf ((s.at_ at_).upCan c.toNat (fun y => { (canDrop y q) with unsent := y.unsent + 1 }))
        .b midGateway (frameOwner s q.1) false) ∧
      exec (.canFrameTransmitted c .arbitrationLost at_) s = .next ((s.at_ at_).upCan c.toNat once) ∧
      exec (.canFrameTransmitted c .busError at_) s = .next ((s.at_ at_).upCan c.toNat (fun y => canError (once y)))) ∧
    (∀ (c : CanId), (s.can c.toNat).busOff = true →
      exec (.canBusoffRecovery c) s = .next (s.upCan c.toNat (fun x => { x with busOff := false, tec := 0, rec_ := 0 }))) ∧
    (∀ (p : EthId) (up : Bool), ethMode s.pwr.net p.val ≠ 0 →
      exec (.ethPortLinkChange p up) s = .next (s.upEth p.val (fun e => { e with linkUp := up, queue := if up then e.queue else [] }))) ∧
    (∀ (p : EthId) (at_ t : Nat) r, gateEnd s p.val = some t → ethRec s.pwr.net p.val = some r → t ≤ at_ →
      let next := if (s.eth p.val).gclAt = none then 0 else ((s.eth p.val).gcl + 1) % max 1 (fieldOf r 22 2)
      let u := (s.at_ at_).upEth p.val (fun e => { e with gcl := next, gclAt := some (max t s.net.applied) })
      exec (.gclEntry p at_) s = .next (drainPort u p.val)) ∧
    (∀ (p : EthId) (k : EthRx) (d : Bytes) (at_ : Nat) r, ethRec s.pwr.net p.val = some r → ethMode s.pwr.net p.val ≠ 0 → (s.eth p.val).linkUp = true →
      let f := { parseEth (fieldOf r 16 2) d with good := k.keeps }
      let t := stampRx (s.at_ at_) p.val d.length
      let u := keepSync t p.val f
      let q := police u p.val f (d.length + 4)
      (k.fcsOk = false → exec (.ethFrameReceive p k d at_) s = .next (t.upEth p.val (fun e => { e with fcs := e.fcs + 1, drops := e.drops + 1 }))) ∧
      (k.fcsOk = true → d.length < 60 ∨ fieldOf r 14 2 < d.length + 4 → exec (.ethFrameReceive p k d at_) s = .next (u.upEth p.val (fun e => { e with drops := e.drops + 1 }))) ∧
      (k.fcsOk = true → 60 ≤ d.length → d.length + 4 ≤ fieldOf r 14 2 → q.2.2 = false → exec (.ethFrameReceive p k d at_) s = .next (q.1.upEth p.val (fun e => { e with drops := e.drops + 1 }))) ∧
      (k.fcsOk = true → 60 ≤ d.length → d.length + 4 ≤ fieldOf r 14 2 → q.2.2 = true → exec (.ethFrameReceive p k d at_) s = .next (frerForward q.1 p.val f q.2.1))) ∧
    (∀ (r : RouteId) (at_ t : Nat), (s.route r.toNat).due = some t → t ≤ at_ → exec (.minGapExpiry r at_) s = .next (sendFrame (s.at_ at_) r.toNat)) ∧
    (∀ (r : RouteId) (at_ t : Nat), (s.route r.toNat).event = some t → isSignal (routeSet s r.toNat) = true → fld (routeSet s r.toNat) 48 4 ≠ 0 →
      t + 1000 * fld (routeSet s r.toNat) 48 4 ≤ at_ →
      let u := (s.at_ at_).upRoute r.toNat (fun x => { x with stale := true })
      exec (.routeStale r at_) s = .next (if dstLoop (routeSet s r.toNat) then toLoop u (routeSet s r.toNat) (substOf (routeSet s r.toNat)) else u))

/-! ### Memory, fabric, jobs, safety, security and power -/

/-- R260, R276 to R284 and Table 9-8: regulation windows, the patrol scrubber, SRAM errors, write-link errors, page tests, and the change of
translations of R269.
The model's choices it rests on: log entries 1, 10, 18, 23, 31, 110, 120, 121 and 133. -/
def Obligations.MemoryEvents : Prop :=
  ∀ (s : State),
    (outOfReset s = false → ∀ at_ (k : PatrolRead) e p b, exec (.regulationWindow at_) s = .next s ∧ exec (.patrolScrubBlock k) s = .next s ∧
      exec (.floorSramScrub e) s = .next s ∧ exec (.writeLinkEccError p b) s = .next s) ∧
    (∀ at_, outOfReset s = true → s.mem.windowStart + 1000 ≤ at_ → exec (.regulationWindow at_) s = .next (issueTokens (endWindow (s.at_ at_)) (windowNs (endWindow (s.at_ at_))))) ∧
    (∀ at_, at_ < s.mem.windowStart + 1000 → exec (.regulationWindow at_) s = .next s) ∧
    (∀ (k : Fin 12) (lasting : List (Fin 32)), outOfReset s = true →
      let read : PatrolRead := { controller := k, lasting := lasting }
      let b := tget 0 s.mem.scrubBlock k.val
      let dpa := dpaOfLocal s k.val (2048 * b)
      let t := s.upMem (fun m => { m with scrubBlock := tset 0 m.scrubBlock k.val (if 2048 * (b + 1) < dataBytes s k.val then b + 1 else 0), scrubCount := m.scrubCount + 1 })
      let u := ((List.range 32).map (dpa / 64 + ·)).foldl (scrubGranule (lasting.map (·.val))) t
      ((ownerOf t (dpa / 65536)).typ = .uninit → exec (.patrolScrubBlock read) s = .next t) ∧
      ((ownerOf t (dpa / 65536)).typ ≠ .uninit → (ownerOf u (dpa / 65536)).echkOk = true → exec (.patrolScrubBlock read) s = .next u) ∧
      ((ownerOf t (dpa / 65536)).typ ≠ .uninit → (ownerOf u (dpa / 65536)).echkOk = false → exec (.patrolScrubBlock read) s = .next (raiseCode u .a 0x0C))) ∧
    (outOfReset s = true →
     let ev (s : State) : State := raiseCode (s.upMem (fun m => { m with sramEvents := m.sramEvents + 1 })) .a 0x0E
     exec (.floorSramScrub .corrected) s = .next (s.upMem (fun m => { m with eccCorrected := m.eccCorrected + 1 })) ∧
     (∀ p n va, exec (.floorSramScrub (.lookup p n va)) s = .next (ev (dropLookup s p.val n va))) ∧ exec (.floorSramScrub .cacheTagsOne) s = .next (ev s) ∧
     (∀ d, exec (.floorSramScrub (.cacheDataClean d)) s = .next (ev (evictLine s d))) ∧
     (∀ c, exec (.floorSramScrub (.counter c)) s = .next (ev (s.upCtr c (fun x => { x with dead := true, waits := [] })))) ∧
     (∀ k, exec (.floorSramScrub (.cacheTagsBoth k)) s = .next (ev (loseSet s k))) ∧
     (∀ tag, (∀ t, s.mem.txns.find? (fun t => t.tag = tag) = some t → exec (.floorSramScrub (.tracker tag)) s = .next (ev (failTxn s t 0x10 2))) ∧
       ((∀ t ∈ s.mem.txns, t.tag ≠ tag) → exec (.floorSramScrub (.tracker tag)) s = .next (ev s))) ∧
     (∀ d, exec (.floorSramScrub (.cacheDataDirty d)) s = .next
       (let t := (evictLine s d).upMem (fun m => { m with dram := m.dram.poison (64 * (d / 64)) 64 })
        notify (ev t) (pageNoticeSlice (ownerOf t (d / 65536))) 0x0E 3 (payload [(0, 8, d)])))) ∧
    (∀ page, outOfReset s = true → exec (.writeLinkEccError page false) s = .next (s.upMem (fun m => { m with eccCorrected := m.eccCorrected + 1 })) ∧
      exec (.writeLinkEccError page true) s = .next (raiseCode (s.upMem (fun m => { m with
        eccCorrected := m.eccCorrected + 1, testPages := if page ∈ m.testPages then m.testPages else m.testPages ++ [page] })) .a 0x00)) ∧
    (∀ page, page ∈ s.mem.testPages → (ownerOf s page).typ = .free →
      let t := s.upMem (fun m => { m with testPages := m.testPages.filter (· ≠ page) })
      exec (.pageTest page true) s = .next (releasePage t page) ∧
      (s.mem.retiredList.length < 1024 → exec (.pageTest page false) s = .next (notify ((setOwner t page { typ := .retired, grants := (ownerOf t page).grants }).upMem
        (fun m => { m with retiredList := m.retiredList ++ [page] })) 0 0x13 1 (payload [(0, 4, page), (4, 1, 1)])))) ∧
    (s.mem.unmaps.find? (changeReady s) = none → exec .translationChangeDone s = .next s) ∧
    (∀ p, s.mem.unmaps.find? (changeReady s) = some p →
      let t := s.upMem (fun m => { m with unmaps := m.unmaps.erase p })
      (p.op = 0x0102 → exec .translationChangeDone s = .next (finishDestroy t p)) ∧
      (p.op ≠ 0x0102 → exec .translationChangeDone s = .next (complete (checkQuota (releasePages t p.pages) p.slice) p.slice
        { tag := p.tag, pos := p.pos, op := p.op, wait := .unmap } 0 0 p.result)))

/-- R43, R287, R289, R295 to R299: far writes, timeouts, failing flits, retraining, raw frames and lost locks.
The model's choices it rests on: log entries 1, 10, 57, 92, 127 and 133. -/
def Obligations.FabricEvents : Prop :=
  ∀ (s : State),
    (∀ (tag : BitVec 16),
      (outOfReset s = false → exec (.farWriteAck tag) s = .next s) ∧
      (outOfReset s = true → (∃ t ∈ s.mem.txns, t.tag = tag ∧ t.write = true) → exec (.farWriteAck tag) s = .next (s.upMem (fun m => { m with txns := m.txns.filter (fun t => t.tag ≠ tag) }))) ∧
      (outOfReset s = true → (∀ t ∈ s.mem.txns, t.tag = tag → t.write = false) → exec (.farWriteAck tag) s = .next (s.upMem (fun m => { m with lateResponses := m.lateResponses + 1 }))) ∧
      (∀ t at_, s.mem.txns.find? (fun t => t.tag = tag) = some t →
        (t.issued + (if t.crossing then 2000000 else 100000) ≤ at_ → exec (.transactionTimeout ⟨tag, at_⟩) s = .next (raiseCode (failTxn (s.at_ at_) t 0x11 1) .a 0x0B)) ∧
        (at_ < t.issued + (if t.crossing then 2000000 else 100000) → exec (.transactionTimeout ⟨tag, at_⟩) s = .next s)) ∧
      (∀ at_, (∀ t ∈ s.mem.txns, t.tag ≠ tag) → exec (.transactionTimeout ⟨tag, at_⟩) s = .next s)) ∧
    (∀ (f : FlitFail), outOfReset s = true → modExists f.mod_ = true → (s.module f.mod_).up = true → (s.module f.mod_).retraining = false →
      exec (.flitCrcFail f) s = .next (((s.upModule f.mod_ (fun x => { x with
        laneErrors := tup [] x.laneErrors f.lane (fun ts => recentErrors s.now ts ++ [s.now])
        replays := (s.module f.mod_).replays + (f.last - f.seq + 1) })).emit (.linkNak f.mod_ f.seq)).emit (.linkReplay f.mod_ f.seq f.last))) ∧
    (∀ (m : ModId), modExists m = true → (s.module m).retraining = false →
      (∀ l ts, (l, ts) ∈ (s.module m).laneErrors → 16 ≤ (recentErrors s.now ts).length → exec (.laneErrorRetrain m) s = .next (startRetrain s m false)) ∧
      ((∀ l ts, (l, ts) ∈ (s.module m).laneErrors → (recentErrors s.now ts).length < 16) → exec (.laneErrorRetrain m) s = .next s)) ∧
    (∀ (m : ModId) (bad : List Nat), (s.module m).retraining = true → repairs s m bad = true →
      let back (x : Module) : Module := { x with retraining := false, laneErrors := [], mapped := badLanes s m bad, creditFault := false }
      ((s.module m).creditFault = false → exec (.linkRetrainDone m bad) s = .next (s.upModule m back)) ∧
      ((s.module m).creditFault = true → exec (.linkRetrainDone m bad) s = .next ([0, 1, 2, 3].foldl (creditsAgain m) (raiseCode ((s.upModule m back).upFab (fun f => { f with
        credits := initCredits f.credits (4 * modKey m), auditFaults := f.auditFaults + 1 })) (linkIsland m) 0x09)))) ∧
    (∀ (m : ModId) (bad : List Nat), (s.module m).retraining = true → repairs s m bad = false →
      (∀ d, m.die = .stage d → exec (.linkRetrainDone m bad) s = .next (loseDie (s.upModule m (fun x => { x with retraining := false, up := false })) d)) ∧
      ((∀ d, m.die ≠ .stage d) → exec (.linkRetrainDone m bad) s =
        .next (raise (s.upModule m (fun x => { x with retraining := false, up := false })) .b { code := 0x08, die := some m.die }))) ∧
    (∀ (st : RawStream) (d : DieId) (ok : Bool) (v : BitVec 64), st ≠ .cue → st ≠ .safety → outOfReset s = true →
      exec (.rawFrameReceive st d true ok v) s = .next (takeFrame (s.upFab (fun f => { f with rawErrors := f.rawErrors + 0 })) st d v) ∧
      exec (.rawFrameReceive st d false ok v) s = .next (s.upFab (fun f => { f with rawErrors := f.rawErrors + 1 }))) ∧
    (∀ (st : RawStream) (d : DieId) (v : BitVec 64), st = .cue ∨ st = .safety → outOfReset s = true →
      exec (.rawFrameReceive st d false false v) s = .next (raise (s.upFab (fun f => { f with rawErrors := f.rawErrors + 2 })) .a { code := 0x00, die := some d }) ∧
      exec (.rawFrameReceive st d false true v) s = .next (takeFrame (s.upFab (fun f => { f with rawErrors := f.rawErrors + 1 })) st d v)) ∧
    (∀ (d : DieId) (v : BitVec 64), (takeFrame s .cue d v).cue = { s.cue with
      predicted := tset 0 s.cue.predicted (dieCode d) 0, dieCount := tset 0 s.cue.dieCount (dieCode d) v, dieEdge := tset 0 s.cue.dieEdge (dieCode d) s.now }) ∧
    (∀ (d : DieId), s.cue.running = true → d ≠ .wings →
      let k := tget 0 s.cue.predicted (dieCode d) + 1
      let t := raise (s.upCue (fun c => { c with
        predicted := tset 0 c.predicted (dieCode d) k
        dieCount := tset 0 c.dieCount (dieCode d) (tget 0 c.dieCount (dieCode d) + 1)
        dieEdge := tset 0 c.dieEdge (dieCode d) (tget 0 c.dieEdge (dieCode d) + c.period) })) .a { code := 0x10, die := some d }
      (k < 2 → exec (.cuePredictedEdge d) s = .next t) ∧ (2 ≤ k → exec (.cuePredictedEdge d) s = .next (loseAny t d))) ∧
    (∀ (d : DieId), outOfReset s = true → exec (.pllLockLoss d) s = .next (loseAny (State.upFab
      ((if d = .floor then allLinks else ownLinks d).foldl (fun s m => s.upModule m (fun x => { x with up := false })) s)
      (fun f => { f with pllLost := f.pllLost ++ [d] })) d))

/-- R302 to R312: the twin link comes up and goes down, its codewords, cue frames, far locks and channels. R307, R308, R480: a send end whose trigger counter holds 1 or more, with no wait of MODE 1 before it, takes 1 from the counter and
reads its buffer; a receive end writes what arrived and signals its counter with 1; a failed copy fails the channel.
The model's choices it rests on: log entries 1, 10, 17, 34, 77, 92, 119 and 133. -/
def Obligations.TwinLink : Prop :=
  (∀ (s : State),
    (∀ rt k ks, s.fab.twinRetrain = k :: ks → exec (.twinLinkUp rt) s = .next (ks.foldl (fun s key => retrainedTwin s rt key) (retrainedTwin s rt k))) ∧
    (∀ rt, s.fab.twinRetrain = [] → paired s = true → s.fab.twinUp = false → exec (.twinLinkUp rt) s = .next (sideBand ((s.upFab (fun f => { f with
      twinUp := true, oneWay := rt / 2, twinUncorrectableCue := 0, twinSent := 0, twinReceived := 0, twinSpace := 0, credits := twinPools.foldl (fun t p => tset none t p.1 p.2) f.credits })).upSaf
        (fun f => { f with twinLostRaised := false })) 4 0)) ∧
    (s.fab.twinUp = true →
      let t := (s.upFab (fun f => { f with twinUncorrectable := f.twinUncorrectable + 1, twinUncorrectableCue := f.twinUncorrectableCue + 1 })).emit (.twinNak s.fab.twinReceived)
      exec .twinLinkDown s = .next (twinDown s) ∧ exec .twinAlignmentTimeout s = .next (twinDown s) ∧
      (s.fab.twinUncorrectableCue < 64 → exec .twinCodewordUncorrectable s = .next t) ∧
      (64 ≤ s.fab.twinUncorrectableCue → exec .twinCodewordUncorrectable s = .next (twinDown t))) ∧
    (s.fab.twinUp = false → exec .twinLinkDown s = .next s ∧ exec .twinAlignmentTimeout s = .next s ∧ exec .twinCodewordUncorrectable s = .next s) ∧
    (isFollower s = true → s.cue.running = true → exec (.twinCueFrame none) s = .next (holdCue s)) ∧
    (∀ f, isFollower s = true → s.fab.twinUp = true →
      let t := s.at_ f.at_
      leadEdge t f = (f.at_ : Int) - f.sent + f.lead ∧
      (s.cue.running = true → frameEarly t f = true → f.stops = true → exec (.twinCueFrame (some f)) s = .next (t.upCue (fun c => { c with stopping := true }))) ∧
      (s.cue.running = true → frameEarly t f = true → f.stops = false → exec (.twinCueFrame (some f)) s = .next (t.upCue (fun c => { c with frame := some f }))) ∧
      (s.cue.running = true → frameEarly t f = false → f.stops = true → exec (.twinCueFrame (some f)) s = .next (cueStopped t)) ∧
      (s.cue.running = true → frameEarly t f = false → f.stops = false → exec (.twinCueFrame (some f)) s = .next (followCorrect t f)) ∧
      (s.cue.running = false → exec (.twinCueFrame (some f)) s = .next (if f.stops then t else followStart t f))) ∧
    (∀ f, (followCorrect s f).cue.aligned = (decide (((s.cue.last : Int) - leadEdge s f).natAbs ≤ 50) && (s.cue.aligned || decide (4 ≤ s.cue.alignRun + 1)))) ∧
    (∀ line, s.fab.twinUp = true →
      ((∃ p ∈ s.fab.farHeld, p.1 = line) ∨ (ownLock s line = true ∧ isLead s = true) → exec (.farLockRequest line) s = .next (s.emit (.farLock line .retry))) ∧
      ((∀ p ∈ s.fab.farHeld, p.1 ≠ line) → (ownLock s line = false ∨ isLead s = false) →
        exec (.farLockRequest line) s = .next (grantFar (s.upOps line (fun o => { o with locked := false })) line))) ∧
    (∀ line at_, (∀ p ∈ s.fab.farHeld, p.1 = line → at_ < p.2) → (∀ o ∈ s.fab.ops, o.line = line → at_ < o.requested + 20000) →
      exec (.farLockTimeout line at_) s = .next (s.at_ at_)) ∧
    (∀ line at_ o f, s.fab.ops = [o] → o.line = line → o.requested + 20000 ≤ at_ → (s.slice o.slice).flight.find? (fun f => f.pos = o.pos) = some f →
      exec (.farLockTimeout line at_) s = .next (complete { (s.at_ at_).upFab (fun x => { x with ops := [], farHeld := x.farHeld.filter (fun p => ¬ (p.1 = line ∧ p.2 ≤ at_)) }) with
        commits := s.commits.filter (fun (c : Commit) => ¬ (o.pos = c.pos ∧ o.slice = c.slice)) } o.slice f 0x0B 0 0)) ∧
    (∀ line o, s.fab.ops.find? (fun o => o.line == line && o.locked) = some o → exec (.farLockResponse line .grant) s = .next (agreeCommit s o)) ∧
    (∀ line, exec (.farLockResponse line .retry) s = .next (s.upFab (fun f => { f with
        ops := f.ops.map (fun o => if o.line = line then { o with locked := false } else o) }))) ∧
    (∀ line, let t := s.upFab (fun f => { f with farHeld := f.farHeld.filter (fun p => p.1 ≠ line) })
      ((∃ o ∈ s.fab.ops, o.line = line ∧ o.locked = false) → exec (.farLockResponse line .release) s = .next ((t.upFab (fun f => { f with
        ops := f.ops.map (fun o => if o.line = line then { o with requested := s.now, locked := true } else o) })).emit (.farRequest line))) ∧
      ((∀ o ∈ s.fab.ops, o.line = line → o.locked = true) → exec (.farLockResponse line .release) s = .next t))) ∧
  (∀ (s : State) (ch : BitVec 6) (e : TwinEnd), tget none s.fab.channels ch.toNat = some e →
    (∀ w, w.who = .twin ch.toNat → releaseWait s w = s.upChannel ch.toNat (fun e => { e with triggered := true })) ∧
    (e.receive = false → (s.ctr e.ctr).dead = false → armTwin s ch.toNat = releaseWaits (s.upCtr e.ctr (fun x => { x with
      waits := x.waits ++ [{ who := .twin ch.toNat, ctr := e.ctr, mode1 := true, value := 1 }] })) e.ctr) ∧
    (s.pwr.state = .active → s.fab.twinUp = true → s.fab.twinMode ≠ 0 → e.receive = false → e.copying = false → e.triggered = true → copyFits s e.len = true →
      (∀ g, freeTag s 4 = some g → let t := openCopy s ch e g
        (∀ bs, carriedBytes t e.slice (.slice e.slice) e.va e.len = some bs →
          exec (.twinChannelCopy ch) s = .next (t.emit (.twinData ch bs (carriedBad t e.slice (.slice e.slice) e.va e.len)))) ∧
        (carriedBytes t e.slice (.slice e.slice) e.va e.len = none → exec (.twinChannelCopy ch) s = .next (failChannel 2 t ch.toNat))) ∧
      (freeTag s 4 = none → exec (.twinChannelCopy ch) s = .next (s.upMem (fun x => { x with tagStalls := tup 0 x.tagStalls 4 (· + 1) })))) ∧
    (copyFits s e.len = false → exec (.twinChannelCopy ch) s = .next s) ∧
    (e.triggered = false → exec (.twinChannelCopy ch) s = .next s) ∧
    (∀ d, s.fab.twinUp = false ∨ s.fab.twinMode = 0 → exec (.twinChannelCopyDone ch .visible d) s = .next s) ∧
    (∀ d, s.fab.twinUp = true → s.fab.twinMode ≠ 0 →
      (e.receive = true → d.length = e.len → reachable s e.slice (.slice e.slice) .write e.va e.len = true →
        exec (.twinChannelCopyDone ch .visible d) s = .next (issueSignal ((writeBy s midTwin e.slice (.slice e.slice) e.va d).upFab (fun f => { f with
          twinReceived := f.twinReceived + packets e.len })) e.ctr { value := 1, src := .twin })) ∧
      (e.receive = false → exec (.twinChannelCopyDone ch .visible d) s =
        .next (armTwin ((closeCopy s ch.toNat).upChannel ch.toNat (fun e => { e with copying := false })) ch.toNat))) ∧
    (∀ d, exec (.twinChannelCopyDone ch .link d) s = .next (failChannel 0 s ch.toNat) ∧
      exec (.twinChannelCopyDone ch .timeout d) s = .next (failChannel 1 s ch.toNat) ∧
      (e.receive = false → exec (.twinChannelCopyDone ch .check d) s = .next (failChannel 2 s ch.toNat)) ∧
      (e.receive = true → exec (.twinChannelCopyDone ch .check d) s = .next (failChannel 2 (reportCheckOf s .b midTwin e.slice false) ch.toNat))))

/-- R102 to R106, R238 to R241, R248, R358, R524, R525: how a job is placed, ends, is pre-empted, saved and restored.
The model's choices it rests on: log entries 1, 37, 40, 41, 69, 76, 95 and 118. -/
def Obligations.JobEvents : Prop :=
  ∀ (s : State),
    (∀ i t, placeHead s i = some t → exec (.jobPlace i) s = .next t) ∧
    (∀ i, placeHead s i = none → exec (.jobPlace i) s = .next (callBack s i)) ∧
    (∀ (u : UnitId) j reason, (s.unit u).phase = .terminating reason → jobOf s u = some j →
      exec (.jobTerminate u) s = .next (freeUnit (writeRecord (aeStop (notRun (stopRender s u j) u j) u j.id) u j 2 reason) u)) ∧
    (∀ jid, s.job jid = none → exec (.jobEnd jid) s = .next s) ∧
    (∀ jid j, s.job jid = some j → jobOver s j = false → exec (.jobEnd jid) s = .next s) ∧
    (∀ jid j, s.job jid = some j → jobOver s j = true →
      let t := rewriteRecords s j
      let t := if (∀ e ∈ j.entries, e.state = 1) then keepBuffers t j else t
      let t := ((unitsOf t jid).foldl freeUnit t).upCue (fun c => { c with noLend := c.noLend.filter (fun p => ¬ (j.e.rfes ≠ 0 ∧ p.1 = j.scene.toNat)) })
      let t := t.upJob jid (fun x => { x with phase := .ended, endCue := s.cue.count })
      (j.kaf.isSome = true → exec (.jobEnd jid) s = .next t) ∧
      (j.kaf = none → crossChecked s j = false → exec (.jobEnd jid) s = .next (finishJob t { j with phase := .ended, endCue := s.cue.count })) ∧
      (j.kaf = none → crossChecked s j = true → s.fab.twinUp = true → exec (.jobEnd jid) s = .next t)) ∧
    (∀ (u : UnitId) b, (s.unit u).phase = .preemptWanted b →
      let stops := exec (.preemptRequest u) s = .next (s.upUnit u (fun x => { x with phase := .preemptStopped b }))
      let goesOn := exec (.preemptRequest u) s = .next (s.upUnit u (fun x => { x with phase := .preemptAsked s.now b }))
      (∀ c, u = .core c → ((s.ve c).tex = none → stops) ∧ ((s.ve c).tex.isSome = true → goesOn)) ∧
      (∀ a, u = .ae a → stops) ∧
      (∀ r j lead, u = .rfe r → jobOf s u = some j → leadOf j = some lead →
        (betweenTiles s r lead j = true → stops) ∧ (betweenTiles s r lead j = false → goesOn))) ∧
    (∀ (c : CoreId) t b, (s.unit (.core c)).phase = .preemptAsked t b →
      exec (.forcedSpill (.core c)) s = .next (((s.at_ (t + 5000)).upUnit (.core c) (fun x => { x with phase := .preemptStopped b })).upVe c (fun x => { x with tex := none }))) ∧
    (∀ (u : UnitId) t b, (s.unit u).phase = .preemptAsked t b → (∀ c, u ≠ .core c) →
      exec (.forcedSpill u) s = .next ((s.at_ (t + 5000)).upUnit u (fun x => { x with phase := .preemptStopped b }))) ∧
    (∀ (u : UnitId) j b, (s.unit u).phase = .preemptStopped b → jobOf s u = some j →
      let k := (s.unit u).entry
      let t := dropWait (settleOwn s u) u
      let t := if (j.entries.getD k {}).saved then t else { t with saved := tset none t.saved (128 * j.id + k) (some (contextOf t u)) }
      let t := (writeRecord (leaveOp t u) u j (if b then 3 else 4) 0).upJob j.id (fun j => { j with entries := setEntry j.entries k (fun e => { e with saved := true }) })
      (writesAcked s u = true → exec (.preemptSaveDone u) s = .next (leftCores (freeUnit t u) j.id b)) ∧
      (writesAcked s u = false → exec (.preemptSaveDone u) s = .next s)) ∧
    (∀ (u : UnitId) j x, (s.unit u).phase = .saved → jobOf s u = some j → tget none s.saved (128 * j.id + (s.unit u).entry) = some x →
      let k := (s.unit u).entry
      let t := restoreTo { s with saved := tset none s.saved (128 * j.id + k) none } u { x with seq := { x.seq with wait := x.seq.wait.map (fun w => { w with who := .unit u j.id }) } }
      let t := t.upJob j.id (fun j => { j with entries := setEntry j.entries k (fun e => { e with saved := false, state := 0 }) })
      (x.live.syn = [] → exec (.contextRestore u) s = .next t) ∧ (x.live.syn ≠ [] → exec (.contextRestore u) s = .next (failCheck t u 6 true))) ∧
    (∀ u, exec (.coreFence u) s = .next (fenceUnit s u)) ∧
    (∀ h, headOn s h = true → exec (.displayReclaim h) s = .next (((((s.jobs.filter (rendersHead s h)).map (·.scene)).eraseDups).filter (lentAny s)).foldl (fun s i =>
      (lendReturn s i).upCue (fun c => { c with noLend := (i.toNat, h.toNat) :: c.noLend })) s))

/-- R396 to R404 and Table 14-2: events latched by an island, the curtain's messages and the partner's curtain. R405 to R410: three voters of a triple that disagree by one go on with two in SERVICE, and any other disagreement restarts the
island; the understudy rejoins; a second restart within 1,000 cues drops the curtain; a silent island is reported.
The model's choices it rests on: log entries 1, 10, 57 and 58. -/
def Obligations.SafetyIslands : Prop :=
  (∀ (s : State) (at_ : Nat),
    (∀ i e, (i, e) ∈ s.saf.raised ∨ (1 ≤ e.code.toNat ∧ e.code.toNat ≤ 0x24) →
      exec (.safetyEventLatch i e at_) s = .next (latch (takeRaised (s.at_ at_) i e) i e)) ∧
    (s.saf.curtain = true → s.saf.messages ≠ 0 → s.saf.nextMessage ≤ at_ → exec (.curtainMessageRepeat at_) s = .next (curtainMessages (s.at_ at_))) ∧
    (s.saf.curtain = false ∨ s.saf.messages = 0 → exec (.curtainMessageRepeat at_) s = .next s) ∧
    (s.fab.twinUp = true → s.fab.twinMode ≠ 0 → exec .curtainFrameReceive s = .next (raiseCode s .b 0x1F)) ∧
    (∀ p, pairCompares s p = true → exec (.lockstepMismatch p) s = .next (raiseCode s .b (if p = .control then 0x1C else 0x08))) ∧
    (∀ i, (s.island i).mode ≠ .start → (s.island i).restarting = false → s.saf.curtain = false → s.saf.nonSafety &&& pathBit (.island i) = 0 →
      (s.island i).lastToggle + 495000 ≤ at_ →
      exec (.safeOkToggle i at_) s = .next (((s.at_ at_).upIsland i (fun x => { x with pin := !x.pin, lastToggle := at_ })).emit (.safeOk i (!(s.island i).pin)))) ∧
    (∀ i, s.saf.curtain = true → exec (.safeOkToggle i at_) s = .next s)) ∧
  (∀ (s : State) (i : IslandId) (at_ : Nat),
    (∀ (g : Fin 3 → Word), islandsRun s = true → (s.island i).restarting = false →
      let row := Instr.voterCompare i (g 0) (g 1) (g 2)
      ((∀ a ∈ voters (s.island i), ∀ b ∈ voters (s.island i), g a = g b) → 2 ≤ (voters (s.island i)).length →
        exec row s = .next (s.upIsland i (fun x => { x with agreed := (s.island i).understudy.isNone }))) ∧
      (∀ c, voters (s.island i) = [0, 1, 2] → (∀ a, a ≠ c → g a ≠ g c) → (∀ a b, a ≠ c → b ≠ c → g a = g b) →
        ((s.island i).mode = .service → exec row s = .next (putOut s i c)) ∧ ((s.island i).mode ≠ .service → exec row s = .next (beginRestart s i)))) ∧
    ((s.island i).restarting = false → (s.island i).understudy.isSome = true → exec (.understudyRejoin i) s = .next (s.upIsland i (fun x => { x with understudy := none }))) ∧
    ((s.island i).restarting = true →
      (∀ c, (s.island i).restartCue = some c → s.cue.count.toNat < c.toNat + 1000 → exec (.islandRestartDone i) s =
        .next (dropCurtain (processHeld (raiseCode (s.upIsland i (fun x => { x with
          restarting := false, understudy := none, agreed := true, mode := if (s.island i).mode = .start then .start else .recovery, restartCue := some c })) i 0x1A) i) 0x1A)) ∧
      ((∀ c, (s.island i).restartCue = some c → c.toNat + 1000 ≤ s.cue.count.toNat) → exec (.islandRestartDone i) s =
        .next (processHeld (raiseCode (s.upIsland i (fun x => { x with
          restarting := false, understudy := none, agreed := true, mode := if (s.island i).mode = .start then .start else .recovery, restartCue := some s.cue.count })) i 0x1A) i))) ∧
    (s.cue.running = false → (s.island i).lastCkpt + 10000000 ≤ at_ → exec (.islandCheckpointTimer i at_) s = .next (checkpoint i (s.at_ at_))) ∧
    (islandsRun s = true → s.saf.a.restarting = false → exec (.aliveWord at_) s = .next ((s.at_ at_).upSaf (fun f => { f with lastAlive := at_, silent := false }))) ∧
    (islandsRun s = true → s.saf.silent = false → s.saf.lastAlive + 250000 ≤ at_ →
      exec (.islandASilent at_) s = .next (raiseCode ((s.at_ at_).upSaf (fun f => { f with silent := true })) .b 0x1E)) ∧
    (at_ < s.saf.lastAlive + 250000 → exec (.islandASilent at_) s = .next s))

/-- R412, R416 to R425: self-tests of suspects, rehearsals and their ages, signatures and the records of two packages.
The model's choices it rests on: log entries 1, 10, 58 and 59. -/
def Obligations.Rehearsals : Prop :=
  ∀ (s : State) (at_ : Nat),
    (∀ u, (s.unit u).suspect = true → (s.unit u).fenced = false → (s.unit u).job = none → (s.unit u).phase = .idle → unitPowered s u = true →
      exec (.targetedSelfTest u) s = .next (s.upUnit u (fun x => { x with phase := .selfTest, resident := [], lastOwner := .nobody }))) ∧
    (∀ u, (s.unit u).phase = .selfTest →
      let t := s.upUnit u (fun x => { x with phase := .idle, suspect := false })
      let recent := (tget [] s.saf.transients (UnitId.code u)).filter (fun c => decide (s.cue.count.toNat < c + transientWindow s)) ++ [s.cue.count.toNat]
      let r := t.upSaf (fun f => { f with transients := tset [] f.transients (UnitId.code u) recent })
      exec (.targetedSelfTestDone u false) s = .next (lastingFault t u) ∧
      (recent.length < transientLimit s → exec (.targetedSelfTestDone u true) s = .next r) ∧
      (transientLimit s ≤ recent.length → exec (.targetedSelfTestDone u true) s = .next (lastingFault r u))) ∧
    (∀ k u, checkerUnit k = some u → (∀ i, k ≠ .island i) → s.host.devReady = true → s.cue.running = true → k ∈ allCheckers → checkerOn s k = true →
      (∀ p ∈ s.saf.segments, checkerUnit p.1 ≠ some u) → mayRehearse (s.at_ at_) k = true →
      exec (.rehearsalSegment k at_) s = .next (((s.at_ at_).upSaf (fun f => { f with segments := f.segments ++ [(k, at_)] })).upUnit u
        (fun x => { x with wakeUntil := at_ + (segmentsOf k).2 }))) ∧
    (∀ k u, checkerUnit k = some u → (∀ i, k ≠ .island i) → (∃ p ∈ s.saf.segments, p.1 = k) →
      let t := ((s.at_ at_).upSaf (fun f => { f with segments := f.segments.filter (fun p => p.1 ≠ k) })).upUnit u (fun x => { x with wakeUntil := 0 })
      exec (.rehearsalSegmentEnd k true at_) s = .next (countSegment (t.upSaf (fun f => { f with
        passed := f.passed.filter (fun p => p.1 ≠ k) ++ [(k, (s.at_ at_).now)]
        starvedNow := f.starvedNow.filter (· ≠ k)
        overdue := f.overdue.filter (· ≠ k) })) k) ∧
      exec (.rehearsalSegmentEnd k false at_) s = .next (countSegment (raise t (checkerIsland k) { code := 0x18, unit := some u, checker := some k }) k)) ∧
    (∀ k, s.host.devReady = true → k ∈ allCheckers → k ∉ s.saf.overdue → 1000000 * lfiMs s < ageOf s k at_ → (∀ p, k = .pair p → pairCompares s p = true) →
      (k = .twin → s.fab.twinUp = true) →
      exec (.rehearsalStarved k at_) s = .next (raise ((s.at_ at_).upSaf (fun f => { f with overdue := f.overdue ++ [k] })) .b { code := 0x17, checker := some k })) ∧
    (∀ j x, s.job j = some x → x.phase = .ended → (∀ p ∈ s.saf.crossMine, p.2 ≠ j) →
      let sig := signature (keptChecks s x)
      let u : State := { s with free := s.free + 1 }
      let t := (u.emit (.crossRecord (crossRecord x sig))).upSaf (fun f => { f with crossMine := f.crossMine ++ [(crossRecord x sig, j)] })
      (∀ k, x.kaf = some k → exec (.signatureReady j) s = .next (finishJob (endKaf u x k sig) x)) ∧
      (x.kaf = none → s.saf.crossTheirs.find? (fun r => sameKey r (crossRecord x sig)) = none → exec (.signatureReady j) s = .next t) ∧
      (∀ r, x.kaf = none → s.saf.crossTheirs.find? (fun r => sameKey r (crossRecord x sig)) = some r →
        exec (.signatureReady j) s = .next (compareCross t x (crossRecord x sig) r))) ∧
    (∀ r, s.fab.twinUp = true → s.fab.twinMode = 2 →
      (s.saf.crossMine.find? (fun p => sameKey p.1 r) = none → exec (.crossRecordReceive r) s = .next (s.upSaf (fun f => { f with crossTheirs := f.crossTheirs ++ [r] }))) ∧
      (∀ p j, s.saf.crossMine.find? (fun p => sameKey p.1 r) = some p → s.job p.2 = some j → exec (.crossRecordReceive r) s = .next (compareCross s j p.1 r)))

/-- R366, R373 to R376, R387 to R391: the messages of the secure channel, SEC_DEBUG and the secure watchdog. A write from outside the
secure world changes nothing and is counted as denied. R387 to R389, R413, R484, R518 to R521: the I2C management target and JTAG.
The model's choices it rests on: log entries 1, 10, 14, 30, 79, 80 and 83. -/
def Obligations.SecureAndManagement : Prop :=
  ((∀ (s : State), SecServes s 0x0101 → secAddr s % 8 ≠ 0 → exec .getKeys s = .next (secReply s 3 [])) ∧
  (∀ (s : State), SecServes s 0x0101 → secAddr s % 8 = 0 →
    exec .getKeys s = .next (secReply (hostWrite { s with free := s.free + 1 } 0 (secAddr s) (keyBuffer s.free) false) 0 [])) ∧
  (∀ (s : State), SecServes s 0x0102 →
    exec .bootInfo s = .next (secReply s 0 [if s.sec.bootedB then 1 else 0, if s.sec.fallback then 1 else 0, s.sec.fusedSf, s.sec.fusedPy])) ∧
  (∀ (s : State), SecServes s 0x0103 →
    let r := hostBytes s (secAddr s) 192
    (provisionStatus s r = 0 → exec .provision s = .next (secReply (applyProvision s r) 0 [])) ∧
    (provisionStatus s r ≠ 0 → exec .provision s = .next (secReply s (provisionStatus s r) []))) ∧
  (∀ (s : State), SecServes s 0x0104 →
    let v := Config.random s.free
    exec .debugChallenge s = .next (secReply (State.upSec { s with free := s.free + 1 } (fun x => { x with nonce := some (v, s.now) })) 0
      ((List.range 6).map (fun i => fld v (4 * i) 4)))) ∧
  (∀ (s : State), SecServes s 0x0105 →
    let t := hostBytes s (secAddr s) 160
    let u := s.upSec (fun x => { x with nonce := none })
    (tokenOk s t = false → exec .debugUnlock s = .next (secReply s 23 [])) ∧
    (tokenOk s t = true → s.sec.debugLock = true → exec .debugUnlock s = .next (secReply u 0 [])) ∧
    (tokenOk s t = true → s.sec.debugLock = false → exec .debugUnlock s = .next (secReply (setDebug u (s.sec.debugBits ||| BitVec.ofNat 4 (byteAt t 32))) 0 []))) ∧
  (∀ (s : State) (v : Word),
    exec (.secDebugWrite false v) s = .next (srwDenied s) ∧ exec (.secWdtKick false v) s = .next (srwDenied s) ∧
    (s.sec.debugLock = true → exec (.secDebugWrite true v) s = .next s) ∧
    (s.sec.debugLock = false → exec (.secDebugWrite true v) s = .next ((setDebug s (v.extractLsb' 0 4)).upSec (fun x => { x with debugLock := v.getLsbD 8 }))) ∧
    (v = 0x5A → s.sec.wdtRunning = true → exec (.secWdtKick true v) s = .next (s.upSec (fun x => { x with kicked := s.now, warned := false }))) ∧
    (v ≠ 0x5A → exec (.secWdtKick true v) s = .next s)) ∧
  (∀ (s : State) (at_ : Nat), s.sec.wdtRunning = true →
    (s.sec.warned = false → s.sec.kicked + 500000 * s.sec.period.toNat ≤ at_ → exec (.secureWdtWarning at_) s = .next ((s.at_ at_).upSec (fun x => { x with warned := true }))) ∧
    (s.sec.kicked + 1000000 * s.sec.period.toNat ≤ at_ → exec (.secureWdtExpiry at_) s =
      .next ((latch ((s.at_ at_).upSec (fun x => { x with wdtRunning := false })) .b { code := 0x20 }).upPwr (fun p => { p with resetDue := some .watchdog }))) ∧
    (at_ < s.sec.kicked + 1000000 * s.sec.period.toNat → exec (.secureWdtExpiry at_) s = .next s))) ∧
  (∀ (s : State),
    (∀ d, s.pwr.i2cOn = true →
      (2 < d.length ∨ (d.length = 2 ∧ fieldOf d 0 2 % 4 ≠ 0) → exec (.i2cOffsetWrite d) s = .next (s.emit .i2cNak)) ∧
      (d.length = 2 → fieldOf d 0 2 % 4 = 0 → exec (.i2cOffsetWrite d) s = .next (s.upHost (fun h => { h with i2cOffset := BitVec.ofNat 16 (fieldOf d 0 2) }))) ∧
      (d.length < 2 → exec (.i2cOffsetWrite d) s = .next s)) ∧
    (∀ k, s.pwr.i2cOn = true → exec (.i2cRead k) s = .next ((s.upHost (fun h => { h with i2cOffset := BitVec.ofNat 16 (s.host.i2cOffset.toNat + 4 * k) })).emit
      (.i2cData ((List.range k).flatMap (fun i => leBytes 4 (if s.host.i2cOffset.toNat + 4 * i < 0x10000 then page0Word s (s.host.i2cOffset.toNat + 4 * i) else 0)))))) ∧
    (∀ d k, s.pwr.i2cOn = false → exec (.i2cOffsetWrite d) s = .next s ∧ exec (.i2cRead k) s = .next s) ∧
    (exec .i2cSclTimeout s = .next s) ∧ (exec .jtagTrst s = .next s) ∧
    (∀ d inv, outOfReset s = true →
      let access : Out := .jtagAccess d (d == .security) (match d with
        | .unit u => tget 0 s.sec.unitEnc (UnitId.code u)
        | _ => 0)
      (debugEnabled s d inv = false → exec (.jtagDebugAccess d inv) s = .next (firewallB (s.emit (.jtagData false)))) ∧
      (debugEnabled s d inv = true → (inv = true ∨ d = .boundary) → exec (.jtagDebugAccess d inv) s = .next (((breakPath s d).emit access).emit (.jtagData true))) ∧
      (debugEnabled s d inv = true → inv = false → d ≠ .boundary → exec (.jtagDebugAccess d inv) s = .next ((s.emit access).emit (.jtagData true)))) ∧
    (.secure ∈ s.pwr.waking → exec (.domainWakeComplete .secure) s = .next (s.upPwr (fun p => { p with waking := p.waking.filter (· ≠ .secure), secureOff := false }))) ∧
    (.control ∈ s.pwr.waking → exec (.domainWakeComplete .control) s = .next ((s.upPwr (fun p => { p with waking := p.waking.filter (· ≠ .control), controlOff := false })).upCtl
      (fun c => { c with loops := c.loops.map (fun (p : Nat × LoopSt) => (p.1, { p.2 with states := [] })) }))))

/-- R260, R476, R477, R491 to R497: sensors, steps of the operating points, the cap, the emergency and the trip.
The model's choices it rests on: log entries 4, 10 and 82. -/
def Obligations.Thermal : Prop :=
  ∀ (s : State),
    (∀ i t, s.pwr.aonUp = true → exec (.thermalSensorUpdate i t) s = .next (s.upPwr (fun p => { p with sensors := tset 0 p.sensors i.val t }))) ∧
    (∀ mw, s.pwr.aonUp = true → exec (.powerMeasure mw) s = .next (s.upPwr (fun p => { p with powerMw := mw }))) ∧
    (∀ d, dieOn s d = true → tget none s.pwr.stepTo d.toNat = none →
      let heat := hot s (dieSensors d.toNat) 105000
      let cap := decide (powerCap s < s.pwr.powerMw)
      (heat = true ∨ cap = true → pointOf s d < 4 → exec (.throttleStep d) s = .next (throttleNotices (beginStep s d (pointOf s d + 1)) heat cap)) ∧
      (heat = false → cap = false → exec (.throttleStep d) s = .next s) ∧
      (hot s (dieSensors d.toNat) 100001 = false → 100 * s.pwr.powerMw < 95 * powerCap s → 0 < pointOf s d →
        exec (.throttleStepUp d) s = .next (beginStep s d (pointOf s d - 1)))) ∧
    (∀ d k, tget none s.pwr.stepTo d.toNat = some k → exec (.operatingPointStepDone d) s = .next (s.upPwr (fun p => { p with
      point := tset 0 p.point d.toNat k
      stepTo := tset none p.stepTo d.toNat none
      p4Since := tset none p.p4Since d.toNat (if k = 4 then some s.now else none) }))) ∧
    (s.host.devReady = true → s.pwr.emergency = false → emergencyNow s = true → exec .thermalEmergency s =
      .next ((overrideHolds ((stageJobs (raiseCode s .b 0x21)).foldl (fun s j => terminateJob s j none 0x0B 0x0B) (raiseCode s .b 0x21)) 0x21).upPwr
        (fun p => { p with dieOff := 0xF, emergency := true, rejoin := 0, stepTo := [], p4Since := [] }))) ∧
    (s.pwr.emergency = true → hot s (List.range 44) 95001 = false →
      let t := s.upPwr (fun p => { p with emergency := false })
      (parked s = true → exec .thermalRecovery s = .next t) ∧
      (parked s = false → exec .thermalRecovery s = .next (([0, 1, 2, 3].foldl powerDie t).upPwr (fun p => { p with rejoin := 0xF })))) ∧
    (s.pwr.aonUp = true → s.pwr.tripped = false → hot s (List.range 44) 135000 = true →
      exec .thermalTrip s = .next ((lowerRails (recordCause s 6)).upPwr (fun p => { p with tripped := true, resetDue := some .thermalTrip }))) ∧
    (∀ k m, s.host.dramRate ≠ 0 →
      let t := s.upMem (fun x => { x with refresh := tset .x1 x.refresh k.val m })
      let bit : BitVec 12 := BitVec.ofNat 12 (2 ^ k.val)
      (s.pwr.overTemp.getLsbD k.val = false →
        exec (.mr4Read k m true) s = .next (raiseCode (t.upPwr (fun p => { p with overTemp := p.overTemp ||| bit })) .a 0x0F)) ∧
      (s.pwr.overTemp.getLsbD k.val = true → exec (.mr4Read k m true) s = .next (t.upPwr (fun p => { p with overTemp := p.overTemp ||| bit }))) ∧
      exec (.mr4Read k m false) s = .next (t.upPwr (fun p => { p with overTemp := p.overTemp &&& ~~~bit }))) ∧
    (∀ c, s.pwr.state = .active → s.pwr.emergency = false → s.host.devReady = true → bitAt s.pwr.dieOff.toNat (c.toNat / 16) = false → (s.unit (.core c)).gated = true →
      exec (.ivrCoreWake c) s = .next (resetUnit s (.core c))) ∧
    (∀ c, s.pwr.state = .active → s.pwr.emergency = false → s.host.devReady = true → bitAt s.pwr.dieOff.toNat (c.toNat / 16) = true → bitAt s.pwr.rejoin.toNat (c.toNat / 16) = false →
      exec (.ivrCoreWake c) s = .next ((powerDie s (c.toNat / 16)).upPwr (fun p => { p with dieOff := p.dieOff &&& ~~~(BitVec.ofNat 4 (2 ^ (c.toNat / 16))) })))

/-- R474, R475, R482 to R484, R490, R494, R516: rails, resets, SLEEP and OFF.
The model's choices it rests on: log entries 1, 5, 80, 81, 82 and 127. -/
def Obligations.RailsAndResets : Prop :=
  ∀ (s : State),
    (s.pwr.aonUp = false → exec .aonPowerOn s = .next (raiseEn 0 { State.reset with
      now := s.now, out := s.out, pending := s.pending, free := s.free
      mem := { hostMem := s.mem.hostMem, retiredList := s.mem.retiredList }
      pwr := { aonUp := true, sensors := s.pwr.sensors }
      sec := flashAfter s })) ∧
    (s.pwr.aonUp = true → exec .aonRailRemoval s = .next (
      let t := lowerRails (lowerPins s)
      { State.reset with
        now := t.now, out := t.out, pending := t.pending, free := t.free
        mem := { hostMem := t.mem.hostMem, retiredList := t.mem.retiredList }
        pwr := { state := .off, sensors := t.pwr.sensors }
        sec := flashAfter t })) ∧
    (∀ g, s.pwr.aonUp = true → s.pwr.pwrEn.getLsbD (railIdx g) = true → s.pwr.good.getLsbD (railIdx g) = false →
      let t := s.upPwr (fun p => { p with good := p.good ||| BitVec.ofNat 3 (2 ^ railIdx g) })
      let t := if railIdx g < 2 then raiseEn (railIdx g + 1) t else t
      exec (.railGood g) s = .next (startIfReady (if t.pwr.good = 7 ∧ t.pwr.phase = .sequencing then t.upPwr (fun p => { p with phase := .waitPorst }) else t))) ∧
    (∀ r k, railEn r.val = some k → s.pwr.pwrEn.getLsbD k = true → s.pwr.good.getLsbD k = false → s.pwr.enTimeout = false →
      exec (.railEnableTimeout r) s = .next ((lowerRails s).upPwr (fun p => { p with rail := BitVec.ofNat 4 r.val, enTimeout := true }))) ∧
    (s.pwr.aonUp = true → s.pwr.enTimeout = true → exec .railRetry s = .next (raiseEn 0 (s.upPwr (fun p => { p with enTimeout := false })))) ∧
    (∀ r k, railEn r.val = some k → s.pwr.good.getLsbD k = true →
      let t := s.upPwr (fun p => { p with good := p.good &&& ~~~(BitVec.ofNat 3 (2 ^ k)) })
      (s.pwr.porstHigh = false → exec (.brownOut r) s = .next t) ∧
      (s.pwr.porstHigh = true → exec (.brownOut r) s = .next (t.upPwr (fun p => { p with rail := BitVec.ofNat 4 r.val, resetDue := some .brownOut })))) ∧
    (s.pwr.aonUp = true → s.pwr.porstHigh = true → exec .porstNLow s = .next ((resetAll s).upPwr (fun p => { p with
      porstHigh := false, i2cOn := false, phase := if p.good = 7 then .waitPorst else .sequencing }))) ∧
    (∀ tw i2c, s.pwr.aonUp = true → s.pwr.porstHigh = false →
      let t := if s.pwr.firstPorst then s else recordCause s (if s.pwr.refLost then 7 else 2)
      let t := (t.upHost (fun h => { h with twinRole := tw, i2cAddr := i2c })).upPwr (fun p => { p with
        porstHigh := true, firstPorst := false, tripped := false, refLost := false, resetDue := none, phase := .held })
      exec (.porstNRise tw i2c) s = .next (startIfReady (if t.pwr.pwrEn = 0 ∧ ¬ t.pwr.enTimeout then raiseEn 0 t else t))) ∧
    (∀ c, s.pwr.resetDue = some c →
      let t := match causeOf c with
        | some k => recordCause s k
        | none => s
      exec (.chipReset c) s = .next (startIfReady (resetAll (overrideHolds t t.pwr.cause.toNat)))) ∧
    (∀ c, s.pwr.resetDue ≠ some c → exec (.chipReset c) s = .next s) ∧
    (s.pwr.aonUp = true → s.pwr.refLost = false → s.pwr.state ≠ .sleep →
      exec .refclkLoss s = .next ((resetAll s).upPwr (fun p => { p with refLost := true, resetDue := none }))) ∧
    (outOfReset s = true → s.pwr.tripped = false →
      (parked s = true → exec .sleepRequest s = .next (trySleep s)) ∧
      (parked s = false → exec .sleepRequest s = .next (s.upPwr (fun p => { p with sleepAsked := true })))) ∧
    (s.pwr.tripped = false → s.pwr.state = .sleep → s.pwr.aonUp = true → s.pwr.pwrEn = 0 → s.pwr.enTimeout = false →
      exec .wake s = .next (raiseEn 0 (s.upPwr (fun p => { p with resetDue := some .sleepExit })))) ∧
    (s.pwr.tripped = false → s.pwr.state ≠ .sleep → exec .wake s = .next (s.upPwr (fun p => { p with sleepAsked := false }))) ∧
    (∀ d, s.host.devReady = true →
      (∀ h, heldDomain s (cutDomains d) = some h → exec (.cutRequest d) s = .next (s.emit (.holdMessage h midStagehand.toNat))) ∧
      (heldDomain s (cutDomains d) = none → exec (.cutRequest d) s = .next (applyCut s d)))

/-- R259, R291, R314, R370, R371, R390, R409, R486 to R489 and Table 17-8: the steps of the bring-up, each from the phase the step before it left, and what halts it.
The model's choices it rests on: log entries 1, 10, 14, 30, 83 and 127. -/
def Obligations.BringUp : Prop :=
  ∀ (s : State),
    (∀ r : RomStart, s.sec.wdtRunning = false →
      let t := if s.pwr.xspi = .inReset then s.emit (.pin "XSPI_RESET_N" true) else s
      let u := ((t.at_ r.at_).upPwr (fun p => { p with i2cOn := true, xspi := if r.octal then .octal else .single })).upSec (fun x => { x with
        wdtRunning := true, kicked := (s.at_ r.at_).now, warned := false })
      (s.pwr.phase = .rom → exec (.secureRomStart r) s = .next (setStage u 1 .verify)) ∧
      (s.pwr.phase = .halted → s.pwr.resetDue = none → exec (.secureRomStart r) s = .next u)) ∧
    (∀ at_, outOfReset s = true → s.host.configReady = false → s.pwr.porst + 100000000 ≤ at_ →
      exec (.configRetryEnd at_) s = .next ((s.at_ at_).upHost (fun h => { h with configReady := true, linkUp := true }))) ∧
    (∀ a b, s.pwr.phase = .verify →
      let rep (isB : Bool) : BankReport := readBank (if isB then b else a)
      let act := s.sec.activeB
      let s' := seenBank s a b act
      let t := seenBank (s'.upBank act (fun x => { x with success := 0 })) a b (!act)
      (failedType s' (rep act) = none → exec (.imageVerifyDone a b) s = .next (bootOn s' act (rep act))) ∧
      (∀ f, failedType s' (rep act) = some f → failedType t (rep (!act)) = none → exec (.imageVerifyDone a b) s = .next (bootOn t (!act) (rep (!act)))) ∧
      (∀ f g, failedType s' (rep act) = some f → failedType t (rep (!act)) = some g →
        exec (.imageVerifyDone a b) s = .next (haltBoot (t.upBank (!act) (fun x => { x with success := 0 })) 1 (if act then 0 else 1) g))) ∧
    (∀ r, s.pwr.phase = .trim →
      let t := (s.upFab (fun f => { f with straps := keptStraps r, modules := trainedModules s r, credits := trainedCredits })).emit (.pin "PUMP_PWM" true)
      (r.pllFail.isSome = true → exec (.trimAndPllLock r) s = .next (haltBoot t 2 0 0)) ∧
      (r.pllFail = none → identityOk r = true → (deadLinks s r).find? (fun m => m.die == .wings) = none →
        exec (.trimAndPllLock r) s = .next (setStage ((deadLinks s r).foldl linkLost t) 3 .training)) ∧
      (∀ m, r.pllFail = none → identityOk r = true → (deadLinks s r).find? (fun m => m.die == .wings) = some m →
        exec (.trimAndPllLock r) s = .next (haltBoot t 6 4 m.idx.toNat))) ∧
    (s.pwr.phase = .training →
      (∀ caps, exec (.dramTrainingDone (.pass caps)) s = .next (startInit s caps)) ∧
      (∀ c, exec (.dramTrainingDone (.badCapacity c)) s = .next (haltBoot s 4 c.val 0)) ∧
      (∀ (c : Fin 12) (ch : BitVec 2), s.pwr.retrained.contains (4 * c.val + ch.toNat) = false →
        exec (.dramTrainingDone (.fail c ch false)) s = .next (s.upPwr (fun p => { p with retrained := p.retrained ++ [4 * c.val + ch.toNat] }))) ∧
      (∀ (c : Fin 12) (ch : BitVec 2), s.pwr.retrained.contains (4 * c.val + ch.toNat) = true →
        (s.pwr.bootRate.toNat ≤ 1 → exec (.dramTrainingDone (.fail c ch true)) s = .next (haltBoot s 3 c.val ch.toNat)) ∧
        (1 < s.pwr.bootRate.toNat → exec (.dramTrainingDone (.fail c ch true)) s =
          .next (s.upPwr (fun p => { p with bootRate := p.bootRate - 1, retrained := [] }))))) ∧
    (s.pwr.phase = .initing → stageOf s = 4 →
      (∀ d b, exec (.bistComplete (some d) b) s = .next (haltBoot s 7 (dieCode d) 0)) ∧
      exec (.bistComplete none true) s = .next (haltBoot s 7 4 0) ∧ exec (.bistComplete none false) s = .next (setStage s 5 .initing)) ∧
    (∀ at_, s.pwr.phase = .initing → stageOf s = 5 →
      let t := bootSuccess ((setStage (s.at_ at_) 6 .ready).upMem (fun m => { m with initPages := firstPages }))
      let t := ((readyBridge t).upSec (fun x => { x with wdtLock := true })).upSlice 0 (fun x => { x with valid := true, partition := 2 })
      let now := (setStage (s.at_ at_) 6 .ready).now
      let t := (enterService now .b (enterService now .a t)).upSaf (fun f => { f with
        passed := allCheckers.map (fun k => (k, now)), rotationStart := now, lastAlive := now })
      exec (.devReady at_) s = .next (sideBand (t.emit (.pin "DEV_READY" true)) 1 0)) ∧
    (s.host.devReady = true → s.host.memComplete = false → exec .memoryInitComplete s =
      .next (sideBand ((s.upMem (fun m => { m with initPages := dataTop s / 65536 })).upHost (fun h => { h with memComplete := true })) 2 0))
end

