-- ==== Sys2Proof/Laws/Cmd.lean ====
section
/-! SUPPORT. What a Pyotos command's row does with the entry at the head of its ring, said once for every row: it takes
an entry of its opcode and answers as its body says, rejects it, or leaves the state. -/

namespace Sys2Proof.Machine

/-- While Pyotos may take an entry of a slice, none of its commands waits under BARRIER. -/
theorem released_none {s : State} {n : SliceId} {w : Line} (h : mayTake s n = true) : released s n w = none := by
  unfold released; split
  · rename_i f hf
    simp [mayTake, ringReady, hf, isHeld] at h
    split
    · rename_i hw; rw [hw] at h; simp at h
    · rfl
  · rfl

theorem mayTake_of {s : State} {n : SliceId} {w : Line} (h : canTake s n w = true) : mayTake s n = true := by
  simp only [canTake, Bool.and_eq_true] at h; exact h.1

/-- An entry of a row that can be taken starts. -/
theorem runCmd_taken {c : CmdSpec} {body : Body} {s : State} {n : SliceId} {w : Line} (h : canTake s n w = true) (hr : isRow c w = true) :
    runCmd c body n w s = .next (settle (accept s n w) n (flightOf s n w) (checked c body (accept s n w) n (flightOf s n w) w)) := by
  simp only [runCmd, doWhen, hr, if_true, released_none (mayTake_of h), h]

/-- An entry of a row that must wait under BARRIER is taken and waits. -/
theorem runCmd_waits {c : CmdSpec} {body : Body} {s : State} {n : SliceId} {w : Line} (h : mustWait s n w = true) (hr : isRow c w = true) :
    runCmd c body n w s = .next (awaitEvent (accept s n w) n (flightOf s n w) (.barrier w)) := by
  simp only [mustWait, Bool.and_eq_true, Bool.not_eq_true'] at h
  have h2 : canTake s n w = false := by simp [canTake, h]
  simp only [runCmd, doWhen, hr, if_true, released_none h.1.1, h2, mustWait, h, Bool.and_self, Bool.false_eq_true, if_false, Bool.not_false]

/-- A command of a row that waited under BARRIER starts. -/
theorem runCmd_released {c : CmdSpec} {body : Body} {s : State} {n : SliceId} {w : Line} {f : Flight} (h : released s n w = some f)
    (hr : isRow c w = true) :
    runCmd c body n w s = .next (settle (awaitEvent s n f .nothing) n { f with wait := .nothing }
      (checked c body (awaitEvent s n f .nothing) n { f with wait := .nothing } w)) := by
  simp only [runCmd, doWhen, hr, if_true, h]

/-- An entry that is sent whole reaches the body of its row. -/
theorem runCmd_sent {op : Nat} {zero : Bool} {named : List (Nat × Nat)} {mine : Line → Bool} {body : Body} {s : State} {n : SliceId} {w : Line}
    (h : Sent op zero named s n w) (ho : opcodes.contains op = true) (hm : mine w = true) :
    runCmd { op := op, zero := zero, named := named, mine := mine } body n w s =
      .next (settle (accept s n w) n (flightOf s n w) (body (accept s n w) n (flightOf s n w) w)) := by
  obtain ⟨h1, h2, h3, h4⟩ := h
  have h5 : ¬ (zero = true ∧ n ≠ 0) := fun ⟨a, b⟩ => b (h3 a)
  rw [runCmd_taken h1 (by simp [isRow, h2, hm])]
  simp only [checked, h2, ho, h4, h5, not_true_eq_false, if_false]

/-- An entry whose opcode no table defines is answered with BAD_OPCODE. -/
theorem runCmd_bad {c : CmdSpec} {body : Body} {s : State} {n : SliceId} {w : Line}
    (h : canTake s n w = true) (ho : fld w 0 2 ∉ opcodes) :
    runCmd c body n w s = .next (complete (accept s n w) n (flightOf s n w) 1 0 0) := by
  rw [runCmd_taken h (by simp [isRow, ho])]; simp [checked, ho, settle, stBadOpcode]

theorem runCmd_denied {c : CmdSpec} {body : Body} {s : State} {n : SliceId} {w : Line} (h : canTake s n w = true)
    (ho : c.op ∈ opcodes) (h2 : fld w 0 2 = c.op) (hm : c.mine w = true) (hz : c.zero = true) (hn : n ≠ 0) :
    runCmd c body n w s = .next (complete (accept s n w) n (flightOf s n w) 4 0 0) := by
  have ho' : opcodes.contains c.op = true := by simpa using ho
  rw [runCmd_taken h (by simp [isRow, h2, hm])]
  simp only [checked, h2, ho', hz, hn, ne_eq, not_true_eq_false, not_false_eq_true, and_self, if_false, if_true, settle, stDenied]

theorem runCmd_reserved {c : CmdSpec} {body : Body} {s : State} {n : SliceId} {w : Line} {o : Nat} (h : canTake s n w = true)
    (ho : c.op ∈ opcodes) (h2 : fld w 0 2 = c.op) (hm : c.mine w = true) (hz : c.zero = true → n = 0) (hr : badReserved w c.named = some o) :
    runCmd c body n w s = .next (complete (accept s n w) n (flightOf s n w) 2 o 0) := by
  have h5 : ¬ (c.zero = true ∧ n ≠ 0) := fun ⟨a, b⟩ => b (hz a)
  have ho' : opcodes.contains c.op = true := by simpa using ho
  rw [runCmd_taken h (by simp [isRow, h2, hm])]
  simp only [checked, h2, h5, ho', hr, not_true_eq_false, if_false, settle, stReserved]

/-- An entry of another row, or one that can neither be taken nor start, changes nothing. -/
theorem runCmd_idle {c : CmdSpec} {body : Body} {s : State} {n : SliceId} {w : Line}
    (h : isRow c w = false ∨ (mayTake s n = false ∧ released s n w = none)) : runCmd c body n w s = .next s := by
  rcases h with h | ⟨h1, h2⟩
  · simp [runCmd, doWhen, h]
  · simp [runCmd, doWhen, h2, canTake, mustWait, h1]

/-- A structure that can be read is given to the body. -/
theorem withBytes_of {a : State} {n : SliceId} {w : Line} {off va len : Nat} {bs : Bytes} {k : State → Bytes → Res}
    (h : StructAt a n w off va len bs) : withBytes a n w off va len k = k (structRead a n va len) bs := by
  obtain ⟨h1, h2, h3, h4⟩ := h
  have h5 : ¬ 2 ^ 48 ≤ fld w off 8 := by omega
  simp [withBytes, h1, h4]
  rw [if_neg (by simpa using h5), if_neg (by simpa using h3)]

theorem withStruct_of {a : State} {n : SliceId} {w : Line} {off len : Nat} {bs : Bytes} {k : State → Bytes → Res}
    (h : StructAt a n w off (fld w off 8) len bs) : withStruct a n w off len k = k (structRead a n (fld w off 8) len) bs := withBytes_of h

theorem withDest_of {a : State} {n : SliceId} {w : Line} {off len : Nat} {k : Nat → Res}
    (h : DestAt a n w off len) : withDest a n w off len k = k (fld w off 8) := by
  obtain ⟨h1, h2, h3, h4⟩ := h
  have h5 : ¬ 2 ^ 48 ≤ fld w off 8 := by omega
  simp [withDest, h1, h4]
  rw [if_neg (by simpa using h5), if_neg (by simpa using h3)]

/-- What holds of every outcome of the body holds of the row. -/
theorem onRow {row : SliceId → Line → Instr} {op : Nat} {zero : Bool} {named : List (Nat × Nat)} {mine : Line → Bool} {body : Body}
    {P : State → SliceId → Line → Flight → (Res → Prop) → Prop}
    (he : ∀ n w s, exec (row n w) s = runCmd { op := op, zero := zero, named := named, mine := mine } body n w s)
    (ho : opcodes.contains op = true)
    (hp : ∀ a n w f (gives : Res → Prop), (∀ r, mine w = true → body a n f w = r → gives r) → P a n w f gives) :
    OnRow row op zero named P := by
  intro s n w h
  refine hp _ _ _ _ _ (fun r hm hr => ?_)
  rw [he, runCmd_sent h ho hm, hr]

end Sys2Proof.Machine
end

