-- ==== Sys2Proof/Laws/State.lean ====
section
/-! SUPPORT. What each updater of the state does to each of its fields: its own field takes the new value, every
other field is unchanged. Later proofs cite these and never unfold a record update. -/

namespace Sys2Proof.Machine

/-! ### State.upMem -/

@[simp] theorem State.upMem_now (s : State) (f : MemSt → MemSt) : (s.upMem f).now = s.now := rfl
@[simp] theorem State.upMem_mem (s : State) (f : MemSt → MemSt) : (s.upMem f).mem = f s.mem := rfl
@[simp] theorem State.upMem_host (s : State) (f : MemSt → MemSt) : (s.upMem f).host = s.host := rfl
@[simp] theorem State.upMem_slices (s : State) (f : MemSt → MemSt) : (s.upMem f).slices = s.slices := rfl
@[simp] theorem State.upMem_log (s : State) (f : MemSt → MemSt) : (s.upMem f).log = s.log := rfl
@[simp] theorem State.upMem_logNext (s : State) (f : MemSt → MemSt) : (s.upMem f).logNext = s.logNext := rfl
@[simp] theorem State.upMem_groups (s : State) (f : MemSt → MemSt) : (s.upMem f).groups = s.groups := rfl
@[simp] theorem State.upMem_commits (s : State) (f : MemSt → MemSt) : (s.upMem f).commits = s.commits := rfl
@[simp] theorem State.upMem_assigned (s : State) (f : MemSt → MemSt) : (s.upMem f).assigned = s.assigned := rfl
@[simp] theorem State.upMem_cue (s : State) (f : MemSt → MemSt) : (s.upMem f).cue = s.cue := rfl
@[simp] theorem State.upMem_sheets (s : State) (f : MemSt → MemSt) : (s.upMem f).sheets = s.sheets := rfl
@[simp] theorem State.upMem_replaced (s : State) (f : MemSt → MemSt) : (s.upMem f).replaced = s.replaced := rfl
@[simp] theorem State.upMem_missed (s : State) (f : MemSt → MemSt) : (s.upMem f).missed = s.missed := rfl
@[simp] theorem State.upMem_jobs (s : State) (f : MemSt → MemSt) : (s.upMem f).jobs = s.jobs := rfl
@[simp] theorem State.upMem_jobNext (s : State) (f : MemSt → MemSt) : (s.upMem f).jobNext = s.jobNext := rfl
@[simp] theorem State.upMem_units (s : State) (f : MemSt → MemSt) : (s.upMem f).units = s.units := rfl
@[simp] theorem State.upMem_saved (s : State) (f : MemSt → MemSt) : (s.upMem f).saved = s.saved := rfl
@[simp] theorem State.upMem_ctrs (s : State) (f : MemSt → MemSt) : (s.upMem f).ctrs = s.ctrs := rfl
@[simp] theorem State.upMem_cores (s : State) (f : MemSt → MemSt) : (s.upMem f).cores = s.cores := rfl
@[simp] theorem State.upMem_rasters (s : State) (f : MemSt → MemSt) : (s.upMem f).rasters = s.rasters := rfl
@[simp] theorem State.upMem_heads (s : State) (f : MemSt → MemSt) : (s.upMem f).heads = s.heads := rfl
@[simp] theorem State.upMem_intake (s : State) (f : MemSt → MemSt) : (s.upMem f).intake = s.intake := rfl
@[simp] theorem State.upMem_net (s : State) (f : MemSt → MemSt) : (s.upMem f).net = s.net := rfl
@[simp] theorem State.upMem_ctl (s : State) (f : MemSt → MemSt) : (s.upMem f).ctl = s.ctl := rfl
@[simp] theorem State.upMem_fab (s : State) (f : MemSt → MemSt) : (s.upMem f).fab = s.fab := rfl
@[simp] theorem State.upMem_aes (s : State) (f : MemSt → MemSt) : (s.upMem f).aes = s.aes := rfl
@[simp] theorem State.upMem_saf (s : State) (f : MemSt → MemSt) : (s.upMem f).saf = s.saf := rfl
@[simp] theorem State.upMem_pwr (s : State) (f : MemSt → MemSt) : (s.upMem f).pwr = s.pwr := rfl
@[simp] theorem State.upMem_sec (s : State) (f : MemSt → MemSt) : (s.upMem f).sec = s.sec := rfl
@[simp] theorem State.upMem_free (s : State) (f : MemSt → MemSt) : (s.upMem f).free = s.free := rfl
@[simp] theorem State.upMem_out (s : State) (f : MemSt → MemSt) : (s.upMem f).out = s.out := rfl
@[simp] theorem State.upMem_pending (s : State) (f : MemSt → MemSt) : (s.upMem f).pending = s.pending := rfl

/-! ### State.upHost -/

@[simp] theorem State.upHost_now (s : State) (f : HostSt → HostSt) : (s.upHost f).now = s.now := rfl
@[simp] theorem State.upHost_mem (s : State) (f : HostSt → HostSt) : (s.upHost f).mem = s.mem := rfl
@[simp] theorem State.upHost_host (s : State) (f : HostSt → HostSt) : (s.upHost f).host = f s.host := rfl
@[simp] theorem State.upHost_slices (s : State) (f : HostSt → HostSt) : (s.upHost f).slices = s.slices := rfl
@[simp] theorem State.upHost_log (s : State) (f : HostSt → HostSt) : (s.upHost f).log = s.log := rfl
@[simp] theorem State.upHost_logNext (s : State) (f : HostSt → HostSt) : (s.upHost f).logNext = s.logNext := rfl
@[simp] theorem State.upHost_groups (s : State) (f : HostSt → HostSt) : (s.upHost f).groups = s.groups := rfl
@[simp] theorem State.upHost_commits (s : State) (f : HostSt → HostSt) : (s.upHost f).commits = s.commits := rfl
@[simp] theorem State.upHost_assigned (s : State) (f : HostSt → HostSt) : (s.upHost f).assigned = s.assigned := rfl
@[simp] theorem State.upHost_cue (s : State) (f : HostSt → HostSt) : (s.upHost f).cue = s.cue := rfl
@[simp] theorem State.upHost_sheets (s : State) (f : HostSt → HostSt) : (s.upHost f).sheets = s.sheets := rfl
@[simp] theorem State.upHost_replaced (s : State) (f : HostSt → HostSt) : (s.upHost f).replaced = s.replaced := rfl
@[simp] theorem State.upHost_missed (s : State) (f : HostSt → HostSt) : (s.upHost f).missed = s.missed := rfl
@[simp] theorem State.upHost_jobs (s : State) (f : HostSt → HostSt) : (s.upHost f).jobs = s.jobs := rfl
@[simp] theorem State.upHost_jobNext (s : State) (f : HostSt → HostSt) : (s.upHost f).jobNext = s.jobNext := rfl
@[simp] theorem State.upHost_units (s : State) (f : HostSt → HostSt) : (s.upHost f).units = s.units := rfl
@[simp] theorem State.upHost_saved (s : State) (f : HostSt → HostSt) : (s.upHost f).saved = s.saved := rfl
@[simp] theorem State.upHost_ctrs (s : State) (f : HostSt → HostSt) : (s.upHost f).ctrs = s.ctrs := rfl
@[simp] theorem State.upHost_cores (s : State) (f : HostSt → HostSt) : (s.upHost f).cores = s.cores := rfl
@[simp] theorem State.upHost_rasters (s : State) (f : HostSt → HostSt) : (s.upHost f).rasters = s.rasters := rfl
@[simp] theorem State.upHost_heads (s : State) (f : HostSt → HostSt) : (s.upHost f).heads = s.heads := rfl
@[simp] theorem State.upHost_intake (s : State) (f : HostSt → HostSt) : (s.upHost f).intake = s.intake := rfl
@[simp] theorem State.upHost_net (s : State) (f : HostSt → HostSt) : (s.upHost f).net = s.net := rfl
@[simp] theorem State.upHost_ctl (s : State) (f : HostSt → HostSt) : (s.upHost f).ctl = s.ctl := rfl
@[simp] theorem State.upHost_fab (s : State) (f : HostSt → HostSt) : (s.upHost f).fab = s.fab := rfl
@[simp] theorem State.upHost_aes (s : State) (f : HostSt → HostSt) : (s.upHost f).aes = s.aes := rfl
@[simp] theorem State.upHost_saf (s : State) (f : HostSt → HostSt) : (s.upHost f).saf = s.saf := rfl
@[simp] theorem State.upHost_pwr (s : State) (f : HostSt → HostSt) : (s.upHost f).pwr = s.pwr := rfl
@[simp] theorem State.upHost_sec (s : State) (f : HostSt → HostSt) : (s.upHost f).sec = s.sec := rfl
@[simp] theorem State.upHost_free (s : State) (f : HostSt → HostSt) : (s.upHost f).free = s.free := rfl
@[simp] theorem State.upHost_out (s : State) (f : HostSt → HostSt) : (s.upHost f).out = s.out := rfl
@[simp] theorem State.upHost_pending (s : State) (f : HostSt → HostSt) : (s.upHost f).pending = s.pending := rfl

/-! ### State.upCue -/

@[simp] theorem State.upCue_now (s : State) (f : CueSt → CueSt) : (s.upCue f).now = s.now := rfl
@[simp] theorem State.upCue_mem (s : State) (f : CueSt → CueSt) : (s.upCue f).mem = s.mem := rfl
@[simp] theorem State.upCue_host (s : State) (f : CueSt → CueSt) : (s.upCue f).host = s.host := rfl
@[simp] theorem State.upCue_slices (s : State) (f : CueSt → CueSt) : (s.upCue f).slices = s.slices := rfl
@[simp] theorem State.upCue_log (s : State) (f : CueSt → CueSt) : (s.upCue f).log = s.log := rfl
@[simp] theorem State.upCue_logNext (s : State) (f : CueSt → CueSt) : (s.upCue f).logNext = s.logNext := rfl
@[simp] theorem State.upCue_groups (s : State) (f : CueSt → CueSt) : (s.upCue f).groups = s.groups := rfl
@[simp] theorem State.upCue_commits (s : State) (f : CueSt → CueSt) : (s.upCue f).commits = s.commits := rfl
@[simp] theorem State.upCue_assigned (s : State) (f : CueSt → CueSt) : (s.upCue f).assigned = s.assigned := rfl
@[simp] theorem State.upCue_cue (s : State) (f : CueSt → CueSt) : (s.upCue f).cue = f s.cue := rfl
@[simp] theorem State.upCue_sheets (s : State) (f : CueSt → CueSt) : (s.upCue f).sheets = s.sheets := rfl
@[simp] theorem State.upCue_replaced (s : State) (f : CueSt → CueSt) : (s.upCue f).replaced = s.replaced := rfl
@[simp] theorem State.upCue_missed (s : State) (f : CueSt → CueSt) : (s.upCue f).missed = s.missed := rfl
@[simp] theorem State.upCue_jobs (s : State) (f : CueSt → CueSt) : (s.upCue f).jobs = s.jobs := rfl
@[simp] theorem State.upCue_jobNext (s : State) (f : CueSt → CueSt) : (s.upCue f).jobNext = s.jobNext := rfl
@[simp] theorem State.upCue_units (s : State) (f : CueSt → CueSt) : (s.upCue f).units = s.units := rfl
@[simp] theorem State.upCue_saved (s : State) (f : CueSt → CueSt) : (s.upCue f).saved = s.saved := rfl
@[simp] theorem State.upCue_ctrs (s : State) (f : CueSt → CueSt) : (s.upCue f).ctrs = s.ctrs := rfl
@[simp] theorem State.upCue_cores (s : State) (f : CueSt → CueSt) : (s.upCue f).cores = s.cores := rfl
@[simp] theorem State.upCue_rasters (s : State) (f : CueSt → CueSt) : (s.upCue f).rasters = s.rasters := rfl
@[simp] theorem State.upCue_heads (s : State) (f : CueSt → CueSt) : (s.upCue f).heads = s.heads := rfl
@[simp] theorem State.upCue_intake (s : State) (f : CueSt → CueSt) : (s.upCue f).intake = s.intake := rfl
@[simp] theorem State.upCue_net (s : State) (f : CueSt → CueSt) : (s.upCue f).net = s.net := rfl
@[simp] theorem State.upCue_ctl (s : State) (f : CueSt → CueSt) : (s.upCue f).ctl = s.ctl := rfl
@[simp] theorem State.upCue_fab (s : State) (f : CueSt → CueSt) : (s.upCue f).fab = s.fab := rfl
@[simp] theorem State.upCue_aes (s : State) (f : CueSt → CueSt) : (s.upCue f).aes = s.aes := rfl
@[simp] theorem State.upCue_saf (s : State) (f : CueSt → CueSt) : (s.upCue f).saf = s.saf := rfl
@[simp] theorem State.upCue_pwr (s : State) (f : CueSt → CueSt) : (s.upCue f).pwr = s.pwr := rfl
@[simp] theorem State.upCue_sec (s : State) (f : CueSt → CueSt) : (s.upCue f).sec = s.sec := rfl
@[simp] theorem State.upCue_free (s : State) (f : CueSt → CueSt) : (s.upCue f).free = s.free := rfl
@[simp] theorem State.upCue_out (s : State) (f : CueSt → CueSt) : (s.upCue f).out = s.out := rfl
@[simp] theorem State.upCue_pending (s : State) (f : CueSt → CueSt) : (s.upCue f).pending = s.pending := rfl

/-! ### State.upFab -/

@[simp] theorem State.upFab_now (s : State) (f : FabSt → FabSt) : (s.upFab f).now = s.now := rfl
@[simp] theorem State.upFab_mem (s : State) (f : FabSt → FabSt) : (s.upFab f).mem = s.mem := rfl
@[simp] theorem State.upFab_host (s : State) (f : FabSt → FabSt) : (s.upFab f).host = s.host := rfl
@[simp] theorem State.upFab_slices (s : State) (f : FabSt → FabSt) : (s.upFab f).slices = s.slices := rfl
@[simp] theorem State.upFab_log (s : State) (f : FabSt → FabSt) : (s.upFab f).log = s.log := rfl
@[simp] theorem State.upFab_logNext (s : State) (f : FabSt → FabSt) : (s.upFab f).logNext = s.logNext := rfl
@[simp] theorem State.upFab_groups (s : State) (f : FabSt → FabSt) : (s.upFab f).groups = s.groups := rfl
@[simp] theorem State.upFab_commits (s : State) (f : FabSt → FabSt) : (s.upFab f).commits = s.commits := rfl
@[simp] theorem State.upFab_assigned (s : State) (f : FabSt → FabSt) : (s.upFab f).assigned = s.assigned := rfl
@[simp] theorem State.upFab_cue (s : State) (f : FabSt → FabSt) : (s.upFab f).cue = s.cue := rfl
@[simp] theorem State.upFab_sheets (s : State) (f : FabSt → FabSt) : (s.upFab f).sheets = s.sheets := rfl
@[simp] theorem State.upFab_replaced (s : State) (f : FabSt → FabSt) : (s.upFab f).replaced = s.replaced := rfl
@[simp] theorem State.upFab_missed (s : State) (f : FabSt → FabSt) : (s.upFab f).missed = s.missed := rfl
@[simp] theorem State.upFab_jobs (s : State) (f : FabSt → FabSt) : (s.upFab f).jobs = s.jobs := rfl
@[simp] theorem State.upFab_jobNext (s : State) (f : FabSt → FabSt) : (s.upFab f).jobNext = s.jobNext := rfl
@[simp] theorem State.upFab_units (s : State) (f : FabSt → FabSt) : (s.upFab f).units = s.units := rfl
@[simp] theorem State.upFab_saved (s : State) (f : FabSt → FabSt) : (s.upFab f).saved = s.saved := rfl
@[simp] theorem State.upFab_ctrs (s : State) (f : FabSt → FabSt) : (s.upFab f).ctrs = s.ctrs := rfl
@[simp] theorem State.upFab_cores (s : State) (f : FabSt → FabSt) : (s.upFab f).cores = s.cores := rfl
@[simp] theorem State.upFab_rasters (s : State) (f : FabSt → FabSt) : (s.upFab f).rasters = s.rasters := rfl
@[simp] theorem State.upFab_heads (s : State) (f : FabSt → FabSt) : (s.upFab f).heads = s.heads := rfl
@[simp] theorem State.upFab_intake (s : State) (f : FabSt → FabSt) : (s.upFab f).intake = s.intake := rfl
@[simp] theorem State.upFab_net (s : State) (f : FabSt → FabSt) : (s.upFab f).net = s.net := rfl
@[simp] theorem State.upFab_ctl (s : State) (f : FabSt → FabSt) : (s.upFab f).ctl = s.ctl := rfl
@[simp] theorem State.upFab_fab (s : State) (f : FabSt → FabSt) : (s.upFab f).fab = f s.fab := rfl
@[simp] theorem State.upFab_aes (s : State) (f : FabSt → FabSt) : (s.upFab f).aes = s.aes := rfl
@[simp] theorem State.upFab_saf (s : State) (f : FabSt → FabSt) : (s.upFab f).saf = s.saf := rfl
@[simp] theorem State.upFab_pwr (s : State) (f : FabSt → FabSt) : (s.upFab f).pwr = s.pwr := rfl
@[simp] theorem State.upFab_sec (s : State) (f : FabSt → FabSt) : (s.upFab f).sec = s.sec := rfl
@[simp] theorem State.upFab_free (s : State) (f : FabSt → FabSt) : (s.upFab f).free = s.free := rfl
@[simp] theorem State.upFab_out (s : State) (f : FabSt → FabSt) : (s.upFab f).out = s.out := rfl
@[simp] theorem State.upFab_pending (s : State) (f : FabSt → FabSt) : (s.upFab f).pending = s.pending := rfl

/-! ### State.upIntake -/

@[simp] theorem State.upIntake_now (s : State) (f : IntakeSt → IntakeSt) : (s.upIntake f).now = s.now := rfl
@[simp] theorem State.upIntake_mem (s : State) (f : IntakeSt → IntakeSt) : (s.upIntake f).mem = s.mem := rfl
@[simp] theorem State.upIntake_host (s : State) (f : IntakeSt → IntakeSt) : (s.upIntake f).host = s.host := rfl
@[simp] theorem State.upIntake_slices (s : State) (f : IntakeSt → IntakeSt) : (s.upIntake f).slices = s.slices := rfl
@[simp] theorem State.upIntake_log (s : State) (f : IntakeSt → IntakeSt) : (s.upIntake f).log = s.log := rfl
@[simp] theorem State.upIntake_logNext (s : State) (f : IntakeSt → IntakeSt) : (s.upIntake f).logNext = s.logNext := rfl
@[simp] theorem State.upIntake_groups (s : State) (f : IntakeSt → IntakeSt) : (s.upIntake f).groups = s.groups := rfl
@[simp] theorem State.upIntake_commits (s : State) (f : IntakeSt → IntakeSt) : (s.upIntake f).commits = s.commits := rfl
@[simp] theorem State.upIntake_assigned (s : State) (f : IntakeSt → IntakeSt) : (s.upIntake f).assigned = s.assigned := rfl
@[simp] theorem State.upIntake_cue (s : State) (f : IntakeSt → IntakeSt) : (s.upIntake f).cue = s.cue := rfl
@[simp] theorem State.upIntake_sheets (s : State) (f : IntakeSt → IntakeSt) : (s.upIntake f).sheets = s.sheets := rfl
@[simp] theorem State.upIntake_replaced (s : State) (f : IntakeSt → IntakeSt) : (s.upIntake f).replaced = s.replaced := rfl
@[simp] theorem State.upIntake_missed (s : State) (f : IntakeSt → IntakeSt) : (s.upIntake f).missed = s.missed := rfl
@[simp] theorem State.upIntake_jobs (s : State) (f : IntakeSt → IntakeSt) : (s.upIntake f).jobs = s.jobs := rfl
@[simp] theorem State.upIntake_jobNext (s : State) (f : IntakeSt → IntakeSt) : (s.upIntake f).jobNext = s.jobNext := rfl
@[simp] theorem State.upIntake_units (s : State) (f : IntakeSt → IntakeSt) : (s.upIntake f).units = s.units := rfl
@[simp] theorem State.upIntake_saved (s : State) (f : IntakeSt → IntakeSt) : (s.upIntake f).saved = s.saved := rfl
@[simp] theorem State.upIntake_ctrs (s : State) (f : IntakeSt → IntakeSt) : (s.upIntake f).ctrs = s.ctrs := rfl
@[simp] theorem State.upIntake_cores (s : State) (f : IntakeSt → IntakeSt) : (s.upIntake f).cores = s.cores := rfl
@[simp] theorem State.upIntake_rasters (s : State) (f : IntakeSt → IntakeSt) : (s.upIntake f).rasters = s.rasters := rfl
@[simp] theorem State.upIntake_heads (s : State) (f : IntakeSt → IntakeSt) : (s.upIntake f).heads = s.heads := rfl
@[simp] theorem State.upIntake_intake (s : State) (f : IntakeSt → IntakeSt) : (s.upIntake f).intake = f s.intake := rfl
@[simp] theorem State.upIntake_net (s : State) (f : IntakeSt → IntakeSt) : (s.upIntake f).net = s.net := rfl
@[simp] theorem State.upIntake_ctl (s : State) (f : IntakeSt → IntakeSt) : (s.upIntake f).ctl = s.ctl := rfl
@[simp] theorem State.upIntake_fab (s : State) (f : IntakeSt → IntakeSt) : (s.upIntake f).fab = s.fab := rfl
@[simp] theorem State.upIntake_aes (s : State) (f : IntakeSt → IntakeSt) : (s.upIntake f).aes = s.aes := rfl
@[simp] theorem State.upIntake_saf (s : State) (f : IntakeSt → IntakeSt) : (s.upIntake f).saf = s.saf := rfl
@[simp] theorem State.upIntake_pwr (s : State) (f : IntakeSt → IntakeSt) : (s.upIntake f).pwr = s.pwr := rfl
@[simp] theorem State.upIntake_sec (s : State) (f : IntakeSt → IntakeSt) : (s.upIntake f).sec = s.sec := rfl
@[simp] theorem State.upIntake_free (s : State) (f : IntakeSt → IntakeSt) : (s.upIntake f).free = s.free := rfl
@[simp] theorem State.upIntake_out (s : State) (f : IntakeSt → IntakeSt) : (s.upIntake f).out = s.out := rfl
@[simp] theorem State.upIntake_pending (s : State) (f : IntakeSt → IntakeSt) : (s.upIntake f).pending = s.pending := rfl

/-! ### State.upNet -/

@[simp] theorem State.upNet_now (s : State) (f : NetSt → NetSt) : (s.upNet f).now = s.now := rfl
@[simp] theorem State.upNet_mem (s : State) (f : NetSt → NetSt) : (s.upNet f).mem = s.mem := rfl
@[simp] theorem State.upNet_host (s : State) (f : NetSt → NetSt) : (s.upNet f).host = s.host := rfl
@[simp] theorem State.upNet_slices (s : State) (f : NetSt → NetSt) : (s.upNet f).slices = s.slices := rfl
@[simp] theorem State.upNet_log (s : State) (f : NetSt → NetSt) : (s.upNet f).log = s.log := rfl
@[simp] theorem State.upNet_logNext (s : State) (f : NetSt → NetSt) : (s.upNet f).logNext = s.logNext := rfl
@[simp] theorem State.upNet_groups (s : State) (f : NetSt → NetSt) : (s.upNet f).groups = s.groups := rfl
@[simp] theorem State.upNet_commits (s : State) (f : NetSt → NetSt) : (s.upNet f).commits = s.commits := rfl
@[simp] theorem State.upNet_assigned (s : State) (f : NetSt → NetSt) : (s.upNet f).assigned = s.assigned := rfl
@[simp] theorem State.upNet_cue (s : State) (f : NetSt → NetSt) : (s.upNet f).cue = s.cue := rfl
@[simp] theorem State.upNet_sheets (s : State) (f : NetSt → NetSt) : (s.upNet f).sheets = s.sheets := rfl
@[simp] theorem State.upNet_replaced (s : State) (f : NetSt → NetSt) : (s.upNet f).replaced = s.replaced := rfl
@[simp] theorem State.upNet_missed (s : State) (f : NetSt → NetSt) : (s.upNet f).missed = s.missed := rfl
@[simp] theorem State.upNet_jobs (s : State) (f : NetSt → NetSt) : (s.upNet f).jobs = s.jobs := rfl
@[simp] theorem State.upNet_jobNext (s : State) (f : NetSt → NetSt) : (s.upNet f).jobNext = s.jobNext := rfl
@[simp] theorem State.upNet_units (s : State) (f : NetSt → NetSt) : (s.upNet f).units = s.units := rfl
@[simp] theorem State.upNet_saved (s : State) (f : NetSt → NetSt) : (s.upNet f).saved = s.saved := rfl
@[simp] theorem State.upNet_ctrs (s : State) (f : NetSt → NetSt) : (s.upNet f).ctrs = s.ctrs := rfl
@[simp] theorem State.upNet_cores (s : State) (f : NetSt → NetSt) : (s.upNet f).cores = s.cores := rfl
@[simp] theorem State.upNet_rasters (s : State) (f : NetSt → NetSt) : (s.upNet f).rasters = s.rasters := rfl
@[simp] theorem State.upNet_heads (s : State) (f : NetSt → NetSt) : (s.upNet f).heads = s.heads := rfl
@[simp] theorem State.upNet_intake (s : State) (f : NetSt → NetSt) : (s.upNet f).intake = s.intake := rfl
@[simp] theorem State.upNet_net (s : State) (f : NetSt → NetSt) : (s.upNet f).net = f s.net := rfl
@[simp] theorem State.upNet_ctl (s : State) (f : NetSt → NetSt) : (s.upNet f).ctl = s.ctl := rfl
@[simp] theorem State.upNet_fab (s : State) (f : NetSt → NetSt) : (s.upNet f).fab = s.fab := rfl
@[simp] theorem State.upNet_aes (s : State) (f : NetSt → NetSt) : (s.upNet f).aes = s.aes := rfl
@[simp] theorem State.upNet_saf (s : State) (f : NetSt → NetSt) : (s.upNet f).saf = s.saf := rfl
@[simp] theorem State.upNet_pwr (s : State) (f : NetSt → NetSt) : (s.upNet f).pwr = s.pwr := rfl
@[simp] theorem State.upNet_sec (s : State) (f : NetSt → NetSt) : (s.upNet f).sec = s.sec := rfl
@[simp] theorem State.upNet_free (s : State) (f : NetSt → NetSt) : (s.upNet f).free = s.free := rfl
@[simp] theorem State.upNet_out (s : State) (f : NetSt → NetSt) : (s.upNet f).out = s.out := rfl
@[simp] theorem State.upNet_pending (s : State) (f : NetSt → NetSt) : (s.upNet f).pending = s.pending := rfl

/-! ### State.upCtl -/

@[simp] theorem State.upCtl_now (s : State) (f : CtlSt → CtlSt) : (s.upCtl f).now = s.now := rfl
@[simp] theorem State.upCtl_mem (s : State) (f : CtlSt → CtlSt) : (s.upCtl f).mem = s.mem := rfl
@[simp] theorem State.upCtl_host (s : State) (f : CtlSt → CtlSt) : (s.upCtl f).host = s.host := rfl
@[simp] theorem State.upCtl_slices (s : State) (f : CtlSt → CtlSt) : (s.upCtl f).slices = s.slices := rfl
@[simp] theorem State.upCtl_log (s : State) (f : CtlSt → CtlSt) : (s.upCtl f).log = s.log := rfl
@[simp] theorem State.upCtl_logNext (s : State) (f : CtlSt → CtlSt) : (s.upCtl f).logNext = s.logNext := rfl
@[simp] theorem State.upCtl_groups (s : State) (f : CtlSt → CtlSt) : (s.upCtl f).groups = s.groups := rfl
@[simp] theorem State.upCtl_commits (s : State) (f : CtlSt → CtlSt) : (s.upCtl f).commits = s.commits := rfl
@[simp] theorem State.upCtl_assigned (s : State) (f : CtlSt → CtlSt) : (s.upCtl f).assigned = s.assigned := rfl
@[simp] theorem State.upCtl_cue (s : State) (f : CtlSt → CtlSt) : (s.upCtl f).cue = s.cue := rfl
@[simp] theorem State.upCtl_sheets (s : State) (f : CtlSt → CtlSt) : (s.upCtl f).sheets = s.sheets := rfl
@[simp] theorem State.upCtl_replaced (s : State) (f : CtlSt → CtlSt) : (s.upCtl f).replaced = s.replaced := rfl
@[simp] theorem State.upCtl_missed (s : State) (f : CtlSt → CtlSt) : (s.upCtl f).missed = s.missed := rfl
@[simp] theorem State.upCtl_jobs (s : State) (f : CtlSt → CtlSt) : (s.upCtl f).jobs = s.jobs := rfl
@[simp] theorem State.upCtl_jobNext (s : State) (f : CtlSt → CtlSt) : (s.upCtl f).jobNext = s.jobNext := rfl
@[simp] theorem State.upCtl_units (s : State) (f : CtlSt → CtlSt) : (s.upCtl f).units = s.units := rfl
@[simp] theorem State.upCtl_saved (s : State) (f : CtlSt → CtlSt) : (s.upCtl f).saved = s.saved := rfl
@[simp] theorem State.upCtl_ctrs (s : State) (f : CtlSt → CtlSt) : (s.upCtl f).ctrs = s.ctrs := rfl
@[simp] theorem State.upCtl_cores (s : State) (f : CtlSt → CtlSt) : (s.upCtl f).cores = s.cores := rfl
@[simp] theorem State.upCtl_rasters (s : State) (f : CtlSt → CtlSt) : (s.upCtl f).rasters = s.rasters := rfl
@[simp] theorem State.upCtl_heads (s : State) (f : CtlSt → CtlSt) : (s.upCtl f).heads = s.heads := rfl
@[simp] theorem State.upCtl_intake (s : State) (f : CtlSt → CtlSt) : (s.upCtl f).intake = s.intake := rfl
@[simp] theorem State.upCtl_net (s : State) (f : CtlSt → CtlSt) : (s.upCtl f).net = s.net := rfl
@[simp] theorem State.upCtl_ctl (s : State) (f : CtlSt → CtlSt) : (s.upCtl f).ctl = f s.ctl := rfl
@[simp] theorem State.upCtl_fab (s : State) (f : CtlSt → CtlSt) : (s.upCtl f).fab = s.fab := rfl
@[simp] theorem State.upCtl_aes (s : State) (f : CtlSt → CtlSt) : (s.upCtl f).aes = s.aes := rfl
@[simp] theorem State.upCtl_saf (s : State) (f : CtlSt → CtlSt) : (s.upCtl f).saf = s.saf := rfl
@[simp] theorem State.upCtl_pwr (s : State) (f : CtlSt → CtlSt) : (s.upCtl f).pwr = s.pwr := rfl
@[simp] theorem State.upCtl_sec (s : State) (f : CtlSt → CtlSt) : (s.upCtl f).sec = s.sec := rfl
@[simp] theorem State.upCtl_free (s : State) (f : CtlSt → CtlSt) : (s.upCtl f).free = s.free := rfl
@[simp] theorem State.upCtl_out (s : State) (f : CtlSt → CtlSt) : (s.upCtl f).out = s.out := rfl
@[simp] theorem State.upCtl_pending (s : State) (f : CtlSt → CtlSt) : (s.upCtl f).pending = s.pending := rfl

/-! ### State.upPwr -/

@[simp] theorem State.upPwr_now (s : State) (f : PwrSt → PwrSt) : (s.upPwr f).now = s.now := rfl
@[simp] theorem State.upPwr_mem (s : State) (f : PwrSt → PwrSt) : (s.upPwr f).mem = s.mem := rfl
@[simp] theorem State.upPwr_host (s : State) (f : PwrSt → PwrSt) : (s.upPwr f).host = s.host := rfl
@[simp] theorem State.upPwr_slices (s : State) (f : PwrSt → PwrSt) : (s.upPwr f).slices = s.slices := rfl
@[simp] theorem State.upPwr_log (s : State) (f : PwrSt → PwrSt) : (s.upPwr f).log = s.log := rfl
@[simp] theorem State.upPwr_logNext (s : State) (f : PwrSt → PwrSt) : (s.upPwr f).logNext = s.logNext := rfl
@[simp] theorem State.upPwr_groups (s : State) (f : PwrSt → PwrSt) : (s.upPwr f).groups = s.groups := rfl
@[simp] theorem State.upPwr_commits (s : State) (f : PwrSt → PwrSt) : (s.upPwr f).commits = s.commits := rfl
@[simp] theorem State.upPwr_assigned (s : State) (f : PwrSt → PwrSt) : (s.upPwr f).assigned = s.assigned := rfl
@[simp] theorem State.upPwr_cue (s : State) (f : PwrSt → PwrSt) : (s.upPwr f).cue = s.cue := rfl
@[simp] theorem State.upPwr_sheets (s : State) (f : PwrSt → PwrSt) : (s.upPwr f).sheets = s.sheets := rfl
@[simp] theorem State.upPwr_replaced (s : State) (f : PwrSt → PwrSt) : (s.upPwr f).replaced = s.replaced := rfl
@[simp] theorem State.upPwr_missed (s : State) (f : PwrSt → PwrSt) : (s.upPwr f).missed = s.missed := rfl
@[simp] theorem State.upPwr_jobs (s : State) (f : PwrSt → PwrSt) : (s.upPwr f).jobs = s.jobs := rfl
@[simp] theorem State.upPwr_jobNext (s : State) (f : PwrSt → PwrSt) : (s.upPwr f).jobNext = s.jobNext := rfl
@[simp] theorem State.upPwr_units (s : State) (f : PwrSt → PwrSt) : (s.upPwr f).units = s.units := rfl
@[simp] theorem State.upPwr_saved (s : State) (f : PwrSt → PwrSt) : (s.upPwr f).saved = s.saved := rfl
@[simp] theorem State.upPwr_ctrs (s : State) (f : PwrSt → PwrSt) : (s.upPwr f).ctrs = s.ctrs := rfl
@[simp] theorem State.upPwr_cores (s : State) (f : PwrSt → PwrSt) : (s.upPwr f).cores = s.cores := rfl
@[simp] theorem State.upPwr_rasters (s : State) (f : PwrSt → PwrSt) : (s.upPwr f).rasters = s.rasters := rfl
@[simp] theorem State.upPwr_heads (s : State) (f : PwrSt → PwrSt) : (s.upPwr f).heads = s.heads := rfl
@[simp] theorem State.upPwr_intake (s : State) (f : PwrSt → PwrSt) : (s.upPwr f).intake = s.intake := rfl
@[simp] theorem State.upPwr_net (s : State) (f : PwrSt → PwrSt) : (s.upPwr f).net = s.net := rfl
@[simp] theorem State.upPwr_ctl (s : State) (f : PwrSt → PwrSt) : (s.upPwr f).ctl = s.ctl := rfl
@[simp] theorem State.upPwr_fab (s : State) (f : PwrSt → PwrSt) : (s.upPwr f).fab = s.fab := rfl
@[simp] theorem State.upPwr_aes (s : State) (f : PwrSt → PwrSt) : (s.upPwr f).aes = s.aes := rfl
@[simp] theorem State.upPwr_saf (s : State) (f : PwrSt → PwrSt) : (s.upPwr f).saf = s.saf := rfl
@[simp] theorem State.upPwr_pwr (s : State) (f : PwrSt → PwrSt) : (s.upPwr f).pwr = f s.pwr := rfl
@[simp] theorem State.upPwr_sec (s : State) (f : PwrSt → PwrSt) : (s.upPwr f).sec = s.sec := rfl
@[simp] theorem State.upPwr_free (s : State) (f : PwrSt → PwrSt) : (s.upPwr f).free = s.free := rfl
@[simp] theorem State.upPwr_out (s : State) (f : PwrSt → PwrSt) : (s.upPwr f).out = s.out := rfl
@[simp] theorem State.upPwr_pending (s : State) (f : PwrSt → PwrSt) : (s.upPwr f).pending = s.pending := rfl

/-! ### State.upSec -/

@[simp] theorem State.upSec_now (s : State) (f : SecSt → SecSt) : (s.upSec f).now = s.now := rfl
@[simp] theorem State.upSec_mem (s : State) (f : SecSt → SecSt) : (s.upSec f).mem = s.mem := rfl
@[simp] theorem State.upSec_host (s : State) (f : SecSt → SecSt) : (s.upSec f).host = s.host := rfl
@[simp] theorem State.upSec_slices (s : State) (f : SecSt → SecSt) : (s.upSec f).slices = s.slices := rfl
@[simp] theorem State.upSec_log (s : State) (f : SecSt → SecSt) : (s.upSec f).log = s.log := rfl
@[simp] theorem State.upSec_logNext (s : State) (f : SecSt → SecSt) : (s.upSec f).logNext = s.logNext := rfl
@[simp] theorem State.upSec_groups (s : State) (f : SecSt → SecSt) : (s.upSec f).groups = s.groups := rfl
@[simp] theorem State.upSec_commits (s : State) (f : SecSt → SecSt) : (s.upSec f).commits = s.commits := rfl
@[simp] theorem State.upSec_assigned (s : State) (f : SecSt → SecSt) : (s.upSec f).assigned = s.assigned := rfl
@[simp] theorem State.upSec_cue (s : State) (f : SecSt → SecSt) : (s.upSec f).cue = s.cue := rfl
@[simp] theorem State.upSec_sheets (s : State) (f : SecSt → SecSt) : (s.upSec f).sheets = s.sheets := rfl
@[simp] theorem State.upSec_replaced (s : State) (f : SecSt → SecSt) : (s.upSec f).replaced = s.replaced := rfl
@[simp] theorem State.upSec_missed (s : State) (f : SecSt → SecSt) : (s.upSec f).missed = s.missed := rfl
@[simp] theorem State.upSec_jobs (s : State) (f : SecSt → SecSt) : (s.upSec f).jobs = s.jobs := rfl
@[simp] theorem State.upSec_jobNext (s : State) (f : SecSt → SecSt) : (s.upSec f).jobNext = s.jobNext := rfl
@[simp] theorem State.upSec_units (s : State) (f : SecSt → SecSt) : (s.upSec f).units = s.units := rfl
@[simp] theorem State.upSec_saved (s : State) (f : SecSt → SecSt) : (s.upSec f).saved = s.saved := rfl
@[simp] theorem State.upSec_ctrs (s : State) (f : SecSt → SecSt) : (s.upSec f).ctrs = s.ctrs := rfl
@[simp] theorem State.upSec_cores (s : State) (f : SecSt → SecSt) : (s.upSec f).cores = s.cores := rfl
@[simp] theorem State.upSec_rasters (s : State) (f : SecSt → SecSt) : (s.upSec f).rasters = s.rasters := rfl
@[simp] theorem State.upSec_heads (s : State) (f : SecSt → SecSt) : (s.upSec f).heads = s.heads := rfl
@[simp] theorem State.upSec_intake (s : State) (f : SecSt → SecSt) : (s.upSec f).intake = s.intake := rfl
@[simp] theorem State.upSec_net (s : State) (f : SecSt → SecSt) : (s.upSec f).net = s.net := rfl
@[simp] theorem State.upSec_ctl (s : State) (f : SecSt → SecSt) : (s.upSec f).ctl = s.ctl := rfl
@[simp] theorem State.upSec_fab (s : State) (f : SecSt → SecSt) : (s.upSec f).fab = s.fab := rfl
@[simp] theorem State.upSec_aes (s : State) (f : SecSt → SecSt) : (s.upSec f).aes = s.aes := rfl
@[simp] theorem State.upSec_saf (s : State) (f : SecSt → SecSt) : (s.upSec f).saf = s.saf := rfl
@[simp] theorem State.upSec_pwr (s : State) (f : SecSt → SecSt) : (s.upSec f).pwr = s.pwr := rfl
@[simp] theorem State.upSec_sec (s : State) (f : SecSt → SecSt) : (s.upSec f).sec = f s.sec := rfl
@[simp] theorem State.upSec_free (s : State) (f : SecSt → SecSt) : (s.upSec f).free = s.free := rfl
@[simp] theorem State.upSec_out (s : State) (f : SecSt → SecSt) : (s.upSec f).out = s.out := rfl
@[simp] theorem State.upSec_pending (s : State) (f : SecSt → SecSt) : (s.upSec f).pending = s.pending := rfl

/-! ### State.upSaf -/

@[simp] theorem State.upSaf_now (s : State) (f : SafSt → SafSt) : (s.upSaf f).now = s.now := rfl
@[simp] theorem State.upSaf_mem (s : State) (f : SafSt → SafSt) : (s.upSaf f).mem = s.mem := rfl
@[simp] theorem State.upSaf_host (s : State) (f : SafSt → SafSt) : (s.upSaf f).host = s.host := rfl
@[simp] theorem State.upSaf_slices (s : State) (f : SafSt → SafSt) : (s.upSaf f).slices = s.slices := rfl
@[simp] theorem State.upSaf_log (s : State) (f : SafSt → SafSt) : (s.upSaf f).log = s.log := rfl
@[simp] theorem State.upSaf_logNext (s : State) (f : SafSt → SafSt) : (s.upSaf f).logNext = s.logNext := rfl
@[simp] theorem State.upSaf_groups (s : State) (f : SafSt → SafSt) : (s.upSaf f).groups = s.groups := rfl
@[simp] theorem State.upSaf_commits (s : State) (f : SafSt → SafSt) : (s.upSaf f).commits = s.commits := rfl
@[simp] theorem State.upSaf_assigned (s : State) (f : SafSt → SafSt) : (s.upSaf f).assigned = s.assigned := rfl
@[simp] theorem State.upSaf_cue (s : State) (f : SafSt → SafSt) : (s.upSaf f).cue = s.cue := rfl
@[simp] theorem State.upSaf_sheets (s : State) (f : SafSt → SafSt) : (s.upSaf f).sheets = s.sheets := rfl
@[simp] theorem State.upSaf_replaced (s : State) (f : SafSt → SafSt) : (s.upSaf f).replaced = s.replaced := rfl
@[simp] theorem State.upSaf_missed (s : State) (f : SafSt → SafSt) : (s.upSaf f).missed = s.missed := rfl
@[simp] theorem State.upSaf_jobs (s : State) (f : SafSt → SafSt) : (s.upSaf f).jobs = s.jobs := rfl
@[simp] theorem State.upSaf_jobNext (s : State) (f : SafSt → SafSt) : (s.upSaf f).jobNext = s.jobNext := rfl
@[simp] theorem State.upSaf_units (s : State) (f : SafSt → SafSt) : (s.upSaf f).units = s.units := rfl
@[simp] theorem State.upSaf_saved (s : State) (f : SafSt → SafSt) : (s.upSaf f).saved = s.saved := rfl
@[simp] theorem State.upSaf_ctrs (s : State) (f : SafSt → SafSt) : (s.upSaf f).ctrs = s.ctrs := rfl
@[simp] theorem State.upSaf_cores (s : State) (f : SafSt → SafSt) : (s.upSaf f).cores = s.cores := rfl
@[simp] theorem State.upSaf_rasters (s : State) (f : SafSt → SafSt) : (s.upSaf f).rasters = s.rasters := rfl
@[simp] theorem State.upSaf_heads (s : State) (f : SafSt → SafSt) : (s.upSaf f).heads = s.heads := rfl
@[simp] theorem State.upSaf_intake (s : State) (f : SafSt → SafSt) : (s.upSaf f).intake = s.intake := rfl
@[simp] theorem State.upSaf_net (s : State) (f : SafSt → SafSt) : (s.upSaf f).net = s.net := rfl
@[simp] theorem State.upSaf_ctl (s : State) (f : SafSt → SafSt) : (s.upSaf f).ctl = s.ctl := rfl
@[simp] theorem State.upSaf_fab (s : State) (f : SafSt → SafSt) : (s.upSaf f).fab = s.fab := rfl
@[simp] theorem State.upSaf_aes (s : State) (f : SafSt → SafSt) : (s.upSaf f).aes = s.aes := rfl
@[simp] theorem State.upSaf_saf (s : State) (f : SafSt → SafSt) : (s.upSaf f).saf = f s.saf := rfl
@[simp] theorem State.upSaf_pwr (s : State) (f : SafSt → SafSt) : (s.upSaf f).pwr = s.pwr := rfl
@[simp] theorem State.upSaf_sec (s : State) (f : SafSt → SafSt) : (s.upSaf f).sec = s.sec := rfl
@[simp] theorem State.upSaf_free (s : State) (f : SafSt → SafSt) : (s.upSaf f).free = s.free := rfl
@[simp] theorem State.upSaf_out (s : State) (f : SafSt → SafSt) : (s.upSaf f).out = s.out := rfl
@[simp] theorem State.upSaf_pending (s : State) (f : SafSt → SafSt) : (s.upSaf f).pending = s.pending := rfl

/-! ### State.upSlice -/

@[simp] theorem State.upSlice_now (s : State) (n : SliceId) (f : Slice → Slice) : (s.upSlice n f).now = s.now := rfl
@[simp] theorem State.upSlice_mem (s : State) (n : SliceId) (f : Slice → Slice) : (s.upSlice n f).mem = s.mem := rfl
@[simp] theorem State.upSlice_host (s : State) (n : SliceId) (f : Slice → Slice) : (s.upSlice n f).host = s.host := rfl
@[simp] theorem State.upSlice_slices (s : State) (n : SliceId) (f : Slice → Slice) : (s.upSlice n f).slices = tup {} s.slices n.toNat f := rfl
@[simp] theorem State.upSlice_log (s : State) (n : SliceId) (f : Slice → Slice) : (s.upSlice n f).log = s.log := rfl
@[simp] theorem State.upSlice_logNext (s : State) (n : SliceId) (f : Slice → Slice) : (s.upSlice n f).logNext = s.logNext := rfl
@[simp] theorem State.upSlice_groups (s : State) (n : SliceId) (f : Slice → Slice) : (s.upSlice n f).groups = s.groups := rfl
@[simp] theorem State.upSlice_commits (s : State) (n : SliceId) (f : Slice → Slice) : (s.upSlice n f).commits = s.commits := rfl
@[simp] theorem State.upSlice_assigned (s : State) (n : SliceId) (f : Slice → Slice) : (s.upSlice n f).assigned = s.assigned := rfl
@[simp] theorem State.upSlice_cue (s : State) (n : SliceId) (f : Slice → Slice) : (s.upSlice n f).cue = s.cue := rfl
@[simp] theorem State.upSlice_sheets (s : State) (n : SliceId) (f : Slice → Slice) : (s.upSlice n f).sheets = s.sheets := rfl
@[simp] theorem State.upSlice_replaced (s : State) (n : SliceId) (f : Slice → Slice) : (s.upSlice n f).replaced = s.replaced := rfl
@[simp] theorem State.upSlice_missed (s : State) (n : SliceId) (f : Slice → Slice) : (s.upSlice n f).missed = s.missed := rfl
@[simp] theorem State.upSlice_jobs (s : State) (n : SliceId) (f : Slice → Slice) : (s.upSlice n f).jobs = s.jobs := rfl
@[simp] theorem State.upSlice_jobNext (s : State) (n : SliceId) (f : Slice → Slice) : (s.upSlice n f).jobNext = s.jobNext := rfl
@[simp] theorem State.upSlice_units (s : State) (n : SliceId) (f : Slice → Slice) : (s.upSlice n f).units = s.units := rfl
@[simp] theorem State.upSlice_saved (s : State) (n : SliceId) (f : Slice → Slice) : (s.upSlice n f).saved = s.saved := rfl
@[simp] theorem State.upSlice_ctrs (s : State) (n : SliceId) (f : Slice → Slice) : (s.upSlice n f).ctrs = s.ctrs := rfl
@[simp] theorem State.upSlice_cores (s : State) (n : SliceId) (f : Slice → Slice) : (s.upSlice n f).cores = s.cores := rfl
@[simp] theorem State.upSlice_rasters (s : State) (n : SliceId) (f : Slice → Slice) : (s.upSlice n f).rasters = s.rasters := rfl
@[simp] theorem State.upSlice_heads (s : State) (n : SliceId) (f : Slice → Slice) : (s.upSlice n f).heads = s.heads := rfl
@[simp] theorem State.upSlice_intake (s : State) (n : SliceId) (f : Slice → Slice) : (s.upSlice n f).intake = s.intake := rfl
@[simp] theorem State.upSlice_net (s : State) (n : SliceId) (f : Slice → Slice) : (s.upSlice n f).net = s.net := rfl
@[simp] theorem State.upSlice_ctl (s : State) (n : SliceId) (f : Slice → Slice) : (s.upSlice n f).ctl = s.ctl := rfl
@[simp] theorem State.upSlice_fab (s : State) (n : SliceId) (f : Slice → Slice) : (s.upSlice n f).fab = s.fab := rfl
@[simp] theorem State.upSlice_aes (s : State) (n : SliceId) (f : Slice → Slice) : (s.upSlice n f).aes = s.aes := rfl
@[simp] theorem State.upSlice_saf (s : State) (n : SliceId) (f : Slice → Slice) : (s.upSlice n f).saf = s.saf := rfl
@[simp] theorem State.upSlice_pwr (s : State) (n : SliceId) (f : Slice → Slice) : (s.upSlice n f).pwr = s.pwr := rfl
@[simp] theorem State.upSlice_sec (s : State) (n : SliceId) (f : Slice → Slice) : (s.upSlice n f).sec = s.sec := rfl
@[simp] theorem State.upSlice_free (s : State) (n : SliceId) (f : Slice → Slice) : (s.upSlice n f).free = s.free := rfl
@[simp] theorem State.upSlice_out (s : State) (n : SliceId) (f : Slice → Slice) : (s.upSlice n f).out = s.out := rfl
@[simp] theorem State.upSlice_pending (s : State) (n : SliceId) (f : Slice → Slice) : (s.upSlice n f).pending = s.pending := rfl

/-! ### State.upPage -/

@[simp] theorem State.upPage_now (s : State) (n : SliceId) (f : Page → Page) : (s.upPage n f).now = s.now := rfl
@[simp] theorem State.upPage_mem (s : State) (n : SliceId) (f : Page → Page) : (s.upPage n f).mem = s.mem := rfl
@[simp] theorem State.upPage_host (s : State) (n : SliceId) (f : Page → Page) : (s.upPage n f).host = s.host := rfl
@[simp] theorem State.upPage_log (s : State) (n : SliceId) (f : Page → Page) : (s.upPage n f).log = s.log := rfl
@[simp] theorem State.upPage_logNext (s : State) (n : SliceId) (f : Page → Page) : (s.upPage n f).logNext = s.logNext := rfl
@[simp] theorem State.upPage_groups (s : State) (n : SliceId) (f : Page → Page) : (s.upPage n f).groups = s.groups := rfl
@[simp] theorem State.upPage_commits (s : State) (n : SliceId) (f : Page → Page) : (s.upPage n f).commits = s.commits := rfl
@[simp] theorem State.upPage_assigned (s : State) (n : SliceId) (f : Page → Page) : (s.upPage n f).assigned = s.assigned := rfl
@[simp] theorem State.upPage_cue (s : State) (n : SliceId) (f : Page → Page) : (s.upPage n f).cue = s.cue := rfl
@[simp] theorem State.upPage_sheets (s : State) (n : SliceId) (f : Page → Page) : (s.upPage n f).sheets = s.sheets := rfl
@[simp] theorem State.upPage_replaced (s : State) (n : SliceId) (f : Page → Page) : (s.upPage n f).replaced = s.replaced := rfl
@[simp] theorem State.upPage_missed (s : State) (n : SliceId) (f : Page → Page) : (s.upPage n f).missed = s.missed := rfl
@[simp] theorem State.upPage_jobs (s : State) (n : SliceId) (f : Page → Page) : (s.upPage n f).jobs = s.jobs := rfl
@[simp] theorem State.upPage_jobNext (s : State) (n : SliceId) (f : Page → Page) : (s.upPage n f).jobNext = s.jobNext := rfl
@[simp] theorem State.upPage_units (s : State) (n : SliceId) (f : Page → Page) : (s.upPage n f).units = s.units := rfl
@[simp] theorem State.upPage_saved (s : State) (n : SliceId) (f : Page → Page) : (s.upPage n f).saved = s.saved := rfl
@[simp] theorem State.upPage_ctrs (s : State) (n : SliceId) (f : Page → Page) : (s.upPage n f).ctrs = s.ctrs := rfl
@[simp] theorem State.upPage_cores (s : State) (n : SliceId) (f : Page → Page) : (s.upPage n f).cores = s.cores := rfl
@[simp] theorem State.upPage_rasters (s : State) (n : SliceId) (f : Page → Page) : (s.upPage n f).rasters = s.rasters := rfl
@[simp] theorem State.upPage_heads (s : State) (n : SliceId) (f : Page → Page) : (s.upPage n f).heads = s.heads := rfl
@[simp] theorem State.upPage_intake (s : State) (n : SliceId) (f : Page → Page) : (s.upPage n f).intake = s.intake := rfl
@[simp] theorem State.upPage_net (s : State) (n : SliceId) (f : Page → Page) : (s.upPage n f).net = s.net := rfl
@[simp] theorem State.upPage_ctl (s : State) (n : SliceId) (f : Page → Page) : (s.upPage n f).ctl = s.ctl := rfl
@[simp] theorem State.upPage_fab (s : State) (n : SliceId) (f : Page → Page) : (s.upPage n f).fab = s.fab := rfl
@[simp] theorem State.upPage_aes (s : State) (n : SliceId) (f : Page → Page) : (s.upPage n f).aes = s.aes := rfl
@[simp] theorem State.upPage_saf (s : State) (n : SliceId) (f : Page → Page) : (s.upPage n f).saf = s.saf := rfl
@[simp] theorem State.upPage_pwr (s : State) (n : SliceId) (f : Page → Page) : (s.upPage n f).pwr = s.pwr := rfl
@[simp] theorem State.upPage_sec (s : State) (n : SliceId) (f : Page → Page) : (s.upPage n f).sec = s.sec := rfl
@[simp] theorem State.upPage_free (s : State) (n : SliceId) (f : Page → Page) : (s.upPage n f).free = s.free := rfl
@[simp] theorem State.upPage_out (s : State) (n : SliceId) (f : Page → Page) : (s.upPage n f).out = s.out := rfl
@[simp] theorem State.upPage_pending (s : State) (n : SliceId) (f : Page → Page) : (s.upPage n f).pending = s.pending := rfl

/-! ### State.upUnit -/

@[simp] theorem State.upUnit_now (s : State) (u : UnitId) (f : UnitSt → UnitSt) : (s.upUnit u f).now = s.now := rfl
@[simp] theorem State.upUnit_mem (s : State) (u : UnitId) (f : UnitSt → UnitSt) : (s.upUnit u f).mem = s.mem := rfl
@[simp] theorem State.upUnit_host (s : State) (u : UnitId) (f : UnitSt → UnitSt) : (s.upUnit u f).host = s.host := rfl
@[simp] theorem State.upUnit_slices (s : State) (u : UnitId) (f : UnitSt → UnitSt) : (s.upUnit u f).slices = s.slices := rfl
@[simp] theorem State.upUnit_log (s : State) (u : UnitId) (f : UnitSt → UnitSt) : (s.upUnit u f).log = s.log := rfl
@[simp] theorem State.upUnit_logNext (s : State) (u : UnitId) (f : UnitSt → UnitSt) : (s.upUnit u f).logNext = s.logNext := rfl
@[simp] theorem State.upUnit_groups (s : State) (u : UnitId) (f : UnitSt → UnitSt) : (s.upUnit u f).groups = s.groups := rfl
@[simp] theorem State.upUnit_commits (s : State) (u : UnitId) (f : UnitSt → UnitSt) : (s.upUnit u f).commits = s.commits := rfl
@[simp] theorem State.upUnit_assigned (s : State) (u : UnitId) (f : UnitSt → UnitSt) : (s.upUnit u f).assigned = s.assigned := rfl
@[simp] theorem State.upUnit_cue (s : State) (u : UnitId) (f : UnitSt → UnitSt) : (s.upUnit u f).cue = s.cue := rfl
@[simp] theorem State.upUnit_sheets (s : State) (u : UnitId) (f : UnitSt → UnitSt) : (s.upUnit u f).sheets = s.sheets := rfl
@[simp] theorem State.upUnit_replaced (s : State) (u : UnitId) (f : UnitSt → UnitSt) : (s.upUnit u f).replaced = s.replaced := rfl
@[simp] theorem State.upUnit_missed (s : State) (u : UnitId) (f : UnitSt → UnitSt) : (s.upUnit u f).missed = s.missed := rfl
@[simp] theorem State.upUnit_jobs (s : State) (u : UnitId) (f : UnitSt → UnitSt) : (s.upUnit u f).jobs = s.jobs := rfl
@[simp] theorem State.upUnit_jobNext (s : State) (u : UnitId) (f : UnitSt → UnitSt) : (s.upUnit u f).jobNext = s.jobNext := rfl
@[simp] theorem State.upUnit_units (s : State) (u : UnitId) (f : UnitSt → UnitSt) : (s.upUnit u f).units = tup {} s.units (UnitId.code u) f := rfl
@[simp] theorem State.upUnit_saved (s : State) (u : UnitId) (f : UnitSt → UnitSt) : (s.upUnit u f).saved = s.saved := rfl
@[simp] theorem State.upUnit_ctrs (s : State) (u : UnitId) (f : UnitSt → UnitSt) : (s.upUnit u f).ctrs = s.ctrs := rfl
@[simp] theorem State.upUnit_cores (s : State) (u : UnitId) (f : UnitSt → UnitSt) : (s.upUnit u f).cores = s.cores := rfl
@[simp] theorem State.upUnit_rasters (s : State) (u : UnitId) (f : UnitSt → UnitSt) : (s.upUnit u f).rasters = s.rasters := rfl
@[simp] theorem State.upUnit_heads (s : State) (u : UnitId) (f : UnitSt → UnitSt) : (s.upUnit u f).heads = s.heads := rfl
@[simp] theorem State.upUnit_intake (s : State) (u : UnitId) (f : UnitSt → UnitSt) : (s.upUnit u f).intake = s.intake := rfl
@[simp] theorem State.upUnit_net (s : State) (u : UnitId) (f : UnitSt → UnitSt) : (s.upUnit u f).net = s.net := rfl
@[simp] theorem State.upUnit_ctl (s : State) (u : UnitId) (f : UnitSt → UnitSt) : (s.upUnit u f).ctl = s.ctl := rfl
@[simp] theorem State.upUnit_fab (s : State) (u : UnitId) (f : UnitSt → UnitSt) : (s.upUnit u f).fab = s.fab := rfl
@[simp] theorem State.upUnit_aes (s : State) (u : UnitId) (f : UnitSt → UnitSt) : (s.upUnit u f).aes = s.aes := rfl
@[simp] theorem State.upUnit_saf (s : State) (u : UnitId) (f : UnitSt → UnitSt) : (s.upUnit u f).saf = s.saf := rfl
@[simp] theorem State.upUnit_pwr (s : State) (u : UnitId) (f : UnitSt → UnitSt) : (s.upUnit u f).pwr = s.pwr := rfl
@[simp] theorem State.upUnit_sec (s : State) (u : UnitId) (f : UnitSt → UnitSt) : (s.upUnit u f).sec = s.sec := rfl
@[simp] theorem State.upUnit_free (s : State) (u : UnitId) (f : UnitSt → UnitSt) : (s.upUnit u f).free = s.free := rfl
@[simp] theorem State.upUnit_out (s : State) (u : UnitId) (f : UnitSt → UnitSt) : (s.upUnit u f).out = s.out := rfl
@[simp] theorem State.upUnit_pending (s : State) (u : UnitId) (f : UnitSt → UnitSt) : (s.upUnit u f).pending = s.pending := rfl

/-! ### State.upSeq -/

@[simp] theorem State.upSeq_now (s : State) (u : UnitId) (f : Seq → Seq) : (s.upSeq u f).now = s.now := rfl
@[simp] theorem State.upSeq_mem (s : State) (u : UnitId) (f : Seq → Seq) : (s.upSeq u f).mem = s.mem := rfl
@[simp] theorem State.upSeq_host (s : State) (u : UnitId) (f : Seq → Seq) : (s.upSeq u f).host = s.host := rfl
@[simp] theorem State.upSeq_slices (s : State) (u : UnitId) (f : Seq → Seq) : (s.upSeq u f).slices = s.slices := rfl
@[simp] theorem State.upSeq_log (s : State) (u : UnitId) (f : Seq → Seq) : (s.upSeq u f).log = s.log := rfl
@[simp] theorem State.upSeq_logNext (s : State) (u : UnitId) (f : Seq → Seq) : (s.upSeq u f).logNext = s.logNext := rfl
@[simp] theorem State.upSeq_groups (s : State) (u : UnitId) (f : Seq → Seq) : (s.upSeq u f).groups = s.groups := rfl
@[simp] theorem State.upSeq_commits (s : State) (u : UnitId) (f : Seq → Seq) : (s.upSeq u f).commits = s.commits := rfl
@[simp] theorem State.upSeq_assigned (s : State) (u : UnitId) (f : Seq → Seq) : (s.upSeq u f).assigned = s.assigned := rfl
@[simp] theorem State.upSeq_cue (s : State) (u : UnitId) (f : Seq → Seq) : (s.upSeq u f).cue = s.cue := rfl
@[simp] theorem State.upSeq_sheets (s : State) (u : UnitId) (f : Seq → Seq) : (s.upSeq u f).sheets = s.sheets := rfl
@[simp] theorem State.upSeq_replaced (s : State) (u : UnitId) (f : Seq → Seq) : (s.upSeq u f).replaced = s.replaced := rfl
@[simp] theorem State.upSeq_missed (s : State) (u : UnitId) (f : Seq → Seq) : (s.upSeq u f).missed = s.missed := rfl
@[simp] theorem State.upSeq_jobs (s : State) (u : UnitId) (f : Seq → Seq) : (s.upSeq u f).jobs = s.jobs := rfl
@[simp] theorem State.upSeq_jobNext (s : State) (u : UnitId) (f : Seq → Seq) : (s.upSeq u f).jobNext = s.jobNext := rfl
@[simp] theorem State.upSeq_saved (s : State) (u : UnitId) (f : Seq → Seq) : (s.upSeq u f).saved = s.saved := rfl
@[simp] theorem State.upSeq_ctrs (s : State) (u : UnitId) (f : Seq → Seq) : (s.upSeq u f).ctrs = s.ctrs := rfl
@[simp] theorem State.upSeq_cores (s : State) (u : UnitId) (f : Seq → Seq) : (s.upSeq u f).cores = s.cores := rfl
@[simp] theorem State.upSeq_rasters (s : State) (u : UnitId) (f : Seq → Seq) : (s.upSeq u f).rasters = s.rasters := rfl
@[simp] theorem State.upSeq_heads (s : State) (u : UnitId) (f : Seq → Seq) : (s.upSeq u f).heads = s.heads := rfl
@[simp] theorem State.upSeq_intake (s : State) (u : UnitId) (f : Seq → Seq) : (s.upSeq u f).intake = s.intake := rfl
@[simp] theorem State.upSeq_net (s : State) (u : UnitId) (f : Seq → Seq) : (s.upSeq u f).net = s.net := rfl
@[simp] theorem State.upSeq_ctl (s : State) (u : UnitId) (f : Seq → Seq) : (s.upSeq u f).ctl = s.ctl := rfl
@[simp] theorem State.upSeq_fab (s : State) (u : UnitId) (f : Seq → Seq) : (s.upSeq u f).fab = s.fab := rfl
@[simp] theorem State.upSeq_aes (s : State) (u : UnitId) (f : Seq → Seq) : (s.upSeq u f).aes = s.aes := rfl
@[simp] theorem State.upSeq_saf (s : State) (u : UnitId) (f : Seq → Seq) : (s.upSeq u f).saf = s.saf := rfl
@[simp] theorem State.upSeq_pwr (s : State) (u : UnitId) (f : Seq → Seq) : (s.upSeq u f).pwr = s.pwr := rfl
@[simp] theorem State.upSeq_sec (s : State) (u : UnitId) (f : Seq → Seq) : (s.upSeq u f).sec = s.sec := rfl
@[simp] theorem State.upSeq_free (s : State) (u : UnitId) (f : Seq → Seq) : (s.upSeq u f).free = s.free := rfl
@[simp] theorem State.upSeq_out (s : State) (u : UnitId) (f : Seq → Seq) : (s.upSeq u f).out = s.out := rfl
@[simp] theorem State.upSeq_pending (s : State) (u : UnitId) (f : Seq → Seq) : (s.upSeq u f).pending = s.pending := rfl

/-! ### State.upCtr -/

@[simp] theorem State.upCtr_now (s : State) (c : CtrId) (f : Ctr → Ctr) : (s.upCtr c f).now = s.now := rfl
@[simp] theorem State.upCtr_mem (s : State) (c : CtrId) (f : Ctr → Ctr) : (s.upCtr c f).mem = s.mem := rfl
@[simp] theorem State.upCtr_host (s : State) (c : CtrId) (f : Ctr → Ctr) : (s.upCtr c f).host = s.host := rfl
@[simp] theorem State.upCtr_slices (s : State) (c : CtrId) (f : Ctr → Ctr) : (s.upCtr c f).slices = s.slices := rfl
@[simp] theorem State.upCtr_log (s : State) (c : CtrId) (f : Ctr → Ctr) : (s.upCtr c f).log = s.log := rfl
@[simp] theorem State.upCtr_logNext (s : State) (c : CtrId) (f : Ctr → Ctr) : (s.upCtr c f).logNext = s.logNext := rfl
@[simp] theorem State.upCtr_groups (s : State) (c : CtrId) (f : Ctr → Ctr) : (s.upCtr c f).groups = s.groups := rfl
@[simp] theorem State.upCtr_commits (s : State) (c : CtrId) (f : Ctr → Ctr) : (s.upCtr c f).commits = s.commits := rfl
@[simp] theorem State.upCtr_assigned (s : State) (c : CtrId) (f : Ctr → Ctr) : (s.upCtr c f).assigned = s.assigned := rfl
@[simp] theorem State.upCtr_cue (s : State) (c : CtrId) (f : Ctr → Ctr) : (s.upCtr c f).cue = s.cue := rfl
@[simp] theorem State.upCtr_sheets (s : State) (c : CtrId) (f : Ctr → Ctr) : (s.upCtr c f).sheets = s.sheets := rfl
@[simp] theorem State.upCtr_replaced (s : State) (c : CtrId) (f : Ctr → Ctr) : (s.upCtr c f).replaced = s.replaced := rfl
@[simp] theorem State.upCtr_missed (s : State) (c : CtrId) (f : Ctr → Ctr) : (s.upCtr c f).missed = s.missed := rfl
@[simp] theorem State.upCtr_jobs (s : State) (c : CtrId) (f : Ctr → Ctr) : (s.upCtr c f).jobs = s.jobs := rfl
@[simp] theorem State.upCtr_jobNext (s : State) (c : CtrId) (f : Ctr → Ctr) : (s.upCtr c f).jobNext = s.jobNext := rfl
@[simp] theorem State.upCtr_units (s : State) (c : CtrId) (f : Ctr → Ctr) : (s.upCtr c f).units = s.units := rfl
@[simp] theorem State.upCtr_saved (s : State) (c : CtrId) (f : Ctr → Ctr) : (s.upCtr c f).saved = s.saved := rfl
@[simp] theorem State.upCtr_ctrs (s : State) (c : CtrId) (f : Ctr → Ctr) : (s.upCtr c f).ctrs = tup {} s.ctrs c.toNat f := rfl
@[simp] theorem State.upCtr_cores (s : State) (c : CtrId) (f : Ctr → Ctr) : (s.upCtr c f).cores = s.cores := rfl
@[simp] theorem State.upCtr_rasters (s : State) (c : CtrId) (f : Ctr → Ctr) : (s.upCtr c f).rasters = s.rasters := rfl
@[simp] theorem State.upCtr_heads (s : State) (c : CtrId) (f : Ctr → Ctr) : (s.upCtr c f).heads = s.heads := rfl
@[simp] theorem State.upCtr_intake (s : State) (c : CtrId) (f : Ctr → Ctr) : (s.upCtr c f).intake = s.intake := rfl
@[simp] theorem State.upCtr_net (s : State) (c : CtrId) (f : Ctr → Ctr) : (s.upCtr c f).net = s.net := rfl
@[simp] theorem State.upCtr_ctl (s : State) (c : CtrId) (f : Ctr → Ctr) : (s.upCtr c f).ctl = s.ctl := rfl
@[simp] theorem State.upCtr_fab (s : State) (c : CtrId) (f : Ctr → Ctr) : (s.upCtr c f).fab = s.fab := rfl
@[simp] theorem State.upCtr_aes (s : State) (c : CtrId) (f : Ctr → Ctr) : (s.upCtr c f).aes = s.aes := rfl
@[simp] theorem State.upCtr_saf (s : State) (c : CtrId) (f : Ctr → Ctr) : (s.upCtr c f).saf = s.saf := rfl
@[simp] theorem State.upCtr_pwr (s : State) (c : CtrId) (f : Ctr → Ctr) : (s.upCtr c f).pwr = s.pwr := rfl
@[simp] theorem State.upCtr_sec (s : State) (c : CtrId) (f : Ctr → Ctr) : (s.upCtr c f).sec = s.sec := rfl
@[simp] theorem State.upCtr_free (s : State) (c : CtrId) (f : Ctr → Ctr) : (s.upCtr c f).free = s.free := rfl
@[simp] theorem State.upCtr_out (s : State) (c : CtrId) (f : Ctr → Ctr) : (s.upCtr c f).out = s.out := rfl
@[simp] theorem State.upCtr_pending (s : State) (c : CtrId) (f : Ctr → Ctr) : (s.upCtr c f).pending = s.pending := rfl

/-! ### State.upJob -/

@[simp] theorem State.upJob_now (s : State) (j : Nat) (f : Job → Job) : (s.upJob j f).now = s.now := rfl
@[simp] theorem State.upJob_mem (s : State) (j : Nat) (f : Job → Job) : (s.upJob j f).mem = s.mem := rfl
@[simp] theorem State.upJob_host (s : State) (j : Nat) (f : Job → Job) : (s.upJob j f).host = s.host := rfl
@[simp] theorem State.upJob_slices (s : State) (j : Nat) (f : Job → Job) : (s.upJob j f).slices = s.slices := rfl
@[simp] theorem State.upJob_log (s : State) (j : Nat) (f : Job → Job) : (s.upJob j f).log = s.log := rfl
@[simp] theorem State.upJob_logNext (s : State) (j : Nat) (f : Job → Job) : (s.upJob j f).logNext = s.logNext := rfl
@[simp] theorem State.upJob_groups (s : State) (j : Nat) (f : Job → Job) : (s.upJob j f).groups = s.groups := rfl
@[simp] theorem State.upJob_commits (s : State) (j : Nat) (f : Job → Job) : (s.upJob j f).commits = s.commits := rfl
@[simp] theorem State.upJob_assigned (s : State) (j : Nat) (f : Job → Job) : (s.upJob j f).assigned = s.assigned := rfl
@[simp] theorem State.upJob_cue (s : State) (j : Nat) (f : Job → Job) : (s.upJob j f).cue = s.cue := rfl
@[simp] theorem State.upJob_sheets (s : State) (j : Nat) (f : Job → Job) : (s.upJob j f).sheets = s.sheets := rfl
@[simp] theorem State.upJob_replaced (s : State) (j : Nat) (f : Job → Job) : (s.upJob j f).replaced = s.replaced := rfl
@[simp] theorem State.upJob_missed (s : State) (j : Nat) (f : Job → Job) : (s.upJob j f).missed = s.missed := rfl
@[simp] theorem State.upJob_jobs (s : State) (j : Nat) (f : Job → Job) : (s.upJob j f).jobs = s.jobs.map (fun x => if x.id = j then f x else x) := rfl
@[simp] theorem State.upJob_jobNext (s : State) (j : Nat) (f : Job → Job) : (s.upJob j f).jobNext = s.jobNext := rfl
@[simp] theorem State.upJob_units (s : State) (j : Nat) (f : Job → Job) : (s.upJob j f).units = s.units := rfl
@[simp] theorem State.upJob_saved (s : State) (j : Nat) (f : Job → Job) : (s.upJob j f).saved = s.saved := rfl
@[simp] theorem State.upJob_ctrs (s : State) (j : Nat) (f : Job → Job) : (s.upJob j f).ctrs = s.ctrs := rfl
@[simp] theorem State.upJob_cores (s : State) (j : Nat) (f : Job → Job) : (s.upJob j f).cores = s.cores := rfl
@[simp] theorem State.upJob_rasters (s : State) (j : Nat) (f : Job → Job) : (s.upJob j f).rasters = s.rasters := rfl
@[simp] theorem State.upJob_heads (s : State) (j : Nat) (f : Job → Job) : (s.upJob j f).heads = s.heads := rfl
@[simp] theorem State.upJob_intake (s : State) (j : Nat) (f : Job → Job) : (s.upJob j f).intake = s.intake := rfl
@[simp] theorem State.upJob_net (s : State) (j : Nat) (f : Job → Job) : (s.upJob j f).net = s.net := rfl
@[simp] theorem State.upJob_ctl (s : State) (j : Nat) (f : Job → Job) : (s.upJob j f).ctl = s.ctl := rfl
@[simp] theorem State.upJob_fab (s : State) (j : Nat) (f : Job → Job) : (s.upJob j f).fab = s.fab := rfl
@[simp] theorem State.upJob_aes (s : State) (j : Nat) (f : Job → Job) : (s.upJob j f).aes = s.aes := rfl
@[simp] theorem State.upJob_saf (s : State) (j : Nat) (f : Job → Job) : (s.upJob j f).saf = s.saf := rfl
@[simp] theorem State.upJob_pwr (s : State) (j : Nat) (f : Job → Job) : (s.upJob j f).pwr = s.pwr := rfl
@[simp] theorem State.upJob_sec (s : State) (j : Nat) (f : Job → Job) : (s.upJob j f).sec = s.sec := rfl
@[simp] theorem State.upJob_free (s : State) (j : Nat) (f : Job → Job) : (s.upJob j f).free = s.free := rfl
@[simp] theorem State.upJob_out (s : State) (j : Nat) (f : Job → Job) : (s.upJob j f).out = s.out := rfl
@[simp] theorem State.upJob_pending (s : State) (j : Nat) (f : Job → Job) : (s.upJob j f).pending = s.pending := rfl

/-! ### State.upGroup -/

@[simp] theorem State.upGroup_now (s : State) (g : Nat) (f : Staged → Staged) : (s.upGroup g f).now = s.now := rfl
@[simp] theorem State.upGroup_mem (s : State) (g : Nat) (f : Staged → Staged) : (s.upGroup g f).mem = s.mem := rfl
@[simp] theorem State.upGroup_host (s : State) (g : Nat) (f : Staged → Staged) : (s.upGroup g f).host = s.host := rfl
@[simp] theorem State.upGroup_slices (s : State) (g : Nat) (f : Staged → Staged) : (s.upGroup g f).slices = s.slices := rfl
@[simp] theorem State.upGroup_log (s : State) (g : Nat) (f : Staged → Staged) : (s.upGroup g f).log = s.log := rfl
@[simp] theorem State.upGroup_logNext (s : State) (g : Nat) (f : Staged → Staged) : (s.upGroup g f).logNext = s.logNext := rfl
@[simp] theorem State.upGroup_commits (s : State) (g : Nat) (f : Staged → Staged) : (s.upGroup g f).commits = s.commits := rfl
@[simp] theorem State.upGroup_assigned (s : State) (g : Nat) (f : Staged → Staged) : (s.upGroup g f).assigned = s.assigned := rfl
@[simp] theorem State.upGroup_cue (s : State) (g : Nat) (f : Staged → Staged) : (s.upGroup g f).cue = s.cue := rfl
@[simp] theorem State.upGroup_sheets (s : State) (g : Nat) (f : Staged → Staged) : (s.upGroup g f).sheets = s.sheets := rfl
@[simp] theorem State.upGroup_replaced (s : State) (g : Nat) (f : Staged → Staged) : (s.upGroup g f).replaced = s.replaced := rfl
@[simp] theorem State.upGroup_missed (s : State) (g : Nat) (f : Staged → Staged) : (s.upGroup g f).missed = s.missed := rfl
@[simp] theorem State.upGroup_jobs (s : State) (g : Nat) (f : Staged → Staged) : (s.upGroup g f).jobs = s.jobs := rfl
@[simp] theorem State.upGroup_jobNext (s : State) (g : Nat) (f : Staged → Staged) : (s.upGroup g f).jobNext = s.jobNext := rfl
@[simp] theorem State.upGroup_units (s : State) (g : Nat) (f : Staged → Staged) : (s.upGroup g f).units = s.units := rfl
@[simp] theorem State.upGroup_saved (s : State) (g : Nat) (f : Staged → Staged) : (s.upGroup g f).saved = s.saved := rfl
@[simp] theorem State.upGroup_ctrs (s : State) (g : Nat) (f : Staged → Staged) : (s.upGroup g f).ctrs = s.ctrs := rfl
@[simp] theorem State.upGroup_cores (s : State) (g : Nat) (f : Staged → Staged) : (s.upGroup g f).cores = s.cores := rfl
@[simp] theorem State.upGroup_rasters (s : State) (g : Nat) (f : Staged → Staged) : (s.upGroup g f).rasters = s.rasters := rfl
@[simp] theorem State.upGroup_heads (s : State) (g : Nat) (f : Staged → Staged) : (s.upGroup g f).heads = s.heads := rfl
@[simp] theorem State.upGroup_intake (s : State) (g : Nat) (f : Staged → Staged) : (s.upGroup g f).intake = s.intake := rfl
@[simp] theorem State.upGroup_net (s : State) (g : Nat) (f : Staged → Staged) : (s.upGroup g f).net = s.net := rfl
@[simp] theorem State.upGroup_ctl (s : State) (g : Nat) (f : Staged → Staged) : (s.upGroup g f).ctl = s.ctl := rfl
@[simp] theorem State.upGroup_fab (s : State) (g : Nat) (f : Staged → Staged) : (s.upGroup g f).fab = s.fab := rfl
@[simp] theorem State.upGroup_aes (s : State) (g : Nat) (f : Staged → Staged) : (s.upGroup g f).aes = s.aes := rfl
@[simp] theorem State.upGroup_saf (s : State) (g : Nat) (f : Staged → Staged) : (s.upGroup g f).saf = s.saf := rfl
@[simp] theorem State.upGroup_pwr (s : State) (g : Nat) (f : Staged → Staged) : (s.upGroup g f).pwr = s.pwr := rfl
@[simp] theorem State.upGroup_sec (s : State) (g : Nat) (f : Staged → Staged) : (s.upGroup g f).sec = s.sec := rfl
@[simp] theorem State.upGroup_free (s : State) (g : Nat) (f : Staged → Staged) : (s.upGroup g f).free = s.free := rfl
@[simp] theorem State.upGroup_out (s : State) (g : Nat) (f : Staged → Staged) : (s.upGroup g f).out = s.out := rfl
@[simp] theorem State.upGroup_pending (s : State) (g : Nat) (f : Staged → Staged) : (s.upGroup g f).pending = s.pending := rfl

/-! ### State.emit -/

@[simp] theorem State.emit_now (s : State) (o : Out) : (s.emit o).now = s.now := rfl
@[simp] theorem State.emit_mem (s : State) (o : Out) : (s.emit o).mem = s.mem := rfl
@[simp] theorem State.emit_host (s : State) (o : Out) : (s.emit o).host = s.host := rfl
@[simp] theorem State.emit_slices (s : State) (o : Out) : (s.emit o).slices = s.slices := rfl
@[simp] theorem State.emit_log (s : State) (o : Out) : (s.emit o).log = s.log := rfl
@[simp] theorem State.emit_logNext (s : State) (o : Out) : (s.emit o).logNext = s.logNext := rfl
@[simp] theorem State.emit_groups (s : State) (o : Out) : (s.emit o).groups = s.groups := rfl
@[simp] theorem State.emit_commits (s : State) (o : Out) : (s.emit o).commits = s.commits := rfl
@[simp] theorem State.emit_assigned (s : State) (o : Out) : (s.emit o).assigned = s.assigned := rfl
@[simp] theorem State.emit_cue (s : State) (o : Out) : (s.emit o).cue = s.cue := rfl
@[simp] theorem State.emit_sheets (s : State) (o : Out) : (s.emit o).sheets = s.sheets := rfl
@[simp] theorem State.emit_replaced (s : State) (o : Out) : (s.emit o).replaced = s.replaced := rfl
@[simp] theorem State.emit_missed (s : State) (o : Out) : (s.emit o).missed = s.missed := rfl
@[simp] theorem State.emit_jobs (s : State) (o : Out) : (s.emit o).jobs = s.jobs := rfl
@[simp] theorem State.emit_jobNext (s : State) (o : Out) : (s.emit o).jobNext = s.jobNext := rfl
@[simp] theorem State.emit_units (s : State) (o : Out) : (s.emit o).units = s.units := rfl
@[simp] theorem State.emit_saved (s : State) (o : Out) : (s.emit o).saved = s.saved := rfl
@[simp] theorem State.emit_ctrs (s : State) (o : Out) : (s.emit o).ctrs = s.ctrs := rfl
@[simp] theorem State.emit_cores (s : State) (o : Out) : (s.emit o).cores = s.cores := rfl
@[simp] theorem State.emit_rasters (s : State) (o : Out) : (s.emit o).rasters = s.rasters := rfl
@[simp] theorem State.emit_heads (s : State) (o : Out) : (s.emit o).heads = s.heads := rfl
@[simp] theorem State.emit_intake (s : State) (o : Out) : (s.emit o).intake = s.intake := rfl
@[simp] theorem State.emit_net (s : State) (o : Out) : (s.emit o).net = s.net := rfl
@[simp] theorem State.emit_ctl (s : State) (o : Out) : (s.emit o).ctl = s.ctl := rfl
@[simp] theorem State.emit_fab (s : State) (o : Out) : (s.emit o).fab = s.fab := rfl
@[simp] theorem State.emit_aes (s : State) (o : Out) : (s.emit o).aes = s.aes := rfl
@[simp] theorem State.emit_saf (s : State) (o : Out) : (s.emit o).saf = s.saf := rfl
@[simp] theorem State.emit_pwr (s : State) (o : Out) : (s.emit o).pwr = s.pwr := rfl
@[simp] theorem State.emit_sec (s : State) (o : Out) : (s.emit o).sec = s.sec := rfl
@[simp] theorem State.emit_free (s : State) (o : Out) : (s.emit o).free = s.free := rfl
@[simp] theorem State.emit_out (s : State) (o : Out) : (s.emit o).out = o :: s.out := rfl
@[simp] theorem State.emit_pending (s : State) (o : Out) : (s.emit o).pending = s.pending := rfl

/-! ### State.at_ -/

@[simp] theorem State.at__now (s : State) (t : Nat) : (s.at_ t).now = max s.now t := rfl
@[simp] theorem State.at__mem (s : State) (t : Nat) : (s.at_ t).mem = s.mem := rfl
@[simp] theorem State.at__host (s : State) (t : Nat) : (s.at_ t).host = s.host := rfl
@[simp] theorem State.at__slices (s : State) (t : Nat) : (s.at_ t).slices = s.slices := rfl
@[simp] theorem State.at__log (s : State) (t : Nat) : (s.at_ t).log = s.log := rfl
@[simp] theorem State.at__logNext (s : State) (t : Nat) : (s.at_ t).logNext = s.logNext := rfl
@[simp] theorem State.at__groups (s : State) (t : Nat) : (s.at_ t).groups = s.groups := rfl
@[simp] theorem State.at__commits (s : State) (t : Nat) : (s.at_ t).commits = s.commits := rfl
@[simp] theorem State.at__assigned (s : State) (t : Nat) : (s.at_ t).assigned = s.assigned := rfl
@[simp] theorem State.at__cue (s : State) (t : Nat) : (s.at_ t).cue = s.cue := rfl
@[simp] theorem State.at__sheets (s : State) (t : Nat) : (s.at_ t).sheets = s.sheets := rfl
@[simp] theorem State.at__replaced (s : State) (t : Nat) : (s.at_ t).replaced = s.replaced := rfl
@[simp] theorem State.at__missed (s : State) (t : Nat) : (s.at_ t).missed = s.missed := rfl
@[simp] theorem State.at__jobs (s : State) (t : Nat) : (s.at_ t).jobs = s.jobs := rfl
@[simp] theorem State.at__jobNext (s : State) (t : Nat) : (s.at_ t).jobNext = s.jobNext := rfl
@[simp] theorem State.at__units (s : State) (t : Nat) : (s.at_ t).units = s.units := rfl
@[simp] theorem State.at__saved (s : State) (t : Nat) : (s.at_ t).saved = s.saved := rfl
@[simp] theorem State.at__ctrs (s : State) (t : Nat) : (s.at_ t).ctrs = s.ctrs := rfl
@[simp] theorem State.at__cores (s : State) (t : Nat) : (s.at_ t).cores = s.cores := rfl
@[simp] theorem State.at__rasters (s : State) (t : Nat) : (s.at_ t).rasters = s.rasters := rfl
@[simp] theorem State.at__heads (s : State) (t : Nat) : (s.at_ t).heads = s.heads := rfl
@[simp] theorem State.at__intake (s : State) (t : Nat) : (s.at_ t).intake = s.intake := rfl
@[simp] theorem State.at__net (s : State) (t : Nat) : (s.at_ t).net = s.net := rfl
@[simp] theorem State.at__ctl (s : State) (t : Nat) : (s.at_ t).ctl = s.ctl := rfl
@[simp] theorem State.at__fab (s : State) (t : Nat) : (s.at_ t).fab = s.fab := rfl
@[simp] theorem State.at__aes (s : State) (t : Nat) : (s.at_ t).aes = s.aes := rfl
@[simp] theorem State.at__saf (s : State) (t : Nat) : (s.at_ t).saf = s.saf := rfl
@[simp] theorem State.at__pwr (s : State) (t : Nat) : (s.at_ t).pwr = s.pwr := rfl
@[simp] theorem State.at__sec (s : State) (t : Nat) : (s.at_ t).sec = s.sec := rfl
@[simp] theorem State.at__free (s : State) (t : Nat) : (s.at_ t).free = s.free := rfl
@[simp] theorem State.at__out (s : State) (t : Nat) : (s.at_ t).out = s.out := rfl
@[simp] theorem State.at__pending (s : State) (t : Nat) : (s.at_ t).pending = s.pending := rfl

end Sys2Proof.Machine
end

