-- ==== Sys2Proof/Laws/Lasting.lean ====
section
/-! SUPPORT. What the model's operations leave of what lasts (`State.lasting`): one lemma per operation, in the order of
the model's files. A command that keeps it answers a next state with the same queue, cue sheets, locks and slots. -/

namespace Sys2Proof.Machine

@[simp] theorem lasting_foldl {α : Type} (f : State → α → State) (l : List α) (s : State)
    (h : ∀ s x, (f s x).lasting = s.lasting) : (l.foldl f s).lasting = s.lasting := by
  induction l generalizing s with
  | nil => rfl
  | cons x xs ih => simp [ih, h]
@[simp] theorem upMem_lasting (s : State) (f : MemSt → MemSt) : (s.upMem f).lasting = s.lasting := rfl
@[simp] theorem upCue_lasting (s : State) (f : CueSt → CueSt) : (s.upCue f).lasting = s.lasting := rfl
@[simp] theorem upFab_lasting (s : State) (f : FabSt → FabSt) : (s.upFab f).lasting = s.lasting := rfl
@[simp] theorem upIntake_lasting (s : State) (f : IntakeSt → IntakeSt) : (s.upIntake f).lasting = s.lasting := rfl
@[simp] theorem upNet_lasting (s : State) (f : NetSt → NetSt) : (s.upNet f).lasting = s.lasting := rfl
@[simp] theorem upCtl_lasting (s : State) (f : CtlSt → CtlSt) : (s.upCtl f).lasting = s.lasting := rfl
@[simp] theorem upPwr_lasting (s : State) (f : PwrSt → PwrSt) : (s.upPwr f).lasting = s.lasting := rfl
@[simp] theorem upSaf_lasting (s : State) (f : SafSt → SafSt) : (s.upSaf f).lasting = s.lasting := rfl
@[simp] theorem upSlice_lasting (s : State) (n : SliceId) (f : Slice → Slice) : (s.upSlice n f).lasting = s.lasting := rfl
@[simp] theorem upPage_lasting (s : State) (n : SliceId) (f : Page → Page) : (s.upPage n f).lasting = s.lasting := rfl
@[simp] theorem upUnit_lasting (s : State) (u : UnitId) (f : UnitSt → UnitSt) : (s.upUnit u f).lasting = s.lasting := rfl
@[simp] theorem upSeq_lasting (s : State) (u : UnitId) (f : Seq → Seq) : (s.upSeq u f).lasting = s.lasting := rfl
@[simp] theorem upCtr_lasting (s : State) (c : CtrId) (f : Ctr → Ctr) : (s.upCtr c f).lasting = s.lasting := rfl
@[simp] theorem upJob_lasting (s : State) (j : Nat) (f : Job → Job) : (s.upJob j f).lasting = s.lasting := rfl
@[simp] theorem upGroup_lasting (s : State) (g : Nat) (f : Staged → Staged) : (s.upGroup g f).lasting = s.lasting := rfl
@[simp] theorem emit_lasting (s : State) (o : Out) : (s.emit o).lasting = s.lasting := rfl
@[simp] theorem at_lasting (s : State) (t : Nat) : (s.at_ t).lasting = s.lasting := rfl
@[simp] theorem upHost_lasting (s : State) (f : HostSt → HostSt) (h1 : (f s.host).mbxLock = s.host.mbxLock)
    (h2 : (f s.host).rangesLocked = s.host.rangesLocked) : (s.upHost f).lasting = s.lasting := by
  simp [State.lasting, State.upHost, h1, h2]
@[simp] theorem upSec_lasting (s : State) (f : SecSt → SecSt) (h1 : (f s.sec).wdtLock = s.sec.wdtLock)
    (h2 : (f s.sec).debugLock = s.sec.debugLock) (h3 : (f s.sec).slots = s.sec.slots) : (s.upSec f).lasting = s.lasting := by
  simp [State.lasting, State.upSec, h1, h2, h3]
@[simp] theorem mk_lasting (s : State) (a0) (a1) (a3) (a4) (a5) (a6) (a7) (a8) (a9) (a11) (a12) (a13) (a14) (a15) (a16) (a17) (a18) (a19) (a20) (a21) (a22) (a23) (a24) (a25) (a26) (a27) (a29) (a30) :
    State.lasting { now := a0, mem := a1, host := s.host, slices := a3, log := a4, logNext := a5, groups := a6, commits := a7, assigned := a8, cue := a9, sheets := s.sheets, replaced := a11, missed := a12, jobs := a13, jobNext := a14, units := a15, saved := a16, ctrs := a17, cores := a18, rasters := a19, heads := a20, intake := a21, net := a22, ctl := a23, fab := a24, aes := a25, saf := a26, pwr := a27, sec := s.sec, free := a29, out := a30, pending := s.pending } = s.lasting := rfl

theorem lasting_foldl1 {α β : Type} (f : State × β → α → State × β) (l : List α) (r : State × β)
    (h : ∀ r x, (f r x).1.lasting = r.1.lasting) : (l.foldl f r).1.lasting = r.1.lasting := by
  induction l generalizing r with
  | nil => rfl
  | cons x xs ih => simp [ih, h]

/-- The answer is a next state that leaves what lasts. -/
def Ans.keeps (a : Ans) (l : Lasting) : Prop := match a with
  | .next t => t.lasting = l
  | .fault _ => False
  | .refused _ => False

/-- A command body leaves what lasts. -/
def Res.keeps (r : Res) (l : Lasting) : Prop := match r with
  | .ok t _ => t.lasting = l
  | .err _ _ => True
  | .errR _ _ _ => True
  | .errS t _ _ _ => t.lasting = l
  | .wait t _ => t.lasting = l

@[simp] theorem did_keeps (s : State) (l : Lasting) : (did s).keeps l ↔ s.lasting = l := Iff.rfl
@[simp] theorem next_keeps (s : State) (l : Lasting) : Ans.keeps (.next s) l ↔ s.lasting = l := Iff.rfl
@[simp] theorem doWhen_keeps (c : Bool) (s t : State) (h : t.lasting = s.lasting) : (doWhen c s t).keeps s.lasting := by
  unfold doWhen; cases c <;> simp [h]
@[simp] theorem ok_keeps (t : State) (r : BitVec 128) (l : Lasting) : (Res.ok t r).keeps l ↔ t.lasting = l := Iff.rfl
@[simp] theorem err_keeps (a b : Nat) (l : Lasting) : (Res.err a b).keeps l ↔ True := Iff.rfl
@[simp] theorem errR_keeps (a b : Nat) (r : BitVec 128) (l : Lasting) : (Res.errR a b r).keeps l ↔ True := Iff.rfl
@[simp] theorem errS_keeps (t : State) (a b : Nat) (r : BitVec 128) (l : Lasting) : (Res.errS t a b r).keeps l ↔ t.lasting = l := Iff.rfl
@[simp] theorem wait_keeps (t : State) (w : WaitFor) (l : Lasting) : (Res.wait t w).keeps l ↔ t.lasting = l := Iff.rfl

/-! ### Machine/Ops.lean -/

@[simp] theorem setOwner_lasting (s : State) (p : Nat) (o : Owner) : (setOwner s p o).lasting = s.lasting := by
  simp [setOwner]

@[simp] theorem grantPage_lasting (o : Owner) (s : State) (p : Nat) : (grantPage o s p).lasting = s.lasting := by
  simp [grantPage]

@[simp] theorem grantPages_lasting (s : State) (ps : List Nat) (o : Owner) : (grantPages s ps o).lasting = s.lasting := by
  simp [grantPages]

@[simp] theorem releasePage_lasting (s : State) (p : Nat) : (releasePage s p).lasting = s.lasting := by
  simp [releasePage]

@[simp] theorem releasePages_lasting (s : State) (ps : List Nat) : (releasePages s ps).lasting = s.lasting := by
  simp [releasePages]

@[simp] theorem putPages_lasting (s : State) (ps : List Nat) (bs : Bytes) : (putPages s ps bs).lasting = s.lasting := by
  unfold putPages; (repeat' split) <;> (try rfl) <;> (try simp) <;> (rw [lasting_foldl] <;> (try intro _ _) <;> (repeat' split) <;> (try simp))

@[simp] theorem demand_lasting (s : State) (acct label bytes : Nat) : (demand s acct label bytes).lasting = s.lasting := by
  simp [demand]

@[simp] theorem drawTokens_lasting (s : State) (d : Draw) (bytes : Nat) : (drawTokens s d bytes).lasting = s.lasting := by
  unfold drawTokens; (repeat' split) <;> (first | (simp; done) | rfl)

@[simp] theorem memAccess_lasting (s : State) (mid : Byte) (part : Nat) (write : Bool) (d : Draw) (xs : List (Nat × Nat × Bool)) : (memAccess s mid part write d xs).lasting = s.lasting := by
  simp [memAccess]

@[simp] theorem putEntries_lasting (ps : List (Nat × Nat)) (s : State) : (putEntries ps s).lasting = s.lasting := by
  unfold putEntries; rw [lasting_foldl]; intro _ _; simp

@[simp] theorem writeTables_lasting (old new : List (Nat × Nat)) (s : State) : (writeTables old new s).lasting = s.lasting := by
  simp [writeTables]

@[simp] theorem setLeaves_lasting (s : State) (n : SliceId) (ls : List Leaf) (pages : List Nat) : (setLeaves s n ls pages).lasting = s.lasting := by
  simp [setLeaves]

@[simp] theorem setEnclave_lasting (s : State) (e : Nat) (x : Enclave) : (setEnclave s e x).lasting = s.lasting := by
  unfold setEnclave; dsimp only; rw [putEntries_lasting, upSec_lasting _ _ rfl rfl rfl]

@[simp] theorem invalidate_lasting (s : State) (n : SliceId) (gone : Nat → Bool) : (invalidate s n gone).lasting = s.lasting := rfl

@[simp] theorem pokeHost_lasting (s : State) (a : Nat) (bs : Bytes) : (pokeHost s a bs).lasting = s.lasting := by
  simp [pokeHost]

@[simp] theorem hostWrite_lasting (s : State) (n : SliceId) (a : Nat) (bs : Bytes) (poisoned : Bool) : (hostWrite s n a bs poisoned).lasting = s.lasting := by
  unfold hostWrite; simp [apply_ite State.lasting]

@[simp] theorem writeChunk_lasting (n : SliceId) (a : Actor) (s : State) (c : Nat × Bytes) : (writeChunk n a s c).lasting = s.lasting := by
  unfold writeChunk; (repeat' split) <;> (first | (simp; done) | rfl)

@[simp] theorem writeExitChunk_lasting (n : SliceId) (a : Actor) (va : Nat) (bad : List Nat) (s : State) (c : Nat × Bytes) : (writeExitChunk n a va bad s c).lasting = s.lasting := by
  unfold writeExitChunk; (repeat' split) <;> (first | (simp; done) | rfl)

@[simp] theorem writeVa_lasting (s : State) (n : SliceId) (a : Actor) (va : Nat) (bs : Bytes) : (writeVa s n a va bs).lasting = s.lasting := by
  simp [writeVa]

@[simp] theorem raise_lasting (s : State) (i : IslandId) (e : SafetyEvent) : (raise s i e).lasting = s.lasting := by
  simp [raise]

@[simp] theorem raiseCode_lasting (s : State) (i : IslandId) (c : Byte) : (raiseCode s i c).lasting = s.lasting := by
  simp [raiseCode]

@[simp] theorem raiseUnit_lasting (s : State) (c : Byte) (u : UnitId) : (raiseUnit s c u).lasting = s.lasting := by
  simp [raiseUnit]

@[simp] theorem sendMsix_lasting (s : State) (v : Nat) : (sendMsix s v).lasting = s.lasting := by
  unfold sendMsix; simp [apply_ite State.lasting]

@[simp] theorem dropPrefetch_lasting (s : State) : (dropPrefetch s).lasting = s.lasting := by
  simp [dropPrefetch]

@[simp] theorem interrupt_lasting (s : State) (n : SliceId) (v : Nat) : (interrupt s n v).lasting = s.lasting := by
  unfold interrupt; simp [apply_ite State.lasting]

@[simp] theorem writeNotice_lasting (s : State) (n : SliceId) (e : Notice) : (writeNotice s n e).lasting = s.lasting := by
  simp [writeNotice]

@[simp] theorem logPush_lasting (own : Bool) (e : Notice) (s : State) : (logPush own e s).lasting = s.lasting := by
  simp [logPush]

@[simp] theorem notify_lasting (s : State) (n : SliceId) (code : Half) (v : BitVec 3) (payload : BitVec 128) : (notify s n code v payload).lasting = s.lasting := by
  unfold notify; simp [apply_ite State.lasting]

@[simp] theorem sideBand_lasting (s : State) (ev value : Nat) : (sideBand s ev value).lasting = s.lasting := by
  simp [sideBand]

@[simp] theorem conservationNotice_lasting (s : State) (pool ev idx expected found : Nat) : (conservationNotice s pool ev idx expected found).lasting = s.lasting := by
  simp [conservationNotice]

@[simp] theorem writeCpl_lasting (s : State) (n : SliceId) (e : Cpl) : (writeCpl s n e).lasting = s.lasting := by
  simp [writeCpl]

@[simp] theorem postCpl_lasting (s : State) (n : SliceId) (e : Cpl) : (postCpl s n e).lasting = s.lasting := by
  unfold postCpl; simp [apply_ite State.lasting]

@[simp] theorem complete_lasting (s : State) (n : SliceId) (f : Flight) (status detail : Nat) (result : BitVec 128) : (complete s n f status detail result).lasting = s.lasting := by
  simp [complete]

@[simp] theorem reportCheck_lasting (s : State) (u : UnitId) (n : SliceId) (tag : Word) (desc row : Nat) (lasting : Bool) : (reportCheck s u n tag desc row lasting).lasting = s.lasting := by
  unfold reportCheck; simp [apply_ite State.lasting]

@[simp] theorem reportMerge_lasting (s : State) (u : UnitId) (j : Job) (row : Nat) : (reportMerge s u j row).lasting = s.lasting := by
  simp [reportMerge]

@[simp] theorem countCheck_lasting (s : State) (i : IslandId) (mid : Byte) : (countCheck s i mid).lasting = s.lasting := rfl

@[simp] theorem reportCheckOf_lasting (s : State) (i : IslandId) (mid : Byte) (n : SliceId) (poisoned : Bool) : (reportCheckOf s i mid n poisoned).lasting = s.lasting := by
  simp [reportCheckOf]

@[simp] theorem passedCheckOf_lasting (s : State) (i : IslandId) (mid : Byte) (n : SliceId) : (passedCheckOf s i mid n).lasting = s.lasting := by
  simp [passedCheckOf]

@[simp] theorem reportMergeOf_lasting (s : State) (mid : Byte) (n : SliceId) (syn : Half) : (reportMergeOf s mid n syn).lasting = s.lasting := by
  simp [reportMergeOf]

@[simp] theorem meetEntry_lasting (s : State) (port : Nat) (n : SliceId) (a : Actor) (va : Nat) : (meetEntry s port n a va).lasting = s.lasting := by
  unfold meetEntry; (repeat' split) <;> simp

@[simp] theorem meetRange_lasting (s : State) (n : SliceId) (a : Actor) (k : Need) (va len : Nat) : (meetRange s n a k va len).lasting = s.lasting := by
  unfold meetRange; split <;> simp

@[simp] theorem pyotosAccess_lasting (s : State) (n : SliceId) (a : Actor) (write : Bool) (va len : Nat) : (pyotosAccess s n a write va len).lasting = s.lasting := by
  simp [pyotosAccess]

@[simp] theorem writeBy_lasting (s : State) (mid : Byte) (n : SliceId) (a : Actor) (va : Nat) (bs : Bytes) : (writeBy s mid n a va bs).lasting = s.lasting := by
  unfold writeBy; dsimp only; split <;> simp

@[simp] theorem writeExit_lasting (s : State) (mid : Byte) (n : SliceId) (a : Actor) (va : Nat) (bs : Bytes) (bad : List Nat) : (writeExit s mid n a va bs bad).lasting = s.lasting := by
  simp [writeExit]

@[simp] theorem jobSafety_lasting (s : State) (j : Job) (code : Byte) (cause : Nat) (u : Option UnitId) : (jobSafety s j code cause u).lasting = s.lasting := by
  unfold jobSafety; simp [apply_ite State.lasting]

@[simp] theorem stopUnit_lasting (reason : Byte) (k : Nat) (s : State) (e : Entry) (jid : Nat) : (stopUnit reason k s e jid).lasting = s.lasting := by
  unfold stopUnit; (repeat' split) <;> (first | (simp; done) | rfl)

@[simp] theorem State.upChannel_lasting (s : State) (ch : Nat) (f : TwinEnd → TwinEnd) : (State.upChannel s ch f).lasting = s.lasting := rfl

@[simp] theorem releaseWait_lasting (s : State) (w : SyncWait) : (releaseWait s w).lasting = s.lasting := by
  unfold releaseWait; (repeat' split) <;> (first | (simp; done) | rfl)

@[simp] theorem releaseWaits_lasting (s : State) (c : CtrId) : (releaseWaits s c).lasting = s.lasting := by
  simp [releaseWaits]

@[simp] theorem leaveCtr_lasting (s : State) (c : CtrId) (p : Waiter → Bool) : (leaveCtr s c p).lasting = s.lasting := by
  simp [leaveCtr]

@[simp] theorem dropWaits_lasting (s : State) (jid : Nat) : (dropWaits s jid).lasting = s.lasting := by
  unfold dropWaits; dsimp only; rw [lasting_foldl _ _ _ (fun _ _ => by simp), lasting_foldl _ _ _ (fun _ _ => by simp)]

@[simp] theorem terminateJob_lasting (s : State) (jid : Nat) (own : Option Nat) (ownReason reason : Byte) : (terminateJob s jid own ownReason reason).lasting = s.lasting := by
  unfold terminateJob; (repeat' split) <;> (first | (simp; done) | rfl)

@[simp] theorem failUnit_lasting (s : State) (u : UnitId) (reason : Byte) : (failUnit s u reason).lasting = s.lasting := by
  unfold failUnit; (repeat' split) <;> (first | (simp; done) | rfl)

@[simp] theorem failCheck_lasting (s : State) (u : UnitId) (row : Nat) (poisoned : Bool) : (failCheck s u row poisoned).lasting = s.lasting := by
  unfold failCheck; (repeat' split) <;> (first | (simp; done) | rfl)

@[simp] theorem transientCheck_lasting (s : State) (u : UnitId) (row : Nat) : (transientCheck s u row).lasting = s.lasting := by
  unfold transientCheck; (repeat' split) <;> (first | (simp; done) | rfl)

@[simp] theorem unflag_lasting (n : SliceId) (s : State) (row : Nat) : (unflag n s row).lasting = s.lasting := by
  unfold unflag; simp [apply_ite State.lasting]

@[simp] theorem checkQuota_lasting (s : State) (n : SliceId) : (checkQuota s n).lasting = s.lasting := by
  simp [checkQuota]

@[simp] theorem evictLine_lasting (s : State) (a : Nat) : (evictLine s a).lasting = s.lasting := rfl

@[simp] theorem leaveWays_lasting (old new : Nat → Nat) (s : State) : (leaveWays old new s).lasting = s.lasting := rfl

@[simp] theorem useLeaf_lasting (port : Nat) (d : Draw) (n : SliceId) (enc : BitVec 5) (w : List Nat × List Leaf) (s : State) (l : Leaf) :
    (useLeaf port d n enc w s l).lasting = s.lasting := by
  unfold useLeaf; dsimp only; split <;> simp

@[simp] theorem walkFor_lasting (s : State) (port : Nat) (d : Draw) (n : SliceId) (a : Actor) (va len : Nat) :
    (walkFor s port d n a va len).lasting = s.lasting := by
  unfold walkFor; dsimp only; rw [lasting_foldl]; intro _ _; simp

@[simp] theorem sliceAccess_lasting (s : State) (mid : Byte) (n : SliceId) (write : Bool) (va len : Nat) : (sliceAccess s mid n write va len).lasting = s.lasting := by
  simp [sliceAccess]

@[simp] theorem realTimeAccess_lasting (s : State) (mid : Byte) (cls : Nat) (n : SliceId) (write : Bool) (va len : Nat) : (realTimeAccess s mid cls n write va len).lasting = s.lasting := by
  simp [realTimeAccess]

@[simp] theorem askReads_lasting (s : State) (n : SliceId) (a : Actor) (k : Need) (va len : Nat) : (askReads s n a k va len).lasting = s.lasting := by
  unfold askReads; rw [lasting_foldl]; intro _ _; simp

@[simp] theorem unitDraw_lasting (s : State) (u : UnitId) (write : Bool) (k : Need) (va len : Nat) (noAlloc : Bool) : (unitDraw s u write k va len noAlloc).lasting = s.lasting := by
  unfold unitDraw; (repeat' split) <;> (first | (simp; done) | rfl)

@[simp] theorem unitAccess_lasting (s : State) (u : UnitId) (write : Bool) (k : Need) (va len : Nat) (noAlloc : Bool) : (unitAccess s u write k va len noAlloc).lasting = s.lasting := by
  unfold unitAccess; (repeat' split) <;> (first | (simp; done) | rfl)

@[simp] theorem unitPhys_lasting (s : State) (u : UnitId) (write : Bool) (pa len : Nat) : (unitPhys s u write pa len).lasting = s.lasting := by
  unfold unitPhys; (repeat' split) <;> (first | (simp; done) | rfl)

@[simp] theorem firewallA_lasting (s : State) : (firewallA s).lasting = s.lasting := rfl

@[simp] theorem armTwin_lasting (s : State) (ch : Nat) : (armTwin s ch).lasting = s.lasting := by
  unfold armTwin; (repeat' split) <;> (first | (simp; done) | rfl)

@[simp] theorem disarmTwin_lasting (s : State) (ch : Nat) : (disarmTwin s ch).lasting = s.lasting := by
  unfold disarmTwin; (repeat' split) <;> (first | (simp; done) | rfl)

@[simp] theorem copyOver_lasting (s : State) (ch : Nat) : (copyOver s ch).lasting = s.lasting := by
  simp [copyOver]

@[simp] theorem applySignal_lasting (s : State) (c : CtrId) (g : Signal) : (applySignal s c g).lasting = s.lasting := by
  unfold applySignal; dsimp only; (repeat' split) <;> (first | (simp; done) | rfl)

@[simp] theorem issueSignal_lasting (s : State) (c : CtrId) (g : Signal) : (issueSignal s c g).lasting = s.lasting := by
  simp [issueSignal]

@[simp] theorem fenceUnit_lasting (s : State) (u : UnitId) : (fenceUnit s u).lasting = s.lasting := by
  unfold fenceUnit; dsimp only; (repeat' split) <;> (first | (simp; done) | rfl)

@[simp] theorem loseDie_lasting (s : State) (d : BitVec 2) : (loseDie s d).lasting = s.lasting := by
  simp [loseDie]

@[simp] theorem openTxn_lasting (s : State) (t : Txn) : (openTxn s t).lasting = s.lasting := by
  simp [openTxn]

@[simp] theorem dropTxns_lasting (s : State) (u : UnitId) : (dropTxns s u).lasting = s.lasting := by
  unfold dropTxns; rw [upHost_lasting _ _ rfl rfl, upMem_lasting]

/-! ### Machine/HostBridge.lean -/

@[simp] theorem dropCount_lasting (s : State) : (dropCount s).lasting = s.lasting := by
  simp [dropCount]

theorem inbound_keeps (s t : State) (h : t.lasting = s.lasting) : (inbound s t).keeps s.lasting := by
  unfold inbound; simp only [did_keeps]; (repeat' split) <;> simp [h]

theorem onPage_keeps (s : State) (n : SliceId) (t : State) (h : t.lasting = s.lasting) : (onPage s n t).keeps s.lasting := by
  unfold onPage; apply inbound_keeps; split <;> simp [h]

@[simp] theorem seeTail_lasting (s : State) (n : SliceId) : (seeTail s n).lasting = s.lasting := by
  simp [seeTail]

@[simp] theorem deliverOne_lasting (s : State) (n : SliceId) : (deliverOne s n).lasting = s.lasting := by
  unfold deliverOne; dsimp only; (repeat' split) <;> (first | (simp; done) | rfl)

@[simp] theorem deliverAll_lasting (k : Nat) (s : State) (n : SliceId) : (deliverAll k s n).lasting = s.lasting := by
  induction k generalizing s with
  | zero => rfl
  | succ k ih => simp [deliverAll, ih]

@[simp] theorem afterEnable_lasting (s : State) (n : SliceId) : (afterEnable s n).lasting = s.lasting := by
  unfold afterEnable; dsimp only; split <;> simp

@[simp] theorem ringEnable_lasting (s : State) (n : SliceId) (v : Word) : (ringEnable s n v).lasting = s.lasting := by
  unfold ringEnable; simp [apply_ite State.lasting]

@[simp] theorem ringOff_lasting (s : State) (n : SliceId) : (ringOff s n).lasting = s.lasting := by
  simp [ringOff]

@[simp] theorem pdClear_lasting (s : State) (v : Word) : (pdClear s v).lasting = s.lasting := by
  unfold pdClear; simp [apply_ite State.lasting]

@[simp] theorem abortAccess_lasting (s : State) : (abortAccess s).lasting = s.lasting := by
  simp [abortAccess]

@[simp] theorem usePrefetch_lasting (s : State) (n : SliceId) (off len : Nat) : (usePrefetch s n off len).lasting = s.lasting := by
  simp [usePrefetch]

@[simp] theorem hitPrefetch_lasting (s : State) (n : SliceId) (off len : Nat) : (hitPrefetch s n off len).lasting = s.lasting := by
  simp [hitPrefetch]

@[simp] theorem poisonVa_lasting (s : State) (n : SliceId) (va len : Nat) : (poisonVa s n va len).lasting = s.lasting := by
  unfold poisonVa; (repeat' split) <;> (try rfl) <;> (try simp) <;> (rw [lasting_foldl] <;> (try intro _ _) <;> (repeat' split) <;> (try simp))

@[simp] theorem State.upChan_lasting (s : State) (k : ChanId) (f : Channel → Channel) : (State.upChan s k f).lasting = s.lasting := by
  simp [State.upChan]

@[simp] theorem firewallB_lasting (s : State) : (firewallB s).lasting = s.lasting := by
  simp [firewallB]

@[simp] theorem wakeEnd_lasting (s : State) (e : Nat) : (wakeEnd s e).lasting = s.lasting := by
  unfold wakeEnd; simp [apply_ite State.lasting]

@[simp] theorem ring_lasting (s : State) (k : ChanId) (fromA : Bool) : (ring s k fromA).lasting = s.lasting := by
  unfold ring; simp [apply_ite State.lasting]

theorem byMaster_keeps (m : BitVec 4) (s t : State) (h : t.lasting = s.lasting) : (byMaster m s t).keeps s.lasting := by
  unfold byMaster; split
  · exact inbound_keeps s t h
  · simp [h]

@[simp] theorem pdRecord_lasting (s : State) (ch : ChanId) (write : Bool) (e : Nat) : (pdRecord s ch write e).lasting = s.lasting := by
  unfold pdRecord; apply upHost_lasting <;> split <;> rfl

@[simp] theorem writePage_lasting (s : State) (n : SliceId) (o : Nat) (v : Word) : (writePage s n o v).lasting = s.lasting := by
  unfold writePage; simp [apply_ite State.lasting]

@[simp] theorem readBar0_lasting (s : State) (off size : Nat) : (readBar0 s off size).lasting = s.lasting := by
  unfold readBar0; dsimp only; (repeat' split) <;> (first | (simp; done) | rfl)

@[simp] theorem takeBell_lasting (s : State) (k : ChanId) (isA : Bool) : (takeBell s k isA).lasting = s.lasting := by
  simp [takeBell]

@[simp] theorem writeHostPage_lasting (s : State) (j o : Nat) (v : Word) : (writeHostPage s j o v).lasting = s.lasting := by
  unfold writeHostPage; (repeat' split) <;> (first | (simp; done) | rfl)

@[simp] theorem unmask_lasting (s : State) (vec : Nat) : (unmask s vec).lasting = s.lasting := by
  unfold unmask; simp [apply_ite State.lasting]

@[simp] theorem writeMsix_lasting (s : State) (o : Nat) (v : Word) : (writeMsix s o v).lasting = s.lasting := by
  unfold writeMsix; simp [apply_ite State.lasting]

@[simp] theorem writeBar0_lasting (s : State) (off : Nat) (v : Word) : (writeBar0 s off v).lasting = s.lasting := by
  unfold writeBar0; (repeat' split) <;> (first | (simp; done) | rfl)

@[simp] theorem srwDenied_lasting (s : State) : (srwDenied s).lasting = s.lasting := by
  simp [srwDenied]

@[simp] theorem refuseEnd_lasting (s : State) (m : BitVec 4) (write : Bool) : (refuseEnd s m write).lasting = s.lasting := by
  unfold refuseEnd; (repeat' split) <;> simp

@[simp] theorem kickWdt_lasting (s : State) (secure : Bool) (v : Word) : (kickWdt s secure v).lasting = s.lasting := by
  unfold kickWdt; (repeat' split) <;> (first | (simp; done) | rfl)

@[simp] theorem writePcie_lasting (s : State) (r : PcieReg) (v : Word) : (writePcie s r v).lasting = s.lasting := by
  unfold writePcie; dsimp only; rw [lasting_foldl]
  · simp
  · intro s v; simp

theorem onConfig_lasting (s t : State) (h : t.lasting = s.lasting) : (onConfig s t).lasting = s.lasting := by
  unfold onConfig; (repeat' split) <;> simp [h]

theorem writeReg_lasting (s : State) (r : RegAddr) (secure : Bool) (v : DWord) (h : r ≠ .secWdtCtrl) (hd : r ≠ .secDebug) :
    (writeReg s r secure v).lasting = s.lasting := by
  unfold writeReg; dsimp only; (repeat' split) <;> (first | contradiction | rfl | (apply onConfig_lasting; simp) | simp)

/-! ### Machine/Cmd.lean -/

@[simp] theorem accept_lasting (s : State) (n : SliceId) (w : Line) : (accept s n w).lasting = s.lasting := by
  unfold accept; rw [upHost_lasting _ _ rfl rfl]; simp

@[simp] theorem awaitEvent_lasting (s : State) (n : SliceId) (f : Flight) (w : WaitFor) : (awaitEvent s n f w).lasting = s.lasting := by
  simp [awaitEvent]

theorem settle_lasting (s : State) (n : SliceId) (f : Flight) (r : Res) (h : r.keeps s.lasting) :
    (settle s n f r).lasting = s.lasting := by
  cases r <;> simp_all [settle, Res.keeps]

@[simp] theorem checked_keeps (c : CmdSpec) (body : Body) (s : State) (n : SliceId) (f : Flight) (w : Line)
    (h : (body s n f w).keeps s.lasting) : (checked c body s n f w).keeps s.lasting := by
  unfold checked; (repeat' split) <;> (first | exact h | trivial)

theorem runCmd_keeps (c : CmdSpec) (body : Body) (n : SliceId) (w : Line) (s : State)
    (h : ∀ t f, (body t n f w).keeps t.lasting) : (runCmd c body n w s).keeps s.lasting := by
  have h1 (t : State) (f : Flight) := settle_lasting t n f _ (checked_keeps c body t n f w (h t f))
  unfold runCmd; dsimp only; apply doWhen_keeps; (repeat' split) <;> simp [h1]

@[simp] theorem structRead_lasting (s : State) (n : SliceId) (va len : Nat) : (structRead s n va len).lasting = s.lasting := by
  simp [structRead]

theorem withBytes_keeps (s : State) (n : SliceId) (w : Line) (off va len : Nat) (k : State → Bytes → Res)
    (h : ∀ t bs, (k t bs).keeps t.lasting) : (withBytes s n w off va len k).keeps s.lasting := by
  unfold withBytes; (repeat' split) <;> (first | exact (structRead_lasting s n va len) ▸ h _ _ | trivial | simp)

theorem withStruct_keeps (s : State) (n : SliceId) (w : Line) (off len : Nat) (k : State → Bytes → Res)
    (h : ∀ t bs, (k t bs).keeps t.lasting) : (withStruct s n w off len k).keeps s.lasting := withBytes_keeps s n w off _ len k h

theorem withDest_keeps (s : State) (n : SliceId) (w : Line) (off len : Nat) (k : Nat → Res)
    (h : ∀ a, (k a).keeps s.lasting) : (withDest s n w off len k).keeps s.lasting := by
  unfold withDest; (repeat' split) <;> (first | exact h _ | trivial | simp)

@[simp] theorem writeShadow_keeps (s : State) (g detail : Nat) (w : BitVec 4608) :
    (writeShadow s g detail w).keeps s.lasting := by
  unfold writeShadow; split <;> simp

/-! ### Machine/KvOps.lean -/

@[simp] theorem State.upAe_lasting (s : State) (a : AeId) (f : AeSt → AeSt) : (State.upAe s a f).lasting = s.lasting := by
  simp [State.upAe]

@[simp] theorem State.setKv_lasting (s : State) (a : AeId) (q : Nat) (x : Option KvSeq) : (State.setKv s a q x).lasting = s.lasting := by
  simp [State.setKv]

@[simp] theorem putBytes_lasting (s : State) (ws : List (Nat × Bytes)) : (putBytes s ws).lasting = s.lasting := rfl

@[simp] theorem cacheWalks_lasting (s : State) (a : AeId) (q : Nat) (x : KvSeq) (keys : List Nat) : (cacheWalks s a q x keys).lasting = s.lasting := rfl

@[simp] theorem startOp_lasting (s : State) (a : AeId) (qs : List Nat) : (startOp s a qs).lasting = s.lasting := by
  simp [startOp]

@[simp] theorem holdPages_lasting (s : State) (a : AeId) (fr tb : List Nat) (n : SliceId) (bytes : Nat) (keep : Option SeqId) : (holdPages s a fr tb n bytes keep).lasting = s.lasting := rfl

@[simp] theorem returnHeld_lasting (a : AeId) (s : State) (h : Held) : (returnHeld a s h).lasting = s.lasting := by
  unfold returnHeld; dsimp only; rw [checkQuota_lasting, upSlice_lasting, releasePages_lasting]; split <;> simp

@[simp] theorem returnPages_lasting (s : State) (a : AeId) : (returnPages s a).lasting = s.lasting := by
  simp [returnPages]

@[simp] theorem dropSlot_lasting (s : State) (a : AeId) (q : Nat) (n : SliceId) : (dropSlot s a q n).lasting = s.lasting := by
  simp [dropSlot]

@[simp] theorem freeSeq_lasting (s : State) (a : AeId) (q : Nat) : (freeSeq s a q).lasting = s.lasting := by
  unfold freeSeq; split
  · rfl
  · dsimp only; rw [checkQuota_lasting, upSlice_lasting]; split <;> simp

@[simp] theorem takeSpare_lasting (s : State) (a : AeId) (q k : Nat) : (takeSpare s a q k).lasting = s.lasting := by
  unfold takeSpare; (repeat' split) <;> (first | (simp; done) | rfl)

@[simp] theorem mapEntry_lasting (a : AeId) (q : Nat) (e : Nat) (s : State) (st : Nat) : (mapEntry a q e s st).lasting = s.lasting := by
  unfold mapEntry; (repeat' split) <;> (first | (simp; done) | rfl)

@[simp] theorem mapNext_lasting (s : State) (a : AeId) (q : Nat) : (mapNext s a q).lasting = s.lasting := by
  unfold mapNext; dsimp only; (repeat' split) <;> (first | (simp; done) | rfl)

@[simp] theorem mapMany_lasting (k : Nat) (s : State) (a : AeId) (q : Nat) : (mapMany k s a q).lasting = s.lasting := by
  induction k generalizing s with
  | zero => rfl
  | succ k ih => simp [mapMany, ih]

@[simp] theorem startSwapOut_lasting (s : State) (a : AeId) (q : Nat) : (startSwapOut s a q).lasting = s.lasting := by
  unfold startSwapOut; (repeat' split) <;> (first | (simp; done) | rfl)

@[simp] theorem kvNotice_lasting (s : State) (a : AeId) (q ev : Nat) (n : SliceId) : (kvNotice s a q ev n).lasting = s.lasting := by
  simp [kvNotice]

@[simp] theorem reclaimNow_lasting (n : SliceId) (s : State) : (reclaimNow n s).lasting = s.lasting := by
  unfold reclaimNow; split
  · rfl
  · apply lasting_foldl; intro s v; split <;> simp

@[simp] theorem freeSliceSeqs_lasting (s : State) (n : SliceId) : (freeSliceSeqs s n).lasting = s.lasting := by
  simp [freeSliceSeqs]

/-! ### Machine/JobOps.lean -/

@[simp] theorem statusWrite_lasting (s : State) (j : Job) (k off : Nat) (bs : Bytes) : (statusWrite s j k off bs).lasting = s.lasting := by
  unfold statusWrite; simp [apply_ite State.lasting]

@[simp] theorem writeRecord_lasting (s : State) (u : UnitId) (j : Job) (state reason : Byte) : (writeRecord s u j state reason).lasting = s.lasting := by
  simp [writeRecord]

@[simp] theorem endOp_lasting (s : State) (o : Option AeOp) : (endOp s o).lasting = s.lasting := by
  unfold endOp; (repeat' split) <;> (first | (simp; done) | rfl)

@[simp] theorem aeOpEnd_lasting (s : State) (u : UnitId) : (aeOpEnd s u).lasting = s.lasting := by
  unfold aeOpEnd; (repeat' split) <;> (first | (simp; done) | rfl)

@[simp] theorem dropSteps_lasting (s : State) (j : Nat) : (dropSteps s j).lasting = s.lasting := rfl

@[simp] theorem aeStop_lasting (s : State) (u : UnitId) (j : Nat) : (aeStop s u j).lasting = s.lasting := by
  unfold aeStop; (repeat' split) <;> (first | (simp; done) | rfl)

@[simp] theorem releaseUnit_lasting (s : State) (u : UnitId) : (releaseUnit s u).lasting = s.lasting := by
  unfold releaseUnit; dsimp only; (repeat' split) <;> (first | (simp; done) | rfl)

@[simp] theorem writeSafetyFlags_lasting (s : State) (j : Job) : (writeSafetyFlags s j).lasting = s.lasting := by
  simp [writeSafetyFlags]

@[simp] theorem completeStart_lasting (s : State) (n : SliceId) (tag pos : Word) (status : Half) (result : BitVec 128) :
    (completeStart s n tag pos status result).lasting = s.lasting := by
  simp [completeStart]

@[simp] theorem semaphoreFailed_lasting (cause : Nat) (s : State) (n : SliceId) (tag pos : Word) (status : Half) (result : BitVec 128) :
    (semaphoreFailed cause s n tag pos status result).lasting = s.lasting := by
  simp [semaphoreFailed]

@[simp] theorem finishStart_lasting (s : State) (j : Job) (status : Half) (result : BitVec 128) : (finishStart s j status result).lasting = s.lasting := by
  unfold finishStart; dsimp only; (repeat' split) <;> (try simp)
  rw [upHost_lasting _ _ rfl rfl]; simp

@[simp] theorem releaseSave_lasting (s : State) (j : Job) : (releaseSave s j).lasting = s.lasting := by
  simp [releaseSave]

@[simp] theorem endKaf_lasting (s : State) (j : Job) (k : Nat) (sig : DWord) : (endKaf s j k sig).lasting = s.lasting := by
  unfold endKaf; dsimp only; (repeat' split) <;> (first | (simp; done) | rfl)

@[simp] theorem removeKafs_lasting (s : State) (gone : Kaf → Bool) : (removeKafs s gone).lasting = s.lasting := by
  simp [removeKafs]

@[simp] theorem finishJob_lasting (s : State) (j : Job) : (finishJob s j).lasting = s.lasting := by
  unfold finishJob; simp [apply_ite State.lasting]

@[simp] theorem dequeueJob_lasting (s : State) (j : Job) (status : Nat) : (dequeueJob s j status).lasting = s.lasting := by
  unfold dequeueJob; simp [apply_ite State.lasting]

@[simp] theorem abortJob_lasting (s : State) (j : Job) : (abortJob s j).lasting = s.lasting := by
  unfold abortJob; simp [apply_ite State.lasting]

@[simp] theorem settleCross_lasting (s : State) (j : Job) (passed : Bool) (code : Option Byte) : (settleCross s j passed code).lasting = s.lasting := by
  unfold settleCross; (repeat' split) <;> (first | (simp; done) | rfl)

@[simp] theorem compareCross_lasting (s : State) (j : Job) (mine theirs : CrossRecord) : (compareCross s j mine theirs).lasting = s.lasting := by
  unfold compareCross; simp [apply_ite State.lasting]

@[simp] theorem failPendingCross_lasting (s : State) : (failPendingCross s).lasting = s.lasting := by
  simp [failPendingCross]

@[simp] theorem missCross_lasting (s : State) : (missCross s).lasting = s.lasting := by
  simp [missCross]

@[simp] theorem askUnit_lasting (suspend : Bool) (s : State) (u : UnitId) : (askUnit suspend s u).lasting = s.lasting := rfl

@[simp] theorem overrunNotice_lasting (s : State) (j : Job) (action : Nat) : (overrunNotice s j action).lasting = s.lasting := by
  unfold overrunNotice; dsimp only; (repeat' split) <;> simp

@[simp] theorem writeOwed_lasting (s : State) (mine : SliceId → Bool) : (writeOwed s mine).lasting = s.lasting := by
  unfold writeOwed; rw [lasting_foldl]
  · simp
  · intro s x; simp

@[simp] theorem overrunEnd_lasting (s : State) (j : Job) (action : Nat) : (overrunEnd s j action).lasting = s.lasting := by
  simp [overrunEnd]

/-! ### Machine/CoreOps.lean -/

@[simp] theorem State.upCore_lasting (s : State) (c : CoreId) (f : CoreSt → CoreSt) : (State.upCore s c f).lasting = s.lasting := by
  simp [State.upCore]

@[simp] theorem State.upVe_lasting (s : State) (c : CoreId) (f : VeSt → VeSt) : (State.upVe s c f).lasting = s.lasting := by
  simp [State.upVe]

@[simp] theorem atDesc_lasting (s : State) (u : UnitId) (d : Line) : (atDesc s u d).lasting = s.lasting := by
  simp [atDesc]

@[simp] theorem failDesc_lasting (s : State) (u : UnitId) (d : Line) (reason : Byte) : (failDesc s u d reason).lasting = s.lasting := by
  simp [failDesc]

@[simp] theorem eccCount_lasting (s : State) (u : UnitId) (n : Nat) : (eccCount s u n).lasting = s.lasting := rfl

@[simp] theorem mergeEnd_lasting (s : State) (u : UnitId) (bad : List Half) : (mergeEnd s u bad).lasting = s.lasting := by
  unfold mergeEnd; (repeat' split) <;> (first | (simp; done) | rfl)

@[simp] theorem storeWrite_lasting (s : State) (u : UnitId) (c : CoreId) (off : Nat) (bs : Bytes) : (storeWrite s u c off bs).lasting = s.lasting := by
  unfold storeWrite; dsimp only; (repeat' split) <;> (first | (simp; done) | rfl)

@[simp] theorem storeParts_lasting (s : State) (u : UnitId) (c : CoreId) (ws : List (Nat × Bytes)) : (storeParts s u c ws).lasting = s.lasting := by
  unfold storeParts; dsimp only; (repeat' split) <;> simp

@[simp] theorem mergeReport_lasting (s : State) (u : UnitId) (j : Job) (va len : Nat) : (mergeReport s u j va len).lasting = s.lasting := by
  unfold mergeReport; (repeat' split) <;> (try rfl) <;> (try simp) <;> (rw [lasting_foldl] <;> (try intro _ _) <;> (repeat' split) <;> (try simp))

@[simp] theorem jobWrite_lasting (s : State) (u : UnitId) (j : Job) (va : Nat) (bs : Bytes) : (jobWrite s u j va bs).lasting = s.lasting := by
  simp [jobWrite]

@[simp] theorem failAccess_lasting (s : State) (u : UnitId) (va : Nat) : (failAccess s u va).lasting = s.lasting := by
  unfold failAccess; (repeat' split) <;> (first | (simp; done) | rfl)

@[simp] theorem failRead_lasting (s : State) (u : UnitId) (r : ReadRes) : (failRead s u r).lasting = s.lasting := by
  cases r <;> simp [failRead]

@[simp] theorem noteRetry_lasting (s : State) (u : UnitId) (key : Nat) : (noteRetry s u key).lasting = s.lasting := by
  simp [noteRetry]

@[simp] theorem checkedBy_lasting (s t : State) (u : UnitId) (key row : Nat) (k : Chk) (h : t.lasting = s.lasting) :
    (checkedBy s t u key row k).lasting = s.lasting := by
  unfold checkedBy; split <;> simp [h]

@[simp] theorem readBy_lasting (s t : State) (u : UnitId) (j : Job) (va : Nat) (k : Chk) (h : t.lasting = s.lasting) :
    (readBy s t u j va k).lasting = s.lasting := by
  unfold readBy; dsimp only; (repeat' split) <;> simp [h]

@[simp] theorem mergeBy_lasting (s t : State) (u : UnitId) (j : Job) (va len : Nat) (k : Chk) : (mergeBy s t u j va len k).lasting = t.lasting := by
  unfold mergeBy; dsimp only; (repeat' split) <;> (first | (simp; done) | rfl)

@[simp] theorem logFlags_lasting (s : State) (u : UnitId) (w : Word) : (logFlags s u w).lasting = s.lasting := by
  unfold logFlags; dsimp only; (repeat' split) <;> (first | (simp; done) | rfl)

@[simp] theorem upHead_lasting (s : State) (u : UnitId) (e : EngineId) (f : QItem → QItem) : (upHead s u e f).lasting = s.lasting := by
  simp [upHead]

@[simp] theorem ran_lasting (s : State) (u : UnitId) (e : EngineId) (status : Word) : (ran s u e status).lasting = s.lasting := by
  simp [ran]

/-! ### Machine/Ve.lean -/

@[simp] theorem veException_lasting (s : State) (c : CoreId) (code : Nat) (instr : Nat) (lane info : Nat) : (veException s c code instr lane info).lasting = s.lasting := by
  unfold veException; dsimp only; (repeat' split) <;> (first | (simp; done) | rfl)

@[simp] theorem veHalt_lasting (s : State) (c : CoreId) : (veHalt s c).lasting = s.lasting := by
  unfold veHalt; simp [apply_ite State.lasting]

@[simp] theorem veDraw_lasting (s : State) (c : CoreId) (n : Nat) : (veDraw s c n).lasting = s.lasting := rfl

@[simp] theorem veApply_lasting (s : State) (c : CoreId) (i : VI) (x : VeSt) (r : VeRes) : (veApply s c i x r).lasting = s.lasting := by
  cases r <;> simp [veApply]

@[simp] theorem veCheck_lasting (s t : State) (c : CoreId) (x : VeSt) (row : Nat) (k : Chk) (h : t.lasting = s.lasting) :
    (veCheck s t c x row k).lasting = s.lasting := by
  unfold veCheck; dsimp only; rw [veDraw_lasting, checkedBy_lasting, atDesc_lasting]
  split <;> simp [h]

@[simp] theorem mergeLost_lasting (s : State) (c : CoreId) (r : VeRes) : (mergeLost s c r).lasting = s.lasting := by
  cases r <;> simp [mergeLost]

@[simp] theorem plainCheck_lasting (s t : State) (c : CoreId) (x : VeSt) (r : VeRes) (k : Chk) (h : t.lasting = s.lasting) :
    (plainCheck s t c x r k).lasting = s.lasting := by
  cases k <;> simp [plainCheck, h]

@[simp] theorem veChecked_lasting (s : State) (c : CoreId) (i : VI) (x : VeSt) (row : Nat) (k : Chk) (r : VeRes) :
    (veChecked s c i x row k r).lasting = s.lasting := by
  unfold veChecked; dsimp only; split
  · simp
  · simp
  · simp
  · split
    · exact plainCheck_lasting _ _ _ _ _ _ (by simp)
    · exact veCheck_lasting _ _ _ _ _ _ (by simp)

@[simp] theorem veStep_keeps (z : VeShape) (extra : VI → Bool) (row : VI → Nat) (k : Chk) (f : State → VeSt → VI → VeRes)
    (c : CoreId) (s : State) : (veStep z extra row k f c s).keeps s.lasting := by
  unfold veStep; dsimp only; apply doWhen_keeps
  (repeat' split) <;> simp

@[simp] theorem veReg_keeps (z : VeShape) (extra : VI → Bool) (row : VI → Nat) (k : Chk) (f : VeSt → VI → VeSt)
    (c : CoreId) (s : State) : (veReg z extra row k f c s).keeps s.lasting := veStep_keeps ..

/-! ### Machine/Sequencer.lean -/

@[simp] theorem takeDesc_lasting (s : State) (u : UnitId) (d : Line) : (takeDesc s u d).lasting = s.lasting := by
  simp [takeDesc]

@[simp] theorem curDone_lasting (s : State) (u : UnitId) : (curDone s u).lasting = s.lasting := by
  simp [curDone]

@[simp] theorem finishUnit_lasting (s : State) (u : UnitId) : (finishUnit s u).lasting = s.lasting := by
  unfold finishUnit; (repeat' split) <;> (first | (simp; done) | rfl)

@[simp] theorem suspendOthers_lasting (s : State) (u : UnitId) (j : Nat) : (suspendOthers s u j).lasting = s.lasting := by
  unfold suspendOthers; (repeat' split) <;> (try rfl) <;> (try simp) <;> (rw [lasting_foldl] <;> (try intro _ _) <;> (repeat' split) <;> (try simp))

@[simp] theorem yieldPoint_lasting (s : State) (u : UnitId) (j : Job) (horizon : Nat) : (yieldPoint s u j horizon).lasting = s.lasting := by
  unfold yieldPoint; (repeat' split) <;> (first | (simp; done) | rfl)

@[simp] theorem popDesc_lasting (s : State) (u : UnitId) (e : EngineId) (x : QItem) (xs : List QItem) : (popDesc s u e x xs).lasting = s.lasting := by
  simp [popDesc]

/-! ### Machine/Attention.lean -/

@[simp] theorem aeWrite_lasting (s : State) (a : AeId) (j : Job) (space addr : Nat) (bs : Bytes) : (aeWrite s a j space addr bs).lasting = s.lasting := by
  unfold aeWrite; simp [apply_ite State.lasting]

@[simp] theorem aeFail_lasting (s : State) (u : UnitId) (sp : Nat) (r : AeIo) : (aeFail s u sp r).lasting = s.lasting := by
  cases r <;> simp [aeFail]

theorem withOperand_lasting (s : State) (a : AeId) (j : Job) (space addr len : Nat) (k : Bytes → State)
    (h : ∀ bs, (k bs).lasting = s.lasting) : (withOperand s a j space addr len k).lasting = s.lasting := by
  unfold withOperand; split
  · exact h _
  · simp

@[simp] theorem aeDraw_lasting (s : State) (a : AeId) (space addr len : Nat) : (aeDraw s a space addr len).lasting = s.lasting := by
  unfold aeDraw; (repeat' split) <;> (first | (simp; done) | rfl)

@[simp] theorem mapFault_lasting (s : State) (u : UnitId) : (mapFault s u).lasting = s.lasting := by
  simp [mapFault]

@[simp] theorem kvWrite_lasting (u : UnitId) (j : Job) (s : State) (pa : Nat) (bs : Bytes) : (kvWrite u j s pa bs).lasting = s.lasting := by
  simp [kvWrite]

@[simp] theorem kvDraw_lasting (s : State) (u : UnitId) (x : KvSeq) (f t : Nat) (v : Bool) : (kvDraw s u x f t v).lasting = s.lasting := by
  simp [kvDraw]

@[simp] theorem stepSeq_lasting (s : State) (a : AeId) (key q layer count : Nat) : (stepSeq s a key q layer count).lasting = s.lasting := by
  unfold stepSeq; (repeat' split) <;> (first | (simp; done) | rfl)

@[simp] theorem kvFull_lasting (s : State) (a : AeId) (q : Nat) (n : SliceId) : (kvFull s a q n).lasting = s.lasting := by
  unfold kvFull; simp [apply_ite State.lasting]

@[simp] theorem setOp_lasting (s : State) (b : AeId) (o : AeOp) : (setOp s b o).lasting = s.lasting := rfl

@[simp] theorem aeRetried_lasting (s : State) (u : UnitId) (i : Nat) (c : EntryChk) : (aeRetried s u i c).lasting = s.lasting := by
  unfold aeRetried; dsimp only; split <;> simp

theorem aeChecked_lasting (s t : State) (u : UnitId) (c : EntryChk) (h : t.lasting = s.lasting) : (aeChecked s t u c).lasting = s.lasting := by
  unfold aeChecked; split <;> simp [h]

@[simp] theorem walkFail_lasting (s : State) (u : UnitId) (r : Option Bool) : (walkFail s u r).lasting = s.lasting := by
  unfold walkFail; split <;> simp

@[simp] theorem runAppend_lasting (s : State) (b : AeId) (k : AeChk) (j : Job) (d : Line) (q : Nat) (x : KvSeq) (o : AeOp) :
    (runAppend s b k j d q x o).lasting = s.lasting := by
  unfold runAppend; dsimp only
  apply withOperand_lasting; intro kb; apply withOperand_lasting; intro vb
  apply withOperand_lasting; intro ke; apply withOperand_lasting; intro ve
  split
  · simp
  · apply aeChecked_lasting; split <;> simp

theorem withOp_lasting (s : State) (b : AeId) (d : Line) (q : Nat) (err : State → Option KvSeq → Option Byte) (run : State → KvSeq → AeOp → State)
    (h : ∀ t x o, (run t x o).lasting = t.lasting) : (withOp s b d q err run).lasting = s.lasting := by
  unfold withOp; dsimp only; (repeat' split) <;> simp [h]

@[simp] theorem runGather_lasting (s : State) (b : AeId) (k : AeChk) (d : Line) (q : Nat) (x : KvSeq) (o : AeOp) :
    (runGather s b k d q x o).lasting = s.lasting := by
  unfold runGather; dsimp only; split
  · simp
  · split
    · simp
    · split
      · simp
      · split
        · simp
        · apply aeChecked_lasting; split <;> simp

@[simp] theorem entryCheck_lasting (s : State) (u : UnitId) (j : Job) (row : Nat) (p : Bool) :
    (entryCheck s u j row p).st.lasting = s.lasting := by
  unfold entryCheck; dsimp only; (repeat' split) <;> simp

@[simp] theorem entryIo_lasting (s : State) (u : UnitId) (j : Job) (space : Nat) (r : AeIo) :
    (entryIo s u j space r).st.lasting = s.lasting := by
  unfold entryIo; (repeat' split) <;> simp

@[simp] theorem entryAppend_lasting (s : State) (u : UnitId) (j : Job) (q layer : Nat) (x : KvSeq) (o : AeOp) (kv ex : Bytes) : (entryAppend s u j q layer x o kv ex).lasting = s.lasting := by
  simp [entryAppend]

@[simp] theorem entryAttend_lasting (s : State) (b : AeId) (j : Job) (d : Line) (k : AeChk) (left : Option Nat) (e : Bytes) (q : Nat) (x : KvSeq) (o : AeOp) (qb : Bytes) :
    (entryAttend s b j d k left e q x o qb).st.lasting = s.lasting := by
  unfold entryAttend; dsimp only
  (repeat' split) <;> (try simp) <;> (rw [lasting_foldl] <;> (try intro _ _) <;> (repeat' split) <;> (try simp))

@[simp] theorem entryRun_lasting (s : State) (b : AeId) (j : Job) (d : Line) (k : AeChk) (left : Option Nat) (e : Bytes) (q : Nat) (x : KvSeq) (o : AeOp) :
    (entryRun s b j d k left e q x o).st.lasting = s.lasting := by
  unfold entryRun; dsimp only; (repeat' split) <;> (first | (simp; done) | rfl)

@[simp] theorem putStatus_lasting (s : State) (a : AeId) (j : Job) (d : Line) (i st gen : Nat) : (putStatus s a j d i st gen).lasting = s.lasting := by
  simp [putStatus]

@[simp] theorem entrySafety_lasting (s : State) (u : UnitId) (j : Job) (x : Option KvSeq) : (entrySafety s u j x).lasting = s.lasting := by
  unfold entrySafety; (repeat' split) <;> (first | (simp; done) | rfl)

@[simp] theorem entryFailed_lasting (s : State) (u : UnitId) (a : AeId) (j : Job) (q st : Nat) (dup : Bool) : (entryFailed s u a j q st dup).lasting = s.lasting := by
  unfold entryFailed; split
  · rfl
  · simp [apply_ite State.lasting]

@[simp] theorem entryOver_lasting (s : State) (b : AeId) (j : Job) (d : Line) (o : AeOp) (i st gen : Nat) (flags : Byte) : (entryOver s b j d o i st gen flags).lasting = s.lasting := by
  simp [entryOver]

@[simp] theorem decodeEntry_lasting (b : AeId) (j : Job) (d : Line) (k : AeChk) (r : BatchRun) (i : Nat) :
    (decodeEntry b j d k r i).st.lasting = r.st.lasting := by
  unfold decodeEntry; dsimp only; (repeat' split) <;> simp

theorem decodeEntries_lasting (b : AeId) (j : Job) (d : Line) (k : AeChk) (l : List Nat) (r : BatchRun) :
    (l.foldl (decodeEntry b j d k) r).st.lasting = r.st.lasting := by
  induction l generalizing r with
  | nil => rfl
  | cons x xs ih => simp [ih]

@[simp] theorem runBatch_lasting (s : State) (b : AeId) (k : AeChk) (j : Job) (d : Line) (o : AeOp) : (runBatch s b k j d o).lasting = s.lasting := by
  unfold runBatch; dsimp only; (repeat' split) <;> simp [decodeEntries_lasting]

@[simp] theorem startBatch_lasting (s : State) (b : AeId) (d : Line) (tbl : Bytes) : (startBatch s b d tbl).lasting = s.lasting := rfl

@[simp] theorem goBatch_lasting (s : State) (b : AeId) (k : AeChk) (j : Job) (d : Line) : (goBatch s b k j d).lasting = s.lasting := by
  unfold goBatch; (repeat' split) <;> (first | (simp; done) | rfl)

@[simp] theorem notRunOp_lasting (s : State) (b : AeId) (j : Job) (own : List QItem) (o : Option AeOp) : (notRunOp s b j own o).lasting = s.lasting := by
  unfold notRunOp; simp [apply_ite State.lasting]

/-! ### Machine/Twin.lean -/

@[simp] theorem retrainedTwin_lasting (s : State) (roundTrip key : Nat) : (retrainedTwin s roundTrip key).lasting = s.lasting := by
  simp [retrainedTwin]

@[simp] theorem returnCredits_lasting (s : State) (e : TwinEnd) : (returnCredits s e).lasting = s.lasting := rfl

@[simp] theorem closeCopy_lasting (s : State) (ch : Nat) : (closeCopy s ch).lasting = s.lasting := by
  unfold closeCopy; dsimp only; split <;> simp

@[simp] theorem failChannel_lasting (cause : Nat) (s : State) (ch : Nat) : (failChannel cause s ch).lasting = s.lasting := by
  unfold failChannel; (repeat' split) <;> (first | (simp; done) | rfl)

@[simp] theorem failTxn_lasting (s : State) (t : Txn) (reason : Byte) (cause : Nat) : (failTxn s t reason cause).lasting = s.lasting := by
  unfold failTxn; (repeat' split) <;> (first | (simp; done) | rfl)

@[simp] theorem failTxns_lasting (reason : Byte) (cause : Nat) (l : List Txn) (s : State) :
    (l.foldl (fun s t => failTxn s t reason cause) s).lasting = s.lasting := by
  apply lasting_foldl; intro s t; simp

@[simp] theorem failChannels_lasting (cause : Nat) (l : List Nat) (s : State) : (l.foldl (failChannel cause) s).lasting = s.lasting := by
  apply lasting_foldl; intro s t; simp

@[simp] theorem failTwinCommits_lasting (s : State) (status : Nat) : (failTwinCommits s status).lasting = s.lasting := by
  simp [failTwinCommits]

@[simp] theorem twinDown_lasting (s : State) : (twinDown s).lasting = s.lasting := by
  unfold twinDown; dsimp only; (repeat' split) <;> simp

@[simp] theorem leaveBound_lasting (s : State) : (leaveBound s).lasting = s.lasting := by
  unfold leaveBound; simp [apply_ite State.lasting]

@[simp] theorem keepBound_lasting (s : State) : (keepBound s).lasting = s.lasting := rfl

@[simp] theorem completeStops_lasting (s : State) : (completeStops s).lasting = s.lasting := by
  simp [completeStops]

@[simp] theorem commitsOnStop_lasting (s : State) : (commitsOnStop s).lasting = s.lasting := by
  unfold commitsOnStop; simp [apply_ite State.lasting]

@[simp] theorem startCancelled_lasting (s : State) : (startCancelled s).lasting = s.lasting := rfl

@[simp] theorem cueStopped_lasting (s : State) : (cueStopped s).lasting = s.lasting := by
  simp [cueStopped]

@[simp] theorem followStart_lasting (s : State) (f : TwinCue) : (followStart s f).lasting = s.lasting := by
  unfold followStart; (repeat' split) <;> (first | (simp; done) | rfl)

@[simp] theorem followCorrect_lasting (s : State) (f : TwinCue) : (followCorrect s f).lasting = s.lasting := by
  unfold followCorrect; simp [apply_ite State.lasting]

@[simp] theorem holdCue_lasting (s : State) : (holdCue s).lasting = s.lasting := by
  unfold holdCue; (repeat' split) <;> (first | (simp; done) | rfl)

@[simp] theorem followFrame_lasting (s : State) (f : TwinCue) : (followFrame s f).lasting = s.lasting := by
  unfold followFrame; (repeat' split) <;> simp

@[simp] theorem upOps_lasting (s : State) (line : Nat) (g : FarOp → FarOp) : (s.upOps line g).lasting = s.lasting := rfl

@[simp] theorem retryOps_lasting (s : State) (line : Nat) : (retryOps s line).lasting = s.lasting := by
  unfold retryOps; split <;> simp

@[simp] theorem openCopy_lasting (s : State) (ch : BitVec 6) (e : TwinEnd) (tag : BitVec 16) : (openCopy s ch e tag).lasting = s.lasting := by
  simp [openCopy]

@[simp] theorem grantFar_lasting (s : State) (line : Nat) : (grantFar s line).lasting = s.lasting := by
  simp [grantFar]

@[simp] theorem agreeCommit_lasting (s : State) (o : FarOp) : (agreeCommit s o).lasting = s.lasting := by
  unfold agreeCommit; dsimp only; (repeat' split) <;> (first | (simp; done) | rfl)

/-! ### Machine/TimeOps.lean -/

@[simp] theorem State.setTb_lasting (s : State) (n : Nat) (b : TimeBase) : (State.setTb s n b).lasting = s.lasting := by
  simp [State.setTb]

@[simp] theorem replan_lasting (s : State) : (replan s).lasting = s.lasting := by
  simp [replan]

@[simp] theorem retime_lasting (old s : State) (n : Nat) : (retime old s n).lasting = s.lasting := by
  unfold retime; (repeat' split) <;> simp

@[simp] theorem stepBase_lasting (s : State) (n : Nat) (e : Int) : (stepBase s n e).lasting = s.lasting := by
  simp [stepBase]

@[simp] theorem takeSample_lasting (s : State) (n : Nat) (e : Int) : (takeSample s n e).lasting = s.lasting := by
  unfold takeSample; simp [apply_ite State.lasting]

@[simp] theorem applyTimebase_lasting (s : State) (n : Nat) (old new : BitVec 4608) : (applyTimebase s n old new).lasting = s.lasting := by
  simp [applyTimebase]

/-! ### Machine/GatewayOps.lean -/

@[simp] theorem State.upRoute_lasting (s : State) (r : Nat) (f : RouteSt → RouteSt) : (State.upRoute s r f).lasting = s.lasting := by
  simp [State.upRoute]

@[simp] theorem toLoop_lasting (s : State) (w : BitVec 4608) (y : Int) : (toLoop s w y).lasting = s.lasting := by
  simp [toLoop]

@[simp] theorem takeSignal_lasting (s : State) (r : Nat) (w : BitVec 4608) (raw : Nat) : (takeSignal s r w raw).lasting = s.lasting := by
  unfold takeSignal; simp [apply_ite State.lasting]

@[simp] theorem feedRoute_lasting (bs : Bytes) (s : State) (p : Nat × BitVec 4608) : (feedRoute bs s p).lasting = s.lasting := by
  unfold feedRoute; (repeat' split) <;> (first | (simp; done) | rfl)

@[simp] theorem State.upCan_lasting (s : State) (c : Nat) (f : CanSt → CanSt) : (State.upCan s c f).lasting = s.lasting := by
  simp [State.upCan]

@[simp] theorem State.upEth_lasting (s : State) (p : Nat) (f : EthSt → EthSt) : (State.upEth s p f).lasting = s.lasting := by
  simp [State.upEth]

@[simp] theorem enqueueCan_lasting (s : State) (c r : Nat) (f : CanFrame) : (enqueueCan s c r f).lasting = s.lasting := by
  unfold enqueueCan; simp [apply_ite State.lasting]

@[simp] theorem stampRx_lasting (s : State) (p len : Nat) : (stampRx s p len).lasting = s.lasting := rfl

@[simp] theorem stampTx_lasting (s : State) (p : Nat) : (stampTx s p).lasting = s.lasting := rfl

@[simp] theorem leaveEth_lasting (s : State) (p : Nat) (x : EthOut) : (leaveEth s p x).lasting = s.lasting := by
  unfold leaveEth; extract_lets s1 s2
  have h1 : s1.lasting = s.lasting := by simp [s1]
  have h2 : s2.lasting = s.lasting := by simp [s2, h1]
  (repeat' split) <;> simp [h1, h2]

@[simp] theorem drainEth_lasting (k : Nat) (s : State) (p : Nat) : (drainEth k s p).lasting = s.lasting := by
  induction k generalizing s with
  | zero => rfl
  | succ k ih => unfold drainEth; dsimp only; split <;> simp [ih]

@[simp] theorem drainPort_lasting (s : State) (p : Nat) : (drainPort s p).lasting = s.lasting := by
  simp [drainPort]

@[simp] theorem queueEth_lasting (s : State) (p : Nat) (x : EthOut) : (queueEth s p x).lasting = s.lasting := by
  unfold queueEth; (repeat' split) <;> (first | (simp; done) | rfl)

@[simp] theorem sendEth_lasting (s : State) (p cls : Nat) (bs : Bytes) : (sendEth s p cls bs).lasting = s.lasting := by
  unfold sendEth; simp [apply_ite State.lasting]

@[simp] theorem sendFrame_lasting (s : State) (r : Nat) : (sendFrame s r).lasting = s.lasting := by
  unfold sendFrame; simp [apply_ite State.lasting]

@[simp] theorem triggerFrame_lasting (s : State) (r : Nat) : (triggerFrame s r).lasting = s.lasting := by
  unfold triggerFrame; dsimp only; (repeat' split) <;> (first | (simp; done) | rfl)

@[simp] theorem sourceEvent_lasting (s : State) (bs : Bytes) (p : Nat × BitVec 4608 → Bool) : (sourceEvent s bs p).lasting = s.lasting := by
  simp [sourceEvent]

@[simp] theorem loopEvent_lasting (s : State) (l o : Nat) (v : Int) (valid : Bool) : (loopEvent s l o v valid).lasting = s.lasting := by
  unfold loopEvent; simp [apply_ite State.lasting]

@[simp] theorem sendPeriodic_lasting (s : State) (b : Nat) : (sendPeriodic s b).lasting = s.lasting := by
  simp [sendPeriodic]

@[simp] theorem applyRoute_lasting (s : State) (r : Nat) : (applyRoute s r).lasting = s.lasting := by
  simp [applyRoute]

/-! ### Machine/LoopOps.lean -/

@[simp] theorem State.upLoop_lasting (s : State) (l : Nat) (f : LoopSt → LoopSt) : (State.upLoop s l f).lasting = s.lasting := by
  simp [State.upLoop]

@[simp] theorem loopNotice_lasting (s : State) (n : SliceId) (l ev : Nat) : (loopNotice s n l ev).lasting = s.lasting := by
  simp [loopNotice]

@[simp] theorem driveInternal_lasting (s : State) (w : BitVec 4608) (v : Int) : (driveInternal s w v).lasting = s.lasting := by
  unfold driveInternal; simp [apply_ite State.lasting]

@[simp] theorem endTuning_lasting (s : State) (l status : Nat) : (endTuning s l status).lasting = s.lasting := by
  unfold endTuning; split
  · rfl
  · dsimp only; rw [lasting_foldl _ _ _ (fun _ _ => by simp)]; simp

@[simp] theorem endTunings_lasting (s : State) : (endTunings s).lasting = s.lasting := by
  simp [endTunings]

@[simp] theorem applyCoeffs_lasting (s : State) (l : Nat) (w : BitVec 4608) (idx : Nat) : (applyCoeffs s l w idx).lasting = s.lasting := by
  simp [applyCoeffs]

@[simp] theorem dropCoeffs_lasting (s : State) (l : Nat) : (dropCoeffs s l).lasting = s.lasting := by
  simp [dropCoeffs]

@[simp] theorem applyLoop_lasting (s : State) (l : Nat) (old new : BitVec 4608) : (applyLoop s l old new).lasting = s.lasting := by
  unfold applyLoop; simp [apply_ite State.lasting]

@[simp] theorem supervise_lasting (s : State) (l : Nat) (w : BitVec 4608) (e : Int) : (supervise s l w e).lasting = s.lasting := by
  unfold supervise; dsimp only; (repeat' split) <;> (first | (simp; done) | rfl)

@[simp] theorem deliverOuts_lasting (s : State) (l : Nat) (valid : Bool) : (deliverOuts s l valid).lasting = s.lasting := by
  simp [deliverOuts]

@[simp] theorem keepOuts_lasting (s : State) (l : Nat) (w : BitVec 4608) (u e : Int) (ys : Tbl Int) (iC oC : Bool) : (keepOuts s l w u e ys iC oC).lasting = s.lasting := by
  simp [keepOuts]

@[simp] theorem sampleSafe_lasting (s : State) (l : Nat) (w : BitVec 4608) (e : Int) : (sampleSafe s l w e).lasting = s.lasting := by
  simp [sampleSafe]

@[simp] theorem sampleStages_lasting (s : State) (l : Nat) (w : BitVec 4608) (e we wu : Int) : (sampleStages s l w e we wu).lasting = s.lasting := by
  simp [sampleStages]

@[simp] theorem sampleInject_lasting (s0 s : State) (l : Nat) (w : BitVec 4608) (e : Int) (t : Tuning) :
    (sampleInject s0 s l w e t).lasting = s.lasting := by
  unfold sampleInject; dsimp only; (repeat' split) <;> simp

@[simp] theorem sampleRelay_lasting (s : State) (l : Nat) (w : BitVec 4608) (e : Int) (t : Tuning) : (sampleRelay s l w e t).lasting = s.lasting := by
  unfold sampleRelay; dsimp only; (repeat' split) <;> (first | (simp; done) | rfl)

@[simp] theorem sampleLoop_lasting (s0 s : State) (l idx : Nat) : (sampleLoop s0 s l idx).lasting = s.lasting := by
  unfold sampleLoop; dsimp only; (repeat' split) <;> simp

/-! ### Machine/Texture.lean -/

@[simp] theorem State.upRaster_lasting (s : State) (r : RfeId) (f : RasterSt → RasterSt) : (State.upRaster s r f).lasting = s.lasting := by
  simp [State.upRaster]

@[simp] theorem sampleEnd_lasting (s : State) (c : TexDone) (i : VI) (x : VeSt) (ctx : BitVec 1024) (j : Job) : (sampleEnd s c i x ctx j).lasting = s.lasting := by
  unfold sampleEnd; (repeat' split) <;> (first | (simp; done) | rfl)

@[simp] theorem reachPoint_lasting (s : State) (u : UnitId) : (reachPoint s u).lasting = s.lasting := by
  unfold reachPoint; (repeat' split) <;> (first | (simp; done) | rfl)

/-! ### Machine/VeLaunch.lean -/

@[simp] theorem startKernel_lasting (s : State) (c : CoreId) (d : Line) (driver : Option RfeId) : (startKernel s c d driver).lasting = s.lasting := by
  unfold startKernel; dsimp only; (repeat' split) <;> (first | (simp; done) | rfl)

@[simp] theorem convTap_lasting (c : CoreId) (d win : Line) (s : State) : (convTap c d win s).lasting = s.lasting := by
  unfold convTap; (repeat' split) <;> (first | (simp; done) | rfl)

@[simp] theorem convRun_lasting (c : CoreId) (d win : Line) (n : Nat) (s : State) : (convRun c d win n s).lasting = s.lasting := by
  induction n generalizing s with
  | zero => rfl
  | succ n ih => simp [convRun, ih]

@[simp] theorem convBegin_lasting (s : State) (c : CoreId) : (convBegin s c).lasting = s.lasting := by
  unfold convBegin; (repeat' split) <;> (first | (simp; done) | rfl)

@[simp] theorem convEnd_lasting (s : State) (c : CoreId) (d win : Line) : (convEnd s c d win).lasting = s.lasting := by
  unfold convEnd; (repeat' split) <;> (first | (simp; done) | rfl)

@[simp] theorem runConv_lasting (s : State) (c : CoreId) (k : ConvChk) (d win : Line) : (runConv s c k d win).lasting = s.lasting := by
  unfold runConv; extract_lets u a b drawn row all key shown done
  have h : done.lasting = s.lasting := by simp only [done, all, convEnd_lasting]; split <;> simp
  split
  · simp [drawn, all]
  · simp only [drawn, veDraw_lasting]; rw [checkedBy_lasting _ _ _ _ _ _ (by simpa using h)]; simp

/-! ### Machine/Display.lean -/

@[simp] theorem State.upHead_lasting (s : State) (h : HeadId) (f : HeadSt → HeadSt) : (State.upHead s h f).lasting = s.lasting := by
  simp [State.upHead]

@[simp] theorem displayNotice_lasting (s : State) (h : HeadId) (ev : Nat) (flip : Half) : (displayNotice s h ev flip).lasting = s.lasting := by
  simp [displayNotice]

@[simp] theorem showBuf_lasting (h : HeadId) (i : Nat) (b : LayerBuf) (s : State) : (showBuf h i b s).lasting = s.lasting := by
  unfold showBuf; dsimp only; (repeat' split) <;> (first | (simp; done) | rfl)

@[simp] theorem swapBuf_lasting (h : HeadId) (i : Nat) (b : LayerBuf) (s : State) : (swapBuf h i b s).lasting = s.lasting := by
  unfold swapBuf; dsimp only; (repeat' split) <;> simp

@[simp] theorem lendAgain_lasting (s : State) (j : Job) : (lendAgain s j).lasting = s.lasting := by
  simp [lendAgain]

@[simp] theorem latchFlip_lasting (h : HeadId) (fresh : List Nat) (all : List Flip) (s : State) (p : Flip × Nat) : (latchFlip h fresh all s p).lasting = s.lasting := by
  unfold latchFlip; simp [apply_ite State.lasting]

@[simp] theorem releaseBuf_lasting (h : HeadId) (s : State) (i : Nat) : (releaseBuf h s i).lasting = s.lasting := by
  unfold releaseBuf; (repeat' split) <;> (first | (simp; done) | rfl)

/-! ### Machine/Raster.lean -/

@[simp] theorem writeRender_lasting (s : State) (r : RfeId) (j : Job) (b : RasterSt) (state : Byte) : (writeRender s r j b state).lasting = s.lasting := by
  unfold writeRender; split <;> simp

@[simp] theorem stopRender_lasting (s : State) (u : UnitId) (j : Job) : (stopRender s u j).lasting = s.lasting := by
  unfold stopRender; (repeat' split) <;> (first | (simp; done) | rfl)

@[simp] theorem postFlip_lasting (s : State) (x : Rc) (j : Job) : (postFlip s x j).lasting = s.lasting := by
  unfold postFlip; simp [apply_ite State.lasting]

@[simp] theorem rfeRan_lasting (s : State) (r : RfeId) : (rfeRan s r).lasting = s.lasting := by
  unfold rfeRan; (repeat' split) <;> (first | (simp; done) | rfl)

@[simp] theorem upMeta_lasting (s : State) (r : RfeId) (j : Job) (x : Rc) (f : Nat → Nat) (t : Nat) : (upMeta s r j x f t).lasting = s.lasting := by
  unfold upMeta; split <;> simp

@[simp] theorem clearSpill_lasting (r : RfeId) (j : Job) (x : Rc) (s : State) (t : Nat) : (clearSpill r j x s t).lasting = s.lasting := by
  unfold clearSpill; (repeat' split) <;> (first | (simp; done) | rfl)

@[simp] theorem endRender_lasting (s : State) (r : RfeId) (j : Job) (x : Rc) : (endRender s r j x).lasting = s.lasting := by
  unfold endRender; simp [apply_ite State.lasting]

@[simp] theorem binnedTo_lasting (s : State) (r : RfeId) (j : Job) (x : Rc) (b : RasterSt) : (binnedTo s r j x b).lasting = s.lasting := by
  simp [binnedTo]

@[simp] theorem startTiles_lasting (s : State) (r : RfeId) (j : Job) (x : Rc) (b : RasterSt) (flush : Bool) : (startTiles s r j x b flush).lasting = s.lasting := by
  simp [startTiles]

@[simp] theorem dropRender_lasting (s : State) (r : RfeId) (j : Job) (x : Rc) (b : RasterSt) : (dropRender s r j x b).lasting = s.lasting := by
  unfold dropRender; (repeat' split) <;> (first | (simp; done) | rfl)

@[simp] theorem bin_lasting (s : State) (r : RfeId) (j : Job) (x : Rc) (lim : Option Nat) (b : RasterSt) : (bin s r j x lim b).lasting = s.lasting := by
  unfold bin; (repeat' split) <;> simp

@[simp] theorem settleTiles_lasting (s : State) (r : RfeId) (j : Job) (x : Rc) : (settleTiles s r j x).lasting = s.lasting := by
  unfold settleTiles; simp [apply_ite State.lasting]

@[simp] theorem binFrom_lasting (s : State) (r : RfeId) (j : Job) (x : Rc) (b : RasterSt) (k : RenderChk) : (binFrom s r j x b k).lasting = s.lasting := by
  unfold binFrom; split <;> simp

@[simp] theorem fedBy_lasting (s : State) (c : CoreId) : (fedBy s c).lasting = s.lasting := by
  simp [fedBy]

theorem withCtx_lasting (s : State) (r : RfeId) (j : Job) (d : Line) (k : Rc → State) (h : ∀ x, (k x).lasting = s.lasting) :
    (withCtx s r j d k).lasting = s.lasting := by
  unfold withCtx; (repeat' split) <;> simp [h]

@[simp] theorem resolveTile_lasting (r : RfeId) (j : Job) (x : Rc) (s : State) (t : Nat) : (resolveTile r j x s t).lasting = s.lasting := by
  unfold resolveTile; dsimp only; (repeat' split) <;> simp

@[simp] theorem loadTile_lasting (s : State) (c : CoreId) (j : Job) (x : Rc) (t : Nat) : (loadTile s c j x t).lasting = s.lasting := by
  unfold loadTile; dsimp only; (repeat' split) <;> simp

@[simp] theorem loadDraw_lasting (s : State) (c : CoreId) (j : Job) (x : Rc) (d : Line) : (loadDraw s c j x d).lasting = s.lasting := by
  unfold loadDraw; dsimp only; (repeat' split) <;> simp

@[simp] theorem writeDepths_lasting (s : State) (c : CoreId) (x : Rc) (d : Line) (fs : List Frag) : (writeDepths s c x d fs).lasting = s.lasting := by
  unfold writeDepths; simp [apply_ite State.lasting]

@[simp] theorem shadeBatch_lasting (s : State) (r lead : RfeId) (j : Job) (x : Rc) (c : CoreId) (w : TileWork) (k : Chk) : (shadeBatch s r lead j x c w k).lasting = s.lasting := by
  unfold shadeBatch; dsimp only; (repeat' split) <;> (first | (simp; done) | rfl)

@[simp] theorem tileDone_lasting (s : State) (lead : RfeId) (j : Job) (x : Rc) (w : TileWork) : (tileDone s lead j x w).lasting = s.lasting := by
  unfold tileDone; simp [apply_ite State.lasting]

@[simp] theorem writeOut_lasting (s : State) (lead : RfeId) (j : Job) (x : Rc) (c : CoreId) (w : TileWork) : (writeOut s lead j x c w).lasting = s.lasting := by
  unfold writeOut; extract_lets u s1 b deep t t' f
  have h0 : s1.lasting = s.lasting := by simp [s1]
  have h1 : t.lasting = s.lasting := by simp [t, h0]
  have h2 : t'.lasting = s.lasting := by simp only [t']; split <;> simp [h1]
  split
  · simp [h2]
  · simp [h0]
  · simp [h0]

@[simp] theorem handTile_lasting (s : State) (r lead : RfeId) (j : Job) (x : Rc) : (handTile s r lead j x).lasting = s.lasting := by
  unfold handTile; dsimp only; (repeat' split) <;> (first | (simp; done) | rfl)

@[simp] theorem yieldFronts_lasting (s : State) (lead : RfeId) (j : Job) : (yieldFronts s lead j).lasting = s.lasting := by
  unfold yieldFronts; (repeat' split) <;> (try rfl) <;> (try simp) <;> (rw [lasting_foldl] <;> (try intro _ _) <;> (repeat' split) <;> (try simp))

/-! ### Machine/Placement.lean -/

@[simp] theorem scrubUnit_lasting (s : State) (u : UnitId) : (scrubUnit s u).lasting = s.lasting := by
  unfold scrubUnit; (repeat' split) <;> (first | (simp; done) | rfl)

@[simp] theorem freeUnit_lasting (s : State) (u : UnitId) : (freeUnit s u).lasting = s.lasting := by
  unfold freeUnit; dsimp only; (repeat' split) <;> simp

@[simp] theorem takeUnit_lasting (j : Job) (s : State) (p : UnitId × Nat) : (takeUnit j s p).lasting = s.lasting := by
  unfold takeUnit; dsimp only; (repeat' split) <;> (first | (simp; done) | rfl)

@[simp] theorem placeOn_lasting (s : State) (j : Job) (cs : List CoreId) (us : List UnitId) (borrow : Bool) : (placeOn s j cs us borrow).lasting = s.lasting := by
  simp [placeOn]

@[simp] theorem requestPreempt_lasting (s : State) (j : Nat) (suspend : Bool) : (requestPreempt s j suspend).lasting = s.lasting := by
  unfold requestPreempt; exact lasting_foldl _ _ _ (askUnit_lasting suspend)

@[simp] theorem lendReturn_lasting (s : State) (i : SceneId) : (lendReturn s i).lasting = s.lasting := by
  simp [lendReturn]

theorem placeHead_lasting (s t : State) (i : SceneId) (h : placeHead s i = some t) : t.lasting = s.lasting := by
  unfold placeHead at h; (repeat' split at h) <;> simp_all
  subst h; simp

@[simp] theorem reducedMiss_lasting (s : State) (i : SceneId) : (reducedMiss s i).lasting = s.lasting := by
  unfold reducedMiss; dsimp only; (repeat' split) <;> (first | (simp; done) | rfl)

@[simp] theorem callBack_lasting (s : State) (i : SceneId) : (callBack s i).lasting = s.lasting := by
  unfold callBack; (repeat' split) <;> (first | (simp; done) | rfl)

@[simp] theorem placeAll_lasting (k : Nat) (s : State) (i : SceneId) : (placeAll k s i).lasting = s.lasting := by
  induction k generalizing s with
  | zero => rfl
  | succ k ih =>
    unfold placeAll; split
    · rename_i t h; simp [ih, placeHead_lasting s t i h]
    · simp

@[simp] theorem leftCores_lasting (s : State) (jid : Nat) (suspend : Bool) : (leftCores s jid suspend).lasting = s.lasting := by
  unfold leftCores; dsimp only; (repeat' split) <;> (first | (simp; done) | rfl)

@[simp] theorem markSuspended_lasting (s : State) (j : Job) : (markSuspended s j).lasting = s.lasting := by
  unfold markSuspended; apply lasting_foldl; intro t p; split <;> simp

@[simp] theorem overrunJob_lasting (closed : DWord) (s : State) (j : Job) : (overrunJob closed s j).lasting = s.lasting := by
  unfold overrunJob; (repeat' split) <;> (first | (simp; done) | rfl)

@[simp] theorem closeScene_lasting (s : State) (i : SceneId) : (closeScene s i).lasting = s.lasting := by
  simp [closeScene]

/-! ### Machine/SetRules.lean -/

@[simp] theorem afterCommit_lasting (s : State) (items : List (Nat × BitVec 4608)) : (afterCommit s items).lasting = s.lasting := by
  unfold afterCommit; (repeat' split) <;> (first | (simp; done) | rfl)

/-! ### Machine/Groups.lean -/

@[simp] theorem deschedule_lasting (s : State) (j : Job) : (deschedule s j).lasting = s.lasting := by
  unfold deschedule; (repeat' split) <;> (first | (simp; done) | rfl)

@[simp] theorem switchJob_lasting (old new : Option Sheet) (bank : BitVec 2) (s : State) (j : Job) : (switchJob old new bank s j).lasting = s.lasting := by
  unfold switchJob; simp [apply_ite State.lasting]

@[simp] theorem bankSwitch_lasting (s : State) (old new : BitVec 2) : (bankSwitch s old new).lasting = s.lasting := by
  simp [bankSwitch]

@[simp] theorem applyCue_lasting (s : State) (w : BitVec 4608) : (applyCue s w).lasting = s.lasting := by
  unfold applyCue; simp [apply_ite State.lasting]

@[simp] theorem dropLayer_lasting (h : HeadId) (s : State) (i : Nat) : (dropLayer h s i).lasting = s.lasting := by
  unfold dropLayer; dsimp only; rw [lasting_foldl] <;> simp

@[simp] theorem applyLayer_lasting (h : HeadId) (w : BitVec 4608) (s : State) (i : Nat) : (applyLayer h w s i).lasting = s.lasting := by
  unfold applyLayer; dsimp only; (repeat' split) <;> (first | (simp; done) | rfl)

@[simp] theorem applyHead_lasting (s : State) (h : HeadId) (old new : BitVec 4608) : (applyHead s h old new).lasting = s.lasting := by
  unfold applyHead; simp [apply_ite State.lasting]

@[simp] theorem applySet_lasting (s : State) (g : Nat) (w : BitVec 4608) : (applySet s g w).lasting = s.lasting := by
  unfold applySet; dsimp only; (repeat' split) <;> (first | (simp; done) | rfl)

@[simp] theorem groupDone_lasting (s : State) (c : Commit) (g : Nat) : (groupDone s c g).lasting = s.lasting := by
  unfold groupDone; simp [apply_ite State.lasting]

@[simp] theorem safePoint_lasting (s : State) (g : Nat) : (safePoint s g).lasting = s.lasting := by
  unfold safePoint; (repeat' split) <;> (try rfl) <;> (try simp) <;> (rw [lasting_foldl] <;> (try intro _ _) <;> (repeat' split) <;> (try simp))

@[simp] theorem headSafePoint_lasting (s : State) (h : HeadId) : (headSafePoint s h).lasting = s.lasting := by
  unfold headSafePoint; (repeat' split) <;> (try rfl) <;> (try simp) <;> (rw [lasting_foldl] <;> (try intro _ _) <;> (repeat' split) <;> (try simp))

@[simp] theorem applyCommit_lasting (s : State) (c : Commit) : (applyCommit s c).lasting = s.lasting := by
  unfold applyCommit; simp [apply_ite State.lasting]

@[simp] theorem applyDue_lasting (s : State) (k : DWord) : (applyDue s k).lasting = s.lasting := by
  simp [applyDue]

/-! ### Machine/Islands.lean -/

@[simp] theorem State.upIsland_lasting (s : State) (i : IslandId) (f : Island → Island) : (State.upIsland s i f).lasting = s.lasting := by
  simp [State.upIsland]

@[simp] theorem checkpoint_lasting (i : IslandId) (s : State) : (checkpoint i s).lasting = s.lasting := by
  unfold checkpoint; simp [apply_ite State.lasting]

/-! ### Machine/Memory.lean -/

@[simp] theorem reportMiss_lasting (s : State) (k : Nat) : (reportMiss s k).lasting = s.lasting := by
  unfold reportMiss; simp [apply_ite State.lasting]

@[simp] theorem issueTokens_lasting (s : State) (ns : Nat) : (issueTokens s ns).lasting = s.lasting := by
  simp [issueTokens]

@[simp] theorem endWindow_lasting (s : State) : (endWindow s).lasting = s.lasting := by
  unfold endWindow; (repeat' split) <;> (try rfl) <;> (try simp) <;> (rw [lasting_foldl] <;> (try intro _ _) <;> (repeat' split) <;> (try simp))

@[simp] theorem scrubGranule_lasting (bad : List Nat) (s : State) (g : Nat) : (scrubGranule bad s g).lasting = s.lasting := by
  unfold scrubGranule; simp [apply_ite State.lasting]

@[simp] theorem staleLine_lasting (s : State) (dpa : Nat) : (staleLine s dpa).lasting = s.lasting := by
  simp [staleLine]

@[simp] theorem dropLookup_lasting (s : State) (port : Nat) (n : SliceId) (va : Nat) : (dropLookup s port n va).lasting = s.lasting := rfl

@[simp] theorem loseSet_lasting (s : State) (k : BitVec 17) : (loseSet s k).lasting = s.lasting := by
  unfold loseSet; dsimp only; rw [lasting_foldl _ _ _ (fun _ _ => by simp)]; simp

/-! ### Machine/Cue.lean -/

@[simp] theorem carryJobs_lasting (s : State) : (carryJobs s).lasting = s.lasting := rfl

@[simp] theorem checkSuspended_lasting (s : State) : (checkSuspended s).lasting = s.lasting := by
  simp [checkSuspended]

@[simp] theorem fenceNotice_lasting (s : State) (unit : Nat) (by_ : Option CoreId) (scene : Nat) : (fenceNotice s unit by_ scene).lasting = s.lasting := by
  simp [fenceNotice]

@[simp] theorem replaceIn_lasting (new : List CoreId) (s : State) (p : SceneId × Scene) : (replaceIn new s p).lasting = s.lasting := by
  simp [replaceIn]

@[simp] theorem reportFenced_lasting (s : State) (u : UnitId) : (reportFenced s u).lasting = s.lasting := by
  unfold reportFenced; dsimp only; (repeat' split) <;> (first | (simp; done) | rfl)

@[simp] theorem takeReplacements_lasting (s : State) : (takeReplacements s).lasting = s.lasting := by
  simp [takeReplacements]

@[simp] theorem dropKaf_lasting (s : State) (j : Job) : (dropKaf s j).lasting = s.lasting := by
  unfold dropKaf; simp [apply_ite State.lasting]

@[simp] theorem ageKafs_lasting (s : State) : (ageKafs s).lasting = s.lasting := by
  unfold ageKafs; simp [apply_ite State.lasting]

theorem writeInput_lasting (r : Kaf) (p : Package) (s : State × Bytes) (b : Nat) : (match p.bufs[b]? with
    | none => s
    | some d => (writeBy s.1 midStagehand r.slice (.slice r.slice) (p.dataVa + d.offset) (s.2.take d.size), s.2.drop d.size)).1.lasting = s.1.lasting := by
  split <;> simp

@[simp] theorem writeInputs_lasting (s : State) (r : Kaf) (p : Package) (e : JobEntry) : (writeInputs s r p e).lasting = s.lasting := by
  unfold writeInputs; rw [lasting_foldl1]; exact writeInput_lasting r p

@[simp] theorem queueKaf_lasting (i : SceneId) (s : State) (q : Kaf × Nat) : (queueKaf i s q).lasting = s.lasting := by
  unfold queueKaf; dsimp only; (repeat' split) <;> (first | (simp; done) | rfl)

@[simp] theorem resetCounts_lasting (s : State) : (resetCounts s).lasting = s.lasting := by
  unfold resetCounts; dsimp only; (repeat' split) <;> simp

@[simp] theorem restartWindows_lasting (s : State) : (restartWindows s).lasting = s.lasting := by
  simp [restartWindows]

@[simp] theorem applySplit_lasting (s : State) : (applySplit s).lasting = s.lasting := by
  unfold applySplit; (repeat' split) <;> (first | (simp; done) | rfl)

@[simp] theorem rejoinDies_lasting (s : State) : (rejoinDies s).lasting = s.lasting := by
  simp [rejoinDies]

@[simp] theorem slewNotices_lasting (s : State) : (slewNotices s).lasting = s.lasting := by
  unfold slewNotices; simp [apply_ite State.lasting]

@[simp] theorem closeCue_lasting (s : State) : (closeCue s).lasting = s.lasting := by
  unfold closeCue; simp [apply_ite State.lasting]

@[simp] theorem edgeStep2_lasting (s : State) : (edgeStep2 s).lasting = s.lasting := by
  simp [edgeStep2]

@[simp] theorem edgeStep5_lasting (closed : DWord) (late : List Nat) (s : State) : (edgeStep5 closed late s).lasting = s.lasting := by
  simp [edgeStep5]

@[simp] theorem forgetCues_lasting (s : State) : (forgetCues s).lasting = s.lasting := by
  unfold forgetCues; split <;> rfl

@[simp] theorem edgeStart_lasting (s : State) : (edgeStart s).lasting = s.lasting := by
  simp [edgeStart]

@[simp] theorem takeFrame_lasting (s : State) (st : RawStream) (d : DieId) (payload : BitVec 64) : (takeFrame s st d payload).lasting = s.lasting := by
  unfold takeFrame; dsimp only; split <;> simp

@[simp] theorem leadFrame_lasting (s : State) (stops : Bool) : (leadFrame s stops).lasting = s.lasting := by
  unfold leadFrame; split <;> simp

@[simp] theorem heldFrame_lasting (s : State) : (heldFrame s).lasting = s.lasting := by
  unfold heldFrame; split <;> simp

@[simp] theorem edgeRun_lasting (s : State) (first : Bool) : (edgeRun s first).lasting = s.lasting := by
  unfold edgeRun; simp [apply_ite State.lasting]

/-! ### Machine/Fabric.lean -/

@[simp] theorem State.upModule_lasting (s : State) (m : ModId) (f : Module → Module) : (State.upModule s m f).lasting = s.lasting := by
  simp [State.upModule]

@[simp] theorem startRetrain_lasting (s : State) (m : ModId) (credit : Bool) : (startRetrain s m credit).lasting = s.lasting := by
  simp [startRetrain]

@[simp] theorem creditsAgain_lasting (m : ModId) (s : State) (v : Nat) : (creditsAgain m s v).lasting = s.lasting := by
  unfold creditsAgain; (repeat' split) <;> (first | (simp; done) | rfl)

@[simp] theorem loseAny_lasting (s : State) (d : DieId) : (loseAny s d).lasting = s.lasting := by
  unfold loseAny; (repeat' split) <;> (first | (simp; done) | rfl)

/-! ### Machine/KvCache.lean -/

theorem cowTables_lasting (s t : State) (a : AeId) (q : Nat) (x : KvSeq) (tree : Tbl Nat) (globals : List Nat)
    (h : cowTables s a q x tree globals = some t) : t.lasting = s.lasting := by
  unfold cowTables at h; dsimp only at h; split at h
  · cases h
  · cases h; simp

@[simp] theorem unmapStale_lasting (s : State) (a : AeId) (q : Nat) : (unmapStale s a q).lasting = s.lasting := by
  unfold unmapStale; dsimp only; split
  · rfl
  · split
    · rfl
    · split
      · rfl
      · rename_i h; exact cowTables_lasting _ _ _ _ _ _ _ h

@[simp] theorem dropRefill_lasting (s : State) (a : AeId) (q : SeqId) : (dropRefill s a q).lasting = s.lasting := by
  simp [dropRefill]

@[simp] theorem refillWaits_lasting (s : State) (a : AeId) (q : SeqId) : (refillWaits s a q).lasting = s.lasting := by
  unfold refillWaits; dsimp only; (repeat' split) <;> (first | (simp; done) | rfl)

@[simp] theorem refillRefused_lasting (s : State) (a : AeId) (q : SeqId) (n : SliceId) : (refillRefused s a q n).lasting = s.lasting := by
  simp [refillRefused]

@[simp] theorem mapRefill_lasting (s : State) (a : AeId) (q : SeqId) : (mapRefill s a q).lasting = s.lasting := by
  unfold mapRefill; (repeat' split) <;> (first | (simp; done) | rfl)

@[simp] theorem kvMissed_lasting (s : State) (a : AeId) (q : Nat) (x : KvSeq) : (kvMissed s a q x).lasting = s.lasting := by
  unfold kvMissed; dsimp only; (repeat' split) <;> (first | (simp; done) | rfl)

@[simp] theorem turnRing_lasting (s : State) (a : AeId) (q : SeqId) : (turnRing s a q).lasting = s.lasting := by
  unfold turnRing; dsimp only; (repeat' split) <;> (first | (simp; done) | rfl)

@[simp] theorem swapRefused_lasting (s : State) (a : AeId) (q : Nat) (x : KvSeq) : (swapRefused s a q x).lasting = s.lasting := by
  simp [swapRefused]

@[simp] theorem pageTraffic_lasting (s : State) (x : KvSeq) (write : Bool) : (pageTraffic s x write).lasting = s.lasting := by
  unfold pageTraffic; simp [apply_ite State.lasting]

@[simp] theorem copyOut_lasting (s : State) (x : KvSeq) (va : Nat) : (copyOut s x va).lasting = s.lasting := by
  simp [copyOut]

@[simp] theorem swapDone_lasting (s : State) (a : AeId) (q : Nat) (x : KvSeq) (va : Nat) : (swapDone s a q x va).lasting = s.lasting := by
  simp [swapDone]

@[simp] theorem swapInDone_lasting (s : State) (a : AeId) (q : SeqId) (n : SliceId) (status : Nat) : (swapInDone s a q n status).lasting = s.lasting := by
  unfold swapInDone; (repeat' split) <;> (first | (simp; done) | rfl)

/-! ### Machine/PyotosSeq.lean -/

@[simp] theorem shrinkPool_lasting (s : State) (a : AeId) (k pages : Nat) : (shrinkPool s a k pages).lasting = s.lasting := by
  simp [shrinkPool]

@[simp] theorem createSeq_lasting (s : State) (n : SliceId) (a : AeId) (q : Nat) (x : KvSeq) : (createSeq s n a q x).lasting = s.lasting := by
  unfold createSeq; dsimp only; split <;> simp

theorem seqCreate_keeps (s : State) (n : SliceId) (f : Flight) (w : Line) : (seqCreate s n f w).keeps s.lasting := by
  unfold seqCreate; split
  · exact True.intro
  · extract_lets
    repeat' split
    all_goals (first | exact (err_keeps ..).2 trivial | (rw [ok_keeps, createSeq_lasting]))

theorem withSeq_keeps (s : State) (n : SliceId) (w : Line) (k : AeId → Nat → KvSeq → Res) (l : Lasting)
    (h : ∀ a q x, (k a q x).keeps l) : (withSeq s n w k).keeps l := by
  unfold withSeq; dsimp only; (repeat' split) <;> (first | exact h .. | trivial)

@[simp] theorem startSwapIn_lasting (s : State) (n : SliceId) (a : AeId) (q : Nat) (x : KvSeq) (ps : List Nat) : (startSwapIn s n a q x ps).lasting = s.lasting := by
  simp [startSwapIn]

/-! ### Machine/Audit.lean -/

@[simp] theorem auditFault_lasting (s : State) (i : IslandId) (pool idx expected found : Nat) : (auditFault s i pool idx expected found).lasting = s.lasting := by
  simp [auditFault]

theorem auditLoop_lasting (s : State) (i : IslandId) (key : Nat) (x : LoopRec) (again : State → State)
    (h : ∀ t, (again t).lasting = t.lasting) : (auditLoop s i key x again).lasting = s.lasting := by
  unfold auditLoop; (repeat' split) <;> simp [h]

@[simp] theorem retrainTwin_lasting (key : Nat) (s : State) : (retrainTwin key s).lasting = s.lasting := by
  unfold retrainTwin; (repeat' split) <;> (first | (simp; done) | rfl)

/-! ### Machine/Camera.lean -/

@[simp] theorem State.upCam_lasting (s : State) (c : Nat) (f : CamSt → CamSt) : (State.upCam s c f).lasting = s.lasting := by
  simp [State.upCam]

@[simp] theorem camWrite_lasting (s : State) (n : SliceId) (va : Nat) (bs : Bytes) : (camWrite s n va bs).lasting = s.lasting := by
  simp [camWrite]

@[simp] theorem openRecord_lasting (s : State) (f : CamFrame) : (openRecord s f).lasting = s.lasting := by
  simp [openRecord]

@[simp] theorem curveCheck_lasting (s : State) (f : CamFrame) : (curveCheck s f).lasting = s.lasting := by
  unfold curveCheck; (repeat' split) <;> (first | (simp; done) | rfl)

@[simp] theorem finishFrame_lasting (s : State) (c : Nat) (f : CamFrame) : (finishFrame s c f).lasting = s.lasting := by
  simp [finishFrame]

@[simp] theorem missingFrame_lasting (s : State) (c : Nat) : (missingFrame s c).lasting = s.lasting := by
  simp [missingFrame]

@[simp] theorem fsyncRise_lasting (s : State) (w : Cam) : (fsyncRise s w).lasting = s.lasting := by
  unfold fsyncRise; simp [apply_ite State.lasting]

@[simp] theorem endPrevious_lasting (s : State) (c : Nat) : (endPrevious s c).lasting = s.lasting := by
  unfold endPrevious; dsimp only; (repeat' split) <;> simp

@[simp] theorem unmatchedPacket_lasting (s : State) (p : CsiPacket) : (unmatchedPacket s p).lasting = s.lasting := by
  simp [unmatchedPacket]

@[simp] theorem frameStart_lasting (s : State) (c : Nat) : (frameStart s c).lasting = s.lasting := by
  unfold frameStart; dsimp only; (repeat' split) <;> simp

@[simp] theorem takeLine_lasting (s : State) (c : Nat) (f : CamFrame) (ok : Bool) (data : Bytes) : (takeLine s c f ok data).lasting = s.lasting := by
  unfold takeLine; simp [apply_ite State.lasting]

@[simp] theorem takeEmbedded_lasting (s : State) (p : CsiPacket) (data : Bytes) : (takeEmbedded s p data).lasting = s.lasting := by
  unfold takeEmbedded; (repeat' split) <;> (first | (simp; done) | rfl)

@[simp] theorem frameEnd_lasting (s : State) (c : Nat) : (frameEnd s c).lasting = s.lasting := by
  unfold frameEnd; (repeat' split) <;> (first | (simp; done) | rfl)

/-! ### Machine/PyotosGroup.lean -/

@[simp] theorem setErr_keeps (e : Bool × Nat) (l : Lasting) : (setErr e).keeps l := trivial

theorem withOwned_keeps (s : State) (n : SliceId) (kind idx count off : Nat) (k : Res) (l : Lasting) (h : k.keeps l) :
    (withOwned s n kind idx count off k).keeps l := by
  unfold withOwned; (repeat' split) <;> (first | exact h | trivial)

@[simp] theorem writeSet_keeps (s : State) (n : SliceId) (w : Line) (g detail len : Nat) (err : BitVec 4608 → Option (Bool × Nat)) :
    (writeSet s n w g detail len err).keeps s.lasting := by
  unfold writeSet; apply withStruct_keeps; intro t bs; dsimp only; split <;> simp

@[simp] theorem patchSet_keeps (s : State) (n : SliceId) (w : Line) (g off : Nat) (err : BitVec 512 → Option (Bool × Nat)) :
    (patchSet s n w g off err).keeps s.lasting := by
  unfold patchSet; apply withStruct_keeps; intro t bs; split <;> simp

@[simp] theorem loadFallback_keeps (s : State) (h : HeadId) (layer : BitVec 512) (va : Nat) (bs : Bytes) :
    (loadFallback s h layer va bs).keeps s.lasting := by
  unfold loadFallback; dsimp only; split <;> simp

theorem loopCoeff_keeps (s : State) (n : SliceId) (f : Flight) (w : Line) : (loopCoeff s n f w).keeps s.lasting := by
  unfold loopCoeff; dsimp only; apply withOwned_keeps; (repeat' split) <;> simp

theorem loopTune_keeps (relay : Bool) (s : State) (n : SliceId) (f : Flight) (w : Line) : (loopTune relay s n f w).keeps s.lasting := by
  unfold loopTune; dsimp only; apply withOwned_keeps; apply withStruct_keeps; intro t bs; split
  · simp
  · apply withDest_keeps; intro a; split <;> simp

/-! ### Machine/Commits.lean -/

@[simp] theorem acceptCommit_keeps (s : State) (n : SliceId) (f : Flight) (w : Line) (items : List (Nat × BitVec 4608)) :
    (acceptCommit s n f w items).keeps s.lasting := by
  unfold acceptCommit; dsimp only; (repeat' split) <;> simp

theorem commitBody_keeps (s : State) (n : SliceId) (f : Flight) (w : Line) : (commitBody s n f w).keeps s.lasting := by
  unfold commitBody; dsimp only; (repeat' split) <;> simp

@[simp] theorem keepStart_lasting (s : State) : (keepStart s).lasting = s.lasting := by
  unfold keepStart; (repeat' split) <;> (first | (simp; done) | rfl)

@[simp] theorem dropCommit_lasting (s : State) (c : Commit) : (dropCommit s c).lasting = s.lasting := by
  unfold dropCommit; simp [apply_ite State.lasting]

/-! ### Machine/ControlLoops.lean -/

@[simp] theorem loopSafePoints_lasting (s : State) : (loopSafePoints s).lasting = s.lasting := by
  simp [loopSafePoints]

/-! ### Machine/Gateway.lean -/

@[simp] theorem meterTake_lasting (s : State) (k len : Nat) : (meterTake s k len).1.lasting = s.lasting := by
  unfold meterTake; dsimp only; (repeat' split) <;> simp

@[simp] theorem police_lasting (s : State) (p : Nat) (f : EthIn) (len : Nat) : (police s p f len).1.lasting = s.lasting := by
  unfold police; dsimp only; (repeat' split) <;> simp

@[simp] theorem recover_lasting (s : State) (k hist reset seq : Nat) : (recover s k hist reset seq).1.lasting = s.lasting := by
  unfold recover; dsimp only; (repeat' split) <;> simp

@[simp] theorem gatewayAvtp_lasting (s : State) (bs : Bytes) : (gatewayAvtp s bs).lasting = s.lasting := by
  unfold gatewayAvtp; simp [apply_ite State.lasting]

@[simp] theorem gatewayUdp_lasting (s : State) (p : Nat) (bs : Bytes) : (gatewayUdp s p bs).lasting = s.lasting := by
  unfold gatewayUdp; simp [apply_ite State.lasting]

@[simp] theorem toGateway_lasting (s : State) (p : Nat) (body : Bytes) : (toGateway s p body).lasting = s.lasting := by
  unfold toGateway; simp [apply_ite State.lasting]

theorem consume_lasting (s : State) (f : EthIn) (mid : Byte) (go : State → State) (h : ∀ t, (go t).lasting = t.lasting) :
    (consume s f mid go).lasting = s.lasting := by
  unfold consume; split <;> simp [h]

@[simp] theorem forward_lasting (s : State) (p : Nat) (f : EthIn) (body : Bytes) (ports : Nat) : (forward s p f body ports).lasting = s.lasting := by
  unfold forward; extract_lets s1 s2
  have h1 : s1.lasting = s.lasting := lasting_foldl _ _ _ (by intro t e; split <;> simp)
  have h2 : s2.lasting = s.lasting := by
    simp only [s2]; split
    · rw [consume_lasting _ _ _ _ (by simp), h1]
    · exact h1
  split
  · rw [consume_lasting _ _ _ _ (by simp), h2]
  · exact h2

@[simp] theorem frerForward_lasting (s : State) (p : Nat) (f : EthIn) (h : Option Nat) : (frerForward s p f h).lasting = s.lasting := by
  unfold frerForward; dsimp only; (repeat' split) <;> simp

@[simp] theorem keepSync_lasting (s : State) (p : Nat) (f : EthIn) : (keepSync s p f).lasting = s.lasting := by
  unfold keepSync; (repeat' split) <;> (first | (simp; done) | rfl)

/-! ### Machine/HostLink.lean -/

@[simp] theorem failHostRead_lasting (reason : Byte) (cause : Nat) (s : State) (r : HostRead) : (failHostRead reason cause s r).lasting = s.lasting := by
  unfold failHostRead; split <;> simp

@[simp] theorem answered_lasting (s : State) (r : HostRead) : (answered s r).lasting = s.lasting := by
  unfold answered; split <;> simp

@[simp] theorem bridgeStops_lasting (s : State) : (bridgeStops s).lasting = s.lasting := by
  simp [bridgeStops]

/-! ### Machine/Packages.lean -/

@[simp] theorem setPackage_lasting (s : State) (n : SliceId) (h : Nat) (p : Option Package) : (setPackage s n h p).lasting = s.lasting := by
  simp [setPackage]

/-! ### Machine/PyotosJob.lean -/

@[simp] theorem setW_lasting (s : State) (n : SliceId) (vas : List Nat) (w : Bool) : (setW s n vas w).lasting = s.lasting := by
  simp [setW]

@[simp] theorem writeImage_lasting (s : State) (n : SliceId) (va : Nat) (old new : Bytes) : (writeImage s n va old new).lasting = s.lasting := by
  unfold writeImage; rw [lasting_foldl]; intro _ _; dsimp only; (repeat' split) <;> simp

@[simp] theorem finishLoad_keeps (s : State) (n : SliceId) (f : Flight) (va dataVa h : Nat) (old img : Bytes) :
    (finishLoad s n f va dataVa h old img).keeps s.lasting := by
  simp [finishLoad]

theorem graphLoad_keeps (s : State) (n : SliceId) (f : Flight) (w : Line) : (graphLoad s n f w).keeps s.lasting := by
  unfold graphLoad; extract_lets va dataVa
  split
  · simp
  · split
    · simp
    · split
      · simp
      · apply withBytes_keeps; intro t h; split
        · simp
        · split
          · simp
          · split
            · simp
            · apply withBytes_keeps; intro u img; split <;> simp

@[simp] theorem wipeEnclave_lasting (s : State) (e : BitVec 5) : (wipeEnclave s e).lasting = s.lasting := by
  unfold wipeEnclave; split
  · rfl
  · dsimp only; rw [invalidate_lasting, setEnclave_lasting, lasting_foldl]; intro _ _; simp

@[simp] theorem dropPackage_lasting (s : State) (n : SliceId) (h : Nat) : (dropPackage s n h).lasting = s.lasting := by
  unfold dropPackage; split
  · rfl
  · dsimp only; split <;> simp

theorem graphUnload_keeps (s : State) (n : SliceId) (f : Flight) (w : Line) : (graphUnload s n f w).keeps s.lasting := by
  unfold graphUnload; dsimp only; (repeat' split) <;> simp

@[simp] theorem submitJob_keeps (s : State) (n : SliceId) (f : Flight) (w : Line) (p : Package) (e : JobEntry) (sc : Scene) :
    (submitJob s n f w p e sc).keeps s.lasting := by
  unfold submitJob; dsimp only; (repeat' split) <;> (try trivial)
  all_goals (simp only [wait_keeps]; exact (mk_lasting ..).trans (grantPages_lasting ..))

theorem jobStart_keeps (s : State) (n : SliceId) (f : Flight) (w : Line) : (jobStart s n f w).keeps s.lasting := by
  unfold jobStart; (repeat' split) <;> simp

@[simp] theorem abortJobs_lasting (s : State) (n : SliceId) (p : Job → Bool) : (abortJobs s n p).lasting = s.lasting := by
  simp [abortJobs]

/-! ### Machine/MapOps.lean -/

theorem addLeaves_lasting (s t : State) (n : SliceId) (need run : Nat) (region1 : Bool) (mk : List Nat → List Leaf)
    (h : addLeaves s n need run region1 mk = .ok t) : t.lasting = s.lasting := by
  unfold addLeaves at h; dsimp only at h; (repeat' split at h) <;> simp at h
  subst h; simp

@[simp] theorem removeLeaves_lasting (s : State) (n : SliceId) (gone : List Leaf) : (removeLeaves s n gone).1.lasting = s.lasting := by
  simp [removeLeaves]

theorem awaitUnmap_keeps (r : State × List Nat) (n : SliceId) (f : Flight) (l : Lasting) (h : r.1.lasting = l) :
    (awaitUnmap r n f).keeps l := by
  simp [awaitUnmap, h]

/-! ### Machine/PyotosSlice.lean -/

@[simp] theorem abortCommand_lasting (n : SliceId) (s : State) (pos : Word) : (abortCommand n s pos).lasting = s.lasting := by
  simp [abortCommand]

@[simp] theorem abortUnstarted_lasting (s : State) (n : SliceId) : (abortUnstarted s n).lasting = s.lasting := by
  unfold abortUnstarted; simp [apply_ite State.lasting]

@[simp] theorem stopSlice_lasting (s : State) (n : SliceId) : (stopSlice s n).lasting = s.lasting := by
  simp [stopSlice]

@[simp] theorem freeObjects_lasting (s : State) (n : SliceId) : (freeObjects s n).lasting = s.lasting := by
  unfold freeObjects; simp [apply_ite State.lasting]

@[simp] theorem unmapAll_lasting (s : State) (n : SliceId) : (unmapAll s n).lasting = s.lasting := by
  simp [unmapAll]

@[simp] theorem returnAssigned_lasting (s : State) (n : SliceId) : (returnAssigned s n).lasting = s.lasting := by
  unfold returnAssigned; (repeat' split) <;> (try rfl) <;> (try simp) <;> (rw [lasting_foldl] <;> (try intro _ _) <;> (repeat' split) <;> (try simp))

@[simp] theorem disown_lasting (s : State) (t : OwnerTag) : (disown s t).lasting = s.lasting := by
  unfold disown; apply lasting_foldl; intro x u; split <;> simp

@[simp] theorem finishDestroy_lasting (s : State) (p : PendingUnmap) : (finishDestroy s p).lasting = s.lasting := by
  simp [finishDestroy]

@[simp] theorem flagQuota_lasting (s : State) (n : SliceId) (row : Nat) : (flagQuota s n row).lasting = s.lasting := by
  unfold flagQuota; simp [apply_ite State.lasting]

theorem mapRange_lasting (s t : State) (n : SliceId) (va psz count flags hostAddr : Nat)
    (h : mapRange s n va psz count flags hostAddr = .ok t) : t.lasting = s.lasting := by
  unfold mapRange at h; dsimp only at h; (repeat' split at h) <;> exact addLeaves_lasting _ _ _ _ _ _ _ h

@[simp] theorem setAperture_lasting (s : State) (n : SliceId) (on : Bool) (va : Nat) : (setAperture s n on va).lasting = s.lasting := by
  unfold setAperture; simp [apply_ite State.lasting]

/-! ### Machine/Intake.lean -/

@[simp] theorem endSample_lasting (s : State) (e : Nat) (x : RunSample) (r : SampleRes) : (endSample s e x r).lasting = s.lasting := by
  unfold endSample; dsimp only; (repeat' split) <;> simp

theorem withInput_lasting (s : State) (mid : Byte) (x : RunSample) (va len : Nat) (k : State → Bytes → State × SampleRes)
    (h : ∀ t bs, (k t bs).1.lasting = t.lasting) : (withInput s mid x va len k).1.lasting = s.lasting := by
  unfold withInput; split <;> simp [h]

@[simp] theorem withOutput_lasting (s : State) (mid : Byte) (x : RunSample) (va : Nat) (bs : Bytes) (r : SampleRes) :
    (withOutput s mid x va bs r).1.lasting = s.lasting := by
  unfold withOutput; split <;> simp

theorem allocTensor_lasting (s t : State) (n : SliceId) (size va : Nat) (h : allocTensor s n size = some (va, t)) :
    t.lasting = s.lasting := by
  unfold allocTensor at h; dsimp only at h; (repeat' split at h) <;> simp at h
  rename_i h1
  obtain ⟨-, rfl⟩ := h
  simp [addLeaves_lasting _ _ _ _ _ _ _ h1]

@[simp] theorem jpegOut_lasting (s : State) (x : RunSample) (a : Array Byte) (h : JHead) (norm : Bytes) (done : Nat) (cut : Bool) :
    (jpegOut s x a h norm done cut).1.lasting = s.lasting := by
  unfold jpegOut; dsimp only; split
  · rfl
  · rename_i h1; simp [allocTensor_lasting _ _ _ _ _ h1]

theorem withJpeg_lasting (s : State) (x : RunSample) (k : State → Array Byte → JHead → Bytes → State × SampleRes)
    (h : ∀ t a b c, (k t a b c).1.lasting = t.lasting) : (withJpeg s x k).1.lasting = s.lasting := by
  unfold withJpeg; apply withInput_lasting; intro t bs
  (repeat' split) <;> (try rfl)
  apply withInput_lasting; intro t bs; exact h ..

@[simp] theorem tokenOut_lasting (s : State) (x : RunSample) (limit : Nat) (cut : Bool) : (tokenOut s x limit cut).1.lasting = s.lasting := by
  unfold tokenOut; apply withInput_lasting; intro t bs; dsimp only; (repeat' split) <;> simp

@[simp] theorem diceOut_lasting (s : State) (x : RunSample) : (diceOut s x).1.lasting = s.lasting := by
  simp [diceOut]

theorem withRecord_lasting (s : State) (x : RunSample) (k : State × SampleRes) (h : k.1.lasting = s.lasting) :
    (withRecord s x k).1.lasting = s.lasting := by
  unfold withRecord; split <;> simp [h]

@[simp] theorem sampleResult_lasting (s : State) (e : Nat) (x : RunSample) : (sampleResult s e x).1.lasting = s.lasting := by
  unfold sampleResult; apply withRecord_lasting; split
  · exact withJpeg_lasting _ _ _ (fun t a b c => jpegOut_lasting ..)
  · split <;> simp

@[simp] theorem cutResult_lasting (s : State) (e : Nat) (x : RunSample) (progress : Nat) : (cutResult s e x progress).1.lasting = s.lasting := by
  unfold cutResult; apply withRecord_lasting; split
  · split
    · rfl
    · exact withJpeg_lasting _ _ _ (fun t a b c => jpegOut_lasting ..)
  · simp

@[simp] theorem putDict_lasting (s : State) (k : Nat) (d : Dict) : (putDict s k d).lasting = s.lasting := by
  unfold putDict; simp [apply_ite State.lasting]

/-! ### Machine/Jobs.lean -/

@[simp] theorem notRun_lasting (s : State) (u : UnitId) (j : Job) : (notRun s u j).lasting = s.lasting := by
  unfold notRun; (repeat' split) <;> (try rfl) <;> (try simp) <;> (rw [lasting_foldl] <;> (try intro _ _) <;> (repeat' split) <;> (try simp))

@[simp] theorem stopSaved_lasting (s : State) (j : Job) (k : Nat) : (stopSaved s j k).lasting = s.lasting := by
  unfold stopSaved; (repeat' split) <;> (first | (simp; done) | rfl)

@[simp] theorem rewriteRecords_lasting (s : State) (j : Job) : (rewriteRecords s j).lasting = s.lasting := by
  unfold rewriteRecords; simp [apply_ite State.lasting]

@[simp] theorem keepBuffers_lasting (s : State) (j : Job) : (keepBuffers s j).lasting = s.lasting := by
  unfold keepBuffers; (repeat' split) <;> (try rfl) <;> (try simp) <;> (rw [lasting_foldl] <;> (try intro _ _) <;> (repeat' split) <;> (try simp))

@[simp] theorem dropWait_lasting (s : State) (u : UnitId) : (dropWait s u).lasting = s.lasting := by
  unfold dropWait; (repeat' split) <;> (first | (simp; done) | rfl)

@[simp] theorem settleOwn_lasting (s : State) (u : UnitId) : (settleOwn s u).lasting = s.lasting := by
  unfold settleOwn; (repeat' split) <;> (first | (simp; done) | rfl)

@[simp] theorem leaveOp_lasting (s : State) (u : UnitId) : (leaveOp s u).lasting = s.lasting := by
  unfold leaveOp; (repeat' split) <;> (first | (simp; done) | rfl)

@[simp] theorem restoreTo_lasting (s : State) (u : UnitId) (x : SavedCtx) : (restoreTo s u x).lasting = s.lasting := by
  unfold restoreTo; (repeat' split) <;> (first | (simp; done) | rfl)

/-! ### Machine/Mailbox.lean -/

@[simp] theorem reply_lasting (s : State) (n : SliceId) (status : Nat) (ws : List Nat) : (reply s n status ws).lasting = s.lasting := by
  simp [reply]

theorem serveMbx_keeps (code : Nat) (body : State → State) (n : SliceId) (s : State) (h : (body s).lasting = s.lasting) :
    (serveMbx code body n s).keeps s.lasting := by
  unfold serveMbx; dsimp only; apply doWhen_keeps; split <;> simp [h]

/-! ### Machine/TimeUnit.lean -/

@[simp] theorem sampleOf_lasting (s : State) (n : Nat) (src : BitVec 4608 → Bool) (e : State → Int) : (sampleOf s n src e).lasting = s.lasting := by
  unfold sampleOf; simp [apply_ite State.lasting]

@[simp] theorem relaySync_lasting (s : State) (dom : Nat) (m : PtpSync) (rx : Int) : (relaySync s dom m rx).lasting = s.lasting := by
  unfold relaySync; simp [apply_ite State.lasting]

@[simp] theorem captureRecord_lasting (p : Nat) (x : CapEdge) (s : State) (n : Nat) : (captureRecord p x s n).lasting = s.lasting := by
  unfold captureRecord; simp [apply_ite State.lasting]

@[simp] theorem drainPin_lasting (s : State) (p : Nat) : (drainPin s p).lasting = s.lasting := by
  simp [drainPin]

@[simp] theorem drainCaptures_lasting (s : State) : (drainCaptures s).lasting = s.lasting := by
  unfold drainCaptures; simp [apply_ite State.lasting]

@[simp] theorem bufferEdge_lasting (s : State) (p : Nat) (falling : Bool) (ts : List Int) : (bufferEdge s p falling ts).lasting = s.lasting := by
  unfold bufferEdge; (repeat' split) <;> (first | (simp; done) | rfl)

/-! ### Machine/Holds.lean -/

@[simp] theorem overrideHolds_lasting (s : State) (cause : Nat) : (overrideHolds s cause).lasting = s.lasting := by
  unfold overrideHolds; (repeat' split) <;> (try rfl) <;> (try simp) <;> (rw [lasting_foldl] <;> (try intro _ _) <;> (repeat' split) <;> (try simp))

@[simp] theorem lowerPins_lasting (s : State) : (lowerPins s).lasting = s.lasting := by
  unfold lowerPins; simp [apply_ite State.lasting]

@[simp] theorem recordCause_lasting (s : State) (c : Byte) : (recordCause s c).lasting = s.lasting := by
  simp [recordCause]

@[simp] theorem lowerRails_lasting (s : State) : (lowerRails s).lasting = s.lasting := by
  unfold lowerRails; simp [apply_ite State.lasting]

/-! ### Machine/PyotosAdmin.lean -/

@[simp] theorem giveRecord_keeps (s : State) (n : SliceId) (w : Line) (bs : Bytes) : (giveRecord s n w bs).keeps s.lasting := by
  unfold giveRecord; dsimp only; apply withDest_keeps; intro a; simp

theorem diagRead_keeps (s : State) (n : SliceId) (f : Flight) (w : Line) : (diagRead s n f w).keeps s.lasting := by
  unfold diagRead; dsimp only; (repeat' split) <;> simp

theorem logRead_keeps (s : State) (n : SliceId) (f : Flight) (w : Line) : (logRead s n f w).keeps s.lasting := by
  unfold logRead; dsimp only; apply withDest_keeps; intro a; simp

@[simp] theorem park_lasting (s : State) : (park s).lasting = s.lasting := by
  unfold park; (repeat' split) <;> (try rfl) <;> (try simp) <;> (rw [lasting_foldl] <;> (try intro _ _) <;> (repeat' split) <;> (try simp))

@[simp] theorem resetUnit_lasting (s : State) (u : UnitId) : (resetUnit s u).lasting = s.lasting := by
  simp [resetUnit]

@[simp] theorem powerDie_lasting (s : State) (d : Nat) : (powerDie s d).lasting = s.lasting := by
  simp [powerDie]

@[simp] theorem unpark_lasting (s : State) : (unpark s).lasting = s.lasting := by
  unfold unpark; dsimp only
  simp only [drainCaptures_lasting, upPwr_lasting]
  rw [lasting_foldl, upSaf_lasting, lasting_foldl]
  · intro s x; exact powerDie_lasting s x
  · intro s x; split <;> simp

theorem powerSetActive_keeps (s : State) (n : SliceId) (f : Flight) (w : Line) : (powerSetActive s n f w).keeps s.lasting := by
  unfold powerSetActive; (repeat' split) <;> simp

@[simp] theorem writeBank_lasting (s : State) (b : Bank) : (writeBank s b).lasting = s.lasting := by
  unfold writeBank; apply upSec_lasting <;> split <;> rfl

@[simp] theorem updateBank_lasting (s : State) (typ : Nat) (img : Bytes) : (updateBank s typ img).lasting = s.lasting := by
  unfold updateBank; rw [upSec_lasting _ _ rfl rfl rfl, writeBank_lasting]

theorem fwUpdate_keeps (faulty : Bool) (s : State) (n : SliceId) (f : Flight) (w : Line) : (fwUpdate faulty s n f w).keeps s.lasting := by
  unfold fwUpdate; dsimp only; split
  · simp
  · apply withStruct_keeps; intro t bs; unfold updateWith; (repeat' split) <;> simp

/-! ### Machine/SafetyOps.lean -/

@[simp] theorem curtainChannel_lasting (k : Nat) (s : State) (i : Nat) : (curtainChannel k s i).lasting = s.lasting := by
  unfold curtainChannel; simp [apply_ite State.lasting]

@[simp] theorem curtainMessages_lasting (s : State) : (curtainMessages s).lasting = s.lasting := by
  simp [curtainMessages]

@[simp] theorem pinLow_lasting (i : IslandId) (s : State) : (pinLow i s).lasting = s.lasting := by
  unfold pinLow; simp [apply_ite State.lasting]

@[simp] theorem dropCurtain_lasting (s : State) (code : Byte) : (dropCurtain s code).lasting = s.lasting := by
  unfold dropCurtain; simp [apply_ite State.lasting]

@[simp] theorem losePath_lasting (s : State) (t : DebugTarget) : (losePath s t).lasting = s.lasting := by
  unfold losePath; (repeat' split) <;> (first | (simp; done) | rfl)

@[simp] theorem degrade_lasting (s : State) (e : SafetyEvent) : (degrade s e).lasting = s.lasting := by
  unfold degrade; (repeat' split) <;> (first | (simp; done) | rfl)

@[simp] theorem suspectOf_lasting (s : State) (e : SafetyEvent) : (suspectOf s e).lasting = s.lasting := by
  unfold suspectOf; (repeat' split) <;> (first | (simp; done) | rfl)

@[simp] theorem react_lasting (s : State) (e : SafetyEvent) : (react s e).lasting = s.lasting := by
  unfold react; simp [apply_ite State.lasting]

@[simp] theorem countEvent_lasting (s : State) (e : SafetyEvent) : (countEvent s e).lasting = s.lasting := by
  unfold countEvent; simp [apply_ite State.lasting]

@[simp] theorem actOn_lasting (s : State) (e : SafetyEvent) : (actOn s e).lasting = s.lasting := by
  unfold actOn; simp [apply_ite State.lasting]

@[simp] theorem latch_lasting (s : State) (i : IslandId) (e : SafetyEvent) : (latch s i e).lasting = s.lasting := by
  unfold latch; simp [apply_ite State.lasting]

/-! ### Machine/Safety.lean -/

@[simp] theorem takeRaised_lasting (s : State) (i : IslandId) (e : SafetyEvent) : (takeRaised s i e).lasting = s.lasting := by
  simp [takeRaised]

@[simp] theorem putOut_lasting (s : State) (i : IslandId) (c : Fin 3) : (putOut s i c).lasting = s.lasting := by
  unfold putOut; simp [apply_ite State.lasting]

@[simp] theorem beginRestart_lasting (s : State) (i : IslandId) : (beginRestart s i).lasting = s.lasting := by
  simp [beginRestart]

@[simp] theorem processHeld_lasting (s : State) (i : IslandId) : (processHeld s i).lasting = s.lasting := by
  simp [processHeld]

@[simp] theorem lastingFault_lasting (s : State) (u : UnitId) : (lastingFault s u).lasting = s.lasting := by
  simp [lastingFault]

@[simp] theorem countSegment_lasting (s : State) (k : Checker) : (countSegment s k).lasting = s.lasting := by
  simp [countSegment]

/-! ### Machine/Power.lean -/

@[simp] theorem raiseEn_lasting (n : Nat) (s : State) : (raiseEn n s).lasting = s.lasting := by
  unfold raiseEn; simp [apply_ite State.lasting]

@[simp] theorem setStage_lasting (s : State) (stage : Nat) (p : BootPhase) : (setStage s stage p).lasting = s.lasting := by
  unfold setStage; rw [upPwr_lasting]; exact upHost_lasting _ _ rfl rfl

@[simp] theorem haltBoot_lasting (s : State) (error unit sub : Nat) : (haltBoot s error unit sub).lasting = s.lasting := by
  simp [haltBoot]

@[simp] theorem startClocks_lasting (s : State) : (startClocks s).lasting = s.lasting := by
  simp [startClocks]

@[simp] theorem startBringUp_lasting (s : State) : (startBringUp s).lasting = s.lasting := by
  unfold startBringUp; extract_lets s1 s2
  have h : s2.lasting = s.lasting := by
    simp only [s2, s1]; rw [upSec_lasting _ _ rfl rfl rfl, upPwr_lasting, startClocks_lasting, setStage_lasting]
  (repeat' split) <;> simp only [haltBoot_lasting, mk_lasting, h]

@[simp] theorem startIfReady_lasting (s : State) : (startIfReady s).lasting = s.lasting := by
  unfold startIfReady; simp [apply_ite State.lasting]

@[simp] theorem State.upBank_lasting (s : State) (isB : Bool) (f : Bank → Bank) : (State.upBank s isB f).lasting = s.lasting := by
  unfold State.upBank; (repeat' split) <;> (first | (simp; done) | rfl)

@[simp] theorem seenBank_lasting (s : State) (a b : BankRead) (isB : Bool) : (seenBank s a b isB).lasting = s.lasting := by
  simp [seenBank]

@[simp] theorem bootOn_lasting (s : State) (isB : Bool) (b : BankReport) : (bootOn s isB b).lasting = s.lasting := by
  unfold bootOn; extract_lets s1 plat s2
  have h : s2.lasting = s.lasting := by
    simp only [s2, s1]; rw [upPwr_lasting, State.upBank_lasting]
  rw [setStage_lasting, upSec_lasting _ _ rfl rfl rfl, h]

@[simp] theorem linkLost_lasting (s : State) (p : ModId) : (linkLost s p).lasting = s.lasting := by
  unfold linkLost; (repeat' split) <;> (first | (simp; done) | rfl)

@[simp] theorem startInit_lasting (s : State) (caps16 : BitVec 12) : (startInit s caps16).lasting = s.lasting := by
  simp [startInit]

@[simp] theorem bootSuccess_lasting (s : State) : (bootSuccess s).lasting = s.lasting := by
  unfold bootSuccess; simp [apply_ite State.lasting]

@[simp] theorem enterService_lasting (t : Nat) (i : IslandId) (s : State) : (enterService t i s).lasting = s.lasting := by
  simp [enterService]

@[simp] theorem applyCut_lasting (s : State) (c : CutTarget) : (applyCut s c).lasting = s.lasting := by
  unfold applyCut; (repeat' split) <;> simp

/-! ### Machine/Management.lean -/

@[simp] theorem breakPath_lasting (s : State) (d : DebugTarget) : (breakPath s d).lasting = s.lasting := by
  unfold breakPath; dsimp only; (repeat' split) <;> simp

/-! ### Machine/PyotosVehicle.lean -/

@[simp] theorem addKaf_lasting (s : State) (r : Kaf) : (addKaf s r).lasting = s.lasting := by
  unfold addKaf; dsimp only; (repeat' split) <;> (first | (simp; done) | rfl)

@[simp] theorem registerKaf_keeps (s : State) (r : Kaf) (input expect : Bytes) : (registerKaf s r input expect).keeps s.lasting := by
  unfold registerKaf; dsimp only; split <;> simp

theorem kafSet_keeps (s : State) (n : SliceId) (f : Flight) (w : Line) : (kafSet s n f w).keeps s.lasting := by
  unfold kafSet; dsimp only; (repeat' split) <;> (try simp)
  all_goals (apply withStruct_keeps; intro t a; apply withStruct_keeps; intro t b; simp)

theorem enclaveCreate_keeps (s : State) (n : SliceId) (f : Flight) (w : Line) : (enclaveCreate s n f w).keeps s.lasting := by
  unfold enclaveCreate; extract_lets host k; (repeat' split) <;> (try exact True.intro)
  simp only [ok_keeps]; rw [setEnclave_lasting, grantPages_lasting, grantPages_lasting]

@[simp] theorem storeEnclave_lasting (s : State) (n : SliceId) (e h : Nat) (x : Enclave) (img : Bytes) : (storeEnclave s n e h x img).lasting = s.lasting := by
  simp [storeEnclave]

theorem openEnclave_lasting (s t : State) (n : SliceId) (e h : Nat) (x : Enclave) (wrap cipher : Bytes)
    (h1 : openEnclave s n e x wrap cipher = .ok (t, h)) : t.lasting = s.lasting := by
  unfold openEnclave at h1; dsimp only at h1; (repeat' split at h1) <;> simp at h1
  obtain ⟨rfl, -⟩ := h1; simp

theorem withDram_keeps (s : State) (n : SliceId) (w : Line) (va len : Nat) (k : State → Bytes → Res)
    (h : ∀ t bs, (k t bs).keeps t.lasting) : (withDram s n w va len k).keeps s.lasting := by
  unfold withDram; split
  · trivial
  · exact withBytes_keeps _ _ _ _ _ _ _ h

@[simp] theorem failLoad_keeps (s : State) (e st detail : Nat) (r : BitVec 128) : (failLoad s e st detail r).keeps s.lasting := by
  simp [failLoad]

theorem enclaveLoad_keeps (s : State) (n : SliceId) (f : Flight) (w : Line) : (enclaveLoad s n f w).keeps s.lasting := by
  unfold enclaveLoad; dsimp only; (repeat' split) <;> (try simp)
  apply withDram_keeps; intro t wrap; (repeat' split) <;> (try simp)
  apply withDram_keeps; intro t cipher; split
  · simp
  · rename_i t h; simp [openEnclave_lasting _ _ _ _ _ _ _ _ h]

@[simp] theorem destroyEnclave_lasting (s : State) (e : Nat) (x : Enclave) : (destroyEnclave s e x).lasting = s.lasting := by
  unfold destroyEnclave; dsimp only; (repeat' split) <;> simp

theorem enclaveDestroy_keeps (s : State) (n : SliceId) (f : Flight) (w : Line) : (enclaveDestroy s n f w).keeps s.lasting := by
  unfold enclaveDestroy; dsimp only; (repeat' split) <;> simp

theorem splitBody_keeps (split : Bool) (s : State) (n : SliceId) (f : Flight) (w : Line) : (splitBody split s n f w).keeps s.lasting := by
  unfold splitBody; (repeat' split) <;> simp

/-! ### Machine/Secure.lean -/

@[simp] theorem secReply_lasting (s : State) (status : Nat) (ws : List Nat) : (secReply s status ws).lasting = s.lasting := by
  simp [secReply]

theorem serveSec_keeps (code : Nat) (body : State → State) (s : State) (h : (body s).lasting = s.lasting) :
    (serveSec code body s).keeps s.lasting := by
  unfold serveSec; dsimp only; apply doWhen_keeps; split <;> simp [h]

@[simp] theorem setDebug_lasting (s : State) (v : BitVec 4) : (setDebug s v).lasting = s.lasting := by
  simp [setDebug]

/-! ### Machine/Stream.lean -/

@[simp] theorem moveOut_lasting (s : State) (u : UnitId) (j : Job) (m : Move) (va : Nat) (bs : Bytes) : (moveOut s u j m va bs).lasting = s.lasting := by
  unfold moveOut; simp [apply_ite State.lasting]

theorem keepPoison_lasting (s : State) (u : UnitId) (j : Job) (far a len : Nat) (t : State) (h : t.lasting = s.lasting) :
    (keepPoison s u j far a len t).lasting = s.lasting := by
  unfold keepPoison; (repeat' split) <;> simp [h]

@[simp] theorem storedHost_lasting (s : State) (u : UnitId) : (storedHost s u).lasting = s.lasting := rfl

@[simp] theorem movePiece_lasting (m : Move) (c : CoreId) (j : Job) (s : State) (near far len : Nat) : (movePiece m c j s near far len).lasting = s.lasting := by
  unfold movePiece; dsimp only; (repeat' split) <;> (first | (simp; done) | rfl | exact keepPoison_lasting _ _ _ _ _ _ _ (by simp))

@[simp] theorem moveStep_lasting (m : Move) (c : CoreId) (j : Job) (s : State) (p : Nat × Nat × Nat) : (moveStep m c j s p).lasting = s.lasting := by
  unfold moveStep; (repeat' split) <;> simp

@[simp] theorem moveSteps_lasting (m : Move) (c : CoreId) (j : Job) (ps : List (Nat × Nat × Nat)) (s : State) :
    (ps.foldl (moveStep m c j) s).lasting = s.lasting := by
  rw [lasting_foldl]; intro _ _; simp

@[simp] theorem moveEnd_lasting (s : State) (u : UnitId) (a b : Nat) : (moveEnd s u a b).lasting = s.lasting := by
  unfold moveEnd; split <;> simp

@[simp] theorem askHost_lasting (s : State) (u : UnitId) (ps : List (Nat × Nat)) : (askHost s u ps).lasting = s.lasting := by
  unfold askHost; dsimp only; split
  · simp
  · simp; rw [lasting_foldl]; intro _ _; simp

@[simp] theorem moveAll_lasting (m : Move) (c : CoreId) (j : Job) (k : MoveChk) (s : State) : (moveAll m c j k s).lasting = s.lasting := by
  unfold moveAll; dsimp only; (repeat' split) <;> (first | (simp; done) | rfl)

@[simp] theorem performMove_lasting (s : State) (c : CoreId) (j : Job) (m : Move) (k : MoveChk) : (performMove s c j m k).lasting = s.lasting := by
  unfold performMove; dsimp only; (repeat' split) <;> (first | (simp; done) | rfl)

@[simp] theorem startMove_lasting (s : State) (c : CoreId) (j : Job) (d : Line) (k : MoveChk) : (startMove s c j d k).lasting = s.lasting := by
  unfold startMove; simp [apply_ite State.lasting]

/-! ### Machine/Sync.lean -/

@[simp] theorem arriveWait_lasting (s : State) (u : UnitId) (w : SyncWait) : (arriveWait s u w).lasting = s.lasting := by
  unfold arriveWait; (repeat' split) <;> (first | (simp; done) | rfl)

/-! ### Machine/Tensor.lean -/

@[simp] theorem writeSeg_lasting (c : CoreId) (t : Te) (r : List Nat × List Nat × List FVal) (lo n : Nat) (s : State) (g : Seg) : (writeSeg c t r lo n s g).lasting = s.lasting := by
  unfold writeSeg; simp [apply_ite State.lasting]

@[simp] theorem writeIndex_lasting (c : CoreId) (t : Te) (s0 : State) (r : Flagged State) (p : Nat) : (writeIndex c t s0 r p).1.lasting = r.1.lasting := by
  simp [writeIndex]

@[simp] theorem teRow_lasting (c : CoreId) (t : Te) (s0 : State) (cols : List Nat) (r : Flagged State) (p : Nat) : (teRow c t s0 cols r p).1.lasting = r.1.lasting := by
  unfold teRow; (repeat' split) <;> (first | (simp; done) | rfl)

theorem teRows_lasting (c : CoreId) (t : Te) (s0 : State) (cols : List Nat) (l : List Nat) (r : Flagged State) :
    (l.foldl (teRow c t s0 cols) r).1.lasting = r.1.lasting := by
  induction l generalizing r with
  | nil => rfl
  | cons x xs ih => simp [ih]

theorem writeIndexes_lasting (c : CoreId) (t : Te) (s0 : State) (l : List Nat) (r : Flagged State) :
    (l.foldl (writeIndex c t s0) r).1.lasting = r.1.lasting := by
  induction l generalizing r with
  | nil => rfl
  | cons x xs ih => simp [ih]

@[simp] theorem teBlock_lasting (c : CoreId) (t : Te) (s0 : State) (r : Flagged State) (b : List Nat × List Nat) : (teBlock c t s0 r b).1.lasting = r.1.lasting := by
  unfold teBlock; dsimp only; split <;> simp [teRows_lasting, writeIndexes_lasting]

@[simp] theorem blocksEnd_lasting (c : CoreId) (d : Line) (t : Te) (i : Nat) (r : Flagged State) : (blocksEnd c d t i r).lasting = r.1.lasting := by
  unfold blocksEnd; split <;> simp

@[simp] theorem runBlocks_lasting (c : CoreId) (d : Line) (t : Te) (s0 : State) (double : Option Nat) (bs : List (List Nat × List Nat)) (i : Nat)
    (ks : List Chk) (r : Flagged State) : (runBlocks c d t s0 double bs i ks r).lasting = r.1.lasting := by
  induction bs generalizing i ks r with
  | nil => simp [runBlocks]
  | cons b bs ih => unfold runBlocks; dsimp only; (repeat' split) <;> simp [ih]

@[simp] theorem runTe_lasting (s : State) (c : CoreId) (k : TeChk) (d : Line) (t : Te) : (runTe s c k d t).lasting = s.lasting := by
  simp [runTe]

@[simp] theorem startTe_lasting (s : State) (c : CoreId) (k : TeChk) (d : Line) : (startTe s c k d).lasting = s.lasting := by
  unfold startTe; dsimp only; (repeat' split) <;> (first | (simp; done) | rfl)

/-! ### Machine/Thermal.lean -/

@[simp] theorem beginStep_lasting (s : State) (d : BitVec 2) (q : Nat) : (beginStep s d q).lasting = s.lasting := by
  simp [beginStep]

@[simp] theorem throttleNotices_lasting (s : State) (heat cap : Bool) : (throttleNotices s heat cap).lasting = s.lasting := by
  unfold throttleNotices; simp [apply_ite State.lasting]

/-! ### Machine/Vblank.lean -/

@[simp] theorem endFrame_lasting (s : State) (h : HeadId) : (endFrame s h).lasting = s.lasting := by
  simp [endFrame]

@[simp] theorem lostFlips_lasting (s : State) (h : HeadId) (fs : List Flip) : (lostFlips s h fs).lasting = s.lasting := by
  simp [lostFlips]

@[simp] theorem latchSets_lasting (s : State) (h : HeadId) : (latchSets s h).lasting = s.lasting := by
  unfold latchSets; simp [apply_ite State.lasting]

@[simp] theorem repeatFrame_lasting (s : State) (h : HeadId) : (repeatFrame s h).lasting = s.lasting := by
  simp [repeatFrame]

/-! ### Machine/Step.lean -/

@[simp] theorem idle_lasting (s : State) : (idle s).lasting = s.lasting := by
  simp [idle]

end Sys2Proof.Machine
end

