-- ==== Sys2Proof/Laws/LastingExec.lean ====
section
/-! SUPPORT. The commands that answer a next state and leave what lasts: all but those that write a lock, a slot or a
cue sheet, and those that reset the part. -/

namespace Sys2Proof.Machine

/-! ### Machine/HostBridge.lean -/

theorem execDoorbellCmd_keeps (n : SliceId) (s : State) : (execDoorbellCmd n s).keeps s.lasting := by
  unfold execDoorbellCmd; (first | apply inbound_keeps | apply onPage_keeps | apply byMaster_keeps); (repeat' split) <;> (first | (simp; done) | rfl)

theorem execDoorbellMbx_keeps (n : SliceId) (s : State) : (execDoorbellMbx n s).keeps s.lasting := by
  unfold execDoorbellMbx; (first | apply inbound_keeps | apply onPage_keeps | apply byMaster_keeps); (repeat' split) <;> (first | (simp; done) | rfl)

theorem execRingEnable_keeps (n : SliceId) (v : Word) (s : State) : (execRingEnable n v s).keeps s.lasting := by
  unfold execRingEnable; (first | apply inbound_keeps | apply onPage_keeps | apply byMaster_keeps); (repeat' split) <;> (first | (simp; done) | rfl)

theorem execRingDisable_keeps (n : SliceId) (v : Word) (s : State) : (execRingDisable n v s).keeps s.lasting := by
  unfold execRingDisable; (first | apply inbound_keeps | apply onPage_keeps | apply byMaster_keeps); (repeat' split) <;> (first | (simp; done) | rfl)

theorem execCplHeadWrite_keeps (n : SliceId) (v : Word) (s : State) : (execCplHeadWrite n v s).keeps s.lasting := by
  unfold execCplHeadWrite; (first | apply inbound_keeps | apply onPage_keeps | apply byMaster_keeps); (repeat' split) <;> (first | (simp; done) | rfl)

theorem execNtcHeadWrite_keeps (n : SliceId) (v : Word) (s : State) : (execNtcHeadWrite n v s).keeps s.lasting := by
  unfold execNtcHeadWrite; (first | apply inbound_keeps | apply onPage_keeps | apply byMaster_keeps); (repeat' split) <;> (first | (simp; done) | rfl)

theorem execNtcLostRead_keeps (n : SliceId) (speculative : Bool) (s : State) : (execNtcLostRead n speculative s).keeps s.lasting := by
  unfold execNtcLostRead; (first | apply inbound_keeps | apply onPage_keeps | apply byMaster_keeps); (repeat' split) <;> (first | (simp; done) | rfl)

theorem execPdStatusClear_keeps (v : Word) (s : State) : (execPdStatusClear v s).keeps s.lasting := by
  unfold execPdStatusClear; (first | apply inbound_keeps | apply onPage_keeps | apply byMaster_keeps); (repeat' split) <;> (first | (simp; done) | rfl)

theorem execCounterFetchAdd_keeps (n : SliceId) (ctr : CtrId) (v : Word) (s : State) : (execCounterFetchAdd n ctr v s).keeps s.lasting := by
  unfold execCounterFetchAdd; (first | apply inbound_keeps | apply onPage_keeps | apply byMaster_keeps); (repeat' split) <;> (first | (simp; done) | rfl)

theorem execCounterSwapCas_keeps (_n : SliceId) (_ctr : CtrId) (s : State) : (execCounterSwapCas _n _ctr s).keeps s.lasting := by
  unfold execCounterSwapCas; (first | apply inbound_keeps | apply onPage_keeps | apply byMaster_keeps); (repeat' split) <;> (first | (simp; done) | rfl)

theorem floorEnd_lasting (n : SliceId) (f : FloorAns) (s t : State) (h : t.lasting = s.lasting) : (floorEnd n f s t).lasting = s.lasting := by
  cases f <;> simp [floorEnd, h]

theorem execApertureRead_keeps (n : SliceId) (off : BitVec 25) (r : AptRead) (s : State) : (execApertureRead n off r s).keeps s.lasting := by
  unfold execApertureRead; (first | apply inbound_keeps | apply onPage_keeps | apply byMaster_keeps); (repeat' split) <;> (first | (simp; done) | rfl | (rw [floorEnd_lasting] <;> (repeat' split) <;> simp))

theorem execApertureWrite_keeps (n : SliceId) (off : BitVec 25) (data : Bytes) (r : AptWrite) (s : State) : (execApertureWrite n off data r s).keeps s.lasting := by
  unfold execApertureWrite; (first | apply inbound_keeps | apply onPage_keeps | apply byMaster_keeps); (repeat' split) <;> (first | rfl | (simp; done) | (rw [floorEnd_lasting] <;> (repeat' split) <;> simp))

theorem execPasidPrefixedRequest_keeps (_bar2 : Bool) (s : State) : (execPasidPrefixedRequest _bar2 s).keeps s.lasting := by
  unfold execPasidPrefixedRequest; (first | apply inbound_keeps | apply onPage_keeps | apply byMaster_keeps); (repeat' split) <;> (first | (simp; done) | rfl)

theorem execChannelDoorbell_keeps (ch : ChanId) (m : DoorbellBy) (s : State) : (execChannelDoorbell ch m s).keeps s.lasting := by
  unfold execChannelDoorbell; (first | apply inbound_keeps | apply onPage_keeps | apply byMaster_keeps); (repeat' split) <;> (first | (simp; done) | rfl)

theorem execChannelWordAccess_keeps (ch : ChanId) (master : BitVec 4) (write : Bool) (idx : BitVec 4) (v : Word) (s : State) : (execChannelWordAccess ch master write idx v s).keeps s.lasting := by
  unfold execChannelWordAccess; (first | apply inbound_keeps | apply onPage_keeps | apply byMaster_keeps); (repeat' split) <;> (first | (simp; done) | rfl)

theorem execBar0InvalidAccess_keeps (write : Bool) (off : BitVec 24) (size : Nat) (s : State) : (execBar0InvalidAccess write off size s).keeps s.lasting := by
  unfold execBar0InvalidAccess; (first | apply inbound_keeps | apply onPage_keeps | apply byMaster_keeps); (repeat' split) <;> (first | (simp; done) | rfl)

/-! ### Machine/VeInt.lean -/

theorem execVadd_keeps (c : CoreId) (k : Chk) (s : State) : (execVadd c k s).keeps s.lasting := by
  simp [execVadd]

theorem execVsub_keeps (c : CoreId) (k : Chk) (s : State) : (execVsub c k s).keeps s.lasting := by
  simp [execVsub]

theorem execVmul_keeps (c : CoreId) (k : Chk) (s : State) : (execVmul c k s).keeps s.lasting := by
  simp [execVmul]

theorem execVmulh_keeps (c : CoreId) (k : Chk) (s : State) : (execVmulh c k s).keeps s.lasting := by
  simp [execVmulh]

theorem execVmad_keeps (c : CoreId) (k : Chk) (s : State) : (execVmad c k s).keeps s.lasting := by
  simp [execVmad]

theorem execVdot4_keeps (c : CoreId) (k : Chk) (s : State) : (execVdot4 c k s).keeps s.lasting := by
  simp [execVdot4]

theorem execVabs_keeps (c : CoreId) (k : Chk) (s : State) : (execVabs c k s).keeps s.lasting := by
  simp [execVabs]

theorem execVneg_keeps (c : CoreId) (k : Chk) (s : State) : (execVneg c k s).keeps s.lasting := by
  simp [execVneg]

theorem execVmin_keeps (c : CoreId) (k : Chk) (s : State) : (execVmin c k s).keeps s.lasting := by
  simp [execVmin]

theorem execVmax_keeps (c : CoreId) (k : Chk) (s : State) : (execVmax c k s).keeps s.lasting := by
  simp [execVmax]

theorem execVand_keeps (c : CoreId) (k : Chk) (s : State) : (execVand c k s).keeps s.lasting := by
  simp [execVand]

theorem execVor_keeps (c : CoreId) (k : Chk) (s : State) : (execVor c k s).keeps s.lasting := by
  simp [execVor]

theorem execVxor_keeps (c : CoreId) (k : Chk) (s : State) : (execVxor c k s).keeps s.lasting := by
  simp [execVxor]

theorem execVnot_keeps (c : CoreId) (k : Chk) (s : State) : (execVnot c k s).keeps s.lasting := by
  simp [execVnot]

theorem execVshl_keeps (c : CoreId) (k : Chk) (s : State) : (execVshl c k s).keeps s.lasting := by
  simp [execVshl]

theorem execVshr_keeps (c : CoreId) (k : Chk) (s : State) : (execVshr c k s).keeps s.lasting := by
  simp [execVshr]

theorem execVcmp_keeps (c : CoreId) (k : Chk) (s : State) : (execVcmp c k s).keeps s.lasting := by
  simp [execVcmp]

theorem execVclz_keeps (c : CoreId) (k : Chk) (s : State) : (execVclz c k s).keeps s.lasting := by
  simp [execVclz]

/-! ### Machine/VeFloat.lean -/

theorem execFadd_keeps (c : CoreId) (k : Chk) (s : State) : (execFadd c k s).keeps s.lasting := by
  simp [execFadd]

theorem execFsub_keeps (c : CoreId) (k : Chk) (s : State) : (execFsub c k s).keeps s.lasting := by
  simp [execFsub]

theorem execFmul_keeps (c : CoreId) (k : Chk) (s : State) : (execFmul c k s).keeps s.lasting := by
  simp [execFmul]

theorem execFfma_keeps (c : CoreId) (k : Chk) (s : State) : (execFfma c k s).keeps s.lasting := by
  simp [execFfma]

theorem execFfms_keeps (c : CoreId) (k : Chk) (s : State) : (execFfms c k s).keeps s.lasting := by
  simp [execFfms]

theorem execFmin_keeps (c : CoreId) (k : Chk) (s : State) : (execFmin c k s).keeps s.lasting := by
  simp [execFmin]

theorem execFmax_keeps (c : CoreId) (k : Chk) (s : State) : (execFmax c k s).keeps s.lasting := by
  simp [execFmax]

theorem execFabs_keeps (c : CoreId) (k : Chk) (s : State) : (execFabs c k s).keeps s.lasting := by
  simp [execFabs]

theorem execFneg_keeps (c : CoreId) (k : Chk) (s : State) : (execFneg c k s).keeps s.lasting := by
  simp [execFneg]

theorem execFcmp_keeps (c : CoreId) (k : Chk) (s : State) : (execFcmp c k s).keeps s.lasting := by
  simp [execFcmp]

theorem execFdiv_keeps (c : CoreId) (k : Chk) (s : State) : (execFdiv c k s).keeps s.lasting := by
  simp [execFdiv]

theorem execFsqrt_keeps (c : CoreId) (k : Chk) (s : State) : (execFsqrt c k s).keeps s.lasting := by
  simp [execFsqrt]

theorem execFrcp_keeps (c : CoreId) (k : Chk) (s : State) : (execFrcp c k s).keeps s.lasting := by
  simp [execFrcp]

theorem execFrsq_keeps (c : CoreId) (k : Chk) (s : State) : (execFrsq c k s).keeps s.lasting := by
  simp [execFrsq]

theorem execFexp2_keeps (c : CoreId) (k : Chk) (s : State) : (execFexp2 c k s).keeps s.lasting := by
  simp [execFexp2]

theorem execFlog2_keeps (c : CoreId) (k : Chk) (s : State) : (execFlog2 c k s).keeps s.lasting := by
  simp [execFlog2]

theorem execFsin_keeps (c : CoreId) (k : Chk) (s : State) : (execFsin c k s).keeps s.lasting := by
  simp [execFsin]

theorem execFcos_keeps (c : CoreId) (k : Chk) (s : State) : (execFcos c k s).keeps s.lasting := by
  simp [execFcos]

theorem execFtanh_keeps (c : CoreId) (k : Chk) (s : State) : (execFtanh c k s).keeps s.lasting := by
  simp [execFtanh]

theorem execFsigm_keeps (c : CoreId) (k : Chk) (s : State) : (execFsigm c k s).keeps s.lasting := by
  simp [execFsigm]

theorem execFfloor_keeps (c : CoreId) (k : Chk) (s : State) : (execFfloor c k s).keeps s.lasting := by
  simp [execFfloor]

theorem execFround_keeps (c : CoreId) (k : Chk) (s : State) : (execFround c k s).keeps s.lasting := by
  simp [execFround]

theorem execFclamp_keeps (c : CoreId) (k : Chk) (s : State) : (execFclamp c k s).keeps s.lasting := by
  simp [execFclamp]

/-! ### Machine/Sequencer.lean -/

theorem execDescriptorIssue_keeps (u : UnitId) (k : Chk) (s : State) : (execDescriptorIssue u k s).keeps s.lasting := by
  unfold execDescriptorIssue; dsimp only; (repeat' split) <;> (first | (simp; done) | rfl)

theorem execBegin_keeps (u : UnitId) (s : State) : (execBegin u s).keeps s.lasting := by
  unfold execBegin; (repeat' split) <;> (first | (simp; done) | rfl)

theorem execEnd_keeps (u : UnitId) (s : State) : (execEnd u s).keeps s.lasting := by
  unfold execEnd; (repeat' split) <;> (first | (simp; done) | rfl)

theorem execSyncWait_keeps (u : UnitId) (s : State) : (execSyncWait u s).keeps s.lasting := by
  unfold execSyncWait; (repeat' split) <;> (first | (simp; done) | rfl)

theorem execSyncSignalDescriptor_keeps (u : UnitId) (s : State) : (execSyncSignalDescriptor u s).keeps s.lasting := by
  unfold execSyncSignalDescriptor; dsimp only; (repeat' split) <;> (first | (simp; done) | rfl)

theorem execYield_keeps (u : UnitId) (s : State) : (execYield u s).keeps s.lasting := by
  unfold execYield; dsimp only; (repeat' split) <;> (first | (simp; done) | rfl)

theorem execDescriptorComplete_keeps (u : UnitId) (e : EngineId) (s : State) : (execDescriptorComplete u e s).keeps s.lasting := by
  unfold execDescriptorComplete; (repeat' split) <;> (first | (simp; done) | rfl)

/-! ### Machine/Attention.lean -/

theorem execAeAppend_keeps (a : AeId) (k : AeChk) (s : State) : (execAeAppend a k s).keeps s.lasting := by
  unfold execAeAppend; dsimp only; split
  · exact doWhen_keeps _ _ _ (withOp_lasting _ _ _ _ _ _ (by simp))
  · rfl

theorem execAeGather_keeps (a : AeId) (k : AeChk) (s : State) : (execAeGather a k s).keeps s.lasting := by
  unfold execAeGather; dsimp only; split
  · exact doWhen_keeps _ _ _ (withOp_lasting _ _ _ _ _ _ (by simp))
  · rfl

theorem execAeDecode_keeps (a : AeId) (k : AeChk) (s : State) : (execAeDecode a k s).keeps s.lasting := by
  unfold execAeDecode; dsimp only; split
  · apply doWhen_keeps; (repeat' split) <;> simp
  · rfl

/-! ### Machine/Twin.lean -/

theorem execTwinLinkUp_keeps (roundTrip : Nat) (s : State) : (execTwinLinkUp roundTrip s).keeps s.lasting := by
  unfold execTwinLinkUp; dsimp only; split
  · exact doWhen_keeps _ _ _ (by simp)
  · rw [did_keeps]; apply lasting_foldl; intro s k; simp

theorem execTwinLinkDown_keeps (s : State) : (execTwinLinkDown s).keeps s.lasting := by
  simp [execTwinLinkDown]

theorem execTwinCodewordUncorrectable_keeps (s : State) : (execTwinCodewordUncorrectable s).keeps s.lasting := by
  unfold execTwinCodewordUncorrectable; dsimp only; apply doWhen_keeps; (repeat' split) <;> (first | (simp; done) | rfl)

theorem execTwinAlignmentTimeout_keeps (s : State) : (execTwinAlignmentTimeout s).keeps s.lasting := by
  simp [execTwinAlignmentTimeout]

theorem execTwinCueFrame_keeps (f : Option TwinCue) (s : State) : (execTwinCueFrame f s).keeps s.lasting := by
  unfold execTwinCueFrame; (repeat' split) <;> (try (first | (simp; done) | rfl)) <;> (apply doWhen_keeps; (repeat' split) <;> (first | (simp; done) | rfl))

theorem execFarLockRequest_keeps (line : Nat) (s : State) : (execFarLockRequest line s).keeps s.lasting := by
  unfold execFarLockRequest; dsimp only; apply doWhen_keeps; (repeat' split) <;> (first | (simp; done) | rfl)

theorem execFarLockTimeout_keeps (line : Nat) (at_ : Nat) (s : State) : (execFarLockTimeout line at_ s).keeps s.lasting := by
  unfold execFarLockTimeout; dsimp only; simp only [did_keeps]
  split <;> (try rw [retryOps_lasting]) <;> rw [lasting_foldl _ _ _ (by intro s x; split <;> simp)] <;> simp

theorem execFarLockResponse_keeps (line : Nat) (r : FarLockAnswer) (s : State) : (execFarLockResponse line r s).keeps s.lasting := by
  unfold execFarLockResponse; (repeat' split) <;> (try (first | (simp; done) | rfl)) <;> (apply doWhen_keeps; (repeat' split) <;> (first | (simp; done) | rfl))

theorem execTwinChannelCopy_keeps (ch : BitVec 6) (s : State) : (execTwinChannelCopy ch s).keeps s.lasting := by
  unfold execTwinChannelCopy; split
  · simp
  · dsimp only; apply doWhen_keeps; (repeat' split) <;> simp

theorem execTwinChannelCopyDone_keeps (ch : BitVec 6) (r : TwinCopyResult) (data : Bytes) (s : State) : (execTwinChannelCopyDone ch r data s).keeps s.lasting := by
  unfold execTwinChannelCopyDone; (repeat' split) <;> (first | (simp; done) | rfl)

/-! ### Machine/VeMem.lean -/

theorem execVld_keeps (x : CoreChk) (s : State) : (execVld x s).keeps s.lasting := by
  simp [execVld]

theorem execVst_keeps (x : CoreChk) (s : State) : (execVst x s).keeps s.lasting := by
  simp [execVst]

theorem execVlds_keeps (x : CoreChk) (s : State) : (execVlds x s).keeps s.lasting := by
  simp [execVlds]

theorem execVsts_keeps (x : CoreChk) (s : State) : (execVsts x s).keeps s.lasting := by
  simp [execVsts]

theorem execVgath_keeps (x : CoreChk) (s : State) : (execVgath x s).keeps s.lasting := by
  simp [execVgath]

theorem execVscat_keeps (x : CoreChk) (s : State) : (execVscat x s).keeps s.lasting := by
  simp [execVscat]

theorem execVldbc_keeps (x : CoreChk) (s : State) : (execVldbc x s).keeps s.lasting := by
  simp [execVldbc]

theorem execVldpip_keeps (x : CoreChk) (s : State) : (execVldpip x s).keeps s.lasting := by
  simp [execVldpip]

theorem execVstpip_keeps (c : CoreId) (k : Chk) (s : State) : (execVstpip c k s).keeps s.lasting := by
  simp [execVstpip]

theorem execSld_keeps (x : CoreChk) (s : State) : (execSld x s).keeps s.lasting := by
  simp [execSld]

theorem execSst_keeps (x : CoreChk) (s : State) : (execSst x s).keeps s.lasting := by
  simp [execSst]

/-! ### Machine/Texture.lean -/

theorem execTsample_keeps (c : CoreId) (k : Chk) (s : State) : (execTsample c k s).keeps s.lasting := by
  simp [execTsample]

theorem execTsampleResult_keeps (c : TexDone) (s : State) : (execTsampleResult c s).keeps s.lasting := by
  unfold execTsampleResult; dsimp only; (repeat' split) <;> (first | (simp; done) | rfl)

/-! ### Machine/VeLaunch.lean -/

theorem execVeLaunch_keeps (c : CoreId) (s : State) : (execVeLaunch c s).keeps s.lasting := by
  unfold execVeLaunch; (repeat' split) <;> (first | (simp; done) | rfl)

theorem execVeLaunchConv_keeps (c : CoreId) (k : ConvChk) (s : State) : (execVeLaunchConv c k s).keeps s.lasting := by
  unfold execVeLaunchConv; dsimp only; (repeat' split) <;> (first | (simp; done) | rfl)

/-! ### Machine/Display.lean -/

theorem execLineSend_keeps (h : HeadId) (complete : Nat) (s : State) : (execLineSend h complete s).keeps s.lasting := by
  unfold execLineSend; dsimp only; apply doWhen_keeps; (repeat' split) <;> (first | (simp; done) | rfl)

theorem execHeadLinkTrained_keeps (h : HeadId) (s : State) : (execHeadLinkTrained h s).keeps s.lasting := by
  simp [execHeadLinkTrained]

/-! ### Machine/Raster.lean -/

theorem execRfeRender_keeps (r : RfeId) (k : RenderChk) (s : State) : (execRfeRender r k s).keeps s.lasting := by
  unfold execRfeRender; split
  · simp
  · split
    · simp only [did_keeps]; apply withCtx_lasting; intro x; simp
    · apply doWhen_keeps; simp

theorem execRfeClear_keeps (r : RfeId) (s : State) : (execRfeClear r s).keeps s.lasting := by
  unfold execRfeClear; split
  · simp
  · simp only [did_keeps]; apply withCtx_lasting; intro x; simp only [rfeRan_lasting]
    rw [lasting_foldl]
    · simp
    · intro s x; simp

theorem execRfeResolve_keeps (r : RfeId) (s : State) : (execRfeResolve r s).keeps s.lasting := by
  unfold execRfeResolve; split
  · simp
  · simp only [did_keeps]; apply withCtx_lasting; intro x; simp only [rfeRan_lasting]
    rw [lasting_foldl]
    · simp
    · intro s x; simp

theorem execTileIssue_keeps (r : RfeId) (k : Chk) (s : State) : (execTileIssue r k s).keeps s.lasting := by
  unfold execTileIssue; dsimp only; (repeat' split) <;> (first | (simp; done) | rfl)

/-! ### Machine/PyotosCue.lean -/

theorem execCueSet_keeps (n : SliceId) (w : Line) (s : State) : (execCueSet n w s).keeps s.lasting := by
  unfold execCueSet; apply runCmd_keeps; intro t f; dsimp only
  (repeat' split) <;> simp

theorem execCueStart_keeps (n : SliceId) (w : Line) (s : State) : (execCueStart n w s).keeps s.lasting := by
  unfold execCueStart; apply runCmd_keeps; intro t f; (repeat' split) <;> (first | (simp; done) | rfl)

theorem execCueStop_keeps (n : SliceId) (w : Line) (s : State) : (execCueStop n w s).keeps s.lasting := by
  unfold execCueStop; apply runCmd_keeps; intro t f; (repeat' split) <;> (first | (simp; done) | rfl)

theorem execSyncAlloc_keeps (n : SliceId) (w : Line) (s : State) : (execSyncAlloc n w s).keeps s.lasting := by
  unfold execSyncAlloc; apply runCmd_keeps; intro t f; dsimp only
  (repeat' split) <;> (try simp)
  all_goals (rw [lasting_foldl]; intro s x; simp)

theorem execSyncFree_keeps (n : SliceId) (w : Line) (s : State) : (execSyncFree n w s).keeps s.lasting := by
  unfold execSyncFree; apply runCmd_keeps; intro t f; dsimp only
  (repeat' split) <;> (try simp)
  all_goals (rw [lasting_foldl]; intro s x; simp)

theorem execSyncSet_keeps (n : SliceId) (w : Line) (s : State) : (execSyncSet n w s).keeps s.lasting := by
  unfold execSyncSet; apply runCmd_keeps; intro t f; dsimp only
  (repeat' split) <;> simp

theorem execSyncSignal_keeps (n : SliceId) (w : Line) (s : State) : (execSyncSignal n w s).keeps s.lasting := by
  unfold execSyncSignal; apply runCmd_keeps; intro t f; dsimp only
  (repeat' split) <;> simp

theorem execSyncRead_keeps (n : SliceId) (w : Line) (s : State) : (execSyncRead n w s).keeps s.lasting := by
  unfold execSyncRead; apply runCmd_keeps; intro t f; (repeat' split) <;> (first | (simp; done) | rfl)

/-! ### Machine/Memory.lean -/

theorem execRegulationWindow_keeps (at_ : Nat) (s : State) : (execRegulationWindow at_ s).keeps s.lasting := by
  simp [execRegulationWindow]

theorem execPatrolScrubBlock_keeps (k : PatrolRead) (s : State) : (execPatrolScrubBlock k s).keeps s.lasting := by
  unfold execPatrolScrubBlock; dsimp only; apply doWhen_keeps
  have h : ∀ (bad l : List Nat) (s : State), (l.foldl (scrubGranule bad) s).lasting = s.lasting := by
    intro bad l s; apply lasting_foldl; intro s x; simp
  (repeat' split) <;> simp [h]

theorem execFloorSramScrub_keeps (e : SramError) (s : State) : (execFloorSramScrub e s).keeps s.lasting := by
  unfold execFloorSramScrub; apply doWhen_keeps; (repeat' split) <;> (first | (simp; done) | rfl)

theorem execWriteLinkEccError_keeps (page : Nat) (again : Bool) (s : State) : (execWriteLinkEccError page again s).keeps s.lasting := by
  unfold execWriteLinkEccError; dsimp only; apply doWhen_keeps; (repeat' split) <;> (first | (simp; done) | rfl)

theorem execPageTest_keeps (page : Nat) (pass : Bool) (s : State) : (execPageTest page pass s).keeps s.lasting := by
  unfold execPageTest; dsimp only; apply doWhen_keeps; (repeat' split) <;> (first | (simp; done) | rfl)

/-! ### Machine/Cue.lean -/

theorem execCueEdge_keeps (at_ : Nat) (s : State) : (execCueEdge at_ s).keeps s.lasting := by
  unfold execCueEdge; dsimp only; apply doWhen_keeps; (repeat' split) <;> simp

theorem execBeatStart_keeps (at_ : Nat) (s : State) : (execBeatStart at_ s).keeps s.lasting := by
  simp [execBeatStart]

theorem execSceneOpen_keeps (i : SceneId) (at_ : Nat) (s : State) : (execSceneOpen i at_ s).keeps s.lasting := by
  unfold execSceneOpen; (repeat' split) <;> (first | (simp; done) | rfl)

theorem execSceneClose_keeps (i : SceneId) (at_ : Nat) (s : State) : (execSceneClose i at_ s).keeps s.lasting := by
  unfold execSceneClose; (repeat' split) <;> (first | (simp; done) | rfl)

/-! ### Machine/Fabric.lean -/

theorem execFarWriteAck_keeps (tag : BitVec 16) (s : State) : (execFarWriteAck tag s).keeps s.lasting := by
  unfold execFarWriteAck; apply doWhen_keeps; (repeat' split) <;> (first | (simp; done) | rfl)

theorem execTransactionTimeout_keeps (x : TxnTimeout) (s : State) : (execTransactionTimeout x s).keeps s.lasting := by
  unfold execTransactionTimeout; (repeat' split) <;> (first | (simp; done) | rfl)

theorem execFlitCrcFail_keeps (f : FlitFail) (s : State) : (execFlitCrcFail f s).keeps s.lasting := by
  simp [execFlitCrcFail]

theorem execLaneErrorRetrain_keeps (m : ModId) (s : State) : (execLaneErrorRetrain m s).keeps s.lasting := by
  simp [execLaneErrorRetrain]

theorem execLinkRetrainDone_keeps (m : ModId) (bad : List Nat) (s : State) : (execLinkRetrainDone m bad s).keeps s.lasting := by
  unfold execLinkRetrainDone; dsimp only; apply doWhen_keeps; (repeat' split) <;> (first | (simp; done) | rfl)

theorem execRawFrameReceive_keeps (st : RawStream) (d : DieId) (ok0 ok1 : Bool) (payload : BitVec 64) (s : State) : (execRawFrameReceive st d ok0 ok1 payload s).keeps s.lasting := by
  unfold execRawFrameReceive; dsimp only; apply doWhen_keeps; (repeat' split) <;> simp

theorem execCuePredictedEdge_keeps (d : DieId) (s : State) : (execCuePredictedEdge d s).keeps s.lasting := by
  unfold execCuePredictedEdge; dsimp only; apply doWhen_keeps; (repeat' split) <;> (first | (simp; done) | rfl)

theorem execPllLockLoss_keeps (d : DieId) (s : State) : (execPllLockLoss d s).keeps s.lasting := by
  simp [execPllLockLoss]

/-! ### Machine/KvCache.lean -/

theorem execKvRefill_keeps (a : AeId) (s : State) : (execKvRefill a s).keeps s.lasting := by
  unfold execKvRefill; dsimp only; (repeat' split) <;> (first | (simp; done) | rfl)

theorem execSwapOutComplete_keeps (a : AeId) (q : SeqId) (s : State) : (execSwapOutComplete a q s).keeps s.lasting := by
  unfold execSwapOutComplete; dsimp only; (repeat' split) <;> (first | (simp; done) | rfl)

theorem execSwapInComplete_keeps (a : AeId) (q : SeqId) (s : State) : (execSwapInComplete a q s).keeps s.lasting := by
  unfold execSwapInComplete
  have h : ∀ (l : List (Nat × Bytes)) (s : State), (l.foldl (fun s p => s.upMem (fun m => { m with dram := m.dram.write p.1 p.2 })) s).lasting = s.lasting := by
    intro l s; apply lasting_foldl; intro s x; simp
  split
  · simp
  · dsimp only; apply doWhen_keeps; (repeat' split) <;> simp [h]

theorem execEpochPageRelease_keeps (a : AeId) (s : State) : (execEpochPageRelease a s).keeps s.lasting := by
  simp [execEpochPageRelease]

/-! ### Machine/PyotosSeq.lean -/

theorem execKvPoolSet_keeps (n : SliceId) (w : Line) (s : State) : (execKvPoolSet n w s).keeps s.lasting := by
  unfold execKvPoolSet; apply runCmd_keeps; intro t f; unfold kvPoolSet; dsimp only; (repeat' split) <;> (first | (simp; done) | rfl)

theorem execSeqCreate_keeps (n : SliceId) (w : Line) (s : State) : (execSeqCreate n w s).keeps s.lasting := by
  apply runCmd_keeps; intro t f; exact seqCreate_keeps ..

theorem execSeqFree_keeps (n : SliceId) (w : Line) (s : State) : (execSeqFree n w s).keeps s.lasting := by
  apply runCmd_keeps; intro t f; apply withSeq_keeps; intro a q x; split <;> simp

theorem execSeqGlobals_keeps (n : SliceId) (w : Line) (s : State) : (execSeqGlobals n w s).keeps s.lasting := by
  apply runCmd_keeps; intro t f; apply withSeq_keeps; intro a q x; dsimp only; split
  · simp
  · apply withStruct_keeps; intro t' bs; (repeat' split) <;> (try exact True.intro) <;> (try simp)
    all_goals (have := cowTables_lasting _ _ _ _ _ _ _ ‹_›; simp [this])

theorem execSeqSwapOut_keeps (n : SliceId) (w : Line) (s : State) : (execSeqSwapOut n w s).keeps s.lasting := by
  apply runCmd_keeps; intro t f; apply withSeq_keeps; intro a q x; split <;> simp

theorem execSeqSwapIn_keeps (n : SliceId) (w : Line) (s : State) : (execSeqSwapIn n w s).keeps s.lasting := by
  apply runCmd_keeps; intro t f; apply withSeq_keeps; intro a q x; dsimp only; (repeat' split) <;> simp

/-! ### Machine/Audit.lean -/

theorem execConservationAudit_keeps (r : AuditReport) (s : State) : (execConservationAudit r s).keeps s.lasting := by
  unfold execConservationAudit; dsimp only
  (repeat' split) <;> (try simp)
  all_goals (rw [auditLoop_lasting _ _ _ _ _ (by intro t; simp)]; simp)

/-! ### Machine/Camera.lean -/

theorem execCameraTrigger_keeps (c : CamId) (at_ : Nat) (s : State) : (execCameraTrigger c at_ s).keeps s.lasting := by
  unfold execCameraTrigger; dsimp only; apply doWhen_keeps; (repeat' split) <;> (first | (simp; done) | rfl)

theorem execFsyncFall_keeps (p : BitVec 4) (at_ : Nat) (s : State) : (execFsyncFall p at_ s).keeps s.lasting := by
  unfold execFsyncFall; dsimp only; apply doWhen_keeps; (repeat' split) <;> (first | (simp; done) | rfl)

theorem execCsi2FrameStart_keeps (p : CsiPacket) (at_ : Nat) (s : State) : (execCsi2FrameStart p at_ s).keeps s.lasting := by
  unfold execCsi2FrameStart; dsimp only; (repeat' split) <;> (first | (simp; done) | rfl)

theorem execCsi2LongPacket_keeps (p : CsiPacket) (data : Bytes) (s : State) : (execCsi2LongPacket p data s).keeps s.lasting := by
  unfold execCsi2LongPacket; (repeat' split) <;> (first | (simp; done) | rfl)

theorem execCsi2FrameEnd_keeps (p : CsiPacket) (s : State) : (execCsi2FrameEnd p s).keeps s.lasting := by
  unfold execCsi2FrameEnd; dsimp only; (repeat' split) <;> (first | (simp; done) | rfl)

theorem execCameraWindowExpiry_keeps (c : CamId) (at_ : Nat) (s : State) : (execCameraWindowExpiry c at_ s).keeps s.lasting := by
  unfold execCameraWindowExpiry; dsimp only; (repeat' split) <;> (first | (simp; done) | rfl)

theorem execCameraFrameDone_keeps (c : CamId) (s : State) : (execCameraFrameDone c s).keeps s.lasting := by
  unfold execCameraFrameDone; (repeat' split) <;> (first | (simp; done) | rfl)

/-! ### Machine/PyotosGroup.lean -/

theorem execCamSet_keeps (n : SliceId) (w : Line) (s : State) : (execCamSet n w s).keeps s.lasting := by
  unfold execCamSet; apply runCmd_keeps; intro t f; apply withOwned_keeps; simp

theorem execHeadSet_keeps (n : SliceId) (w : Line) (s : State) : (execHeadSet n w s).keeps s.lasting := by
  unfold execHeadSet; apply runCmd_keeps; intro t f; apply withOwned_keeps; simp

theorem execLayerSet_keeps (n : SliceId) (w : Line) (s : State) : (execLayerSet n w s).keeps s.lasting := by
  unfold execLayerSet; apply runCmd_keeps; intro t f; apply withOwned_keeps; split <;> simp

theorem execFallbackLoad_keeps (n : SliceId) (w : Line) (s : State) : (execFallbackLoad n w s).keeps s.lasting := by
  unfold execFallbackLoad; apply runCmd_keeps; intro t f
  apply withOwned_keeps; (repeat' split) <;> (try simp)
  apply withStruct_keeps; intro t' ls; split
  · simp
  · apply withStruct_keeps; intro t' bs; simp

theorem execRouteSet_keeps (n : SliceId) (w : Line) (s : State) : (execRouteSet n w s).keeps s.lasting := by
  unfold execRouteSet; apply runCmd_keeps; intro t f; dsimp only
  split
  · simp
  · apply withOwned_keeps; apply withStruct_keeps; intro t' bs; (repeat' split) <;> (try simp)
    rw [lasting_foldl]; intro s x; simp

theorem execTimebaseSet_keeps (n : SliceId) (w : Line) (s : State) : (execTimebaseSet n w s).keeps s.lasting := by
  unfold execTimebaseSet; apply runCmd_keeps; intro t f; dsimp only
  split
  · simp
  · apply withStruct_keeps; intro t' bs; (repeat' split) <;> simp

theorem execTimeSet_keeps (n : SliceId) (w : Line) (s : State) : (execTimeSet n w s).keeps s.lasting := by
  unfold execTimeSet; apply runCmd_keeps; intro t f; dsimp only
  (repeat' split) <;> simp

theorem execTimeRead_keeps (n : SliceId) (w : Line) (s : State) : (execTimeRead n w s).keeps s.lasting := by
  unfold execTimeRead; apply runCmd_keeps; intro t f; (repeat' split) <;> (first | (simp; done) | rfl)

theorem execSafetyPolicy_keeps (n : SliceId) (w : Line) (s : State) : (execSafetyPolicy n w s).keeps s.lasting := by
  unfold execSafetyPolicy; apply runCmd_keeps; intro t f; simp

theorem execLoopSet_keeps (n : SliceId) (w : Line) (s : State) : (execLoopSet n w s).keeps s.lasting := by
  unfold execLoopSet; apply runCmd_keeps; intro t f; apply withOwned_keeps; simp

theorem execLoopCoeff_keeps (n : SliceId) (w : Line) (s : State) : (execLoopCoeff n w s).keeps s.lasting := by
  apply runCmd_keeps; intro t f; exact loopCoeff_keeps ..

theorem execLoopTuneStop_keeps (n : SliceId) (w : Line) (s : State) : (execLoopTuneStop n w s).keeps s.lasting := by
  unfold execLoopTuneStop; apply runCmd_keeps; intro t f
  apply withOwned_keeps; split <;> simp

theorem execLoopTuneInject_keeps (n : SliceId) (w : Line) (s : State) : (execLoopTuneInject n w s).keeps s.lasting := by
  apply runCmd_keeps; intro t f; exact loopTune_keeps ..

theorem execLoopTuneRelay_keeps (n : SliceId) (w : Line) (s : State) : (execLoopTuneRelay n w s).keeps s.lasting := by
  apply runCmd_keeps; intro t f; exact loopTune_keeps ..

/-! ### Machine/Commits.lean -/

theorem execCommit_keeps (n : SliceId) (w : Line) (s : State) : (execCommit n w s).keeps s.lasting := by
  apply runCmd_keeps; intro t f; exact commitBody_keeps ..

theorem execCancel_keeps (n : SliceId) (w : Line) (s : State) : (execCancel n w s).keeps s.lasting := by
  unfold execCancel; apply runCmd_keeps; intro t f; (repeat' split) <;> (first | (simp; done) | rfl)

/-! ### Machine/ControlLoops.lean -/

theorem execLoopSample_keeps (at_ : Nat) (s : State) : (execLoopSample at_ s).keeps s.lasting := by
  simp [execLoopSample]

/-! ### Machine/Gateway.lean -/

theorem execCanFrameReceive_keeps (c : CanId) (f : CanFrame) (at_ : Nat) (s : State) : (execCanFrameReceive c f at_ s).keeps s.lasting := by
  unfold execCanFrameReceive; dsimp only; apply doWhen_keeps; (repeat' split) <;> (first | (simp; done) | rfl)

theorem execCanFrameTransmitted_keeps (c : CanId) (r : CanTxResult) (at_ : Nat) (s : State) : (execCanFrameTransmitted c r at_ s).keeps s.lasting := by
  unfold execCanFrameTransmitted; dsimp only; (repeat' split) <;> (first | (simp; done) | rfl)

theorem execCanBusoffRecovery_keeps (c : CanId) (s : State) : (execCanBusoffRecovery c s).keeps s.lasting := by
  simp [execCanBusoffRecovery]

theorem execEthPortLinkChange_keeps (p : EthId) (up : Bool) (s : State) : (execEthPortLinkChange p up s).keeps s.lasting := by
  simp [execEthPortLinkChange]

theorem execGclEntry_keeps (p : EthId) (at_ : Nat) (s : State) : (execGclEntry p at_ s).keeps s.lasting := by
  unfold execGclEntry; dsimp only; split
  · apply doWhen_keeps; simp
  · simp

theorem execEthFrameReceive_keeps (p : EthId) (k : EthRx) (data : Bytes) (at_ : Nat) (s : State) : (execEthFrameReceive p k data at_ s).keeps s.lasting := by
  unfold execEthFrameReceive; dsimp only; (repeat' split) <;> (first | (simp; done) | rfl)

theorem execMinGapExpiry_keeps (r : RouteId) (at_ : Nat) (s : State) : (execMinGapExpiry r at_ s).keeps s.lasting := by
  unfold execMinGapExpiry; split
  · apply doWhen_keeps; simp
  · simp

theorem execRouteStale_keeps (r : RouteId) (at_ : Nat) (s : State) : (execRouteStale r at_ s).keeps s.lasting := by
  unfold execRouteStale; dsimp only; (repeat' split) <;> (first | (simp; done) | rfl)

/-! ### Machine/HostLink.lean -/

theorem execPcieLinkDown_keeps (s : State) : (execPcieLinkDown s).keeps s.lasting := by
  simp [execPcieLinkDown]

theorem execD3hotEntry_keeps (s : State) : (execD3hotEntry s).keeps s.lasting := by
  simp [execD3hotEntry]

theorem execD0Return_keeps (s : State) : (execD0Return s).keeps s.lasting := by
  simp [execD0Return]

theorem execHostCompletion_keeps (a : BitVec 64) (st : CplStatus) (data : Bytes) (s : State) : (execHostCompletion a st data s).keeps s.lasting := by
  unfold execHostCompletion; dsimp only; apply doWhen_keeps; split
  · simp
  · simp
  · rw [lasting_foldl]
    · simp
    · intro s x; simp
  · rw [lasting_foldl]
    · simp
    · intro s x; simp

theorem execHostCompletionTimeout_keeps (x : HostTimeout) (s : State) : (execHostCompletionTimeout x s).keeps s.lasting := by
  unfold execHostCompletionTimeout; dsimp only; apply doWhen_keeps
  rw [lasting_foldl]
  · simp; rfl
  · intro s x; simp

theorem execBridgePrefetch_keeps (n : SliceId) (off : BitVec 25) (len : Nat) (at_ : Nat) (s : State) : (execBridgePrefetch n off len at_ s).keeps s.lasting := by
  unfold execBridgePrefetch; dsimp only; apply doWhen_keeps; rw [upHost_lasting _ _ rfl rfl, at_lasting]

theorem execPrefetchExpiry_keeps (at_ : Nat) (s : State) : (execPrefetchExpiry at_ s).keeps s.lasting := by
  unfold execPrefetchExpiry; dsimp only; simp only [did_keeps]; rw [upHost_lasting _ _ rfl rfl, at_lasting]

theorem execNoticeDeliver_keeps (n : SliceId) (s : State) : (execNoticeDeliver n s).keeps s.lasting := by
  simp [execNoticeDeliver]

theorem execCompletionWrite_keeps (n : SliceId) (s : State) : (execCompletionWrite n s).keeps s.lasting := by
  unfold execCompletionWrite; (repeat' split) <;> (first | (simp; done) | rfl)

theorem execCoalesceTimer_keeps (n : SliceId) (v : Fin 2) (at_ : Nat) (s : State) : (execCoalesceTimer n v at_ s).keeps s.lasting := by
  unfold execCoalesceTimer; dsimp only; (repeat' split) <;> (first | (simp; done) | rfl)

/-! ### Machine/PyotosJob.lean -/

theorem execGraphLoad_keeps (n : SliceId) (w : Line) (s : State) : (execGraphLoad n w s).keeps s.lasting := by
  apply runCmd_keeps; intro t f; exact graphLoad_keeps ..

theorem execGraphUnload_keeps (n : SliceId) (w : Line) (s : State) : (execGraphUnload n w s).keeps s.lasting := by
  apply runCmd_keeps; intro t f; exact graphUnload_keeps ..

theorem execJobStart_keeps (n : SliceId) (w : Line) (s : State) : (execJobStart n w s).keeps s.lasting := by
  apply runCmd_keeps; intro t f; exact jobStart_keeps ..

theorem execJobAbort_keeps (n : SliceId) (w : Line) (s : State) : (execJobAbort n w s).keeps s.lasting := by
  unfold execJobAbort; apply runCmd_keeps; intro t f; unfold jobAbort; dsimp only; (repeat' split) <;> (first | (simp; done) | rfl)

/-! ### Machine/PyotosSlice.lean -/

theorem execSliceCreate_keeps (n : SliceId) (w : Line) (s : State) : (execSliceCreate n w s).keeps s.lasting := by
  unfold execSliceCreate; apply runCmd_keeps; intro t f; dsimp only; (repeat' split) <;> simp

theorem execSliceDestroy_keeps (n : SliceId) (w : Line) (s : State) : (execSliceDestroy n w s).keeps s.lasting := by
  unfold execSliceDestroy; apply runCmd_keeps; intro t f; dsimp only; (repeat' split) <;> simp

theorem execTranslationChangeDone_keeps (s : State) : (execTranslationChangeDone s).keeps s.lasting := by
  unfold execTranslationChangeDone; split <;> (try simp)
  all_goals (split <;> simp)

theorem execQuotaSet_keeps (n : SliceId) (w : Line) (s : State) : (execQuotaSet n w s).keeps s.lasting := by
  unfold execQuotaSet; apply runCmd_keeps; intro t f; dsimp only
  (repeat' split) <;> simp

theorem execAssign_keeps (n : SliceId) (w : Line) (s : State) : (execAssign n w s).keeps s.lasting := by
  unfold execAssign; apply runCmd_keeps; intro t f; dsimp only; (repeat' split) <;> simp

theorem execCacheSet_keeps (n : SliceId) (w : Line) (s : State) : (execCacheSet n w s).keeps s.lasting := by
  unfold execCacheSet; apply runCmd_keeps; intro t f; apply withStruct_keeps; intro t' bs; simp

theorem execMemMap_keeps (n : SliceId) (w : Line) (s : State) : (execMemMap n w s).keeps s.lasting := by
  unfold execMemMap; apply runCmd_keeps; intro t f; dsimp only; split
  · simp
  · split
    · rename_i t h; simp [mapRange_lasting _ _ _ _ _ _ _ _ h]
    · simp

theorem execMemUnmap_keeps (n : SliceId) (w : Line) (s : State) : (execMemUnmap n w s).keeps s.lasting := by
  unfold execMemUnmap; apply runCmd_keeps; intro t f; dsimp only; (repeat' split) <;> (try simp)
  all_goals (apply awaitUnmap_keeps; simp)

theorem execApertureSet_keeps (n : SliceId) (w : Line) (s : State) : (execApertureSet n w s).keeps s.lasting := by
  unfold execApertureSet; apply runCmd_keeps; intro t f; (repeat' split) <;> (first | (simp; done) | rfl)

theorem execSwapAreaSet_keeps (n : SliceId) (w : Line) (s : State) : (execSwapAreaSet n w s).keeps s.lasting := by
  unfold execSwapAreaSet; apply runCmd_keeps; intro t f; dsimp only; (repeat' split) <;> simp

/-! ### Machine/Intake.lean -/

theorem execSampleSubmit_keeps (n : SliceId) (w : Line) (s : State) : (execSampleSubmit n w s).keeps s.lasting := by
  unfold execSampleSubmit; apply runCmd_keeps; intro t f; dsimp only; (repeat' split) <;> (try simp)
  all_goals (apply withStruct_keeps; intro t' bs; (repeat' split) <;> simp)

theorem execSampleStart_keeps (e : IntakeEngine) (at_ : Nat) (s : State) : (execSampleStart e at_ s).keeps s.lasting := by
  unfold execSampleStart; dsimp only; (repeat' split) <;> (try (first | (simp; done) | rfl)) <;> (apply doWhen_keeps; (repeat' split) <;> (first | (simp; done) | rfl))

theorem execSampleEnd_keeps (e : IntakeEngine) (at_ : Nat) (s : State) : (execSampleEnd e at_ s).keeps s.lasting := by
  unfold execSampleEnd; dsimp only; (repeat' split) <;> (first | (simp; done) | rfl)

theorem execSampleBudgetExpiry_keeps (e : IntakeEngine) (progress : Nat) (at_ : Nat) (s : State) : (execSampleBudgetExpiry e progress at_ s).keeps s.lasting := by
  unfold execSampleBudgetExpiry; dsimp only; (repeat' split) <;> (first | (simp; done) | rfl)

theorem execDictLoad_keeps (n : SliceId) (w : Line) (s : State) : (execDictLoad n w s).keeps s.lasting := by
  unfold execDictLoad; apply runCmd_keeps; intro t f; dsimp only
  split
  · simp
  · split
    · simp
    · apply withStruct_keeps; intro t' bs; split
      · simp
      · apply withStruct_keeps; intro t'' bs; split <;> simp

theorem execSampleRelease_keeps (n : SliceId) (w : Line) (s : State) : (execSampleRelease n w s).keeps s.lasting := by
  unfold execSampleRelease; apply runCmd_keeps; intro t f; dsimp only; split
  · simp
  · apply awaitUnmap_keeps; simp

/-! ### Machine/Jobs.lean -/

theorem execJobPlace_keeps (i : SceneId) (s : State) : (execJobPlace i s).keeps s.lasting := by
  unfold execJobPlace; simp only [did_keeps]; split
  · rename_i t h; exact placeHead_lasting _ _ _ h
  · simp

theorem execJobTerminate_keeps (u : UnitId) (s : State) : (execJobTerminate u s).keeps s.lasting := by
  unfold execJobTerminate; (repeat' split) <;> (first | (simp; done) | rfl)

theorem execJobEnd_keeps (jid : Nat) (s : State) : (execJobEnd jid s).keeps s.lasting := by
  unfold execJobEnd; dsimp only; (repeat' split) <;> (first | (simp; done) | rfl)

theorem execPreemptRequest_keeps (u : UnitId) (s : State) : (execPreemptRequest u s).keeps s.lasting := by
  unfold execPreemptRequest; (repeat' split) <;> (first | (simp; done) | rfl)

theorem execForcedSpill_keeps (u : UnitId) (s : State) : (execForcedSpill u s).keeps s.lasting := by
  unfold execForcedSpill; (repeat' split) <;> (first | (simp; done) | rfl)

theorem execPreemptSaveDone_keeps (u : UnitId) (s : State) : (execPreemptSaveDone u s).keeps s.lasting := by
  unfold execPreemptSaveDone; dsimp only; (repeat' split) <;> (first | (simp; done) | rfl)

theorem execContextRestore_keeps (u : UnitId) (s : State) : (execContextRestore u s).keeps s.lasting := by
  unfold execContextRestore; dsimp only; (repeat' split) <;> (first | (simp; done) | rfl)

theorem execCoreFence_keeps (u : UnitId) (s : State) : (execCoreFence u s).keeps s.lasting := by
  simp [execCoreFence]

theorem execDisplayReclaim_keeps (h : HeadId) (s : State) : (execDisplayReclaim h s).keeps s.lasting := by
  simp [execDisplayReclaim]

/-! ### Machine/Mailbox.lean -/

theorem execIdentify_keeps (n : SliceId) (s : State) : (execIdentify n s).keeps s.lasting := by
  unfold execIdentify; apply doWhen_keeps; (repeat' split) <;> (first | (simp; done) | rfl)

theorem execEcho_keeps (n : SliceId) (s : State) : (execEcho n s).keeps s.lasting := by
  unfold execEcho; apply doWhen_keeps; (repeat' split) <;> (first | (simp; done) | rfl)

theorem execStopSlice_keeps (n : SliceId) (s : State) : (execStopSlice n s).keeps s.lasting := by
  unfold execStopSlice; apply serveMbx_keeps; dsimp only; (repeat' split) <;> simp

/-! ### Machine/TimeUnit.lean -/

theorem execPtpSyncReceive_keeps (dom : Fin 2) (m : PtpSync) (at_ : Nat) (s : State) : (execPtpSyncReceive dom m at_ s).keeps s.lasting := by
  unfold execPtpSyncReceive; split <;> simp

theorem execFollowSample_keeps (tb : TbId) (at_ : Nat) (s : State) : (execFollowSample tb at_ s).keeps s.lasting := by
  simp [execFollowSample]

theorem execCapEdge_keeps (p : BitVec 3) (falling : Bool) (pulseNs : Nat) (at_ : Nat) (s : State) : (execCapEdge p falling pulseNs at_ s).keeps s.lasting := by
  simp [execCapEdge]

theorem execTimebaseSafePoint_keeps (tb : TbId) (at_ : Nat) (s : State) : (execTimebaseSafePoint tb at_ s).keeps s.lasting := by
  simp [execTimebaseSafePoint]

theorem execTimebaseHoldover_keeps (tb : TbId) (at_ : Nat) (s : State) : (execTimebaseHoldover tb at_ s).keeps s.lasting := by
  simp [execTimebaseHoldover]

theorem execGroupSafePointApply_keeps (g : Word) (at_ : Nat) (s : State) : (execGroupSafePointApply g at_ s).keeps s.lasting := by
  unfold execGroupSafePointApply; dsimp only; apply doWhen_keeps; simp

/-! ### Machine/PyotosAdmin.lean -/

theorem execNop_keeps (n : SliceId) (w : Line) (s : State) : (execNop n w s).keeps s.lasting := by
  unfold execNop; apply runCmd_keeps; intro t f; (repeat' split) <;> (first | (simp; done) | rfl)

theorem execDiagRead_keeps (n : SliceId) (w : Line) (s : State) : (execDiagRead n w s).keeps s.lasting := by
  apply runCmd_keeps; intro t f; exact diagRead_keeps ..

theorem execLogRead_keeps (n : SliceId) (w : Line) (s : State) : (execLogRead n w s).keeps s.lasting := by
  apply runCmd_keeps; intro t f; exact logRead_keeps ..

theorem execPowerSetActive_keeps (n : SliceId) (w : Line) (s : State) : (execPowerSetActive n w s).keeps s.lasting := by
  apply runCmd_keeps; intro t f; exact powerSetActive_keeps ..

theorem execFwUpdate_keeps (n : SliceId) (w : FlashWrite) (s : State) : (execFwUpdate n w s).keeps s.lasting := by
  apply runCmd_keeps; intro t f; exact fwUpdate_keeps ..

/-! ### Machine/Safety.lean -/

theorem execSafetyEventLatch_keeps (i : IslandId) (e : SafetyEvent) (at_ : Nat) (s : State) : (execSafetyEventLatch i e at_ s).keeps s.lasting := by
  simp [execSafetyEventLatch]

theorem execCurtainMessageRepeat_keeps (at_ : Nat) (s : State) : (execCurtainMessageRepeat at_ s).keeps s.lasting := by
  simp [execCurtainMessageRepeat]

theorem execCurtainFrameReceive_keeps (s : State) : (execCurtainFrameReceive s).keeps s.lasting := by
  simp [execCurtainFrameReceive]

theorem execSafeOkToggle_keeps (i : IslandId) (at_ : Nat) (s : State) : (execSafeOkToggle i at_ s).keeps s.lasting := by
  simp [execSafeOkToggle]

theorem execVoterCompare_keeps (i : IslandId) (s0 : Word) (s1 : Word) (s2 : Word) (s : State) : (execVoterCompare i s0 s1 s2 s).keeps s.lasting := by
  unfold execVoterCompare; dsimp only; apply doWhen_keeps; (repeat' split) <;> (first | (simp; done) | rfl)

theorem execUnderstudyRejoin_keeps (i : IslandId) (s : State) : (execUnderstudyRejoin i s).keeps s.lasting := by
  simp [execUnderstudyRejoin]

theorem execIslandRestartDone_keeps (i : IslandId) (s : State) : (execIslandRestartDone i s).keeps s.lasting := by
  unfold execIslandRestartDone; dsimp only; apply doWhen_keeps; (repeat' split) <;> (first | (simp; done) | rfl)

theorem execIslandCheckpointTimer_keeps (i : IslandId) (at_ : Nat) (s : State) : (execIslandCheckpointTimer i at_ s).keeps s.lasting := by
  simp [execIslandCheckpointTimer]

theorem execAliveWord_keeps (at_ : Nat) (s : State) : (execAliveWord at_ s).keeps s.lasting := by
  unfold execAliveWord; apply doWhen_keeps; (repeat' split) <;> (first | (simp; done) | rfl)

theorem execIslandASilent_keeps (at_ : Nat) (s : State) : (execIslandASilent at_ s).keeps s.lasting := by
  simp [execIslandASilent]

theorem execLockstepMismatch_keeps (p : LockstepPair) (s : State) : (execLockstepMismatch p s).keeps s.lasting := by
  simp [execLockstepMismatch]

theorem execTargetedSelfTest_keeps (u : UnitId) (s : State) : (execTargetedSelfTest u s).keeps s.lasting := by
  unfold execTargetedSelfTest; dsimp only; apply doWhen_keeps; (repeat' split) <;> (first | (simp; done) | rfl)

theorem execTargetedSelfTestDone_keeps (u : UnitId) (pass : Bool) (s : State) : (execTargetedSelfTestDone u pass s).keeps s.lasting := by
  unfold execTargetedSelfTestDone; dsimp only; apply doWhen_keeps; (repeat' split) <;> (first | (simp; done) | rfl)

theorem execRehearsalSegment_keeps (k : Checker) (at_ : Nat) (s : State) : (execRehearsalSegment k at_ s).keeps s.lasting := by
  unfold execRehearsalSegment; dsimp only; apply doWhen_keeps; (repeat' split) <;> (first | (simp; done) | rfl)

theorem execRehearsalSegmentEnd_keeps (k : Checker) (detected : Bool) (at_ : Nat) (s : State) : (execRehearsalSegmentEnd k detected at_ s).keeps s.lasting := by
  unfold execRehearsalSegmentEnd; dsimp only; apply doWhen_keeps; (repeat' split) <;> (first | (simp; done) | rfl)

theorem execRehearsalStarved_keeps (k : Checker) (at_ : Nat) (s : State) : (execRehearsalStarved k at_ s).keeps s.lasting := by
  simp [execRehearsalStarved]

theorem execSignatureReady_keeps (j : Nat) (s : State) : (execSignatureReady j s).keeps s.lasting := by
  unfold execSignatureReady; (repeat' split) <;> (try (first | (simp; done) | rfl)) <;> (apply doWhen_keeps; (repeat' split) <;> (first | (simp; done) | rfl))

theorem execCrossRecordReceive_keeps (r : CrossRecord) (s : State) : (execCrossRecordReceive r s).keeps s.lasting := by
  unfold execCrossRecordReceive; dsimp only; apply doWhen_keeps; (repeat' split) <;> (first | (simp; done) | rfl)

/-! ### Machine/Power.lean -/

theorem execRailGood_keeps (g : RailGroup) (s : State) : (execRailGood g s).keeps s.lasting := by
  unfold execRailGood; dsimp only; apply doWhen_keeps; (repeat' split) <;> simp

theorem execRailEnableTimeout_keeps (rail : Fin 9) (s : State) : (execRailEnableTimeout rail s).keeps s.lasting := by
  simp [execRailEnableTimeout]

theorem execRailRetry_keeps (s : State) : (execRailRetry s).keeps s.lasting := by
  simp [execRailRetry]

theorem execBrownOut_keeps (rail : Fin 9) (s : State) : (execBrownOut rail s).keeps s.lasting := by
  unfold execBrownOut; (repeat' split) <;> (try (first | (simp; done) | rfl)) <;> (apply doWhen_keeps; (repeat' split) <;> (first | (simp; done) | rfl))

theorem execPorstNRise_keeps (twin : BitVec 2) (i2c : BitVec 2) (s : State) : (execPorstNRise twin i2c s).keeps s.lasting := by
  unfold execPorstNRise; dsimp only; apply doWhen_keeps; (repeat' split) <;> (first | (simp; done) | rfl)

theorem execSecureRomStart_keeps (r : RomStart) (s : State) : (execSecureRomStart r s).keeps s.lasting := by
  unfold execSecureRomStart; dsimp only; apply doWhen_keeps; (repeat' split) <;> (first | (simp; done) | rfl)

theorem execConfigRetryEnd_keeps (at_ : Nat) (s : State) : (execConfigRetryEnd at_ s).keeps s.lasting := by
  unfold execConfigRetryEnd; apply doWhen_keeps; rw [upHost_lasting _ _ rfl rfl, at_lasting]

theorem execImageVerifyDone_keeps (a : BankRead) (b : BankRead) (s : State) : (execImageVerifyDone a b s).keeps s.lasting := by
  unfold execImageVerifyDone; dsimp only; apply doWhen_keeps; (repeat' split) <;> simp

theorem execTrimAndPllLock_keeps (r : TrimReport) (s : State) : (execTrimAndPllLock r s).keeps s.lasting := by
  unfold execTrimAndPllLock; dsimp only; apply doWhen_keeps; (repeat' split) <;> (first | (simp; done) | rfl)

theorem execDramTrainingDone_keeps (r : TrainReport) (s : State) : (execDramTrainingDone r s).keeps s.lasting := by
  unfold execDramTrainingDone; (repeat' split) <;> (try (first | (simp; done) | rfl)) <;> (apply doWhen_keeps; (repeat' split) <;> (first | (simp; done) | rfl))

theorem execBistComplete_keeps (fail : Option DieId) (islandFail : Bool) (s : State) : (execBistComplete fail islandFail s).keeps s.lasting := by
  unfold execBistComplete; apply doWhen_keeps; (repeat' split) <;> (first | (simp; done) | rfl)

theorem execMemoryInitComplete_keeps (s : State) : (execMemoryInitComplete s).keeps s.lasting := by
  unfold execMemoryInitComplete; dsimp only; apply doWhen_keeps; rw [sideBand_lasting, upHost_lasting _ _ rfl rfl, upMem_lasting]

theorem execWake_keeps (s : State) : (execWake s).keeps s.lasting := by
  unfold execWake; (repeat' split) <;> (first | (simp; done) | rfl)

theorem execCutRequest_keeps (d : CutTarget) (s : State) : (execCutRequest d s).keeps s.lasting := by
  unfold execCutRequest; apply doWhen_keeps; (repeat' split) <;> (first | (simp; done) | rfl)

/-! ### Machine/Management.lean -/

theorem execI2cOffsetWrite_keeps (data : Bytes) (s : State) : (execI2cOffsetWrite data s).keeps s.lasting := by
  unfold execI2cOffsetWrite; dsimp only; apply doWhen_keeps; (repeat' split) <;> (first | (simp; done) | rfl)

theorem execI2cRead_keeps (words : Nat) (s : State) : (execI2cRead words s).keeps s.lasting := by
  simp [execI2cRead]

theorem execI2cSclTimeout_keeps (s : State) : (execI2cSclTimeout s).keeps s.lasting := by
  simp [execI2cSclTimeout]

theorem execJtagDebugAccess_keeps (d : DebugTarget) (invasive : Bool) (s : State) : (execJtagDebugAccess d invasive s).keeps s.lasting := by
  unfold execJtagDebugAccess; apply doWhen_keeps; (repeat' split) <;> (first | (simp; done) | rfl)

theorem execJtagTrst_keeps (s : State) : (execJtagTrst s).keeps s.lasting := by
  simp [execJtagTrst]

theorem execDomainWakeComplete_keeps (d : WakeDomain) (s : State) : (execDomainWakeComplete d s).keeps s.lasting := by
  unfold execDomainWakeComplete; dsimp only; apply doWhen_keeps; (repeat' split) <;> (first | (simp; done) | rfl)

/-! ### Machine/PyotosVehicle.lean -/

theorem execKafSet_keeps (n : SliceId) (w : Line) (s : State) : (execKafSet n w s).keeps s.lasting := by
  apply runCmd_keeps; intro t f; exact kafSet_keeps ..

theorem execSafetyStatus_keeps (n : SliceId) (w : Line) (s : State) : (execSafetyStatus n w s).keeps s.lasting := by
  unfold execSafetyStatus; apply runCmd_keeps; intro t f; apply withDest_keeps; intro a; simp

theorem execTwinMode_keeps (n : SliceId) (w : Line) (s : State) : (execTwinMode n w s).keeps s.lasting := by
  unfold execTwinMode; apply runCmd_keeps; intro t f; (repeat' split) <;> (first | (simp; done) | rfl)

theorem execTwinChannelSet_keeps (n : SliceId) (w : Line) (s : State) : (execTwinChannelSet n w s).keeps s.lasting := by
  unfold execTwinChannelSet; apply runCmd_keeps; intro t f; (repeat' split) <;> (first | (simp; done) | rfl)

theorem execTwinChannelFree_keeps (n : SliceId) (w : Line) (s : State) : (execTwinChannelFree n w s).keeps s.lasting := by
  unfold execTwinChannelFree; apply runCmd_keeps; intro t f; (repeat' split) <;> (first | (simp; done) | rfl)

theorem execEnclaveCreate_keeps (n : SliceId) (w : Line) (s : State) : (execEnclaveCreate n w s).keeps s.lasting := by
  apply runCmd_keeps; intro t f; exact enclaveCreate_keeps ..

theorem execEnclaveLoad_keeps (n : SliceId) (w : Line) (s : State) : (execEnclaveLoad n w s).keeps s.lasting := by
  apply runCmd_keeps; intro t f; exact enclaveLoad_keeps ..

theorem execEnclaveDestroy_keeps (n : SliceId) (w : Line) (s : State) : (execEnclaveDestroy n w s).keeps s.lasting := by
  apply runCmd_keeps; intro t f; exact enclaveDestroy_keeps ..

theorem execCeSplit_keeps (n : SliceId) (w : Line) (s : State) : (execCeSplit n w s).keeps s.lasting := by
  apply runCmd_keeps; intro t f; exact splitBody_keeps ..

theorem execCeJoin_keeps (n : SliceId) (w : Line) (s : State) : (execCeJoin n w s).keeps s.lasting := by
  apply runCmd_keeps; intro t f; exact splitBody_keeps ..

/-! ### Machine/Secure.lean -/

theorem execGetKeys_keeps (s : State) : (execGetKeys s).keeps s.lasting := by
  unfold execGetKeys; apply serveSec_keeps; (repeat' split) <;> simp

theorem execBootInfo_keeps (s : State) : (execBootInfo s).keeps s.lasting := by
  unfold execBootInfo; apply doWhen_keeps; (repeat' split) <;> (first | (simp; done) | rfl)

theorem execDebugChallenge_keeps (s : State) : (execDebugChallenge s).keeps s.lasting := by
  unfold execDebugChallenge; dsimp only; apply doWhen_keeps; (repeat' split) <;> (first | (simp; done) | rfl)

theorem execDebugUnlock_keeps (s : State) : (execDebugUnlock s).keeps s.lasting := by
  unfold execDebugUnlock; apply serveSec_keeps; dsimp only; (repeat' split) <;> simp

theorem execSecWdtKick_keeps (secure : Bool) (v : Word) (s : State) : (execSecWdtKick secure v s).keeps s.lasting := by
  unfold execSecWdtKick; (repeat' split) <;> (first | (simp; done) | rfl)

theorem execSecureWdtWarning_keeps (at_ : Nat) (s : State) : (execSecureWdtWarning at_ s).keeps s.lasting := by
  unfold execSecureWdtWarning; apply doWhen_keeps; rw [upSec_lasting _ _ rfl rfl rfl, at_lasting]

theorem execSecureWdtExpiry_keeps (at_ : Nat) (s : State) : (execSecureWdtExpiry at_ s).keeps s.lasting := by
  unfold execSecureWdtExpiry; dsimp only; apply doWhen_keeps; rw [upPwr_lasting, latch_lasting, upSec_lasting _ _ rfl rfl rfl, at_lasting]

/-! ### Machine/Stream.lean -/

theorem execSeMove_keeps (c : CoreId) (k : MoveChk) (s : State) : (execSeMove c k s).keeps s.lasting := by
  unfold execSeMove; (repeat' split) <;> (first | (simp; done) | rfl)

theorem execSeWindow_keeps (c : CoreId) (s : State) : (execSeWindow c s).keeps s.lasting := by
  unfold execSeWindow; (repeat' split) <;> (first | (simp; done) | rfl)

/-! ### Machine/Sync.lean -/

theorem execSyncSignalApply_keeps (c : CtrId) (s : State) : (execSyncSignalApply c s).keeps s.lasting := by
  unfold execSyncSignalApply; (repeat' split) <;> (first | (simp; done) | rfl)

theorem execSyncWaitArrive_keeps (u : UnitId) (s : State) : (execSyncWaitArrive u s).keeps s.lasting := by
  unfold execSyncWaitArrive; (repeat' split) <;> (first | (simp; done) | rfl)

/-! ### Machine/Tensor.lean -/

theorem execTeOp_keeps (c : CoreId) (k : TeChk) (s : State) : (execTeOp c k s).keeps s.lasting := by
  unfold execTeOp; (repeat' split) <;> (first | (simp; done) | rfl)

/-! ### Machine/Thermal.lean -/

theorem execThermalSensorUpdate_keeps (i : Fin 44) (milliC : Int) (s : State) : (execThermalSensorUpdate i milliC s).keeps s.lasting := by
  unfold execThermalSensorUpdate; apply doWhen_keeps; (repeat' split) <;> (first | (simp; done) | rfl)

theorem execThrottleStep_keeps (d : BitVec 2) (s : State) : (execThrottleStep d s).keeps s.lasting := by
  simp [execThrottleStep]

theorem execThrottleStepUp_keeps (d : BitVec 2) (s : State) : (execThrottleStepUp d s).keeps s.lasting := by
  simp [execThrottleStepUp]

theorem execOperatingPointStepDone_keeps (d : BitVec 2) (s : State) : (execOperatingPointStepDone d s).keeps s.lasting := by
  unfold execOperatingPointStepDone; (repeat' split) <;> (first | (simp; done) | rfl)

theorem execPowerMeasure_keeps (milliW : Nat) (s : State) : (execPowerMeasure milliW s).keeps s.lasting := by
  unfold execPowerMeasure; apply doWhen_keeps; (repeat' split) <;> (first | (simp; done) | rfl)

theorem execThermalEmergency_keeps (s : State) : (execThermalEmergency s).keeps s.lasting := by
  simp [execThermalEmergency]

theorem execThermalRecovery_keeps (s : State) : (execThermalRecovery s).keeps s.lasting := by
  unfold execThermalRecovery; dsimp only; apply doWhen_keeps; split
  · simp
  · rw [upPwr_lasting, lasting_foldl]
    · simp
    · intro s x; simp

theorem execThermalTrip_keeps (s : State) : (execThermalTrip s).keeps s.lasting := by
  simp [execThermalTrip]

theorem execMr4Read_keeps (k : Fin 12) (mult : RefreshRate) (overTemp : Bool) (s : State) : (execMr4Read k mult overTemp s).keeps s.lasting := by
  unfold execMr4Read; dsimp only; apply doWhen_keeps; (repeat' split) <;> (first | (simp; done) | rfl)

theorem execIvrCoreWake_keeps (c : CoreId) (s : State) : (execIvrCoreWake c s).keeps s.lasting := by
  unfold execIvrCoreWake; dsimp only; apply doWhen_keeps; (repeat' split) <;> (first | (simp; done) | rfl)

/-! ### Machine/Vblank.lean -/

theorem execVblankStart_keeps (h : HeadId) (at_ : Nat) (s : State) : (execVblankStart h at_ s).keeps s.lasting := by
  unfold execVblankStart; dsimp only; (repeat' split) <;> simp

/-! ### Machine/VeMove.lean -/

theorem execCvt_keeps (c : CoreId) (k : Chk) (s : State) : (execCvt c k s).keeps s.lasting := by
  simp [execCvt]

theorem execF8pack_keeps (c : CoreId) (k : Chk) (s : State) : (execF8pack c k s).keeps s.lasting := by
  simp [execF8pack]

theorem execF8unpk_keeps (c : CoreId) (k : Chk) (s : State) : (execF8unpk c k s).keeps s.lasting := by
  simp [execF8unpk]

theorem execI4pack_keeps (c : CoreId) (k : Chk) (s : State) : (execI4pack c k s).keeps s.lasting := by
  simp [execI4pack]

theorem execI4unpk_keeps (c : CoreId) (k : Chk) (s : State) : (execI4unpk c k s).keeps s.lasting := by
  simp [execI4unpk]

theorem execNarrow_keeps (c : CoreId) (k : Chk) (s : State) : (execNarrow c k s).keeps s.lasting := by
  simp [execNarrow]

theorem execVsel_keeps (c : CoreId) (k : Chk) (s : State) : (execVsel c k s).keeps s.lasting := by
  simp [execVsel]

theorem execVmov_keeps (c : CoreId) (k : Chk) (s : State) : (execVmov c k s).keeps s.lasting := by
  simp [execVmov]

theorem execVperm_keeps (c : CoreId) (k : Chk) (s : State) : (execVperm c k s).keeps s.lasting := by
  simp [execVperm]

theorem execVrot_keeps (c : CoreId) (k : Chk) (s : State) : (execVrot c k s).keeps s.lasting := by
  simp [execVrot]

theorem execVext_keeps (c : CoreId) (k : Chk) (s : State) : (execVext c k s).keeps s.lasting := by
  simp [execVext]

theorem execVins_keeps (c : CoreId) (k : Chk) (s : State) : (execVins c k s).keeps s.lasting := by
  simp [execVins]

theorem execVredadd_keeps (c : CoreId) (k : Chk) (s : State) : (execVredadd c k s).keeps s.lasting := by
  simp [execVredadd]

theorem execVredmax_keeps (c : CoreId) (k : Chk) (s : State) : (execVredmax c k s).keeps s.lasting := by
  simp [execVredmax]

theorem execVredmin_keeps (c : CoreId) (k : Chk) (s : State) : (execVredmin c k s).keeps s.lasting := by
  simp [execVredmin]

theorem execVidx_keeps (c : CoreId) (k : Chk) (s : State) : (execVidx c k s).keeps s.lasting := by
  simp [execVidx]

theorem execPand_keeps (c : CoreId) (k : Chk) (s : State) : (execPand c k s).keeps s.lasting := by
  simp [execPand]

theorem execPor_keeps (c : CoreId) (k : Chk) (s : State) : (execPor c k s).keeps s.lasting := by
  simp [execPor]

theorem execPnot_keeps (c : CoreId) (k : Chk) (s : State) : (execPnot c k s).keeps s.lasting := by
  simp [execPnot]

theorem execPfirstn_keeps (c : CoreId) (k : Chk) (s : State) : (execPfirstn c k s).keeps s.lasting := by
  simp [execPfirstn]

theorem execPcnt_keeps (c : CoreId) (k : Chk) (s : State) : (execPcnt c k s).keeps s.lasting := by
  simp [execPcnt]

/-! ### Machine/VeScalar.lean -/

theorem execVeNop_keeps (c : CoreId) (s : State) : (execVeNop c s).keeps s.lasting := by
  simp [execVeNop]

theorem execHalt_keeps (c : CoreId) (s : State) : (execHalt c s).keeps s.lasting := by
  simp [execHalt]

theorem execBr_keeps (c : CoreId) (s : State) : (execBr c s).keeps s.lasting := by
  simp [execBr]

theorem execBrz_keeps (x : CoreChk) (s : State) : (execBrz x s).keeps s.lasting := by
  simp [execBrz]

theorem execBrnz_keeps (x : CoreChk) (s : State) : (execBrnz x s).keeps s.lasting := by
  simp [execBrnz]

theorem execBrany_keeps (x : CoreChk) (s : State) : (execBrany x s).keeps s.lasting := by
  simp [execBrany]

theorem execBrnone_keeps (x : CoreChk) (s : State) : (execBrnone x s).keeps s.lasting := by
  simp [execBrnone]

theorem execLoop_keeps (c : CoreId) (k : Chk) (s : State) : (execLoop c k s).keeps s.lasting := by
  simp [execLoop]

theorem execTrap_keeps (c : CoreId) (s : State) : (execTrap c s).keeps s.lasting := by
  simp [execTrap]

theorem execSadd_keeps (c : CoreId) (k : Chk) (s : State) : (execSadd c k s).keeps s.lasting := by
  simp [execSadd]

theorem execSsub_keeps (c : CoreId) (k : Chk) (s : State) : (execSsub c k s).keeps s.lasting := by
  simp [execSsub]

theorem execSmul_keeps (c : CoreId) (k : Chk) (s : State) : (execSmul c k s).keeps s.lasting := by
  simp [execSmul]

theorem execSand_keeps (c : CoreId) (k : Chk) (s : State) : (execSand c k s).keeps s.lasting := by
  simp [execSand]

theorem execSor_keeps (c : CoreId) (k : Chk) (s : State) : (execSor c k s).keeps s.lasting := by
  simp [execSor]

theorem execSxor_keeps (c : CoreId) (k : Chk) (s : State) : (execSxor c k s).keeps s.lasting := by
  simp [execSxor]

theorem execSshl_keeps (c : CoreId) (k : Chk) (s : State) : (execSshl c k s).keeps s.lasting := by
  simp [execSshl]

theorem execSshr_keeps (c : CoreId) (k : Chk) (s : State) : (execSshr c k s).keeps s.lasting := by
  simp [execSshr]

theorem execSmin_keeps (c : CoreId) (k : Chk) (s : State) : (execSmin c k s).keeps s.lasting := by
  simp [execSmin]

theorem execSmax_keeps (c : CoreId) (k : Chk) (s : State) : (execSmax c k s).keeps s.lasting := by
  simp [execSmax]

theorem execScmp_keeps (c : CoreId) (k : Chk) (s : State) : (execScmp c k s).keeps s.lasting := by
  simp [execScmp]

theorem execSmovi_keeps (c : CoreId) (k : Chk) (s : State) : (execSmovi c k s).keeps s.lasting := by
  simp [execSmovi]

end Sys2Proof.Machine
end

