-- ==== Sys2Proof/Laws/Tables.lean ====
section
/-! SUPPORT. Sparse tables: what a read gives after a write, and that a write keeps the canonical form. -/

namespace Sys2Proof.Machine

variable {α : Type} [DecidableEq α]

theorem twf_mono (d : α) {a b : Nat} {t : Tbl α} (hab : a ≤ b) (h : twf d b t = true) : twf d a t = true := by
  cases t with
  | nil => rfl
  | cons p t =>
    obtain ⟨k, v⟩ := p
    simp only [twf, Bool.and_eq_true, decide_eq_true_eq] at h ⊢
    exact ⟨⟨by omega, h.1.2⟩, h.2⟩

/-- Below the bound of a canonical table nothing is listed. -/
theorem tget_below (d : α) {lo i : Nat} {t : Tbl α} (h : twf d lo t = true) (hi : i < lo) : tget d t i = d := by
  induction t generalizing lo with
  | nil => rfl
  | cons p t ih =>
    obtain ⟨k, v⟩ := p
    simp only [twf, Bool.and_eq_true, decide_eq_true_eq] at h
    have hk : k ≠ i := by omega
    simp only [tget, if_neg hk]
    exact ih h.2 (by omega)

theorem tget_tdel_ne {α : Type} (d : α) (t : Tbl α) (i j : Nat) (hj : j ≠ i) : tget d (tdel t i) j = tget d t j := by
  induction t with
  | nil => rfl
  | cons p t ih =>
    obtain ⟨k, w⟩ := p
    simp only [tdel] at ih
    by_cases hk : k = i
    · subst hk
      simp [tdel, tget, Ne.symm hj, ih]
    · simp only [tdel, List.filter_cons, bne_iff_ne, ne_eq, hk, not_false_eq_true, if_true, tget, ih]

theorem tget_tdel_same {α : Type} (d : α) (t : Tbl α) (i : Nat) : tget d (tdel t i) i = d := by
  induction t with
  | nil => rfl
  | cons p t ih =>
    obtain ⟨k, w⟩ := p
    simp only [tdel] at ih
    by_cases hk : k = i
    · subst hk
      simp [tdel, ih]
    · simp only [tdel, List.filter_cons, bne_iff_ne, ne_eq, hk, not_false_eq_true, if_true, tget, if_false, ih]

theorem tget_tins_ne {α : Type} (d : α) (t : Tbl α) (i j : Nat) (v : α) (hj : j ≠ i) : tget d (tins t i v) j = tget d t j := by
  induction t with
  | nil => simp [tins, tget, Ne.symm hj]
  | cons p t ih =>
    obtain ⟨k, w⟩ := p
    simp only [tins]
    split
    · simp only [tget, ih]
    · simp [tget, Ne.symm hj]

theorem tget_tins_same {α : Type} (d : α) (t : Tbl α) (i : Nat) (v : α) (h : ∀ p ∈ t, p.1 ≠ i) : tget d (tins t i v) i = v := by
  induction t with
  | nil => simp [tins, tget]
  | cons p t ih =>
    obtain ⟨k, w⟩ := p
    have hk : k ≠ i := h (k, w) (by simp)
    simp only [tins]
    split
    · simp only [tget, if_neg hk]
      exact ih (fun p hp => h p (by simp [hp]))
    · simp [tget]

theorem tdel_ne {α : Type} (t : Tbl α) (i : Nat) : ∀ p ∈ tdel t i, p.1 ≠ i := by
  intro p hp
  simpa [tdel] using (List.mem_filter.mp hp).2

/-- Another entry is unchanged by a write. -/
theorem tget_tset_ne (d : α) (t : Tbl α) (i j : Nat) (v : α) (hj : j ≠ i) : tget d (tset d t i v) j = tget d t j := by
  simp only [tset]
  split
  · exact tget_tdel_ne d t i j hj
  · rw [tget_tins_ne d _ i j v hj, tget_tdel_ne d t i j hj]

/-- The entry written reads as what was written. -/
@[simp] theorem tget_tset_same (d : α) (t : Tbl α) (i : Nat) (v : α) : tget d (tset d t i v) i = v := by
  simp only [tset]
  split
  · rename_i hv; subst hv; exact tget_tdel_same v t i
  · exact tget_tins_same d _ i v (tdel_ne t i)

/-- Any entry after a write. -/
theorem tget_tset (d : α) (t : Tbl α) (i j : Nat) (v : α) : tget d (tset d t i v) j = if j = i then v else tget d t j := by
  by_cases h : j = i
  · subst h; simp
  · simp [h, tget_tset_ne]

theorem tdel_tins {α : Type} (t : Tbl α) (i : Nat) (v : α) : tdel (tins t i v) i = tdel t i := by
  induction t with
  | nil => simp [tins, tdel]
  | cons p t ih =>
    obtain ⟨k, w⟩ := p
    simp only [tins]
    split
    · simp only [tdel, List.filter_cons] at ih ⊢
      rw [ih]
    · simp [tdel]

theorem tdel_tdel {α : Type} (t : Tbl α) (i : Nat) : tdel (tdel t i) i = tdel t i := by simp [tdel, List.filter_filter]

/-- The second of two writes of one entry stands. -/
@[simp] theorem tset_tset (d : α) (t : Tbl α) (i : Nat) (v w : α) : tset d (tset d t i v) i w = tset d t i w := by
  have h : tdel (tset d t i v) i = tdel t i := by
    simp only [tset]
    split
    · exact tdel_tdel t i
    · rw [tdel_tins, tdel_tdel]
  simp only [tset] at h ⊢
  rw [h]

theorem twf_tdel (d : α) {lo : Nat} {t : Tbl α} (i : Nat) (h : twf d lo t = true) : twf d lo (tdel t i) = true := by
  induction t generalizing lo with
  | nil => rfl
  | cons p t ih =>
    obtain ⟨k, v⟩ := p
    simp only [twf, Bool.and_eq_true, decide_eq_true_eq] at h
    simp only [tdel, List.filter_cons]
    split
    · simp only [twf, Bool.and_eq_true, decide_eq_true_eq]
      exact ⟨h.1, ih h.2⟩
    · exact twf_mono d (by omega) (ih h.2)

theorem twf_tins (d : α) {lo : Nat} {t : Tbl α} (i : Nat) (v : α) (h : twf d lo t = true) (hi : lo ≤ i) (hv : v ≠ d)
    (hn : ∀ p ∈ t, p.1 ≠ i) : twf d lo (tins t i v) = true := by
  induction t generalizing lo with
  | nil => simp [tins, twf, hi, hv]
  | cons p t ih =>
    obtain ⟨k, w⟩ := p
    have hk : k ≠ i := hn (k, w) (by simp)
    simp only [twf, Bool.and_eq_true, decide_eq_true_eq] at h
    simp only [tins]
    split
    · simp only [twf, Bool.and_eq_true, decide_eq_true_eq]
      exact ⟨h.1, ih h.2 (by omega) (fun p hp => hn p (by simp [hp]))⟩
    · simp only [twf, Bool.and_eq_true, decide_eq_true_eq]
      exact ⟨⟨hi, hv⟩, ⟨by omega, h.1.2⟩, h.2⟩

/-- A write keeps the canonical form. -/
theorem twf_tset (d : α) {lo : Nat} {t : Tbl α} (i : Nat) (v : α) (h : twf d lo t = true) (hi : lo ≤ i) :
    twf d lo (tset d t i v) = true := by
  simp only [tset]
  split
  · exact twf_tdel d i h
  · exact twf_tins d i v (twf_tdel d i h) hi (by assumption) (tdel_ne t i)

theorem twf_tup (d : α) {t : Tbl α} (i : Nat) (f : α → α) (h : twf d 0 t = true) : twf d 0 (tup d t i f) = true :=
  twf_tset d i _ h (by omega)

@[simp] theorem tget_tup_same (d : α) (t : Tbl α) (i : Nat) (f : α → α) : tget d (tup d t i f) i = f (tget d t i) :=
  tget_tset_same d t i _

theorem tget_tup_ne (d : α) (t : Tbl α) (i j : Nat) (f : α → α) (hj : j ≠ i) : tget d (tup d t i f) j = tget d t j :=
  tget_tset_ne d t i j _ hj

/-- Taking entries out keeps the canonical form. -/
theorem twf_filter (d : α) (p : Nat × α → Bool) {lo : Nat} {t : Tbl α} (h : twf d lo t = true) : twf d lo (t.filter p) = true := by
  induction t generalizing lo with
  | nil => rfl
  | cons q t ih =>
    obtain ⟨k, v⟩ := q
    simp only [twf, Bool.and_eq_true, decide_eq_true_eq] at h
    simp only [List.filter]
    split
    · simp only [twf, Bool.and_eq_true, decide_eq_true_eq]
      exact ⟨h.1, ih h.2⟩
    · exact twf_mono d (by omega) (ih h.2)

/-- Writing a list of entries keeps the canonical form. -/
theorem twf_foldl {β : Type} (d : α) (f : Tbl α → β → Tbl α) (hf : ∀ t b, twf d 0 t = true → twf d 0 (f t b) = true)
    (l : List β) {t : Tbl α} (h : twf d 0 t = true) : twf d 0 (l.foldl f t) = true := by
  induction l generalizing t with
  | nil => exact h
  | cons x xs ih => exact ih (hf t x h)

end Sys2Proof.Machine
end

