-- ==== Sys2Proof/Laws/Memory.lean ====
section
/-! SUPPORT. Memory: what a read gives after a write, and that every operation on memory keeps its canonical form. -/

namespace Sys2Proof.Machine

/-- The fold of `Ram.poke`. -/
theorem poke_fold_wf {α : Type} [DecidableEq α] (d : α) (g : Byte → α) (a : Nat) (l : List (Byte × Nat)) {t : Tbl α}
    (h : twf d 0 t = true) : twf d 0 (l.foldl (fun t p => tset d t (a + p.2) (g p.1)) t) = true :=
  twf_foldl d _ (fun _ _ ht => twf_tset d _ _ ht (by omega)) l h

theorem Ram.wf_poke {m : Ram} (a : Nat) (bs : Bytes) (h : m.wf = true) : (m.poke a bs).wf = true := by
  simp only [Ram.wf, Bool.and_eq_true] at h ⊢
  exact ⟨poke_fold_wf 0 id a bs.zipIdx h.1, h.2⟩

theorem Ram.wf_write {m : Ram} (a : Nat) (bs : Bytes) (h : m.wf = true) : (m.write a bs).wf = true := by
  have h1 := Ram.wf_poke a bs h
  simp only [Ram.wf, Bool.and_eq_true] at h h1 ⊢
  refine ⟨h1.1, twf_foldl 0 _ (fun t g ht => ?_) _ h.2⟩
  dsimp only
  split
  · exact twf_tset 0 _ _ ht (by omega)
  · split
    · exact ht
    · exact twf_tset 0 _ _ ht (by omega)

theorem Ram.wf_poison {m : Ram} (a len : Nat) (h : m.wf = true) : (m.poison a len).wf = true := by
  simp only [Ram.wf, Bool.and_eq_true] at h ⊢
  exact ⟨h.1, twf_foldl 0 _ (fun t g ht => twf_tset 0 _ _ ht (by omega)) _ h.2⟩

theorem Ram.wf_clear {m : Ram} (a len : Nat) (h : m.wf = true) : (m.clear a len).wf = true := by
  simp only [Ram.wf, Bool.and_eq_true] at h ⊢
  exact ⟨twf_filter 0 _ h.1, twf_filter 0 _ h.2⟩

/-- A byte of a RAM after some bytes are stored from `a`. -/
theorem poke_fold_get {α : Type} [DecidableEq α] (d : α) (g : Byte → α) (a k : Nat) (bs : Bytes) (t : Tbl α) (x : Nat) :
    tget d ((bs.zipIdx k).foldl (fun t p => tset d t (a + p.2) (g p.1)) t) x =
      if a + k ≤ x ∧ x < a + k + bs.length then (bs[x - (a + k)]?.map g).getD d else tget d t x := by
  induction bs generalizing t k with
  | nil =>
    have : ¬ (a + k ≤ x ∧ x < a + k) := by omega
    simp [this]
  | cons b bs ih =>
    simp only [List.zipIdx_cons, List.foldl_cons]
    rw [ih (k + 1)]
    by_cases h1 : x = a + k
    · subst h1
      have h2 : ¬ (a + (k + 1) ≤ a + k ∧ a + k < a + (k + 1) + bs.length) := by omega
      rw [if_neg h2, tget_tset_same, if_pos ⟨by omega, by simp only [List.length_cons]; omega⟩]
      simp
    · rw [tget_tset_ne d _ _ _ _ h1]
      by_cases h2 : a + (k + 1) ≤ x ∧ x < a + (k + 1) + bs.length
      · have h3 : a + k ≤ x ∧ x < a + k + (b :: bs).length := by simp only [List.length_cons]; omega
        have h4 : x - (a + k) = (x - (a + (k + 1))) + 1 := by omega
        rw [if_pos h2, if_pos h3, h4, List.getElem?_cons_succ]
      · have h3 : ¬ (a + k ≤ x ∧ x < a + k + (b :: bs).length) := by simp only [List.length_cons]; omega
        rw [if_neg h2, if_neg h3]

theorem Ram.poke_byte (m : Ram) (a : Nat) (bs : Bytes) (x : Nat) :
    tget 0 (m.poke a bs).bytes x = if a ≤ x ∧ x < a + bs.length then bs.getD (x - a) 0 else tget 0 m.bytes x := by
  have := poke_fold_get (0 : Byte) id a 0 bs m.bytes x
  simp only [id] at this
  simp only [Ram.poke, this, Nat.add_zero]
  split <;> simp [List.getD]

/-- The bytes of a RAM after a write: those written, and every other as before. -/
theorem Ram.write_byte (m : Ram) (a : Nat) (bs : Bytes) (x : Nat) :
    tget 0 (m.write a bs).bytes x = if a ≤ x ∧ x < a + bs.length then bs.getD (x - a) 0 else tget 0 m.bytes x :=
  Ram.poke_byte m a bs x

/-- A read of a range gives what was written to it. -/
theorem Ram.read_write (m : Ram) (a : Nat) (bs : Bytes) : (m.write a bs).read a bs.length = bs := by
  apply List.ext_getElem
  · simp [Ram.read]
  · intro i h1 h2
    simp only [Ram.read, List.getElem_map, List.getElem_range, Ram.write_byte m a bs]
    rw [if_pos (by omega)]
    simp [List.getD, h2]

/-- Bytes outside a cleared range are unchanged; those inside read as zero. -/
theorem clear_get (t : Tbl Byte) (a len x : Nat) :
    tget 0 (t.filter (fun p => p.1 < a || a + len ≤ p.1)) x = if a ≤ x ∧ x < a + len then 0 else tget 0 t x := by
  induction t with
  | nil => simp [tget]
  | cons p t ih =>
    obtain ⟨k, v⟩ := p
    simp only [List.filter]
    by_cases hk : k = x
    · subst hk
      by_cases hin : a ≤ k ∧ k < a + len
      · have : (decide (k < a) || decide (a + len ≤ k)) = false := by simp; omega
        rw [this, ih, if_pos hin, if_pos hin]
      · have : (decide (k < a) || decide (a + len ≤ k)) = true := by simp; omega
        rw [this, if_neg hin]
        simp [tget]
    · split
      · simp only [tget, if_neg hk, ih]
      · simp only [tget, if_neg hk, ih]

theorem Ram.clear_byte (m : Ram) (a len x : Nat) :
    tget 0 (m.clear a len).bytes x = if a ≤ x ∧ x < a + len then 0 else tget 0 m.bytes x := clear_get m.bytes a len x

/-! ### The state's memory -/

theorem setOwner_wf {s : State} (p : Nat) (o : Owner) (h : s.mem.wf = true) : (setOwner s p o).mem.wf = true := by
  simp only [setOwner, State.upMem_mem, MemSt.wf, Bool.and_eq_true] at h ⊢
  exact ⟨h.1, twf_tset none _ _ h.2 (by omega)⟩

theorem pokeHost_wf {s : State} (a : Nat) (bs : Bytes) (h : s.mem.wf = true) : (pokeHost s a bs).mem.wf = true := by
  simp only [pokeHost, State.upMem_mem, MemSt.wf, Bool.and_eq_true] at h ⊢
  exact ⟨⟨h.1.1, poke_fold_wf none some a bs.zipIdx h.1.2⟩, h.2⟩

theorem releasePage_wf {s : State} (p : Nat) (h : s.mem.wf = true) : (releasePage s p).mem.wf = true := by
  unfold releasePage
  apply setOwner_wf
  simp only [State.upMem_mem, MemSt.wf, Bool.and_eq_true] at h ⊢
  exact ⟨⟨⟨Ram.wf_clear _ _ h.1.1.1, h.1.1.2⟩, h.1.2⟩, h.2⟩

theorem hostWrite_wf {s : State} (n : SliceId) (a : Nat) (bs : Bytes) (p : Bool) (h : s.mem.wf = true) :
    (hostWrite s n a bs p).mem.wf = true := by
  unfold hostWrite
  split
  · exact pokeHost_wf a bs h
  · exact h

theorem writeChunk_wf (n : SliceId) (a : Actor) {s : State} (c : Nat × Bytes) (h : s.mem.wf = true) :
    (writeChunk n a s c).mem.wf = true := by
  unfold writeChunk
  split
  · simp only [State.upMem_mem, MemSt.wf, Bool.and_eq_true] at h ⊢
    exact ⟨⟨⟨Ram.wf_write _ _ h.1.1.1, h.1.1.2⟩, h.1.2⟩, h.2⟩
  · exact hostWrite_wf n _ _ _ h
  · exact h

theorem foldl_wf {α : Type} (f : State → α → State) (hf : ∀ s x, s.mem.wf = true → (f s x).mem.wf = true) (l : List α) {s : State}
    (h : s.mem.wf = true) : (l.foldl f s).mem.wf = true := by
  induction l generalizing s with
  | nil => exact h
  | cons x xs ih => exact ih (hf s x h)

/-- A write of slice memory keeps the canonical form. -/
theorem writeVa_wf {s : State} (n : SliceId) (a : Actor) (va : Nat) (bs : Bytes) (h : s.mem.wf = true) :
    (writeVa s n a va bs).mem.wf = true := foldl_wf _ (fun _ c hs => writeChunk_wf n a c hs) _ h

theorem grantPages_wf {s : State} (ps : List Nat) (o : Owner) (h : s.mem.wf = true) : (grantPages s ps o).mem.wf = true :=
  foldl_wf _ (fun _ p hs => setOwner_wf p _ hs) _ h

theorem releasePages_wf {s : State} (ps : List Nat) (h : s.mem.wf = true) : (releasePages s ps).mem.wf = true :=
  foldl_wf _ (fun _ p hs => releasePage_wf p hs) _ h

theorem putPages_wf {s : State} (ps : List Nat) (bs : Bytes) (h : s.mem.wf = true) : (putPages s ps bs).mem.wf = true := by
  unfold putPages
  split
  · exact h
  refine foldl_wf _ (fun s p hs => ?_) _ h
  simp only [State.upMem_mem, MemSt.wf, Bool.and_eq_true] at hs ⊢
  exact ⟨⟨⟨Ram.wf_write _ _ hs.1.1.1, hs.1.1.2⟩, hs.1.2⟩, hs.2⟩

/-- Memory right after reset is in canonical form. -/
theorem reset_mem_wf : State.reset.mem.wf = true := by decide

end Sys2Proof.Machine
end

