-- ==== Sys2Proof/Laws/Ops.lean ====
section
/-! SUPPORT. The parts of the state that tables hold: what a part reads as after an update of it, and of another. -/

namespace Sys2Proof.Machine

/-! ### Slices -/

@[simp] theorem slice_upSlice (s : State) (n : SliceId) (f : Slice → Slice) : (s.upSlice n f).slice n = f (s.slice n) := by
  simp [State.upSlice, State.slice]

theorem slice_upSlice_ne (s : State) (n m : SliceId) (f : Slice → Slice) (h : m ≠ n) : (s.upSlice n f).slice m = s.slice m := by
  have : m.toNat ≠ n.toNat := fun e => h (BitVec.eq_of_toNat_eq e)
  simp [State.upSlice, State.slice, tget_tup_ne, this]

@[simp] theorem upSlice_upSlice (s : State) (n : SliceId) (f g : Slice → Slice) : (s.upSlice n f).upSlice n g = s.upSlice n (fun x => g (f x)) := by
  simp [State.upSlice, tup]

/-! ### Units -/

theorem UnitId.code_inj {u v : UnitId} (h : UnitId.code u = UnitId.code v) : u = v := by
  cases u with
  | core c => cases v with
    | core d => simp only [UnitId.code] at h; rw [BitVec.eq_of_toNat_eq h]
    | ae a => simp only [UnitId.code] at h; have := c.isLt; omega
    | rfe r => simp only [UnitId.code] at h; have := c.isLt; omega
  | ae a => cases v with
    | core d => simp only [UnitId.code] at h; have := d.isLt; omega
    | ae b => simp only [UnitId.code] at h; rw [BitVec.eq_of_toNat_eq (show a.toNat = b.toNat by omega)]
    | rfe r => simp only [UnitId.code] at h; have := a.isLt; omega
  | rfe r => cases v with
    | core d => simp only [UnitId.code] at h; have := d.isLt; omega
    | ae a => simp only [UnitId.code] at h; have := a.isLt; omega
    | rfe q => simp only [UnitId.code] at h; rw [BitVec.eq_of_toNat_eq (show r.toNat = q.toNat by omega)]

@[simp] theorem unit_upUnit (s : State) (u : UnitId) (f : UnitSt → UnitSt) : (s.upUnit u f).unit u = f (s.unit u) := by
  simp [State.upUnit, State.unit]

theorem unit_upUnit_ne (s : State) (u v : UnitId) (f : UnitSt → UnitSt) (h : v ≠ u) : (s.upUnit u f).unit v = s.unit v := by
  have : UnitId.code v ≠ UnitId.code u := fun e => h (UnitId.code_inj e)
  simp [State.upUnit, State.unit, tget_tup_ne, this]

@[simp] theorem upUnit_upUnit (s : State) (u : UnitId) (f g : UnitSt → UnitSt) : (s.upUnit u f).upUnit u g = s.upUnit u (fun x => g (f x)) := by
  simp [State.upUnit, tup]

@[simp] theorem unit_upSeq (s : State) (u : UnitId) (f : Seq → Seq) : (s.upSeq u f).unit u = { s.unit u with seq := f (s.unit u).seq } := by
  simp [State.upSeq]

@[simp] theorem upSeq_upSeq (s : State) (u : UnitId) (f g : Seq → Seq) : (s.upSeq u f).upSeq u g = s.upSeq u (fun x => g (f x)) := by
  simp [State.upSeq]

/-! ### Counters -/

@[simp] theorem ctr_upCtr (s : State) (c : CtrId) (f : Ctr → Ctr) : (s.upCtr c f).ctr c = f (s.ctr c) := by
  simp [State.upCtr, State.ctr]

theorem ctr_upCtr_ne (s : State) (c d : CtrId) (f : Ctr → Ctr) (h : d ≠ c) : (s.upCtr c f).ctr d = s.ctr d := by
  have : d.toNat ≠ c.toNat := fun e => h (BitVec.eq_of_toNat_eq e)
  simp [State.upCtr, State.ctr, tget_tup_ne, this]

@[simp] theorem upCtr_upCtr (s : State) (c : CtrId) (f g : Ctr → Ctr) : (s.upCtr c f).upCtr c g = s.upCtr c (fun x => g (f x)) := by
  simp [State.upCtr, tup]

/-! ### Cores and vector engines -/

@[simp] theorem core_upCore (s : State) (c : CoreId) (f : CoreSt → CoreSt) : (s.upCore c f).core c = f (s.core c) := by
  simp [State.upCore, State.core]

@[simp] theorem ve_upVe (s : State) (c : CoreId) (f : VeSt → VeSt) : (s.upVe c f).ve c = f (s.ve c) := by
  simp [State.upVe, State.ve]

theorem ve_upVe_ne (s : State) (c d : CoreId) (f : VeSt → VeSt) (h : d ≠ c) : (s.upVe c f).ve d = s.ve d := by
  have : d.toNat ≠ c.toNat := fun e => h (BitVec.eq_of_toNat_eq e)
  simp [State.upVe, State.ve, State.upCore, State.core, tget_tup_ne, this]

@[simp] theorem upVe_upVe (s : State) (c : CoreId) (f g : VeSt → VeSt) : (s.upVe c f).upVe c g = s.upVe c (fun x => g (f x)) := by
  simp [State.upVe, State.upCore, tup]

/-! ### Accessors across the other updates -/

@[simp] theorem slice_upMem (s : State) (f : MemSt → MemSt) (x : SliceId) : (s.upMem f).slice x = s.slice x := rfl
@[simp] theorem unit_upMem (s : State) (f : MemSt → MemSt) (x : UnitId) : (s.upMem f).unit x = s.unit x := rfl
@[simp] theorem ctr_upMem (s : State) (f : MemSt → MemSt) (x : CtrId) : (s.upMem f).ctr x = s.ctr x := rfl
@[simp] theorem core_upMem (s : State) (f : MemSt → MemSt) (x : CoreId) : (s.upMem f).core x = s.core x := rfl
@[simp] theorem ve_upMem (s : State) (f : MemSt → MemSt) (x : CoreId) : (s.upMem f).ve x = s.ve x := rfl
@[simp] theorem group_upMem (s : State) (f : MemSt → MemSt) (x : Nat) : (s.upMem f).group x = s.group x := rfl
@[simp] theorem job_upMem (s : State) (f : MemSt → MemSt) (x : Nat) : (s.upMem f).job x = s.job x := rfl
@[simp] theorem slice_upHost (s : State) (f : HostSt → HostSt) (x : SliceId) : (s.upHost f).slice x = s.slice x := rfl
@[simp] theorem unit_upHost (s : State) (f : HostSt → HostSt) (x : UnitId) : (s.upHost f).unit x = s.unit x := rfl
@[simp] theorem ctr_upHost (s : State) (f : HostSt → HostSt) (x : CtrId) : (s.upHost f).ctr x = s.ctr x := rfl
@[simp] theorem core_upHost (s : State) (f : HostSt → HostSt) (x : CoreId) : (s.upHost f).core x = s.core x := rfl
@[simp] theorem ve_upHost (s : State) (f : HostSt → HostSt) (x : CoreId) : (s.upHost f).ve x = s.ve x := rfl
@[simp] theorem group_upHost (s : State) (f : HostSt → HostSt) (x : Nat) : (s.upHost f).group x = s.group x := rfl
@[simp] theorem job_upHost (s : State) (f : HostSt → HostSt) (x : Nat) : (s.upHost f).job x = s.job x := rfl
@[simp] theorem slice_upCue (s : State) (f : CueSt → CueSt) (x : SliceId) : (s.upCue f).slice x = s.slice x := rfl
@[simp] theorem unit_upCue (s : State) (f : CueSt → CueSt) (x : UnitId) : (s.upCue f).unit x = s.unit x := rfl
@[simp] theorem ctr_upCue (s : State) (f : CueSt → CueSt) (x : CtrId) : (s.upCue f).ctr x = s.ctr x := rfl
@[simp] theorem core_upCue (s : State) (f : CueSt → CueSt) (x : CoreId) : (s.upCue f).core x = s.core x := rfl
@[simp] theorem ve_upCue (s : State) (f : CueSt → CueSt) (x : CoreId) : (s.upCue f).ve x = s.ve x := rfl
@[simp] theorem group_upCue (s : State) (f : CueSt → CueSt) (x : Nat) : (s.upCue f).group x = s.group x := rfl
@[simp] theorem job_upCue (s : State) (f : CueSt → CueSt) (x : Nat) : (s.upCue f).job x = s.job x := rfl
@[simp] theorem slice_upFab (s : State) (f : FabSt → FabSt) (x : SliceId) : (s.upFab f).slice x = s.slice x := rfl
@[simp] theorem unit_upFab (s : State) (f : FabSt → FabSt) (x : UnitId) : (s.upFab f).unit x = s.unit x := rfl
@[simp] theorem ctr_upFab (s : State) (f : FabSt → FabSt) (x : CtrId) : (s.upFab f).ctr x = s.ctr x := rfl
@[simp] theorem core_upFab (s : State) (f : FabSt → FabSt) (x : CoreId) : (s.upFab f).core x = s.core x := rfl
@[simp] theorem ve_upFab (s : State) (f : FabSt → FabSt) (x : CoreId) : (s.upFab f).ve x = s.ve x := rfl
@[simp] theorem group_upFab (s : State) (f : FabSt → FabSt) (x : Nat) : (s.upFab f).group x = s.group x := rfl
@[simp] theorem job_upFab (s : State) (f : FabSt → FabSt) (x : Nat) : (s.upFab f).job x = s.job x := rfl
@[simp] theorem slice_upIntake (s : State) (f : IntakeSt → IntakeSt) (x : SliceId) : (s.upIntake f).slice x = s.slice x := rfl
@[simp] theorem unit_upIntake (s : State) (f : IntakeSt → IntakeSt) (x : UnitId) : (s.upIntake f).unit x = s.unit x := rfl
@[simp] theorem ctr_upIntake (s : State) (f : IntakeSt → IntakeSt) (x : CtrId) : (s.upIntake f).ctr x = s.ctr x := rfl
@[simp] theorem core_upIntake (s : State) (f : IntakeSt → IntakeSt) (x : CoreId) : (s.upIntake f).core x = s.core x := rfl
@[simp] theorem ve_upIntake (s : State) (f : IntakeSt → IntakeSt) (x : CoreId) : (s.upIntake f).ve x = s.ve x := rfl
@[simp] theorem group_upIntake (s : State) (f : IntakeSt → IntakeSt) (x : Nat) : (s.upIntake f).group x = s.group x := rfl
@[simp] theorem job_upIntake (s : State) (f : IntakeSt → IntakeSt) (x : Nat) : (s.upIntake f).job x = s.job x := rfl
@[simp] theorem slice_upNet (s : State) (f : NetSt → NetSt) (x : SliceId) : (s.upNet f).slice x = s.slice x := rfl
@[simp] theorem unit_upNet (s : State) (f : NetSt → NetSt) (x : UnitId) : (s.upNet f).unit x = s.unit x := rfl
@[simp] theorem ctr_upNet (s : State) (f : NetSt → NetSt) (x : CtrId) : (s.upNet f).ctr x = s.ctr x := rfl
@[simp] theorem core_upNet (s : State) (f : NetSt → NetSt) (x : CoreId) : (s.upNet f).core x = s.core x := rfl
@[simp] theorem ve_upNet (s : State) (f : NetSt → NetSt) (x : CoreId) : (s.upNet f).ve x = s.ve x := rfl
@[simp] theorem group_upNet (s : State) (f : NetSt → NetSt) (x : Nat) : (s.upNet f).group x = s.group x := rfl
@[simp] theorem job_upNet (s : State) (f : NetSt → NetSt) (x : Nat) : (s.upNet f).job x = s.job x := rfl
@[simp] theorem slice_upCtl (s : State) (f : CtlSt → CtlSt) (x : SliceId) : (s.upCtl f).slice x = s.slice x := rfl
@[simp] theorem unit_upCtl (s : State) (f : CtlSt → CtlSt) (x : UnitId) : (s.upCtl f).unit x = s.unit x := rfl
@[simp] theorem ctr_upCtl (s : State) (f : CtlSt → CtlSt) (x : CtrId) : (s.upCtl f).ctr x = s.ctr x := rfl
@[simp] theorem core_upCtl (s : State) (f : CtlSt → CtlSt) (x : CoreId) : (s.upCtl f).core x = s.core x := rfl
@[simp] theorem ve_upCtl (s : State) (f : CtlSt → CtlSt) (x : CoreId) : (s.upCtl f).ve x = s.ve x := rfl
@[simp] theorem group_upCtl (s : State) (f : CtlSt → CtlSt) (x : Nat) : (s.upCtl f).group x = s.group x := rfl
@[simp] theorem job_upCtl (s : State) (f : CtlSt → CtlSt) (x : Nat) : (s.upCtl f).job x = s.job x := rfl
@[simp] theorem slice_upPwr (s : State) (f : PwrSt → PwrSt) (x : SliceId) : (s.upPwr f).slice x = s.slice x := rfl
@[simp] theorem unit_upPwr (s : State) (f : PwrSt → PwrSt) (x : UnitId) : (s.upPwr f).unit x = s.unit x := rfl
@[simp] theorem ctr_upPwr (s : State) (f : PwrSt → PwrSt) (x : CtrId) : (s.upPwr f).ctr x = s.ctr x := rfl
@[simp] theorem core_upPwr (s : State) (f : PwrSt → PwrSt) (x : CoreId) : (s.upPwr f).core x = s.core x := rfl
@[simp] theorem ve_upPwr (s : State) (f : PwrSt → PwrSt) (x : CoreId) : (s.upPwr f).ve x = s.ve x := rfl
@[simp] theorem group_upPwr (s : State) (f : PwrSt → PwrSt) (x : Nat) : (s.upPwr f).group x = s.group x := rfl
@[simp] theorem job_upPwr (s : State) (f : PwrSt → PwrSt) (x : Nat) : (s.upPwr f).job x = s.job x := rfl
@[simp] theorem slice_upSec (s : State) (f : SecSt → SecSt) (x : SliceId) : (s.upSec f).slice x = s.slice x := rfl
@[simp] theorem unit_upSec (s : State) (f : SecSt → SecSt) (x : UnitId) : (s.upSec f).unit x = s.unit x := rfl
@[simp] theorem ctr_upSec (s : State) (f : SecSt → SecSt) (x : CtrId) : (s.upSec f).ctr x = s.ctr x := rfl
@[simp] theorem core_upSec (s : State) (f : SecSt → SecSt) (x : CoreId) : (s.upSec f).core x = s.core x := rfl
@[simp] theorem ve_upSec (s : State) (f : SecSt → SecSt) (x : CoreId) : (s.upSec f).ve x = s.ve x := rfl
@[simp] theorem group_upSec (s : State) (f : SecSt → SecSt) (x : Nat) : (s.upSec f).group x = s.group x := rfl
@[simp] theorem job_upSec (s : State) (f : SecSt → SecSt) (x : Nat) : (s.upSec f).job x = s.job x := rfl
@[simp] theorem slice_upSaf (s : State) (f : SafSt → SafSt) (x : SliceId) : (s.upSaf f).slice x = s.slice x := rfl
@[simp] theorem unit_upSaf (s : State) (f : SafSt → SafSt) (x : UnitId) : (s.upSaf f).unit x = s.unit x := rfl
@[simp] theorem ctr_upSaf (s : State) (f : SafSt → SafSt) (x : CtrId) : (s.upSaf f).ctr x = s.ctr x := rfl
@[simp] theorem core_upSaf (s : State) (f : SafSt → SafSt) (x : CoreId) : (s.upSaf f).core x = s.core x := rfl
@[simp] theorem ve_upSaf (s : State) (f : SafSt → SafSt) (x : CoreId) : (s.upSaf f).ve x = s.ve x := rfl
@[simp] theorem group_upSaf (s : State) (f : SafSt → SafSt) (x : Nat) : (s.upSaf f).group x = s.group x := rfl
@[simp] theorem job_upSaf (s : State) (f : SafSt → SafSt) (x : Nat) : (s.upSaf f).job x = s.job x := rfl
@[simp] theorem unit_upSlice (s : State) (n : SliceId) (f : Slice → Slice) (x : UnitId) : (s.upSlice n f).unit x = s.unit x := rfl
@[simp] theorem ctr_upSlice (s : State) (n : SliceId) (f : Slice → Slice) (x : CtrId) : (s.upSlice n f).ctr x = s.ctr x := rfl
@[simp] theorem core_upSlice (s : State) (n : SliceId) (f : Slice → Slice) (x : CoreId) : (s.upSlice n f).core x = s.core x := rfl
@[simp] theorem ve_upSlice (s : State) (n : SliceId) (f : Slice → Slice) (x : CoreId) : (s.upSlice n f).ve x = s.ve x := rfl
@[simp] theorem group_upSlice (s : State) (n : SliceId) (f : Slice → Slice) (x : Nat) : (s.upSlice n f).group x = s.group x := rfl
@[simp] theorem job_upSlice (s : State) (n : SliceId) (f : Slice → Slice) (x : Nat) : (s.upSlice n f).job x = s.job x := rfl
@[simp] theorem unit_upPage (s : State) (n : SliceId) (f : Page → Page) (x : UnitId) : (s.upPage n f).unit x = s.unit x := rfl
@[simp] theorem ctr_upPage (s : State) (n : SliceId) (f : Page → Page) (x : CtrId) : (s.upPage n f).ctr x = s.ctr x := rfl
@[simp] theorem core_upPage (s : State) (n : SliceId) (f : Page → Page) (x : CoreId) : (s.upPage n f).core x = s.core x := rfl
@[simp] theorem ve_upPage (s : State) (n : SliceId) (f : Page → Page) (x : CoreId) : (s.upPage n f).ve x = s.ve x := rfl
@[simp] theorem group_upPage (s : State) (n : SliceId) (f : Page → Page) (x : Nat) : (s.upPage n f).group x = s.group x := rfl
@[simp] theorem job_upPage (s : State) (n : SliceId) (f : Page → Page) (x : Nat) : (s.upPage n f).job x = s.job x := rfl
@[simp] theorem slice_upUnit (s : State) (u : UnitId) (f : UnitSt → UnitSt) (x : SliceId) : (s.upUnit u f).slice x = s.slice x := rfl
@[simp] theorem ctr_upUnit (s : State) (u : UnitId) (f : UnitSt → UnitSt) (x : CtrId) : (s.upUnit u f).ctr x = s.ctr x := rfl
@[simp] theorem core_upUnit (s : State) (u : UnitId) (f : UnitSt → UnitSt) (x : CoreId) : (s.upUnit u f).core x = s.core x := rfl
@[simp] theorem ve_upUnit (s : State) (u : UnitId) (f : UnitSt → UnitSt) (x : CoreId) : (s.upUnit u f).ve x = s.ve x := rfl
@[simp] theorem group_upUnit (s : State) (u : UnitId) (f : UnitSt → UnitSt) (x : Nat) : (s.upUnit u f).group x = s.group x := rfl
@[simp] theorem job_upUnit (s : State) (u : UnitId) (f : UnitSt → UnitSt) (x : Nat) : (s.upUnit u f).job x = s.job x := rfl
@[simp] theorem slice_upSeq (s : State) (u : UnitId) (f : Seq → Seq) (x : SliceId) : (s.upSeq u f).slice x = s.slice x := rfl
@[simp] theorem ctr_upSeq (s : State) (u : UnitId) (f : Seq → Seq) (x : CtrId) : (s.upSeq u f).ctr x = s.ctr x := rfl
@[simp] theorem core_upSeq (s : State) (u : UnitId) (f : Seq → Seq) (x : CoreId) : (s.upSeq u f).core x = s.core x := rfl
@[simp] theorem ve_upSeq (s : State) (u : UnitId) (f : Seq → Seq) (x : CoreId) : (s.upSeq u f).ve x = s.ve x := rfl
@[simp] theorem group_upSeq (s : State) (u : UnitId) (f : Seq → Seq) (x : Nat) : (s.upSeq u f).group x = s.group x := rfl
@[simp] theorem job_upSeq (s : State) (u : UnitId) (f : Seq → Seq) (x : Nat) : (s.upSeq u f).job x = s.job x := rfl
@[simp] theorem slice_upCtr (s : State) (c : CtrId) (f : Ctr → Ctr) (x : SliceId) : (s.upCtr c f).slice x = s.slice x := rfl
@[simp] theorem unit_upCtr (s : State) (c : CtrId) (f : Ctr → Ctr) (x : UnitId) : (s.upCtr c f).unit x = s.unit x := rfl
@[simp] theorem core_upCtr (s : State) (c : CtrId) (f : Ctr → Ctr) (x : CoreId) : (s.upCtr c f).core x = s.core x := rfl
@[simp] theorem ve_upCtr (s : State) (c : CtrId) (f : Ctr → Ctr) (x : CoreId) : (s.upCtr c f).ve x = s.ve x := rfl
@[simp] theorem group_upCtr (s : State) (c : CtrId) (f : Ctr → Ctr) (x : Nat) : (s.upCtr c f).group x = s.group x := rfl
@[simp] theorem job_upCtr (s : State) (c : CtrId) (f : Ctr → Ctr) (x : Nat) : (s.upCtr c f).job x = s.job x := rfl
@[simp] theorem slice_upJob (s : State) (j : Nat) (f : Job → Job) (x : SliceId) : (s.upJob j f).slice x = s.slice x := rfl
@[simp] theorem unit_upJob (s : State) (j : Nat) (f : Job → Job) (x : UnitId) : (s.upJob j f).unit x = s.unit x := rfl
@[simp] theorem ctr_upJob (s : State) (j : Nat) (f : Job → Job) (x : CtrId) : (s.upJob j f).ctr x = s.ctr x := rfl
@[simp] theorem core_upJob (s : State) (j : Nat) (f : Job → Job) (x : CoreId) : (s.upJob j f).core x = s.core x := rfl
@[simp] theorem ve_upJob (s : State) (j : Nat) (f : Job → Job) (x : CoreId) : (s.upJob j f).ve x = s.ve x := rfl
@[simp] theorem group_upJob (s : State) (j : Nat) (f : Job → Job) (x : Nat) : (s.upJob j f).group x = s.group x := rfl
@[simp] theorem slice_upGroup (s : State) (g : Nat) (f : Staged → Staged) (x : SliceId) : (s.upGroup g f).slice x = s.slice x := rfl
@[simp] theorem unit_upGroup (s : State) (g : Nat) (f : Staged → Staged) (x : UnitId) : (s.upGroup g f).unit x = s.unit x := rfl
@[simp] theorem ctr_upGroup (s : State) (g : Nat) (f : Staged → Staged) (x : CtrId) : (s.upGroup g f).ctr x = s.ctr x := rfl
@[simp] theorem core_upGroup (s : State) (g : Nat) (f : Staged → Staged) (x : CoreId) : (s.upGroup g f).core x = s.core x := rfl
@[simp] theorem ve_upGroup (s : State) (g : Nat) (f : Staged → Staged) (x : CoreId) : (s.upGroup g f).ve x = s.ve x := rfl
@[simp] theorem job_upGroup (s : State) (g : Nat) (f : Staged → Staged) (x : Nat) : (s.upGroup g f).job x = s.job x := rfl
@[simp] theorem slice_upCore (s : State) (c : CoreId) (f : CoreSt → CoreSt) (x : SliceId) : (s.upCore c f).slice x = s.slice x := rfl
@[simp] theorem unit_upCore (s : State) (c : CoreId) (f : CoreSt → CoreSt) (x : UnitId) : (s.upCore c f).unit x = s.unit x := rfl
@[simp] theorem ctr_upCore (s : State) (c : CoreId) (f : CoreSt → CoreSt) (x : CtrId) : (s.upCore c f).ctr x = s.ctr x := rfl
@[simp] theorem group_upCore (s : State) (c : CoreId) (f : CoreSt → CoreSt) (x : Nat) : (s.upCore c f).group x = s.group x := rfl
@[simp] theorem job_upCore (s : State) (c : CoreId) (f : CoreSt → CoreSt) (x : Nat) : (s.upCore c f).job x = s.job x := rfl
@[simp] theorem slice_upVe (s : State) (c : CoreId) (f : VeSt → VeSt) (x : SliceId) : (s.upVe c f).slice x = s.slice x := rfl
@[simp] theorem unit_upVe (s : State) (c : CoreId) (f : VeSt → VeSt) (x : UnitId) : (s.upVe c f).unit x = s.unit x := rfl
@[simp] theorem ctr_upVe (s : State) (c : CoreId) (f : VeSt → VeSt) (x : CtrId) : (s.upVe c f).ctr x = s.ctr x := rfl
@[simp] theorem group_upVe (s : State) (c : CoreId) (f : VeSt → VeSt) (x : Nat) : (s.upVe c f).group x = s.group x := rfl
@[simp] theorem job_upVe (s : State) (c : CoreId) (f : VeSt → VeSt) (x : Nat) : (s.upVe c f).job x = s.job x := rfl
@[simp] theorem slice_emit (s : State) (o : Out) (x : SliceId) : (s.emit o).slice x = s.slice x := rfl
@[simp] theorem unit_emit (s : State) (o : Out) (x : UnitId) : (s.emit o).unit x = s.unit x := rfl
@[simp] theorem ctr_emit (s : State) (o : Out) (x : CtrId) : (s.emit o).ctr x = s.ctr x := rfl
@[simp] theorem core_emit (s : State) (o : Out) (x : CoreId) : (s.emit o).core x = s.core x := rfl
@[simp] theorem ve_emit (s : State) (o : Out) (x : CoreId) : (s.emit o).ve x = s.ve x := rfl
@[simp] theorem group_emit (s : State) (o : Out) (x : Nat) : (s.emit o).group x = s.group x := rfl
@[simp] theorem job_emit (s : State) (o : Out) (x : Nat) : (s.emit o).job x = s.job x := rfl
@[simp] theorem slice_at_ (s : State) (t : Nat) (x : SliceId) : (s.at_ t).slice x = s.slice x := rfl
@[simp] theorem unit_at_ (s : State) (t : Nat) (x : UnitId) : (s.at_ t).unit x = s.unit x := rfl
@[simp] theorem ctr_at_ (s : State) (t : Nat) (x : CtrId) : (s.at_ t).ctr x = s.ctr x := rfl
@[simp] theorem core_at_ (s : State) (t : Nat) (x : CoreId) : (s.at_ t).core x = s.core x := rfl
@[simp] theorem ve_at_ (s : State) (t : Nat) (x : CoreId) : (s.at_ t).ve x = s.ve x := rfl
@[simp] theorem group_at_ (s : State) (t : Nat) (x : Nat) : (s.at_ t).group x = s.group x := rfl
@[simp] theorem job_at_ (s : State) (t : Nat) (x : Nat) : (s.at_ t).job x = s.job x := rfl
@[simp] theorem State.upCore_now (s : State) (c : CoreId) (f : CoreSt → CoreSt) : (s.upCore c f).now = s.now := rfl
@[simp] theorem State.upCore_mem (s : State) (c : CoreId) (f : CoreSt → CoreSt) : (s.upCore c f).mem = s.mem := rfl
@[simp] theorem State.upCore_host (s : State) (c : CoreId) (f : CoreSt → CoreSt) : (s.upCore c f).host = s.host := rfl
@[simp] theorem State.upCore_slices (s : State) (c : CoreId) (f : CoreSt → CoreSt) : (s.upCore c f).slices = s.slices := rfl
@[simp] theorem State.upCore_log (s : State) (c : CoreId) (f : CoreSt → CoreSt) : (s.upCore c f).log = s.log := rfl
@[simp] theorem State.upCore_logNext (s : State) (c : CoreId) (f : CoreSt → CoreSt) : (s.upCore c f).logNext = s.logNext := rfl
@[simp] theorem State.upCore_groups (s : State) (c : CoreId) (f : CoreSt → CoreSt) : (s.upCore c f).groups = s.groups := rfl
@[simp] theorem State.upCore_commits (s : State) (c : CoreId) (f : CoreSt → CoreSt) : (s.upCore c f).commits = s.commits := rfl
@[simp] theorem State.upCore_assigned (s : State) (c : CoreId) (f : CoreSt → CoreSt) : (s.upCore c f).assigned = s.assigned := rfl
@[simp] theorem State.upCore_cue (s : State) (c : CoreId) (f : CoreSt → CoreSt) : (s.upCore c f).cue = s.cue := rfl
@[simp] theorem State.upCore_sheets (s : State) (c : CoreId) (f : CoreSt → CoreSt) : (s.upCore c f).sheets = s.sheets := rfl
@[simp] theorem State.upCore_replaced (s : State) (c : CoreId) (f : CoreSt → CoreSt) : (s.upCore c f).replaced = s.replaced := rfl
@[simp] theorem State.upCore_missed (s : State) (c : CoreId) (f : CoreSt → CoreSt) : (s.upCore c f).missed = s.missed := rfl
@[simp] theorem State.upCore_jobs (s : State) (c : CoreId) (f : CoreSt → CoreSt) : (s.upCore c f).jobs = s.jobs := rfl
@[simp] theorem State.upCore_jobNext (s : State) (c : CoreId) (f : CoreSt → CoreSt) : (s.upCore c f).jobNext = s.jobNext := rfl
@[simp] theorem State.upCore_units (s : State) (c : CoreId) (f : CoreSt → CoreSt) : (s.upCore c f).units = s.units := rfl
@[simp] theorem State.upCore_saved (s : State) (c : CoreId) (f : CoreSt → CoreSt) : (s.upCore c f).saved = s.saved := rfl
@[simp] theorem State.upCore_ctrs (s : State) (c : CoreId) (f : CoreSt → CoreSt) : (s.upCore c f).ctrs = s.ctrs := rfl
@[simp] theorem State.upCore_rasters (s : State) (c : CoreId) (f : CoreSt → CoreSt) : (s.upCore c f).rasters = s.rasters := rfl
@[simp] theorem State.upCore_heads (s : State) (c : CoreId) (f : CoreSt → CoreSt) : (s.upCore c f).heads = s.heads := rfl
@[simp] theorem State.upCore_intake (s : State) (c : CoreId) (f : CoreSt → CoreSt) : (s.upCore c f).intake = s.intake := rfl
@[simp] theorem State.upCore_net (s : State) (c : CoreId) (f : CoreSt → CoreSt) : (s.upCore c f).net = s.net := rfl
@[simp] theorem State.upCore_ctl (s : State) (c : CoreId) (f : CoreSt → CoreSt) : (s.upCore c f).ctl = s.ctl := rfl
@[simp] theorem State.upCore_fab (s : State) (c : CoreId) (f : CoreSt → CoreSt) : (s.upCore c f).fab = s.fab := rfl
@[simp] theorem State.upCore_aes (s : State) (c : CoreId) (f : CoreSt → CoreSt) : (s.upCore c f).aes = s.aes := rfl
@[simp] theorem State.upCore_saf (s : State) (c : CoreId) (f : CoreSt → CoreSt) : (s.upCore c f).saf = s.saf := rfl
@[simp] theorem State.upCore_pwr (s : State) (c : CoreId) (f : CoreSt → CoreSt) : (s.upCore c f).pwr = s.pwr := rfl
@[simp] theorem State.upCore_sec (s : State) (c : CoreId) (f : CoreSt → CoreSt) : (s.upCore c f).sec = s.sec := rfl
@[simp] theorem State.upCore_free (s : State) (c : CoreId) (f : CoreSt → CoreSt) : (s.upCore c f).free = s.free := rfl
@[simp] theorem State.upCore_out (s : State) (c : CoreId) (f : CoreSt → CoreSt) : (s.upCore c f).out = s.out := rfl
@[simp] theorem State.upCore_pending (s : State) (c : CoreId) (f : CoreSt → CoreSt) : (s.upCore c f).pending = s.pending := rfl
@[simp] theorem State.upVe_now (s : State) (c : CoreId) (f : VeSt → VeSt) : (s.upVe c f).now = s.now := rfl
@[simp] theorem State.upVe_mem (s : State) (c : CoreId) (f : VeSt → VeSt) : (s.upVe c f).mem = s.mem := rfl
@[simp] theorem State.upVe_host (s : State) (c : CoreId) (f : VeSt → VeSt) : (s.upVe c f).host = s.host := rfl
@[simp] theorem State.upVe_slices (s : State) (c : CoreId) (f : VeSt → VeSt) : (s.upVe c f).slices = s.slices := rfl
@[simp] theorem State.upVe_log (s : State) (c : CoreId) (f : VeSt → VeSt) : (s.upVe c f).log = s.log := rfl
@[simp] theorem State.upVe_logNext (s : State) (c : CoreId) (f : VeSt → VeSt) : (s.upVe c f).logNext = s.logNext := rfl
@[simp] theorem State.upVe_groups (s : State) (c : CoreId) (f : VeSt → VeSt) : (s.upVe c f).groups = s.groups := rfl
@[simp] theorem State.upVe_commits (s : State) (c : CoreId) (f : VeSt → VeSt) : (s.upVe c f).commits = s.commits := rfl
@[simp] theorem State.upVe_assigned (s : State) (c : CoreId) (f : VeSt → VeSt) : (s.upVe c f).assigned = s.assigned := rfl
@[simp] theorem State.upVe_cue (s : State) (c : CoreId) (f : VeSt → VeSt) : (s.upVe c f).cue = s.cue := rfl
@[simp] theorem State.upVe_sheets (s : State) (c : CoreId) (f : VeSt → VeSt) : (s.upVe c f).sheets = s.sheets := rfl
@[simp] theorem State.upVe_replaced (s : State) (c : CoreId) (f : VeSt → VeSt) : (s.upVe c f).replaced = s.replaced := rfl
@[simp] theorem State.upVe_missed (s : State) (c : CoreId) (f : VeSt → VeSt) : (s.upVe c f).missed = s.missed := rfl
@[simp] theorem State.upVe_jobs (s : State) (c : CoreId) (f : VeSt → VeSt) : (s.upVe c f).jobs = s.jobs := rfl
@[simp] theorem State.upVe_jobNext (s : State) (c : CoreId) (f : VeSt → VeSt) : (s.upVe c f).jobNext = s.jobNext := rfl
@[simp] theorem State.upVe_units (s : State) (c : CoreId) (f : VeSt → VeSt) : (s.upVe c f).units = s.units := rfl
@[simp] theorem State.upVe_saved (s : State) (c : CoreId) (f : VeSt → VeSt) : (s.upVe c f).saved = s.saved := rfl
@[simp] theorem State.upVe_ctrs (s : State) (c : CoreId) (f : VeSt → VeSt) : (s.upVe c f).ctrs = s.ctrs := rfl
@[simp] theorem State.upVe_rasters (s : State) (c : CoreId) (f : VeSt → VeSt) : (s.upVe c f).rasters = s.rasters := rfl
@[simp] theorem State.upVe_heads (s : State) (c : CoreId) (f : VeSt → VeSt) : (s.upVe c f).heads = s.heads := rfl
@[simp] theorem State.upVe_intake (s : State) (c : CoreId) (f : VeSt → VeSt) : (s.upVe c f).intake = s.intake := rfl
@[simp] theorem State.upVe_net (s : State) (c : CoreId) (f : VeSt → VeSt) : (s.upVe c f).net = s.net := rfl
@[simp] theorem State.upVe_ctl (s : State) (c : CoreId) (f : VeSt → VeSt) : (s.upVe c f).ctl = s.ctl := rfl
@[simp] theorem State.upVe_fab (s : State) (c : CoreId) (f : VeSt → VeSt) : (s.upVe c f).fab = s.fab := rfl
@[simp] theorem State.upVe_aes (s : State) (c : CoreId) (f : VeSt → VeSt) : (s.upVe c f).aes = s.aes := rfl
@[simp] theorem State.upVe_saf (s : State) (c : CoreId) (f : VeSt → VeSt) : (s.upVe c f).saf = s.saf := rfl
@[simp] theorem State.upVe_pwr (s : State) (c : CoreId) (f : VeSt → VeSt) : (s.upVe c f).pwr = s.pwr := rfl
@[simp] theorem State.upVe_sec (s : State) (c : CoreId) (f : VeSt → VeSt) : (s.upVe c f).sec = s.sec := rfl
@[simp] theorem State.upVe_free (s : State) (c : CoreId) (f : VeSt → VeSt) : (s.upVe c f).free = s.free := rfl
@[simp] theorem State.upVe_out (s : State) (c : CoreId) (f : VeSt → VeSt) : (s.upVe c f).out = s.out := rfl
@[simp] theorem State.upVe_pending (s : State) (c : CoreId) (f : VeSt → VeSt) : (s.upVe c f).pending = s.pending := rfl

@[simp] theorem slice_upPage (s : State) (n : SliceId) (f : Page → Page) :
    (s.upPage n f).slice n = { s.slice n with page := f (s.slice n).page } := by
  simp [State.upPage]

@[simp] theorem group_upGroup (s : State) (g : Nat) (f : Staged → Staged) : (s.upGroup g f).group g = f (s.group g) := by
  simp [State.upGroup, State.group]

theorem group_upGroup_ne (s : State) (g h : Nat) (f : Staged → Staged) (hn : h ≠ g) : (s.upGroup g f).group h = s.group h := by
  simp only [State.upGroup, State.group]
  generalize groupInit h = a
  generalize f (tget (groupInit g) s.groups g) = v
  generalize groupInit g = d
  have h1 : ∀ (t : Tbl Staged), tget a (tdel t g) h = tget a t h := fun t => tget_tdel_ne a t g h hn
  simp only [tset]
  split
  · exact h1 _
  · rw [tget_tins_ne a _ g h v hn, h1]

end Sys2Proof.Machine
end

