-- ==== Sys2Proof/Laws/Ve.lean ====
section
/-! SUPPORT. Vector instructions: the lanes of a register written lane by lane, and the step of every vector row. -/

namespace Sys2Proof.Machine

/-- A register packed from lanes, as a number. -/
def packNat (b : Nat) (xs : List Nat) : Nat := xs.foldr (fun x acc => x % 2 ^ b + 2 ^ b * acc) 0

theorem packNat_lt (b : Nat) (xs : List Nat) : packNat b xs < 2 ^ (b * xs.length) := by
  induction xs with
  | nil => simp [packNat]
  | cons x xs ih =>
    have h1 : x % 2 ^ b < 2 ^ b := Nat.mod_lt _ (Nat.two_pow_pos b)
    have h2 : packNat b (x :: xs) = x % 2 ^ b + 2 ^ b * packNat b xs := rfl
    have h3 : 2 ^ (b * (x :: xs).length) = 2 ^ b * 2 ^ (b * xs.length) := by
      rw [List.length_cons, ← Nat.pow_add, Nat.mul_succ, Nat.add_comm]
    rw [h2, h3]
    have h4 : 2 ^ b * (packNat b xs + 1) ≤ 2 ^ b * 2 ^ (b * xs.length) := Nat.mul_le_mul_left _ ih
    rw [Nat.mul_succ] at h4
    omega

theorem packNat_lane (b : Nat) (xs : List Nat) (n : Nat) (h : n < xs.length) :
    packNat b xs / 2 ^ (b * n) % 2 ^ b = xs[n] % 2 ^ b := by
  induction xs generalizing n with
  | nil => simp at h
  | cons x xs ih =>
    have h2 : packNat b (x :: xs) = x % 2 ^ b + 2 ^ b * packNat b xs := rfl
    cases n with
    | zero => simp [h2, Nat.add_mul_mod_self_left]
    | succ n =>
      have h3 : 2 ^ (b * (n + 1)) = 2 ^ b * 2 ^ (b * n) := by rw [← Nat.pow_add, Nat.mul_succ, Nat.add_comm]
      have h4 : (x % 2 ^ b + 2 ^ b * packNat b xs) / 2 ^ b = packNat b xs := by
        rw [Nat.add_mul_div_left _ _ (Nat.two_pow_pos b), Nat.div_eq_of_lt (Nat.mod_lt _ (Nat.two_pow_pos b))]; simp
      rw [h2, h3, ← Nat.div_div_eq_div_mul, h4]
      simpa using ih n (by simpa using h)

/-- Lane n of a register packed from lanes is the n-th of them. -/
theorem laneAt_ofLanes (b : Nat) (xs : List Nat) (n : Nat) (h : n < xs.length) (hb : b * xs.length ≤ 2048) :
    laneAt b (ofLanes b xs) n = xs[n] % 2 ^ b := by
  have h1 := packNat_lt b xs
  have h2 : packNat b xs < 2 ^ 2048 := Nat.lt_of_lt_of_le h1 (Nat.pow_le_pow_right (by omega) hb)
  have h3 : (ofLanes b xs).toNat = packNat b xs := by
    change (BitVec.ofNat 2048 (packNat b xs)).toNat = _
    rw [BitVec.toNat_ofNat, Nat.mod_eq_of_lt h2]
  rw [laneAt, h3, packNat_lane b xs n h]

theorem lanesOf_eq (b : Nat) (v : BitVec 2048) : lanesOf b v = (List.range (2048 / b)).map (laneAt b v) := rfl

@[simp] theorem lanesOf_length (b : Nat) (v : BitVec 2048) : (lanesOf b v).length = 2048 / b := by simp [lanesOf_eq]

theorem lanesOf_get (b : Nat) (v : BitVec 2048) (n : Nat) (h : n < (lanesOf b v).length) : (lanesOf b v)[n] = laneAt b v n := by
  simp [lanesOf_eq]

theorem laneAt_lt (b : Nat) (v : BitVec 2048) (n : Nat) : laneAt b v n < 2 ^ b := Nat.mod_lt _ (Nat.two_pow_pos b)

/-- Bits of a flag byte gathered over a list. -/
theorem foldl_or_bit {α : Type} (f : α → Byte) (p : α → Bool) (l : List α) (g : Byte) (k : Nat) :
    (l.foldl (fun g x => if p x then g ||| f x else g) g).getLsbD k = true ↔
      g.getLsbD k = true ∨ ∃ x ∈ l, p x = true ∧ (f x).getLsbD k = true := by
  induction l generalizing g with
  | nil => simp
  | cons x xs ih =>
    simp only [List.foldl_cons, ih, List.mem_cons, exists_eq_or_imp]
    cases p x <;> simp [or_assoc]

theorem laneActive_eq (x : VeSt) (i : VI) (n k : Nat) (h : k < n) : (activeLanes x i n)[k]? = some (laneActive x i k) := by
  simp [activeLanes, laneActive, predLane, h]

theorem activeLanes_length (x : VeSt) (i : VI) (n : Nat) : (activeLanes x i n).length = n := by simp [activeLanes]

/-- The flags of the active lanes of a list of results. -/
theorem active_flags (x : VeSt) (i : VI) (n : Nat) (rs : List (Flagged Nat)) (f : Nat → Flagged Nat) (hl : rs.length = n)
    (hf : ∀ j, (h : j < rs.length) → rs[j] = f j) (k : Nat) :
    (((activeLanes x i n).zip rs).foldl (fun f p => if p.1 then f ||| p.2.2 else f) (0 : Byte)).getLsbD k = true ↔
      ∃ j < n, laneActive x i j = true ∧ (f j).2.getLsbD k = true := by
  refine (foldl_or_bit (α := Bool × Flagged Nat) (fun p => p.2.2) (fun p => p.1) _ 0 k).trans ?_
  have h0 : (0 : Byte).getLsbD k = false := BitVec.getLsbD_zero
  rw [h0]
  simp only [Bool.false_eq_true, false_or]
  constructor
  · rintro ⟨⟨p, q⟩, hm, hp, hq⟩
    obtain ⟨j, hj, he⟩ := List.mem_iff_getElem.mp hm
    have h1 : j < n := by simpa [activeLanes_length, hl] using hj
    have h2 := laneActive_eq x i n j h1
    simp only [List.getElem_zip, Prod.mk.injEq] at he
    refine ⟨j, h1, ?_, ?_⟩
    · have := (List.getElem?_eq_some_iff.mp h2).2
      rw [← this, he.1]; exact hp
    · rw [← hf j (by omega), he.2]; exact hq
  · rintro ⟨j, hj, ha, hg⟩
    have h2 := List.getElem?_eq_some_iff.mp (laneActive_eq x i n j hj)
    refine ⟨((activeLanes x i n)[j]'h2.1, rs[j]'(by omega)), ?_, ?_, ?_⟩
    · have hz : j < ((activeLanes x i n).zip rs).length := by simp [activeLanes_length, hl, hj]
      exact List.mem_iff_getElem.mpr ⟨j, hz, by simp⟩
    · rw [h2.2]; exact ha
    · rw [hf j (by omega)]; exact hg

/-- A whole register written lane by lane. -/
theorem putLanes_part (x : VeSt) (i : VI) (b : Nat) (rs : List (Flagged Nat)) (f : Nat → Flagged Nat)
    (hl : rs.length = 2048 / b) (hf : ∀ j, (h : j < rs.length) → rs[j] = f j) :
    ∃ r g, putLanes x i b i.d (activeLanes x i (2048 / b)) rs = (x.setV i.d r).flag g ∧ PartResult x i b 0 (2048 / b) f r g := by
  refine ⟨_, _, rfl, ⟨fun m hm => ?_, active_flags x i _ rs f hl hf⟩⟩
  have hbb : b * (2048 / b) ≤ 2048 := Nat.mul_div_le _ _
  rw [laneAt_ofLanes b _ m (by simp [activeLanes_length, hl, hm]) (by simp [activeLanes_length, hl, hbb])]
  have h2 := List.getElem?_eq_some_iff.mp (laneActive_eq x i _ m hm)
  have h3 : m < (lanesOf b (x.vr i.d)).length := by simpa using hm
  have h4 := hf m (by omega)
  have h5 := lanesOf_get b (x.vr i.d) m h3
  simp only [List.getElem_map, List.getElem_zip, h2.2, h4, h5, Nat.zero_mul, Nat.zero_le, Nat.zero_add, hm, and_self, if_true, Nat.sub_zero]
  split
  · rfl
  · split
    · simp
    · exact Nat.mod_eq_of_lt (laneAt_lt b _ m)

/-- Part q of a register written lane by lane. -/
theorem putPart_part (x : VeSt) (i : VI) (b q n : Nat) (rs : List (Flagged Nat)) (f : Nat → Flagged Nat) (hl : rs.length = n)
    (hq : q * n + n ≤ 2048 / b) (hf : ∀ j, (h : j < rs.length) → rs[j] = f j) :
    ∃ r g, putPart x i b q (activeLanes x i n) rs = (x.setV i.d r).flag g ∧ PartResult x i b q n f r g := by
  refine ⟨_, _, rfl, ⟨fun m hm => ?_, active_flags x i _ rs f hl hf⟩⟩
  have hbb : b * (2048 / b) ≤ 2048 := Nat.mul_div_le _ _
  have hlen : ∀ (mid : List Nat), mid.length = n →
      ((lanesOf b (x.vr i.d)).take (q * n) ++ mid ++ (lanesOf b (x.vr i.d)).drop (q * n + n)).length = 2048 / b := by
    intro mid hmid
    simp only [List.length_append, List.length_take, List.length_drop, lanesOf_length, hmid]; omega
  rw [hl]
  have hmid : ((((lanesOf b (x.vr i.d)).drop (q * n)).take n).zip ((activeLanes x i n).zip rs)).length = n := by
    simp only [List.length_zip, List.length_take, List.length_drop, lanesOf_length, activeLanes_length, hl]; omega
  rw [laneAt_ofLanes b _ m (by rw [hlen _ (by simpa using hmid)]; exact hm) (by rw [hlen _ (by simpa using hmid)]; exact hbb)]
  have hz : (lanesOf b (x.vr i.d)).length = 2048 / b := lanesOf_length _ _
  by_cases h1 : q * n ≤ m ∧ m < q * n + n
  · have h2 := List.getElem?_eq_some_iff.mp (laneActive_eq x i n (m - q * n) (by omega))
    have h4 := hf (m - q * n) (by omega)
    rw [if_pos h1, List.getElem_append_left (by simp only [List.length_append, List.length_take, List.length_map, hmid, hz]; omega),
      List.getElem_append_right (by simp only [List.length_take, hz]; omega)]
    have h6 : min (q * n) (2048 / b) = q * n := by omega
    simp only [List.getElem_map, List.getElem_zip, List.length_take, hz, h6, List.getElem_take, List.getElem_drop]
    have h7 : q * n + (m - q * n) = m := by omega
    simp only [h7, lanesOf_get b (x.vr i.d) m (by omega), h2.2, h4]
    split
    · rfl
    · split
      · simp
      · exact Nat.mod_eq_of_lt (laneAt_lt b _ m)
  · rw [if_neg h1]
    rcases Nat.lt_or_ge m (q * n) with h3 | h3
    · rw [List.getElem_append_left (by simp only [List.length_append, List.length_take, hz]; omega),
        List.getElem_append_left (by simp only [List.length_take, hz]; omega)]
      simp only [List.getElem_take, lanesOf_get b (x.vr i.d) m (by omega)]
      exact Nat.mod_eq_of_lt (laneAt_lt b _ m)
    · have h8 : ((lanesOf b (x.vr i.d)).take (q * n)).length = q * n := by simp only [List.length_take, hz]; omega
      rw [List.getElem_append_right (by simp only [List.length_append, List.length_map, hmid, h8]; omega)]
      simp only [List.getElem_drop, List.length_append, List.length_map, hmid, h8]
      have h7 : q * n + n + (m - (q * n + n)) = m := by omega
      simp only [h7, lanesOf_get b (x.vr i.d) m (by omega)]
      exact Nat.mod_eq_of_lt (laneAt_lt b _ m)

/-! ### The step of a row -/

/-- A row whose fields are not all allowed raises ILLEGAL. -/
theorem veStep_illegal {s : State} {c : CoreId} {w : DWord} (z : VeShape) (extra : VI → Bool) (row : VI → Nat) (k : Chk)
    (f : State → VeSt → VI → VeRes) (h : VeRuns s c w) (hv : veOps.contains z.op = true) (ho : (decodeVi w).op = z.op)
    (hn : ¬ (z.ok (decodeVi w) = true ∧ extra (decodeVi w) = true)) :
    veStep z extra row k f c s = .next (veException s c 1 w.toNat 0xFFFF 0) := by
  obtain ⟨h1, h2, h3⟩ := h
  have h4 : ¬ z.ok (decodeVi w) = true ∨ ¬ extra (decodeVi w) = true := by
    by_cases hz : z.ok (decodeVi w) = true
    · exact Or.inr (fun he => hn ⟨hz, he⟩)
    · exact Or.inl hz
  simp only [veStep, doWhen, h1, h2, if_true, if_neg (show ¬ fld (s.ve c).d 16 4 ≤ (s.ve c).count by omega), ho, hv, not_true_eq_false,
    if_false, ne_eq, if_pos h4]

/-- A row whose fields are allowed runs under its check. -/
theorem veStep_legal {s : State} {c : CoreId} {w : DWord} (z : VeShape) (extra : VI → Bool) (row : VI → Nat) (k : Chk)
    (f : State → VeSt → VI → VeRes) (h : VeRuns s c w) (hv : veOps.contains z.op = true) (ho : (decodeVi w).op = z.op)
    (hn : z.ok (decodeVi w) = true ∧ extra (decodeVi w) = true) :
    veStep z extra row k f c s = .next (veChecked s c (decodeVi w) (s.ve c) (row (decodeVi w)) k (f s (s.ve c) (decodeVi w))) := by
  obtain ⟨h1, h2, h3⟩ := h
  simp only [veStep, doWhen, h1, h2, if_true, if_neg (show ¬ fld (s.ve c).d 16 4 ≤ (s.ve c).count by omega), ho, hv, not_true_eq_false,
    if_false, ne_eq, hn.1, hn.2, or_self]

/-- The ways a checked row ends. -/
theorem veChecked_ends (s : State) (c : CoreId) (i : VI) (row : Nat) (r : VeRes) (cmd : Chk → Instr) (hrow : row ≠ 0)
    (hr : ∀ (code lane info : Nat), r ≠ .exc code lane info) (hc : ∀ p, r ≠ .chk p) (hs : r ≠ .sample)
    (he : ∀ k, exec (cmd k) s = .next (veChecked s c i (s.ve c) row k r)) : VeEnds s c cmd row (veApply s c i (s.ve c) r) := by
  have h : ∀ k, veChecked s c i (s.ve c) row k r = veCheck s (veApply s c i (s.ve c) r) c (s.ve c) row k := by
    intro k
    cases r <;> simp_all [veChecked]
  have hk : ∀ k, chkOutcome (atDesc s (.core c) (s.ve c).d) (.core c) (veKey (s.ve c)) k = chkOutcome s (.core c) (veKey (s.ve c)) k := by
    intro k
    have h1 : retryKey (atDesc s (.core c) (s.ve c).d) (.core c) (veKey (s.ve c)) = retryKey s (.core c) (veKey (s.ve c)) := by
      simp [retryKey, atDesc]
    have h2 : (atDesc s (.core c) (s.ve c).d).cue = s.cue := rfl
    simp only [chkOutcome, h1, h2]
  have hp : ∀ k, (k = .pass ∨ k = .corrected ∨ k = .double) → veShows s c row k = k := by
    intro k hk; rcases hk with rfl | rfl | rfl <;> simp [veShows]
  refine ⟨?_, ?_, ?_, ?_, ?_⟩
  · rw [he, h]; simp [veCheck, hp, checkedBy, chkOutcome]
  · rw [he, h]; simp [veCheck, hp, checkedBy, chkOutcome]
  · rw [he, h]; simp [veCheck, hp, checkedBy, chkOutcome]
  · rintro ⟨h5, hn⟩
    have hq : ∀ k, (k = .transient ∨ k = .fail) → veShows s c row k = .pass := by intro k hk; simp [veShows, h5, hn, hk]
    constructor
    · rw [he, h]; simp [veCheck, hq, checkedBy, chkOutcome]
    · rw [he, h]; simp [veCheck, hq, checkedBy, chkOutcome]
  · intro hn
    have hq : ∀ k, veShows s c row k = k := by
      intro k
      have h2 : ¬ (row = 5 ∧ ¬ veSelected s c 0 = true ∧ (k = .transient ∨ k = .fail)) := fun h3 => hn ⟨h3.1, by simpa using h3.2.1⟩
      simp only [veShows, if_neg h2]
    constructor
    · rw [he, h]; simp [veCheck, hq, checkedBy, chkOutcome]
    · rw [he, h]
      simp only [veCheck, hq, checkedBy, hk]
      by_cases hm : retryKey s (.core c) (veKey (s.ve c)) ∈ s.cue.retried
      · simp [chkOutcome, hm]
      · simp [chkOutcome, hm]

/-- A checked row that only writes registers: ILLEGAL, or its outcome. -/
theorem veReg_row {s : State} {c : CoreId} {w : DWord} (z : VeShape) (extra : VI → Bool) (row : VI → Nat) (f : VeSt → VI → VeSt)
    (cmd : Chk → Instr) (P : Prop) (h : VeRuns s c w) (hv : veOps.contains z.op = true)
    (he : ∀ k, exec (cmd k) s = veReg z extra row k f c s) (hrow : row (decodeVi w) ≠ 0)
    (hP : z.ok (decodeVi w) = true → extra (decodeVi w) = true →
      VeOutcome s c cmd (row (decodeVi w)) (f (s.ve c) (decodeVi w)) → P) : VeRow s c w z extra cmd P := by
  intro ho
  refine ⟨fun hn => hP hn.1 hn.2 ?_, fun hn k => ?_⟩
  · refine veChecked_ends s c (decodeVi w) _ (.ok (f (s.ve c) (decodeVi w))) cmd hrow ?_ ?_ ?_ ?_
    · intros; simp
    · intros; simp
    · intros; simp
    · intro k
      rw [he, veReg, veStep_legal z extra row k _ h hv ho hn]
  · rw [he, veReg, veStep_illegal z extra row k _ h hv ho hn]

/-- The lane width of a type a shape allows divides the register. -/
theorem etLanes_eq (i : VI) : etLanes i.et = 2048 / etBits i.et := rfl

theorem aLanes_get (x : VeSt) (i : VI) (n : Nat) (h : n < (aLanes x i).length) : (aLanes x i)[n] = laneAt (etBits i.et) (x.vr i.a) n :=
  lanesOf_get _ _ _ h

theorem cLanes_get (x : VeSt) (i : VI) (n : Nat) (h : n < (cLanes x i).length) : (cLanes x i)[n] = laneAt (etBits i.et) (x.vr i.c) n :=
  lanesOf_get _ _ _ h

@[simp] theorem aLanes_length (x : VeSt) (i : VI) : (aLanes x i).length = etLanes i.et := lanesOf_length _ _
@[simp] theorem cLanes_length (x : VeSt) (i : VI) : (cLanes x i).length = etLanes i.et := lanesOf_length _ _

@[simp] theorem bLanes_length (x : VeSt) (i : VI) : (bLanes x i).length = etLanes i.et := by
  simp only [bLanes, etLanes_eq]
  split <;> simp

theorem bLanes_get (x : VeSt) (i : VI) (n : Nat) (h : n < (bLanes x i).length) : (bLanes x i)[n] = laneB x i n := by
  have hb : bLanes x i = if i.bsel = 0 then lanesOf (etBits i.et) (x.vr i.b) else List.replicate (2048 / etBits i.et) (laneB x i n) := by
    simp only [bLanes, laneB]
    split
    · rfl
    · repeat' split
      all_goals first | rfl | omega
  simp only [hb] at h ⊢
  split
  · rename_i h0
    rw [lanesOf_get]
    simp [laneB, h0]
  · simp

theorem PartResult.congr {x : VeSt} {i : VI} {b q n : Nat} {f g : Nat → Flagged Nat} {r : BitVec 2048} {fl : Byte}
    (h : PartResult x i b q n f r fl) (he : ∀ j < n, (f j).1 % 2 ^ b = (g j).1 % 2 ^ b ∧ (f j).2 = (g j).2) : PartResult x i b q n g r fl := by
  refine ⟨fun m hm => ?_, fun k => (h.flags k).trans ⟨?_, ?_⟩⟩
  · rw [h.lane m hm]
    split
    · rw [(he (m - q * n) (by omega)).1]
    · rfl
  · rintro ⟨j, hj, h1, h2⟩
    exact ⟨j, hj, h1, (he j hj).2 ▸ h2⟩
  · rintro ⟨j, hj, h1, h2⟩
    exact ⟨j, hj, h1, (he j hj).2 ▸ h2⟩

/-- A row that writes part q of V[D]. -/
theorem vePart_row {s : State} {c : CoreId} {w : DWord} (z : VeShape) (extra : VI → Bool) (row : VI → Nat) (r b q n : Nat) (f : VeSt → VI → VeSt)
    (rs : List (Flagged Nat)) (cmd : Chk → Instr) (g : Nat → Flagged Nat) (h : VeRuns s c w) (hv : veOps.contains z.op = true)
    (he : ∀ k, exec (cmd k) s = veReg z extra row k f c s) (hr : row (decodeVi w) = r) (hrow : r ≠ 0) (hl : rs.length = n)
    (hf : z.ok (decodeVi w) = true → extra (decodeVi w) = true →
      (f (s.ve c) (decodeVi w) = putPart (s.ve c) (decodeVi w) b q (activeLanes (s.ve c) (decodeVi w) n) rs ∧ q * n + n ≤ 2048 / b) ∨
      (f (s.ve c) (decodeVi w) = putLanes (s.ve c) (decodeVi w) b (decodeVi w).d (activeLanes (s.ve c) (decodeVi w) n) rs ∧ q = 0 ∧ n = 2048 / b))
    (hg : ∀ j, (h : j < rs.length) → rs[j].1 % 2 ^ b = (g j).1 % 2 ^ b ∧ rs[j].2 = (g j).2) :
    VeRow s c w z extra cmd (PartOp s c (decodeVi w) cmd r b q n g) := by
  refine veReg_row z extra row f cmd _ h hv he (by omega) ?_
  intro h1 h2 ho
  have key : ∃ v fl, f (s.ve c) (decodeVi w) = ((s.ve c).setV (decodeVi w).d v).flag fl ∧
      PartResult (s.ve c) (decodeVi w) b q n (fun j => rs.getD j (0, 0)) v fl := by
    rcases hf h1 h2 with ⟨h3, h4⟩ | ⟨h3, h4, h5⟩
    · obtain ⟨v, fl, h6, h7⟩ := putPart_part (s.ve c) (decodeVi w) b q n rs (fun j => rs.getD j (0, 0)) hl h4 (by intro j hj; simp [List.getD, hj])
      exact ⟨v, fl, h3.trans h6, h7⟩
    · subst h4 h5
      obtain ⟨v, fl, h6, h7⟩ := putLanes_part (s.ve c) (decodeVi w) b rs (fun j => rs.getD j (0, 0)) hl (by intro j hj; simp [List.getD, hj])
      exact ⟨v, fl, h3.trans h6, h7⟩
  obtain ⟨v, fl, h3, h4⟩ := key
  refine ⟨v, fl, h4.congr ?_, ?_⟩
  · intro j hj
    have hj' : j < rs.length := by omega
    have := hg j hj'
    simpa [List.getD, hj'] using this
  · rw [hr, h3] at ho
    exact ho

/-- A row that writes every lane of V[D]. -/
theorem veLane_row {s : State} {c : CoreId} {w : DWord} (z : VeShape) (extra : VI → Bool) (row : VI → Nat) (r : Nat) (f : VeSt → VI → VeSt)
    (rs : List (Flagged Nat)) (cmd : Chk → Instr) (g : Nat → Flagged Nat) (h : VeRuns s c w) (hv : veOps.contains z.op = true)
    (he : ∀ k, exec (cmd k) s = veReg z extra row k f c s) (hr : row (decodeVi w) = r) (hrow : r ≠ 0)
    (hf : f (s.ve c) (decodeVi w) = putV (s.ve c) (decodeVi w) rs) (hl : rs.length = etLanes (decodeVi w).et)
    (hg : ∀ j, (h : j < rs.length) → rs[j].1 % 2 ^ etBits (decodeVi w).et = (g j).1 % 2 ^ etBits (decodeVi w).et ∧ rs[j].2 = (g j).2) :
    VeRow s c w z extra cmd (LaneOp s c (decodeVi w) cmd r g) :=
  vePart_row z extra row r _ 0 _ f rs cmd g h hv he hr hrow hl (fun _ _ => Or.inr ⟨hf, rfl, rfl⟩) hg

/-! ### Predicates -/

theorem etBits_cases (et : Nat) : etBits et = 8 ∨ etBits et = 16 ∨ etBits et = 32 := by
  unfold etBits
  rcases et with _ | _ | _ | _ | _ | _ | n <;> simp

theorem foldr_packNat (k : Nat) (xs : List Nat) (h : ∀ x ∈ xs, x < 2 ^ k) : xs.foldr (fun v acc => v + 2 ^ k * acc) 0 = packNat k xs := by
  induction xs with
  | nil => rfl
  | cons x xs ih =>
    have h1 : packNat k (x :: xs) = x % 2 ^ k + 2 ^ k * packNat k xs := rfl
    rw [List.foldr_cons, ih (fun y hy => h y (by simp [hy])), h1, Nat.mod_eq_of_lt (h x (by simp))]

/-- A bit of a predicate packed from lanes of k bits. -/
theorem packNat_bit (k : Nat) (xs : List Nat) (m : Nat) (hk : 0 < k) (h : m / k < xs.length) :
    (packNat k xs).testBit m = (xs[m / k]).testBit (m % k) := by
  have h1 := packNat_lane k xs (m / k) h
  have h2 : (packNat k xs / 2 ^ (k * (m / k)) % 2 ^ k).testBit (m % k) = (xs[m / k] % 2 ^ k).testBit (m % k) := by rw [h1]
  have h3 : m % k < k := Nat.mod_lt _ hk
  simp only [Nat.testBit_mod_two_pow, h3, decide_true, Bool.true_and, Nat.testBit_div_two_pow] at h2
  rw [← h2]
  congr 1
  have := Nat.div_add_mod m k
  omega

theorem ofNat256_bit (k : Nat) (xs : List Nat) (m : Nat) (hk : 0 < k) (hm : m < 256) (h : m / k < xs.length) :
    (BitVec.ofNat 256 (packNat k xs)).getLsbD m = (xs[m / k]).testBit (m % k) := by
  simp only [BitVec.getLsbD_ofNat, hm, decide_true, Bool.true_and, packNat_bit k xs m hk h]

theorem ones_bit (k j : Nat) (h : j < k) : (2 ^ k - 1).testBit j = true := by simp [Nat.testBit_two_pow_sub_one, h]

/-- A predicate written whole, lane by lane. -/
theorem predOf_bit (et : Nat) (xs : List Bool) (m : Nat) (hl : xs.length = etLanes et) (hm : m < 256) :
    (predOf (etBits et) xs).getLsbD m = xs.getD (m / (etBits et / 8)) false := by
  have h1 : 0 < etBits et / 8 ∧ m / (etBits et / 8) < xs.length := by
    rw [hl, etLanes]
    rcases etBits_cases et with h | h | h <;> rw [h] <;> omega
  have h2 : predOf (etBits et) xs = BitVec.ofNat 256 (packNat (etBits et / 8) (xs.map (fun x => if x then 2 ^ (etBits et / 8) - 1 else 0))) := by
    rw [predOf, ← foldr_packNat]
    · rw [List.foldr_map]
    · intro x hx
      obtain ⟨y, _, rfl⟩ := List.mem_map.mp hx
      have := Nat.two_pow_pos (etBits et / 8)
      split
      · exact Nat.sub_lt this (by decide)
      · exact this
  rw [h2, ofNat256_bit _ _ m h1.1 hm (by simpa using h1.2)]
  have h3 : m % (etBits et / 8) < etBits et / 8 := Nat.mod_lt _ h1.1
  simp only [List.getElem_map, List.getD_eq_getElem?_getD, List.getElem?_eq_getElem h1.2, Option.getD_some]
  split
  · rename_i h; rw [h]; exact ones_bit _ _ h3
  · rename_i h; simp only [Bool.not_eq_true] at h; rw [h]; exact Nat.zero_testBit _

/-- A predicate destination written under the predicate. -/
theorem putPred_bits (x : VeSt) (i : VI) (rs : List Bool) (hl : rs.length = etLanes i.et) :
    ∃ r, putPred x i rs = x.setP i.d r ∧ ∀ m < 256, r.getLsbD m =
      let n := m / (etBits i.et / 8)
      if laneActive x i n then rs.getD n false else if i.zm then false else (x.pr i.d).getLsbD m := by
  refine ⟨_, rfl, fun m hm => ?_⟩
  have h1 : 0 < etBits i.et / 8 ∧ m / (etBits i.et / 8) < etLanes i.et := by
    rw [etLanes]
    rcases etBits_cases i.et with h | h | h <;> rw [h] <;> omega
  have hp := Nat.two_pow_pos (etBits i.et / 8)
  rw [foldr_packNat]
  · rw [ofNat256_bit _ _ m h1.1 hm (by simp [activeLanes_length, hl, h1.2])]
    have h2 := List.getElem?_eq_some_iff.mp (laneActive_eq x i _ _ h1.2)
    have h3 : m % (etBits i.et / 8) < etBits i.et / 8 := Nat.mod_lt _ h1.1
    have h4 : m / (etBits i.et / 8) < rs.length := by omega
    simp only [List.getElem_map, List.getElem_zip, h2.2, List.getElem_range, List.getD_eq_getElem?_getD, List.getElem?_eq_getElem h4,
      Option.getD_some]
    split
    · split
      · rename_i h; rw [h]; exact ones_bit _ _ h3
      · rename_i h; simp only [Bool.not_eq_true] at h; rw [h]; exact Nat.zero_testBit _
    · split
      · exact Nat.zero_testBit _
      · rw [Nat.testBit_mod_two_pow, Nat.testBit_div_two_pow]
        have : m / (etBits i.et / 8) * (etBits i.et / 8) + m % (etBits i.et / 8) = m := Nat.div_add_mod' m _
        rw [Nat.add_comm, this]
        simp [h3, BitVec.getLsbD]
  · intro v hv
    obtain ⟨p, hp1, rfl⟩ := List.mem_map.mp hv
    obtain ⟨q, hq, hq2⟩ := List.mem_iff_getElem.mp hp1
    simp only [List.getElem_zip, List.getElem_map] at hq2
    subst hq2
    dsimp only
    repeat' split
    all_goals first | exact Nat.sub_lt hp (by decide) | exact hp | exact Nat.mod_lt _ hp

@[simp] theorem VeSt.flag_zero (x : VeSt) : x.flag 0 = x := by simp [VeSt.flag]

/-- A row that writes P[D] under the predicate. -/
theorem vePred_row {s : State} {c : CoreId} {w : DWord} (z : VeShape) (extra : VI → Bool) (row : VI → Nat) (f : VeSt → VI → VeSt)
    (rs : List Bool) (fl : Byte) (G : Byte → Prop) (cmd : Chk → Instr) (g : Nat → Bool) (h : VeRuns s c w) (hv : veOps.contains z.op = true)
    (he : ∀ k, exec (cmd k) s = veReg z extra row k f c s) (hr : row (decodeVi w) = 5)
    (hf : f (s.ve c) (decodeVi w) = (putPred (s.ve c) (decodeVi w) rs).flag fl) (hG : G fl)
    (hl : rs.length = etLanes (decodeVi w).et) (hg : ∀ j, (h : j < rs.length) → rs[j] = g j) :
    VeRow s c w z extra cmd (PredOp s c (decodeVi w) cmd G g) := by
  refine veReg_row z extra row f cmd _ h hv he (by omega) ?_
  intro _ _ ho
  obtain ⟨r, h1, h2⟩ := putPred_bits (s.ve c) (decodeVi w) rs hl
  refine ⟨r, fl, fun m hm => ?_, hG, ?_⟩
  · rw [h2 m hm]
    have h3 : m / (etBits (decodeVi w).et / 8) < rs.length := by
      rw [hl, etLanes]
      rcases etBits_cases (decodeVi w).et with h | h | h <;> rw [h] <;> omega
    simp only [List.getD_eq_getElem?_getD, List.getElem?_eq_getElem h3, Option.getD_some, hg _ h3]
  · rw [hr, hf, h1] at ho
    exact ho

/-- A row that writes P[D] whole. -/
theorem vePredAll_row {s : State} {c : CoreId} {w : DWord} (z : VeShape) (extra : VI → Bool) (row : VI → Nat) (f : VeSt → VI → VeSt)
    (rs : List Bool) (cmd : Chk → Instr) (g : Nat → Bool) (h : VeRuns s c w) (hv : veOps.contains z.op = true)
    (he : ∀ k, exec (cmd k) s = veReg z extra row k f c s) (hr : row (decodeVi w) = 5)
    (hf : f (s.ve c) (decodeVi w) = (s.ve c).setP (decodeVi w).d (predOf (etBits (decodeVi w).et) rs))
    (hl : rs.length = etLanes (decodeVi w).et) (hg : ∀ j, (h : j < rs.length) → rs[j] = g j) :
    VeRow s c w z extra cmd (PredAll s c (decodeVi w) cmd g) := by
  refine veReg_row z extra row f cmd _ h hv he (by omega) ?_
  intro _ _ ho
  refine ⟨_, fun m hm => ?_, hf ▸ hr ▸ ho⟩
  have h3 : m / (etBits (decodeVi w).et / 8) < rs.length := by
    rw [hl, etLanes]
    rcases etBits_cases (decodeVi w).et with h | h | h <;> rw [h] <;> omega
  rw [predOf_bit _ _ m hl hm, List.getD_eq_getElem?_getD, List.getElem?_eq_getElem h3, Option.getD_some, hg _ h3]

end Sys2Proof.Machine
end

