-- ==== Sys2Proof/WellFormed.lean ====
section
/-! DEFINITION. What a command must hold to be one the block's environment can send. A meaning does not rest on it:
`exec` answers for every term. -/

namespace Sys2Proof

/-- The OPCODE of a Pyotos command (Table 12-2) is the row's. -/
def opcodeIs (w : Line) (op : Nat) : Bool := (w.extractLsb' 0 16).toNat == op

/-- Byte 8 of a command: STATE of POWER_SET and MODE of CE_SPLIT, which chooses between rows of one opcode. -/
def selector (w : Line) : Byte := w.extractLsb' 64 8

/-- Byte 9 of a command: MODE of LOOP_TUNE. -/
def tuneMode (w : Line) : Byte := w.extractLsb' 72 8

/-- Module `idx` of a die's link exists: eight to a Stage die, two to the Wings (R293). -/
def dieLinkOk (d : DieId) (idx : Nat) : Bool := match d with
  | .stage _ => decide (idx < 8)
  | .wings => decide (idx < 2)
  | .floor => false

def moduleOk (m : ModId) : Bool := dieLinkOk m.die m.idx.toNat

/-- A register write names a whole register: a word, or an aligned eight-byte pair (R315). -/
def registerOk : RegAddr → Bool
  | .bar0 off eight => off.toNat % (if eight then 8 else 4) == 0
  | .pcie _ => true
  | .secDebug => true
  | .secWdtKick => true
  | .secUnitEnc _ => true
  | .secHold _ => true
  | .secWdtCtrl => true
  | .mbxChannel _ => true
  | .prefetchRange _ => true

/-- A checker of Table 14-9 that the part has. -/
def checkerOk : Checker → Bool
  | .te _ => true
  | .ve _ => true
  | .store _ => true
  | .ae _ => true
  | .rfe _ => true
  | .floor => true
  | .link m => moduleOk m
  | .twin => true
  | .pair _ => true
  | .island _ => true
  | .block _ => true

/-- A safety event of Table 14-2 (codes 0x01 to 0x24), or the uncoded report 0x00 of R66. -/
def eventOk (e : SafetyEvent) : Bool :=
  decide (e.code.toNat ≤ 0x24) && (match e.checker with
    | none => true
    | some k => checkerOk k)

/-- A conservation audit names a credit loop that exists (R300, Table 1-6). -/
def auditOk : AuditReport → Bool
  | .dieLink m _ _ => moduleOk m
  | .twinLink _ _ => true
  | .buffers _ _ _ => true
  | .sync _ => true
  | .kvPages _ => true
  | .bandwidth account => decide (account ≤ 32)
  | .tags _ _ _ => true

/-- A scrub report names lines of device memory (Table 9-8). -/
def sramOk : SramError → Bool
  | .corrected => true
  | .cacheDataClean dpa => dpa % 64 == 0
  | .cacheDataDirty dpa => dpa % 64 == 0
  | .cacheTagsOne => true
  | .cacheTagsBoth _ => true
  | .lookup _ _ _ => true
  | .counter _ => true
  | .tracker _ => true

/-- The data lengths of ISO 11898-1: 0 to 8, and for CAN FD 12, 16, 20, 24, 32, 48 and 64. -/
def canLength (fd : Bool) (n : Nat) : Bool := decide (n ≤ 8) || (fd && [12, 16, 20, 24, 32, 48, 64].contains n)

/-- A frame a CAN FD controller can receive (R443): an 11-bit identifier unless extended, a remote frame and bit-rate
switching only where the format has them. -/
def canOk (f : CanFrame) : Bool :=
  (f.ext || decide (f.id.toNat < 2048)) && canLength f.fd f.data.length && !(f.rtr && f.fd) && (f.fd || !f.brs)

/-- The operands of a command are ones its row can carry. -/
def WellFormed : Instr → Bool
  | .nop _ w => opcodeIs w 0x0001
  | .commit _ w => opcodeIs w 0x0002
  | .cancel _ w => opcodeIs w 0x0003
  | .diagRead _ w => opcodeIs w 0x0004
  | .logRead _ w => opcodeIs w 0x0005
  | .powerSetParked _ w => opcodeIs w 0x0006 && selector w != 0
  | .powerSetActive _ w => opcodeIs w 0x0006 && selector w == 0
  | .fwUpdate _ w => opcodeIs w.line 0x0007
  | .sliceCreate _ w => opcodeIs w 0x0101
  | .sliceDestroy _ w => opcodeIs w 0x0102
  | .quotaSet _ w => opcodeIs w 0x0103
  | .assign _ w => opcodeIs w 0x0104
  | .cacheSet _ w => opcodeIs w 0x0105
  | .memMap _ w => opcodeIs w 0x0106
  | .memUnmap _ w => opcodeIs w 0x0107
  | .apertureSet _ w => opcodeIs w 0x0108
  | .swapAreaSet _ w => opcodeIs w 0x0109
  | .graphLoad _ w => opcodeIs w 0x0201
  | .graphUnload _ w => opcodeIs w 0x0202
  | .jobStart _ w => opcodeIs w 0x0301
  | .jobAbort _ w => opcodeIs w 0x0302
  | .sheetWrite _ w => opcodeIs w 0x0401
  | .cueSet _ w => opcodeIs w 0x0402
  | .cueStart _ w => opcodeIs w 0x0403
  | .cueStop _ w => opcodeIs w 0x0404
  | .syncAlloc _ w => opcodeIs w 0x0501
  | .syncFree _ w => opcodeIs w 0x0502
  | .syncSet _ w => opcodeIs w 0x0503
  | .syncSignal _ w => opcodeIs w 0x0504
  | .syncRead _ w => opcodeIs w 0x0505
  | .kvPoolSet _ w => opcodeIs w 0x0601
  | .seqCreate _ w => opcodeIs w 0x0602
  | .seqFree _ w => opcodeIs w 0x0603
  | .seqGlobals _ w => opcodeIs w 0x0604
  | .seqSwapOut _ w => opcodeIs w 0x0605
  | .seqSwapIn _ w => opcodeIs w 0x0606
  | .sampleSubmit _ w => opcodeIs w 0x0701
  | .dictLoad _ w => opcodeIs w 0x0702
  | .camSet _ w => opcodeIs w 0x0703
  | .sampleRelease _ w => opcodeIs w 0x0704
  | .headSet _ w => opcodeIs w 0x0801
  | .layerSet _ w => opcodeIs w 0x0802
  | .fallbackLoad _ w => opcodeIs w 0x0803
  | .routeSet _ w => opcodeIs w 0x0901
  | .timebaseSet _ w => opcodeIs w 0x0902
  | .timeSet _ w => opcodeIs w 0x0903
  | .timeRead _ w => opcodeIs w 0x0904
  | .loopSet _ w => opcodeIs w 0x0905
  | .loopCoeff _ w => opcodeIs w 0x0906
  | .loopTuneStop _ w => opcodeIs w 0x0907 && tuneMode w != 1 && tuneMode w != 2
  | .loopTuneInject _ w => opcodeIs w 0x0907 && tuneMode w == 1
  | .loopTuneRelay _ w => opcodeIs w 0x0907 && tuneMode w == 2
  | .safetyPolicy _ w => opcodeIs w 0x0A01
  | .kafSet _ w => opcodeIs w 0x0A02
  | .safetyStatus _ w => opcodeIs w 0x0A03
  | .twinMode _ w => opcodeIs w 0x0B01
  | .twinChannelSet _ w => opcodeIs w 0x0B02
  | .twinChannelFree _ w => opcodeIs w 0x0B03
  | .enclaveCreate _ w => opcodeIs w 0x0C01
  | .enclaveLoad _ w => opcodeIs w 0x0C02
  | .enclaveDestroy _ w => opcodeIs w 0x0C03
  | .ceSplit _ w => opcodeIs w 0x0908 && selector w != 0
  | .ceJoin _ w => opcodeIs w 0x0908 && selector w == 0
  | .identify _ => true
  | .echo _ => true
  | .stopSlice _ => true
  | .getKeys => true
  | .bootInfo => true
  | .provision => true
  | .debugChallenge => true
  | .debugUnlock => true
  | .descriptorIssue _ _ => true
  | .begin_ _ => true
  | .end_ _ => true
  | .seMove _ _ => true
  | .seWindow _ => true
  | .teOp _ _ => true
  | .veLaunch _ => true
  | .veLaunchConv _ _ => true
  | .syncWait _ => true
  | .syncSignalDescriptor _ => true
  | .yield_ _ => true
  | .aeAppend _ _ => true
  | .aeGather _ _ => true
  | .aeDecode _ _ => true
  | .rfeRender _ _ => true
  | .rfeClear _ => true
  | .rfeResolve _ => true
  | .tileIssue _ _ => true
  | .veNop _ => true
  | .halt _ => true
  | .br _ => true
  | .brz _ => true
  | .brnz _ => true
  | .brany _ => true
  | .brnone _ => true
  | .loop _ _ => true
  | .trap _ => true
  | .sadd _ _ => true
  | .ssub _ _ => true
  | .smul _ _ => true
  | .sand _ _ => true
  | .sor _ _ => true
  | .sxor _ _ => true
  | .sshl _ _ => true
  | .sshr _ _ => true
  | .smin _ _ => true
  | .smax _ _ => true
  | .scmp _ _ => true
  | .smovi _ _ => true
  | .vadd _ _ => true
  | .vsub _ _ => true
  | .vmul _ _ => true
  | .vmulh _ _ => true
  | .vmad _ _ => true
  | .vdot4 _ _ => true
  | .vabs _ _ => true
  | .vneg _ _ => true
  | .vmin _ _ => true
  | .vmax _ _ => true
  | .vand _ _ => true
  | .vor _ _ => true
  | .vxor _ _ => true
  | .vnot _ _ => true
  | .vshl _ _ => true
  | .vshr _ _ => true
  | .vcmp _ _ => true
  | .vclz _ _ => true
  | .vld _ => true
  | .vst _ => true
  | .vlds _ => true
  | .vsts _ => true
  | .vgath _ => true
  | .vscat _ => true
  | .vldbc _ => true
  | .vldpip _ => true
  | .vstpip _ _ => true
  | .sld _ => true
  | .sst _ => true
  | .tsample _ _ => true
  | .tsampleResult _ => true
  | .fadd _ _ => true
  | .fsub _ _ => true
  | .fmul _ _ => true
  | .ffma _ _ => true
  | .ffms _ _ => true
  | .fmin _ _ => true
  | .fmax _ _ => true
  | .fabs _ _ => true
  | .fneg _ _ => true
  | .fcmp _ _ => true
  | .fdiv _ _ => true
  | .fsqrt _ _ => true
  | .frcp _ _ => true
  | .frsq _ _ => true
  | .fexp2 _ _ => true
  | .flog2 _ _ => true
  | .fsin _ _ => true
  | .fcos _ _ => true
  | .ftanh _ _ => true
  | .fsigm _ _ => true
  | .ffloor _ _ => true
  | .fround _ _ => true
  | .fclamp _ _ => true
  | .cvt _ _ => true
  | .f8pack _ _ => true
  | .f8unpk _ _ => true
  | .i4pack _ _ => true
  | .i4unpk _ _ => true
  | .narrow _ _ => true
  | .vsel _ _ => true
  | .vmov _ _ => true
  | .vperm _ _ => true
  | .vrot _ _ => true
  | .vext _ _ => true
  | .vins _ _ => true
  | .vredadd _ _ => true
  | .vredmax _ _ => true
  | .vredmin _ _ => true
  | .vidx _ _ => true
  | .pand _ _ => true
  | .por _ _ => true
  | .pnot _ _ => true
  | .pfirstn _ _ => true
  | .pcnt _ _ => true
  | .doorbellCmd _ => true
  | .doorbellMbx _ => true
  | .ringEnable _ _ => true
  | .ringDisable _ _ => true
  | .cplHeadWrite _ _ => true
  | .ntcHeadWrite _ _ => true
  | .ntcLostRead _ _ => true
  | .pdStatusClear _ => true
  | .counterFetchAdd _ _ _ => true
  | .counterSwapCas _ _ => true
  | .bar0InvalidAccess _ off size => decide (0 < size) && decide (off.toNat + size ≤ 2 ^ 24)
  | .apertureRead _ off r => decide (0 < r.len) && decide (off.toNat + r.len ≤ 2 ^ 25)
  | .apertureWrite _ off data _ => decide (0 < data.length) && decide (off.toNat + data.length ≤ 2 ^ 25)
  | .pasidPrefixedRequest _ => true
  | .channelDoorbell _ _ => true
  | .channelWordAccess _ _ _ _ _ => true
  | .mbxLockSet => true
  | .secWdtKick _ _ => true
  | .secDebugWrite _ _ => true
  | .registerWrite r _ _ => registerOk r
  | .i2cOffsetWrite data => decide (0 < data.length)
  | .i2cRead words => decide (0 < words)
  | .i2cSclTimeout => true
  | .jtagDebugAccess _ _ => true
  | .jtagTrst => true
  | .aonPowerOn => true
  | .railGood _ => true
  | .railEnableTimeout _ => true
  | .railRetry => true
  | .brownOut _ => true
  | .porstNLow => true
  | .porstNRise _ _ => true
  | .chipReset _ => true
  | .secureRomStart _ => true
  | .configRetryEnd _ => true
  | .imageVerifyDone _ _ => true
  | .trimAndPllLock r => r.lanes.all (fun p => moduleOk p.1 && p.2.all (· < 73)) && (r.straps.map (·.1)).Nodup
  | .dramTrainingDone _ => true
  | .bistComplete _ _ => true
  | .devReady _ => true
  | .memoryInitComplete => true
  | .refclkLoss => true
  | .sleepRequest => true
  | .wake => true
  | .thermalSensorUpdate _ _ => true
  | .throttleStep _ => true
  | .throttleStepUp _ => true
  | .operatingPointStepDone _ => true
  | .thermalEmergency => true
  | .thermalRecovery => true
  | .thermalTrip => true
  | .powerMeasure _ => true
  | .mr4Read _ _ _ => true
  | .ivrCoreWake _ => true
  | .pcieLinkDown => true
  | .d3hotEntry => true
  | .d0Return => true
  | .hostCompletion _ _ _ => true
  | .hostCompletionTimeout _ => true
  | .bridgePrefetch _ off len _ => decide (0 < len) && decide (off.toNat + len ≤ 2 ^ 25)
  | .prefetchExpiry _ => true
  | .noticeDeliver _ => true
  | .completionWrite _ => true
  | .coalesceTimer _ _ _ => true
  | .cueEdge _ => true
  | .conservationAudit r => auditOk r
  | .beatStart _ => true
  | .cameraTrigger _ _ => true
  | .fsyncFall _ _ => true
  | .sceneOpen _ _ => true
  | .sceneClose _ _ => true
  | .jobPlace _ => true
  | .jobTerminate _ => true
  | .jobEnd _ => true
  | .preemptRequest _ => true
  | .forcedSpill _ => true
  | .preemptSaveDone _ => true
  | .contextRestore _ => true
  | .displayReclaim _ => true
  | .coreFence _ => true
  | .regulationWindow _ => true
  | .syncSignalApply _ => true
  | .syncWaitArrive _ => true
  | .farWriteAck _ => true
  | .transactionTimeout _ => true
  | .translationChangeDone => true
  | .patrolScrubBlock _ => true
  | .floorSramScrub e => sramOk e
  | .writeLinkEccError _ _ => true
  | .pageTest _ _ => true
  | .flitCrcFail f => moduleOk f.mod_ && decide (f.lane < 70) && decide (f.seq ≤ f.last)
  | .laneErrorRetrain m => moduleOk m
  | .linkRetrainDone m bad => moduleOk m && bad.all (· < 73)
  | .rawFrameReceive st d _ _ _ => d != .wings || st == .control || st == .trace
  | .cuePredictedEdge d => d != .wings
  | .pllLockLoss _ => true
  | .twinLinkUp _ => true
  | .twinLinkDown => true
  | .twinCodewordUncorrectable => true
  | .twinAlignmentTimeout => true
  | .twinCueFrame _ => true
  | .farLockRequest _ => true
  | .farLockTimeout _ _ => true
  | .twinChannelCopy _ => true
  | .twinChannelCopyDone _ _ _ => true
  | .curtainFrameReceive => true
  | .crossRecordReceive r => decide (r.scene < 32)
  | .safetyEventLatch _ e _ => eventOk e
  | .curtainMessageRepeat _ => true
  | .safeOkToggle _ _ => true
  | .voterCompare _ _ _ _ => true
  | .understudyRejoin _ => true
  | .islandRestartDone _ => true
  | .islandCheckpointTimer _ _ => true
  | .aliveWord _ => true
  | .islandASilent _ => true
  | .lockstepMismatch _ => true
  | .targetedSelfTest _ => true
  | .targetedSelfTestDone _ _ => true
  | .rehearsalSegment k _ => checkerOk k
  | .rehearsalSegmentEnd k _ _ => checkerOk k
  | .rehearsalStarved k _ => checkerOk k
  | .signatureReady _ => true
  | .secureWdtWarning _ => true
  | .secureWdtExpiry _ => true
  | .csi2LongPacket _ _ => true
  | .csi2FrameStart _ _ => true
  | .csi2FrameEnd _ => true
  | .cameraWindowExpiry _ _ => true
  | .cameraFrameDone _ => true
  | .sampleStart _ _ => true
  | .sampleEnd _ _ => true
  | .sampleBudgetExpiry _ _ _ => true
  | .vblankStart _ _ => true
  | .lineSend _ _ => true
  | .headLinkTrained _ => true
  | .kvRefill _ => true
  | .swapOutComplete _ _ => true
  | .epochPageRelease _ => true
  | .canFrameReceive _ f _ => canOk f
  | .ethFrameReceive _ _ data _ => decide (14 ≤ data.length) && decide (data.length ≤ 9216)
  | .minGapExpiry _ _ => true
  | .routeStale _ _ => true
  | .canBusoffRecovery _ => true
  | .gclEntry _ _ => true
  | .capEdge _ _ _ _ => true
  | .ptpSyncReceive _ m _ => decide (44 ≤ m.sync.length) && decide (44 ≤ m.followUp.length) && decide (m.followUp.length ≤ 1500)
  | .followSample _ _ => true
  | .timebaseSafePoint _ _ => true
  | .timebaseHoldover _ _ => true
  | .groupSafePointApply _ _ => true
  | .loopSample _ => true
  | .descriptorComplete _ _ => true
  | .swapInComplete _ _ => true
  | .canFrameTransmitted _ _ _ => true
  | .ethPortLinkChange _ _ => true
  | .farLockResponse _ _ => true
  | .domainWakeComplete _ => true
  | .cutRequest _ => true
  | .aonRailRemoval => true

end Sys2Proof
end

