-- ==== Sys2Proof/Tests/Slice0.lean ====
section
/-! SUPPORT. Tests of the model's own: the terms that WellFormed refuses, and for each statement states and operands that
meet its hypotheses, so that no statement is empty. Each theorem is decided by the kernel on small states. -/

namespace Sys2Proof.Tests

open Sys2Proof Sys2Proof.Machine

set_option Elab.async false

/-! ### Small states -/

/-- A job of slice 0 on one core, one attention engine and one raster front end. -/
def work : JobEntry :=
  { cores := 1, align := 0, cls := 0, aes := 1, rfes := 1, preemptible := false, coreSec := 0, aeSec := 0, rfeSec := 0, inputs := 0, kept := 0, name := 0 }

def job0 : Job :=
  { id := 0, slice := 0, tag := 7, pos := 0, handle := 0, jobIdx := 0, e := work, bank := 0, scene := 0, label := 0, carryOver := false, carryLimit := 0,
    statusVa := 0, semVa := 0, flagVa := 0, enclave := none, savePages := [], phase := .running,
    entries := [{ unit := some (.core 0) }, { unit := some (.ae 0) }, { unit := some (.rfe 0) }],
    suspensions := 0, borrowing := false, kaf := none, startCue := 0, endCue := 0, safetyRaised := false, susCue := none }

/-- A command or descriptor from (offset, size, value) fields. -/
def line (fs : List (Nat × Nat × Nat)) : Line := fs.foldl (fun w f => setFld w f.1 f.2.1 f.2.2) 0

/-- After bring-up: the link is up, slice 0 has its rings on and one entry waiting, one page is mapped read, write and
execute at 0x10000, and 4,096 pages are initialised. -/
def ready : State := { State.reset with
  host := { linkUp := true, configReady := true, devReady := true, dramRate := 5 }
  slices := [(0, { valid := true, partition := 2
                   page := { enable := true, cmdLog2 := 6, cplLog2 := 6, ntcLog2 := 6, cmdTail := 1, seenTail := 1 }
                   maps := [{ va := 0x10000, pa := 0x20000, size := 0x10000, w := true, x := true, noAlloc := false, host := false }] })]
  mem := { initPages := 4096, owner := [(2, some (sealOwner { typ := .slice, id := 0, grants := 1 }))] }
  pwr := { aonUp := true, porstHigh := true, phase := .ready, i2cOn := true, pwrEn := 7, good := 7 } }

/-- Bytes in slice 0's page. -/
def readyBytes (bs : Bytes) : State := ready.upMem (fun m => { m with dram := m.dram.poke 0x20000 bs })

/-- A unit runs job 0 with this sequencer. -/
def running (u : UnitId) (q : Seq) : State := { ready with
  jobs := [job0], jobNext := 1
  units := [(UnitId.code u, { job := some 0, entry := if UnitId.code u < 64 then 0 else if UnitId.code u < 80 then 1 else 2, phase := .running, seq := q })] }

/-! ### WellFormed refuses -/

/-- For each check of WellFormed a term that fails it. -/
theorem test_wellFormed_refuses : ∀ i ∈
    [Instr.nop 0 (line [(0, 2, 2)]), .powerSetParked 0 (line [(0, 2, 6)]), .powerSetActive 0 (line [(0, 2, 6), (8, 1, 1)]),
     .loopTuneStop 0 (line [(0, 2, 0x907), (9, 1, 1)]), .loopTuneInject 0 (line [(0, 2, 0x907)]), .loopTuneRelay 0 (line [(0, 2, 0x907), (9, 1, 1)]),
     .ceSplit 0 (line [(0, 2, 0x908)]), .ceJoin 0 (line [(0, 2, 0x908), (8, 1, 1)]), .bar0InvalidAccess false 0 0, .bar0InvalidAccess true 0xFFFFFF 2]
    ++ [.apertureRead 0 0 { len := 0 }, .apertureWrite 0 0x1FFFFFF [0, 0] {}, .bridgePrefetch 0 0 0 0, .registerWrite (.bar0 2 false) false .read,
     .registerWrite (.bar0 4 true) false .read, .i2cOffsetWrite [], .i2cRead 0,
     .trimAndPllLock { straps := [], pllFail := none, lanes := [({ die := .wings, idx := 2 }, [])] },
     .trimAndPllLock { straps := [(.floor, 0), (.floor, 1)], pllFail := none, lanes := [] }]
    ++ [.conservationAudit (.dieLink { die := .floor, idx := 0 } 0 { h := 0, ct := 0, o := 0, f := 0, cr := 0 }), .conservationAudit (.bandwidth 33), .floorSramScrub (.cacheDataClean 1),
     .flitCrcFail { mod_ := { die := .wings, idx := 2 }, lane := 0, seq := 0, last := 0 }, .rawFrameReceive .cue .wings true true 0, .cuePredictedEdge .wings,
     .linkRetrainDone { die := .wings, idx := 0 } [73],
     .crossRecordReceive { startCue := 0, scene := 32, name := 0, completed := true, sig := 0 }, .safetyEventLatch .a { code := 0x25 } 0,
     .safetyEventLatch .a { code := 1, checker := some (.link { die := .floor, idx := 0 }) } 0, .rehearsalSegment (.link { die := .floor, idx := 0 }) 0]
    ++ [.canFrameReceive 0 { id := 2048, ext := false, fd := false, brs := false, rtr := false, data := [] } 0,
     .canFrameReceive 0 { id := 0, ext := false, fd := false, brs := false, rtr := false, data := zeros 9 } 0,
     .canFrameReceive 0 { id := 0, ext := false, fd := true, brs := false, rtr := true, data := [] } 0,
     .canFrameReceive 0 { id := 0, ext := false, fd := false, brs := true, rtr := false, data := [] } 0, .ethFrameReceive 0 {} (zeros 13) 0,
     .ethFrameReceive 0 {} (zeros 9217) 0, .ptpSyncReceive 0 { port := 0, sync := zeros 43, followUp := zeros 44, delay := 0 } 0,
     .ptpSyncReceive 0 { port := 0, sync := zeros 44, followUp := zeros 1501, delay := 0 } 0],
    WellFormed i = false := by decide +kernel

/-- Every command's row accepts its own opcode. -/
theorem test_wellFormed_accepts : ∀ c ∈ cmdRows, WellFormed (c.row 0 (line [(0, 2, c.op)])) = true ∨
    WellFormed (c.row 0 (line [(0, 2, c.op), (8, 1, 1)])) = true ∨ WellFormed (c.row 0 (line [(0, 2, c.op), (9, 1, 1)])) = true ∨
    WellFormed (c.row 0 (line [(0, 2, c.op), (9, 1, 2)])) = true := by decide +kernel

/-! ### Every command -/

/-- A read that succeeds. -/
def okBytes : ReadRes → Option Bytes
  | .ok bs => some bs
  | _ => none

/-- StepRunsTheFrontCommand, CommandsLeaveTheQueue, EmptyQueueIdles: a queue of two commands and an empty one. -/
theorem witness_queues : { ready with pending := [.aliveWord 5, .railRetry] }.pending = .aliveWord 5 :: [.railRetry] ∧ ready.pending = [] := by and_intros <;> decide +kernel

/-- One scene on core 0 and one on core 1 that overlap. -/
def twoScenes : Sheet :=
  let x : Scene := { lending := false, kaf := false, slice := 0, cls := 0, label := 0, start := 0, duration := 20000, gbps := 942, lendTo := 0, cores := 1, aes := 0, rfes := 0 }
  { period := 1000000, scenes := [x, { x with gbps := 0, cores := 2 }] }

/-- SheetsStaySafe: a state with a written sheet, and a step from it. -/
theorem witness_sheetsStaySafe : SheetsSafe { ready with sheets := [(0, some twoScenes)] } ∧ (∃ t, step { ready with sheets := [(0, some twoScenes)] } = .next t) := by
  refine ⟨fun b sh h => ?_, _, rfl⟩
  have e : sh = twoScenes := by
    simp only [tget] at h
    split at h <;> simp_all
  subst e
  refine ⟨by decide, by decide, by decide, by decide, by decide, by decide, by decide, ?_, by decide, ?_⟩
  · intro i x hx hl
    match i with
    | 0 => cases hx; cases hl
    | 1 => cases hx; cases hl
    | n + 2 => cases hx
  · intro i j x y hij hx hy _
    match i, j with
    | 0, 1 => cases hx; cases hy; decide
    | 0, 0 => omega
    | 1, 0 => omega
    | 1, 1 => omega
    | n + 2, _ => cases hx
    | _, n + 2 => cases hy

/-- LocksHold, SlotsAndSheetsHaveOneWriter: all four locks set, a command that cannot reset, and a SHEET_WRITE. -/
theorem witness_locks :
    let s : State := { ready with host := { ready.host with mbxLock := true, rangesLocked := true }, sec := { wdtLock := true, debugLock := true } }
    mayReset (.mr4Read 11 .x2 true) = false ∧ (∃ t, exec (.mr4Read 11 .x2 true) s = .next t) ∧ (∃ t, exec (.sheetWrite 0 (line [(0, 2, 0x401), (8, 1, 3)])) s = .next t) :=
  ⟨rfl, ⟨_, rfl⟩, ⟨_, rfl⟩⟩

/-! ### Sequencers, engines and counters -/

/-- BEGIN with a live range of one unit. -/
def beginD : Line := line [(0, 1, 1), (4, 2, 1), (10, 2, 1)]

/-- A unit runs job 0 from a program of two descriptors in slice 0's page, this one first. -/
def fetching (u : UnitId) (d : Line) : State :=
  (running u { base := 0x10000, len := 2 }).upMem (fun m => { m with dram := m.dram.poke 0x20000 (leBytes 64 d.toNat) })

/-- The head of a queue. -/
def item (d : Line) : QItem := { d := d, ran := false, status := 0 }

/-- A move within the store of the near end, with these fields besides. -/
def moveD (fs : List (Nat × Nat × Nat)) : Line :=
  line ([(0, 1, 3), (6, 2, 64), (8, 8, 0x10000), (19, 2, 1), (21, 2, 1), (23, 2, 1), (25, 2, 1), (27, 2, 1)] ++ fs)

/-- A 1 × 1 operation on INT8 of K 1, with these fields besides. -/
def teD (fs : List (Nat × Nat × Nat)) : Line :=
  line ([(0, 1, 5), (4, 1, 1), (5, 1, 1), (6, 1, 1), (8, 4, 1), (12, 4, 1), (16, 2, 1), (32, 4, 64), (44, 4, 128), (56, 4, 1)] ++ fs)

/-- A window of one INT8 pixel of one channel. -/
def winD : Line := line [(0, 1, 4), (5, 1, 1), (8, 4, 64), (16, 2, 1), (18, 2, 1), (20, 2, 1), (24, 4, 1), (28, 4, 1), (32, 1, 1), (33, 1, 1), (34, 1, 1), (35, 1, 1), (40, 2, 1), (42, 2, 1)]

/-- A convolution of that window, and a kernel of one point whose code is the last of the store. -/
def convD : Line := line [(0, 1, 6), (4, 1, 1), (7, 1, 1), (8, 1, 1), (9, 1, 1), (10, 1, 1), (12, 4, 0), (16, 4, 128), (28, 4, 1), (40, 4, 1)]
def kernelD : Line := line [(0, 1, 6), (6, 2, 1), (8, 2, 1), (10, 2, 1), (12, 4, 0x3FFFC0), (16, 4, 1)]

/-- Core 0, an attention engine and a raster front end run job 0 with any sequencer. -/
theorem witness_sequencers (q : Seq) :
    (working (running (.core 0) q) (.core 0) = true ∧ ((running (.core 0) q).unit (.core 0)).seq = q ∧ jobOf (running (.core 0) q) (.core 0) = some job0) ∧
    (working (running (.ae 0) q) (.ae 0) = true ∧ ((running (.ae 0) q).unit (.ae 0)).seq = q ∧ jobOf (running (.ae 0) q) (.ae 0) = some job0) ∧
    (working (running (.rfe 0) q) (.rfe 0) = true ∧ ((running (.rfe 0) q).unit (.rfe 0)).seq = q ∧ jobOf (running (.rfe 0) q) (.rfe 0) = some job0) ∧
    (running (.core 0) q).host.reads = [] ∧ (running (.core 0) q).mem.txns = [] ∧ job0.carryOver = false :=
  ⟨⟨rfl, rfl, rfl⟩, ⟨rfl, rfl, rfl⟩, ⟨rfl, rfl, rfl⟩, rfl, rfl, rfl⟩

/-- SequencerDescriptors, the issue: a unit that fetches a descriptor; one that is refused, one that may not issue, and one of each
engine's. -/
theorem witness_descriptorIssue : (∀ d, let s := fetching (.core 0) d
      working s (.core 0) = true ∧ (s.unit (.core 0)).seq.cur = none ∧ (s.unit (.core 0)).seq.wait = none ∧ (s.unit (.core 0)).seq.len = 2 ∧
      (s.unit (.core 0)).seq.idx = 0 ∧ jobOf s (.core 0) = some job0) ∧
    (okBytes (readVa (fetching (.core 0) beginD) 0 (actorOf job0) .fetch 0x10000 64)).map lineOf = some beginD ∧
    descOk .core false 0 2 beginD = true ∧ mayIssue (.core 0) { base := 0x10000, len := 2 } beginD = true ∧ descOk .core false 0 2 (line [(0, 1, 5)]) = false ∧
    descOk .core false 1 3 winD = true ∧ descOk .core false 1 3 (moveD []) = true ∧ descOk .core false 1 3 (teD []) = true ∧ descOk .core false 1 3 convD = true ∧
    descOk .core false 1 3 kernelD = true ∧ descOk .ae false 1 3 (line [(0, 1, 0x12), (6, 2, 1024), (20, 1, 16), (21, 1, 6), (22, 1, 9)]) = true ∧
    descOk .rfe false 1 3 (line [(0, 1, 0x21), (4, 1, 3)]) = true := by
  refine ⟨fun d => ⟨rfl, rfl, rfl, rfl, rfl, rfl⟩, ?_⟩
  and_intros <;> decide +kernel

/-- SequencerDescriptors, the sequencer's own: the types of the descriptors, a signal on the job's own counter and on another's, a request
for a safe point, and the head of a queue that has been performed. With witness_sequencers, whose `q` takes each of them. -/
theorem witness_sequencerDescriptors :
    typeOf beginD = 1 ∧ typeOf (line [(0, 1, 2)]) = 2 ∧ typeOf (line [(0, 1, 7), (4, 2, 8191), (6, 1, 1), (8, 4, 1)]) = 7 ∧
    typeOf (line [(0, 1, 8), (4, 2, 8191), (8, 4, 0xFFFFFFFF)]) = 8 ∧ typeOf (line [(0, 1, 9), (4, 2, 63), (6, 2, 1), (8, 4, 200000)]) = 9 ∧
    (let s := { running (.core 0) {} with ctrs := [(8191, { slice := some 0 })] }
     (s.ctr 8191).slice = some job0.slice ∧ (s.ctr 8190).slice ≠ some job0.slice) ∧
    (let s := (running (.core 0) { cur := some (line [(0, 1, 9)]) }).upUnit (.core 0) (fun x => { x with phase := .preemptAsked 0 true })
     (s.unit (.core 0)).phase = .preemptAsked 0 true ∧ (s.unit (.core 0)).seq.cur = some (line [(0, 1, 9)])) ∧
    ({ se := [{ item 0 with ran := true }] } : Seq).queue .se = [{ item 0 with ran := true }] := by
  and_intros <;> decide +kernel

/-- Counter 5 of slice 0, with a core that waits on it. -/
def counting (x : Ctr) (arrived : Bool) : State :=
  { running (.core 0) { wait := some { who := .unit (.core 0) 0, ctr := 5, mode1 := true, value := 1 }, arrived := arrived } with ctrs := [(5, x)] }

/-- SyncCounters: a signal that reaches the limit, one that passes it by one, and one on a counter out of service; a wait
on another slice's counter, on one out of service and on its own: the counter is what the state gives. -/
theorem witness_syncCounters (x : Ctr) : (counting x false).ctr 5 = x ∧ working (counting x false) (.core 0) = true ∧ jobOf (counting x false) (.core 0) = some job0 ∧
    ((counting x false).unit (.core 0)).seq.wait = some { who := .unit (.core 0) 0, ctr := 5, mode1 := true, value := 1 } ∧
    ((counting x false).unit (.core 0)).seq.arrived = false ∧
    (0 : Word).toNat + (0xFFFFFFFF : Word).toNat < 2 ^ 32 ∧ 2 ^ 32 ≤ (1 : Word).toNat + (0xFFFFFFFF : Word).toNat :=
  ⟨rfl, rfl, rfl, rfl, rfl, by decide, by decide⟩

/-- WaitsReleasedInOrder: a wait that the value allows and one that it does not. -/
theorem witness_waitsReleasedInOrder :
    let w : SyncWait := { who := .unit (.core 0) 0, ctr := 5, mode1 := true, value := 1 }
    ((releaseWaits (counting { slice := some 0, value := 1, waits := [w] } true) 5).unit (.core 0)).seq.wait = none ∧
    ((releaseWaits (counting { slice := some 0, value := 0, waits := [w] } true) 5).unit (.core 0)).seq.wait = some w := by
  exact ⟨rfl, rfl⟩

/-- Core 0 with these queues and a window, core 1 with the same job. -/
def engines (q : Seq) : State :=
  { running (.core 0) q with
    units := [(0, { job := some 0, phase := .running, seq := q }), (1, { job := some 0, phase := .running })]
    cores := [(0, { win := [(0, some winD)] })] }

/-- CoreEngines: a descriptor at the head of each engine's queue. -/
theorem witness_engineHeads (d : Line) : let s := engines { se := [item d], te := [item d], ve := [item d] }
    headOf s (.core 0) .se = some d ∧ headOf s (.core 0) .te = some d ∧ headOf s (.core 0) .ve = some d ∧ jobOf s (.core 0) = some job0 ∧
    s.host.reads = [] ∧ (s.ve 0).running = false ∧ (s.unit (.core 1)).job = some job0.id ∧ tget none (s.core 0).win 0 = some winD ∧
    (freeTag s (poolOf (.core 0))).isSome = true :=
  ⟨rfl, rfl, rfl, rfl, rfl, rfl, rfl, rfl, rfl⟩

/-- CoreEngines, moves: to the core itself, outside the store by a byte, from a neighbour, from memory and to memory. The near end of
64 bytes lies at 0x3FFFC0 at most. -/
theorem witness_seMoves :
    (let m := decodeMove (moveD [(4, 2, 2)])
     m.neighbour = true ∧ m.nb = (0 : CoreId).toNat % 4) ∧
    (let m := decodeMove (moveD [(16, 3, 0x3FFFC1)])
     m.neighbour = false ∧ inStore m.near m.len m.counts m.nearStrides = false) ∧
    (let m := decodeMove (moveD [(4, 2, 6), (8, 8, 0)])
     m.neighbour = true ∧ m.toFar = false ∧ m.nb ≠ (0 : CoreId).toNat % 4 ∧ inStore m.near m.len m.counts m.nearStrides = true ∧
     inStore m.far m.len m.counts m.farStrides = true ∧ neighbourOf 0 m.nb = 1) ∧
    (let m := decodeMove (moveD [(16, 3, 0x3FFFC0)])
     m.neighbour = false ∧ inStore m.near m.len m.counts m.nearStrides = true ∧ m.toFar = false ∧ hostPieces m 0 job0 (engines {}) = []) ∧
    (let m := decodeMove (moveD [(4, 2, 1)])
     m.neighbour = false ∧ inStore m.near m.len m.counts m.nearStrides = true ∧ m.toFar = true) ∧
    typeOf winD = 4 ∧ typeOf (moveD []) = 3 := by
  and_intros <;> decide +kernel

/-- CoreEngines, tensor operations: inside the store, alone and through a window, and one whose output leaves the store. -/
theorem witness_teOps :
    (∀ p ∈ [(teD [], none), (teD [(44, 4, 0x400000)], none), (teD [(7, 1, 16)], some (decodeWin winD))], teFits (decodeTe p.1 p.2) = true) ∧
    bitAt (fld (teD [(7, 1, 16)]) 7 1) 4 = true ∧ bits (fld (teD [(7, 1, 16)]) 7 1) 6 5 = 0 ∧ bitAt (fld (teD []) 7 1) 4 = false ∧
    (let x := decodeTe (teD []) none
     rangesFit (teReads x) = true ∧ rangesFit (teWrites x) = true ∧ (∀ r ∈ teReads x, storeBad (engines {}) 0 r.1 r.2 = none) ∧ x.sparse = false ∧ teBlocks x = [([0], [0])] ∧
     rowAgrees (engines {}) 0 x [0] 0 = true ∧ x.win = none) ∧
    rangesFit (teWrites (decodeTe (teD [(44, 4, 0x400000)]) none)) = false ∧
    (let x := decodeTe (teD [(7, 1, 8), (12, 4, 4)]) none
     x.sparse = true ∧ rangesFit (teReads x) = true ∧ rangesFit (teWrites x) = true ∧ (∀ r ∈ teReads x, storeBad (engines {}) 0 r.1 r.2 = none) ∧
     x.n = 1 ∧ x.k / 4 = 1 ∧ metaOk (metaCode (engines {}) 0 x 0 0) = false) := by
  and_intros <;> decide +kernel

/-- R103, by hand: of a neighbour's 128 bytes, a move that stops after one granule has moved 64 and holds its place, and the next
row moves the other 64. -/
theorem test_moveIsCut :
    let s := (engines {}).upSeq (.core 0) (fun q => { q with se := [item (moveD [(4, 2, 6), (6, 2, 128), (8, 8, 0), (16, 3, 0x1000)])] })
    let s := s.upMem (fun m => { m with store := m.store.write (storeBase 1) (List.replicate 128 0xA5) })
    let row (k : MoveChk) (s : State) : State := match Machine.exec (.seMove 0 k) s with
      | .next t => t
      | _ => s
    let a := row { stop := some 1 } s
    let b := row {} a
    (headItem a (.core 0) .se).part = 1 ∧ (headItem a (.core 0) .se).ran = false ∧ byteAt (storeRead a 0 0x103F 2) 0 = 0xA5 ∧ byteAt (storeRead a 0 0x103F 2) 1 = 0 ∧
    (headItem b (.core 0) .se).ran = true ∧ storeRead b 0 0x1000 128 = List.replicate 128 0xA5 := by
  and_intros <;> decide +kernel

/-- CoreEngines, vector launches: a kernel and a convolution. -/
theorem witness_veLaunches :
    (fld kernelD 4 1 = 0 ∧ bitAt (fld kernelD 5 1) 0 = false ∧ storeBad (engines {}) 0 (fld kernelD 12 4) (8 * fld kernelD 10 2) = none) ∧
    (fld convD 4 1 = 1 ∧ fld convD 6 1 % 4 = 0 ∧ convFits convD winD = true ∧ rangesFit (convReads convD (decodeWin winD)) = true ∧ convBad (engines {}) 0 convD winD = none ∧
     convTableFits convD winD = true ∧ (let s := convBegin (atDesc (engines { ve := [item convD] }) (.core 0) convD) 0
       convDone s 0 winD + 0 < fld convD 40 4 * convTaps winD ∧ fld convD 40 4 * convTaps winD = 1)) := by
  and_intros <;> decide +kernel

/-! ### Vector engine: VeIntegerLanes to VeExceptions, TextureSamples -/

/-- A vector word from its fields OP, ET, D, A, B, C, PE and ZM, BSEL, MOD and IMM. -/
def vw (op : Nat) (et : Nat := 0) (d : Nat := 0) (a : Nat := 0) (b : Nat := 0) (c : Nat := 0) (pz : Nat := 0) (bsel : Nat := 0) (m : Nat := 0) (imm : Nat := 0) : DWord :=
  BitVec.ofNat 64 (op * 2 ^ 57 + et * 2 ^ 54 + d * 2 ^ 49 + a * 2 ^ 44 + b * 2 ^ 39 + c * 2 ^ 34 + pz * 2 ^ 29 + bsel * 2 ^ 27 + m * 2 ^ 24 + imm)

/-- Core 0 runs a launch of a budget of 8 instructions, with this word at PC and these scalar registers. -/
def veAt (w : DWord) (sr : Tbl DWord := []) : State := { running (.core 0) {} with
  cores := [(0, { ve := { running := true, d := line [(6, 2, 1), (8, 2, 1), (16, 4, 8)], code := [w], sr := sr } })] }

/-- The word runs, and its fields are ones the row allows. -/
def veMeets (z : VeShape) (extra : VI → Bool) (w : DWord) : Bool :=
  veReady (veAt w) 0 && decide (veWord ((veAt w).ve 0) = some w) && decide (((veAt w).ve 0).count < fld ((veAt w).ve 0).d 16 4) &&
  decide ((decodeVi w).op = z.op) && z.ok (decodeVi w) && extra (decodeVi w)

/-- VeIntegerLanes: each row's conditions are met, at a signed saturating form and at the last type. -/
theorem witness_veIntegerLanes : ∀ p ∈
    [(intShape 0x20 3, vw 0x20 0 1 2 3 0 0 0 3), (intShape 0x21 3, vw 0x21 2 1 2 3 0 0 0 2), (intShape 0x22 3, vw 0x22 1 1 2 0 0 0 2 1 0xFFFFFF),
     (intShape 0x23 1, vw 0x23 2 1 2 3 0 0 1 1), ({ intShape 0x24 0 with c := .v }, vw 0x24 2 1 2 3 31),
     ({ intShape 0x25 1 with et := [2], c := .v }, vw 0x25 2 31 2 3 4 0 0 1), ({ intShape 0x26 3 with b := .no }, vw 0x26 0 1 2 0 0 0 0 2),
     ({ intShape 0x27 3 with b := .no }, vw 0x27 2 1 2 0 0 0 0 3), (intShape 0x28 1, vw 0x28 0 1 2 3), (intShape 0x29 1, vw 0x29 2 1 2 3 0 2 0 1),
     (intShape 0x2A 0, vw 0x2A 2 1 2 3 0 3), (intShape 0x2B 0, vw 0x2B 1 1 2 3), (intShape 0x2C 0, vw 0x2C 0 1 2 3),
     ({ intShape 0x2D 0 with b := .no }, vw 0x2D 0 1 2), (intShape 0x2E 0, vw 0x2E 2 1 2 3), (intShape 0x2F 1, vw 0x2F 2 1 2 3 0 0 0 1),
     ({ intShape 0x31 0 with b := .no }, vw 0x31 2 1 2)], veMeets p.1 always p.2 = true := by decide +kernel

theorem witness_veCompare : veMeets { intShape 0x30 7 with d := .p, c := .bit } (condOk true) (vw 0x30 0 7 2 3 1 0 0 5) = true ∧
    veMeets { floatShape2 0x49 with d := .p, mod := 7 } (condOk false) (vw 0x49 5 7 2 3 0 0 0 6) = true := by decide +kernel

/-- A field that the row does not allow: MOD 4 of VADD, a second operand of VNOT, a cond code of 6 for VCMP. -/
theorem witness_veIllegal : veReady (veAt (vw 0x20 0 1 2 3 0 0 0 4)) 0 = true ∧ (intShape 0x20 3).ok (decodeVi (vw 0x20 0 1 2 3 0 0 0 4)) = false ∧
    VeShape.ok { intShape 0x2D 0 with b := .no } (decodeVi (vw 0x2D 0 1 2 1)) = false ∧ condOk true (decodeVi (vw 0x30 0 7 2 3 1 0 0 6)) = false := by decide +kernel

theorem witness_veFloatLanes : ∀ p ∈
    [(floatShape2 0x40, vw 0x40 3 1 2 3), (floatShape2 0x41, vw 0x41 4 1 2 3), (floatShape2 0x42, vw 0x42 5 1 2 0 0 0 2 0 0x3F8000),
     (floatShape3 0x43, vw 0x43 5 1 2 3 4), (floatShape3 0x44, vw 0x44 3 1 2 3 4), (floatShape2 0x45, vw 0x45 3 1 2 3), (floatShape2 0x46, vw 0x46 5 1 2 3),
     (floatShape1 0x47, vw 0x47 5 1 2), (floatShape1 0x48, vw 0x48 4 1 2), (floatShape2 0x4A, vw 0x4A 5 1 2 3), (floatShape1 0x4B, vw 0x4B 3 1 2),
     (floatShape1 0x4C, vw 0x4C 5 1 2), (floatShape1 0x4D, vw 0x4D 5 1 2), (floatShape1 0x4E, vw 0x4E 5 1 2), (floatShape1 0x4F, vw 0x4F 5 1 2),
     (floatShape1 0x50, vw 0x50 5 1 2), (floatShape1 0x51, vw 0x51 3 1 2), (floatShape1 0x52, vw 0x52 4 1 2), (floatShape1 0x53, vw 0x53 5 1 2),
     (floatShape1 0x54, vw 0x54 5 1 2), (floatShape1 0x55, vw 0x55 3 1 2), (floatShape3 0x56, vw 0x56 5 1 2 3 4)], veMeets p.1 always p.2 = true := by decide +kernel

theorem witness_veConversions :
    veMeets { op := 0x60, et := etAny, d := .v, a := .v, c := .typ, mod := 7 }
      (fun i => partOk (etBits i.c) (etBits i.et) (i.mod % 4) && (!bitAt i.mod 2 || decide (i.c ≤ 2))) (vw 0x60 5 1 2 0 0 0 0 7) = true ∧
    veMeets { op := 0x61, et := etF, d := .v, a := .v, mod := 7 } (fun i => partOk (etBits i.et) 8 (i.mod % 4)) (vw 0x61 5 1 2 0 0 0 0 3) = true ∧
    veMeets { op := 0x62, et := etF, d := .v, a := .v, mod := 7 } (fun i => partOk (etBits i.et) 8 (i.mod % 4)) (vw 0x62 3 1 2 0 0 0 0 5) = true ∧
    veMeets { op := 0x63, et := [0], d := .v, a := .v, mod := 1 } always (vw 0x63 0 1 2 0 0 0 0 1) = true ∧
    veMeets { op := 0x64, et := [0], d := .v, a := .v, mod := 1 } always (vw 0x64 0 1 2) = true ∧
    veMeets { op := 0x65, et := etI, d := .v, a := .v, c := .typ, imm := .low 5, mod := 3 }
      (fun i => decide (i.c ≤ 2) && decide (etBits i.et ≤ etBits i.c) && partOk (etBits i.c) (etBits i.et) i.mod) (vw 0x65 0 1 2 0 2 0 0 3 31) = true := by decide +kernel

theorem witness_veMoves :
    veMeets { op := 0x68, et := etAny, d := .v, a := .v, b := .any } (fun i => i.pe) (vw 0x68 5 1 2 3 0 2) = true ∧
    veMeets { op := 0x69, et := etAny, d := .v, b := .any } always (vw 0x69 0 1 0 0 0 0 2 0 5) = true ∧
    veMeets { op := 0x6A, et := etAny, d := .v, a := .v, b := .any } always (vw 0x6A 5 1 2 3) = true ∧
    veMeets { op := 0x6B, et := etAny, d := .v, a := .v, b := .rot } always (vw 0x6B 0 1 2 3 0 0 1) = true ∧
    veMeets { op := 0x6C, et := etAny, d := .s, a := .v, imm := .lane, mod := 1 } always (vw 0x6C 0 1 2 0 0 0 0 1 255) = true ∧
    veMeets { op := 0x6D, et := etAny, d := .v, a := .s, imm := .lane } always (vw 0x6D 5 1 2 0 0 0 0 0 63) = true ∧
    veMeets { op := 0x71, et := etI, d := .v } always (vw 0x71 2 31) = true := by decide +kernel

theorem witness_veReductions :
    (∀ p ∈ [(redShape 0x6E, vw 0x6E 0 1 2), (redShape 0x6F, vw 0x6F 5 1 2), (redShape 0x70, vw 0x70 2 1 2),
      ({ op := 0x74, et := etAny, d := .p, a := .p, b := .reg .p }, vw 0x74 0 7 1 2), ({ op := 0x75, et := etAny, d := .p, a := .p, b := .reg .p }, vw 0x75 5 1 2 7),
      ({ op := 0x76, et := etAny, d := .p, a := .p }, vw 0x76 0 1 2), ({ op := 0x77, et := etAny, d := .p, a := .s }, vw 0x77 0 1 31),
      ({ op := 0x78, et := etAny, d := .s, a := .p }, vw 0x78 5 31 7)], veMeets p.1 always p.2 = true) := by decide +kernel

theorem witness_veScalars :
    (∀ p ∈ [(scalarShape 0x10 0, vw 0x10 0 1 2 3), (scalarShape 0x11 0, vw 0x11 0 1 2 0 0 0 2 0 0xFFFFFF), (scalarShape 0x12 0, vw 0x12 0 0 2 3),
      (scalarShape 0x13 0, vw 0x13 0 1 2 3), (scalarShape 0x14 0, vw 0x14 0 1 2 3), (scalarShape 0x15 0, vw 0x15 0 1 2 3), (scalarShape 0x16 0, vw 0x16 0 1 2 3),
      (scalarShape 0x17 1, vw 0x17 0 1 2 3 0 0 0 1), (scalarShape 0x18 1, vw 0x18 0 1 2 3), (scalarShape 0x19 1, vw 0x19 0 1 2 3 0 0 0 1),
      ({ op := 0x1B, et := etZ, d := .s, imm := .full }, vw 0x1B 0 31 0 0 0 0 0 0 0x800000)], veMeets p.1 always p.2 = true) ∧
    veMeets { scalarShape 0x1A 7 with c := .bit } (condOk true) (vw 0x1A 0 1 2 3 1 0 0 5) = true := by decide +kernel

theorem witness_veFlow :
    (∀ p ∈ [({ op := 0x00, et := etZ }, vw 0), ({ op := 0x02, et := etZ, imm := .full }, vw 2 0 0 0 0 0 0 0 0 0xFFFFFF),
      ({ op := 0x03, et := etZ, a := .s, imm := .full }, vw 3 0 0 1 0 0 0 0 0 2), ({ op := 0x04, et := etZ, a := .s, imm := .full }, vw 4 0 0 1),
      ({ op := 0x05, et := etAny, a := .p, imm := .full }, vw 5 5 0 7), ({ op := 0x06, et := etAny, a := .p, imm := .full }, vw 6 0 0 1),
      ({ op := 0x07, et := etZ, a := .s, imm := .full }, vw 7 0 0 1 0 0 0 0 0 1), ({ op := 0x08, et := etZ, imm := .full }, vw 8 0 0 0 0 0 0 0 0 9),
      (({ op := 0x01, et := etZ } : VeShape), vw 1)], veMeets p.1 always p.2 = true) := by decide +kernel

theorem witness_veMemory :
    (∀ p ∈ [(0x34, etAny, VB.no, vw 0x34 0 1 2), (0x36, etAny, .reg .s, vw 0x36 1 1 2 3), (0x38, [2, 5], .reg .v, vw 0x38 2 1 2 3), (0x3A, etAny, .no, vw 0x3A 5 1 2),
      (0x35, etAny, .no, vw 0x35 5 1 2), (0x37, etAny, .reg .s, vw 0x37 0 1 2 3), (0x39, [2, 5], .reg .v, vw 0x39 5 1 2 3)],
      veMeets { op := p.1, et := p.2.1, d := .v, a := .s, b := p.2.2.1, imm := .full } always p.2.2.2 = true) ∧
    veMeets { op := 0x3D, et := etZ, d := .s, a := .s, imm := .full } always (vw 0x3D 0 1 2) = true ∧
    veMeets { op := 0x3E, et := etZ, d := .s, a := .s, imm := .full } always (vw 0x3E 0 1 2) = true ∧
    veMeets { op := 0x3B, et := [5], d := .v, a := .s, b := .reg .s, imm := .full, mod := 3 } pipOk (vw 0x3B 5 1 2 3 0 0 0 2) = true ∧
    veMeets { op := 0x3C, et := [5], d := .v, a := .s, b := .reg .s, imm := .full, mod := 3 } pipOk (vw 0x3C 5 1 2 3) = true := by decide +kernel

/-- The three ends of a load: in range and aligned with good granules, out of range or misaligned, and a granule whose check fails; the
last address in range is 0x3FFFF8 for eight bytes. -/
theorem witness_veMemoryEnds :
    effAddr ((veAt 0 [(2, 0x3FFFF8)]).ve 0) (decodeVi (vw 0x3D 0 1 2)) + 8 ≤ storeSize ∧ storeBad (veAt 0) 0 0x3FFFF8 8 = none ∧
    storeSize < effAddr ((veAt 0 [(2, 0x3FFFF9)]).ve 0) (decodeVi (vw 0x3D 0 1 2)) + 8 ∧
    effAddr ((veAt 0 [(2, 4)]).ve 0) (decodeVi (vw 0x3D 0 1 2)) % 8 ≠ 0 ∧
    storeBad ((veAt 0).upMem (fun m => { m with store := m.store.poison 0 64 })) 0 0 8 = some true ∧
    storeBad ((veAt 0).upMem (fun m => { m with store := { m.store with syn := [(0, 1)] } })) 0 0 8 = some false ∧
    (decodeVi (vw 0x35 5 1 2)).pe = false ∧ (decodeVi (vw 0x35 5 1 2 0 0 2)).pe = true ∧
    activeList ((veAt 0).ve 0) (decodeVi (vw 0x35 5 1 2 0 0 2)) = [] ∧ activeList ((veAt 0).ve 0) (decodeVi (vw 0x38 2 1 2 3)) ≠ [] := by decide +kernel

/-- No word at PC, a budget used up, and an OP that Table 4-4 does not define. -/
theorem witness_veExceptions :
    (let s := (veAt 0).upVe 0 (fun x => { x with pc := 1 }); veReady s 0 = true ∧ veWord (s.ve 0) = none) ∧
    (let s := (veAt 0).upVe 0 (fun x => { x with count := 8 }); veReady s 0 = true ∧ veWord (s.ve 0) = some 0 ∧ fld (s.ve 0).d 16 4 ≤ (s.ve 0).count) ∧
    veReady (veAt (vw 9)) 0 = true ∧ (decodeVi (vw 9)).op ∉ veOps := by decide +kernel

/-- TextureSamples: a render context with one texture slot, a TSAMPLE whose lane 0 is active, and a slot of one texel of R8. -/
def textureW : DWord := vw 0x3F 5 0 1 2 3 2 0 1
def texturing (ctx : Option (BitVec 1024)) (tex : Option DWord) : State := { readyBytes ((leBytes 8 0x10040) ++ [1, 0, 1, 0, 0, 1, 0x0A]) with
  jobs := [job0], jobNext := 1
  units := [(0, { job := some 0, phase := .running })]
  rasters := [(0, { ctx := ctx })]
  cores := [(0, { ve := { running := true, driver := some 0, d := line [(6, 2, 1), (8, 2, 1), (16, 4, 8)], code := [textureW], p := [(0, 1)], tex := tex } })] }

def textureCtx : BitVec 1024 := setFld (setFld 0 80 8 0x10000) 88 2 1

/-- Sampling ended without an error. -/
def sampledOk {α β : Type} : Except α β → Bool
  | .ok _ => true
  | .error _ => false

theorem witness_textureSamples :
    veReady (texturing (some textureCtx) none) 0 = true ∧ veWord ((texturing (some textureCtx) none).ve 0) = some textureW ∧
    boundCtx (texturing (some textureCtx) none) 0 = some (textureCtx, job0) ∧ slotNo (decodeVi textureW) < fld textureCtx 88 2 ∧
    fld (setFld textureCtx 88 2 0) 88 2 ≤ slotNo (decodeVi textureW) ∧
    (decodeVi textureW).op = 0x3F ∧
    VeShape.ok { op := 0x3F, et := [5], d := .v, a := .v, b := .any, c := .v, imm := .low 8, mod := 1 } (decodeVi textureW) = true ∧
    veReady (texturing none none) 0 = true ∧ boundCtx (texturing none none) 0 = none := by
  and_intros <;> decide +kernel

theorem witness_textureResults : let s := texturing (some textureCtx) (some textureW)
    (s.ve 0).tex = some textureW ∧ (s.ve 0).texChk = .pass ∧ texSlotVa textureCtx (decodeVi textureW) = 0x10000 ∧ boundCtx s 0 = some (textureCtx, job0) ∧ (s.ve 0).running = true ∧ working s (.core 0) = true ∧
    activeLanes (s.ve 0) (decodeVi textureW) 2 = [true, false] ∧
    (okBytes (jobRead s job0 0x10000 32)).map (fun bs => decide ((slotOf bs).fmt ≤ 0x0B) && sampledOk (sampleLanes s job0 (slotOf bs) (leNat (bs.take 16)) (s.ve 0)
      (decodeVi textureW) ((activeLanes (s.ve 0) (decodeVi textureW) 64).zipIdx))) = some true := by
  decide +kernel

/-- A sequence of one layer and one head of 64 FP16 values: its tables in page 3, its KV page at 0x38000. -/
def seq0 : KvSeq :=
  { root := 0x30000, gen := 0, slice := 0, cls := 0, state := .resident, fmt := 9, headDim := 64, kvHeads := 1, sparse := false, layers := 1, window := 0,
    length := 1, capacity := 128, maxTokens := 128, pending := 0, nextLayer := 0, lastCue := 0, tree := [(0, 0x38001)], globals := [], step := none, tables := [3], spare := [] }

/-- Attention engine 0 with this descriptor and that sequence, whose tables stand in memory, in a job with core 0. -/
def attending (d : Line) (x : KvSeq) : State := putBytes { ready with
  jobs := [job0], jobNext := 1
  mem := { ready.mem with owner := [(2, some (sealOwner { typ := .slice, id := 0, grants := 1 })), (3, some (sealOwner { typ := .pyotos, grants := 1 }))] }
  units := [(0, { job := some 0, phase := .running }), (64, { job := some 0, entry := 1, phase := .running, seq := { own := [item d] } })]
  aes := [(0, { seqs := [(0, some x)] })] } (tableWrites x)

/-- AttentionEngines: a descriptor at the head, a resident sequence, and no operation under way; then one under way. -/
theorem witness_attending (d : Line) (x : KvSeq) : headOf (attending d x) (.ae 0) .own = some d ∧ jobOf (attending d x) (.ae 0) = some job0 ∧
    (attending d x).kv 0 0 = some x ∧ ((attending d x).ae 0).op = none ∧ (((startOp (attending d x) 0 [0]).ae 0).op.bind
      (fun o => opSeq (startOp (attending d x) 0 [0]) o 0)) = some x :=
  ⟨rfl, rfl, rfl, rfl, rfl⟩

/-- An append of one token that fills the capacity's next place, from slice memory. -/
def appendD : Line := line [(0, 1, 0x10), (8, 4, 1), (13, 1, 9), (16, 8, 0x10000), (24, 8, 0x10000), (32, 8, 0x10000), (40, 8, 0x10000)]

/-- Its four operands can be read and its walk meets a page; a sequence that is swapped out ends the job, and so does one whose capacity is used up. -/
theorem witness_aeAppend : let s1 := startOp (atDesc (attending appendD seq0) (.ae 0) appendD) 0 [fld appendD 4 2]
    typeOf appendD = 0x10 ∧ fld appendD 4 2 = 0 ∧ appendErr s1 0 job0 appendD (some seq0) = none ∧
    appendErr s1 0 job0 appendD (some { seq0 with state := .swapped }) = some 0x0D ∧ appendErr s1 0 job0 appendD (some { seq0 with length := 128 }) = some 0x0C ∧
    (∀ o ∈ [16, 24], aeRead s1 0 job0 0 (fld appendD o 8) (kvM 9 64) = .ok (zeros 128)) ∧
    (∀ o ∈ [32, 40], aeRead s1 0 job0 0 (fld appendD o 8) (kvX 9 64) = .ok []) ∧
    walksBad s1 0 0 seq0 (layerKeys seq0 0 [0]) = none ∧ walksBad s1 0 0 seq0 [(0, 1)] = some none := by
  and_intros <;> decide +kernel

/-- A gather of one token's keys into core 0's last 128 bytes. -/
def gatherD : Line := line [(0, 1, 0x11), (10, 1, 9), (16, 4, 1), (20, 4, 0x3FFF80), (24, 4, 0x400000), (28, 4, 128)]

theorem witness_aeGather : let s1 := startOp (atDesc (attending gatherD seq0) (.ae 0) gatherD) 0 [fld gatherD 4 2]
    typeOf gatherD = 0x11 ∧ fld gatherD 4 2 = 0 ∧ gatherErr s1 0 job0 gatherD (some seq0) = none ∧
    gatherErr s1 0 job0 gatherD (some { seq0 with length := 0 }) = some 0x0D ∧ (rootGlobals s1 seq0).toOption = some [] ∧
    (List.range (fld gatherD 16 4)).map (fun i => walk s1 0 0 seq0 (fld gatherD 6 2 * seq0.kvHeads + fld gatherD 8 1) (gatherEntry seq0 (fld gatherD 12 4 + i))) = [.at_ 0x38000] ∧
    (∀ r ∈ (gatherRows gatherD seq0).1, r.1 + r.2 ≤ storeSize) ∧ (gatherRows gatherD seq0).2.1 + (gatherRows gatherD seq0).2.2 ≤ storeSize ∧
    (∀ p ∈ [0x38000].zipIdx, kvBad s1 seq0 p.1 (fld gatherD 12 4 + p.2) (bitAt (fld gatherD 9 1) 0) = none) := by
  and_intros <;> decide +kernel

/-- A decode of a batch of one whose table can be written, and of one whose table cannot: the page ends at 0x20000. -/
def decodeD (va : Nat) : Line := line [(0, 1, 0x12), (6, 2, 1), (8, 8, va)]

theorem witness_aeDecode :
    (∀ va ∈ [0x1FFE0, 0x20000], typeOf (decodeD va) = 0x12 ∧ spaceOk (attending (decodeD va) seq0) 0 job0 (fld (decodeD va) 23 1) = true) ∧
    firstUnreachable (attending 0 seq0) 0 (actorOf job0) .write (fld (decodeD 0x1FFE0) 8 8) 32 = none ∧
    jobRead (attending 0 seq0) job0 (fld (decodeD 0x1FFE0) 8 8) 32 = .ok (zeros 32) ∧
    firstUnreachable (attending 0 seq0) 0 (actorOf job0) .write (fld (decodeD 0x20000) 8 8) 32 = some 0x20000 ∧
    (let o : AeOp := { home := 0, epoch := 1, latch := [(0, { seq0 with state := .swapped })], table := zeros 32 }
     let s := setOp (attending (decodeD 0x1FFE0) seq0) 0 o
     (s.ae 0).op = some o ∧ o.begun = false ∧ entryStatus job0 (decodeD 0x1FFE0) (opSeq s o 0) false = 2) := by
  and_intros <;> decide +kernel

/-- A render context of one pixel and one draw. -/
def rcOne : Rc := setFld (setFld (setFld (setFld 0 0 2 1) 2 2 1) 40 4 1) 72 4 1

/-- Raster front end 0 with this descriptor, and a context in memory. -/
def rendering (rc : Rc) (d : Line) (b : RasterSt) (q : Seq) : State := { readyBytes (leBytes 128 rc.toNat) with
  jobs := [job0], jobNext := 1
  rasters := [(0, b)]
  units := [(0, { job := some 0, phase := .running, seq := q }), (80, { job := some 0, entry := 2, phase := .running, seq := { own := [item d] } })] }

/-- RasterFrontEnds, the descriptors: a context that meets the rules and one that does not. -/
theorem witness_rfeDescriptors : (∀ rc d, headOf (rendering rc d {} {}) (.rfe 0) .own = some d ∧ jobOf (rendering rc d {} {}) (.rfe 0) = some job0 ∧
      ((rendering rc d {} {}).raster 0).ctx = none) ∧
    okBytes (jobRead (rendering rcOne 0 {} {}) job0 0x10000 128) = some (leBytes 128 rcOne.toNat) ∧ ctxOk (BitVec.ofNat 1024 (leNat (leBytes 128 rcOne.toNat))) = true ∧
    okBytes (jobRead (rendering 0 0 {} {}) job0 0x10000 128) = some (zeros 128) ∧ ctxOk (BitVec.ofNat 1024 (leNat (zeros 128))) = false ∧
    (∀ t ∈ [0x20, 0x21, 0x22], typeOf (line [(0, 1, t), (8, 8, 0x10000)]) = t ∧ fld (line [(0, 1, t), (8, 8, 0x10000)]) 8 8 = 0x10000) := by
  refine ⟨fun _ _ => ⟨rfl, rfl, rfl⟩, ?_⟩
  and_intros <;> decide +kernel

/-- RasterFrontEnds, a tile: one with nothing left to shade and one with a record left, each in a core that waits, and one that waits for a core. -/
theorem witness_tileIssue :
    (∀ b q, leadOf job0 = some 0 ∧ jobOf (rendering rcOne 0 b q) (.rfe 0) = some job0 ∧ working (rendering rcOne 0 b q) (.rfe 0) = true ∧ (rendering rcOne 0 b q).raster 0 = b) ∧
    (let q : Seq := { wait := some { who := .unit (.core 0) 0, ctr := 0, mode1 := true, value := 1 } }
     (∀ rest ∈ [[], [1]], let w : TileWork := { entry := 0, tile := 0, rest := rest, draw := none }
       let s := rendering rcOne 0 { ctx := some rcOne, finishing := true, work := [w] } q
       ([w].filterMap (fun w => (entryCore s job0 0 w.entry).bind (fun c => if awaitsTile s rcOne c then some (c, w) else none))) = [(0, w)]) ∧
     (let s := rendering rcOne 0 { ctx := some rcOne, finishing := true, todo := [0] } q
      entryCore s job0 0 0 = some 0 ∧ job0.e.cores = 1 ∧ awaitsTile s rcOne 0 = true)) := by
  refine ⟨fun _ _ => ⟨rfl, rfl, rfl, rfl⟩, ?_⟩
  and_intros <;> decide +kernel

/-! ### Pyotos commands -/

/-- The entry is taken and is this opcode's, with every reserved byte zero. -/
def sentRow (op : Nat) (s : State) (n : SliceId) (w : Line) : Bool :=
  canTake s n w && fld w 0 2 == op && (cmdRows.filter (fun c => c.op == op)).all (fun c => (badReserved w c.named).isNone && (!c.zero || n == 0))

/-- What slice n reads. -/
def bytesAt (s : State) (n : SliceId) (va len : Nat) : Option Bytes := okBytes (readVa s n (.slice n) .read va len)

/-- StructAt and DestAt as a check. -/
def structOk (s : State) (n : SliceId) (w : Line) (off va len : Nat) : Bool :=
  fld w off 8 % 64 == 0 && decide (fld w off 8 < 2 ^ 48) && !parked s && (bytesAt s n va len).isSome
def destOk (s : State) (n : SliceId) (w : Line) (off len : Nat) : Bool :=
  fld w off 8 % 64 == 0 && decide (fld w off 8 < 2 ^ 48) && !parked s && reachable s n (.slice n) .write (fld w off 8) len

/-- A command of this opcode with these fields. -/
def cmd (op : Nat) (fs : List (Nat × Nat × Nat)) : Line := line ((0, 2, op) :: fs)

/-- Slice 1 has its rings on as well. -/
def readyTwo : State := { ready with slices := [(0, ready.slice 0), (1, ready.slice 0)] }

/-- Pyotos visits slice 1. -/
def visiting1 : State := readyTwo.upHost (fun h => { h with visit := 1 })

/-- In PARKED. -/
def readyParked : State := ready.upPwr (fun p => { p with state := .parked })

/-- CommandChecks: every row's entry can be taken, with a BARRIER too; an opcode of no table, and a reserved byte that is not zero in a
command with named fields and in one without. -/
theorem witness_commandChecks :
    (∀ c ∈ cmdRows, canTake ready 0 (line [(0, 2, c.op)]) = true ∧ fld (line [(0, 2, c.op)]) 0 2 = c.op ∧ badReserved (line [(0, 2, c.op)]) c.named = none) ∧
    canTake visiting1 1 (line [(0, 2, 0x0404)]) = true ∧ canTake ready 0 (line [(2, 1, 1)]) = true ∧ fld (line [(2, 1, 1)]) 0 2 ∉ opcodes ∧ 0xFFFF ∉ opcodes ∧
    canTake State.reset 0 0 = false ∧ badReserved (cmd 1 [(3, 1, 1)]) [] = some 3 ∧ badReserved (cmd 1 [(63, 1, 1)]) [] = some 8 ∧ badReserved (cmd 1 [(20, 1, 1)]) [(16, 2), (24, 8)] = some 18 ∧
    badReserved (cmd 3 [(12, 1, 1)]) [(8, 4)] = some 12 := by
  and_intros <;> decide +kernel

/-- TakingAnEntry and CommandChecks: a BARRIER that starts, one behind a command in flight, which waits, and one that may start after its
wait; slices whose turn it is and is not. -/
theorem witness_takingAnEntry : canTake ready 0 (cmd 1 [(2, 1, 1)]) = true ∧
    (let s := ready.upSlice 0 (fun x => { x with flight := [flightOf ready 0 0] })
     canTake s 0 (cmd 1 [(2, 1, 1)]) = false ∧ mustWait s 0 (cmd 1 [(2, 1, 1)]) = true) ∧
    (let f : Flight := { flightOf ready 0 0 with wait := .barrier (cmd 4 [(2, 1, 1)]) }
     let s := ready.upSlice 3 (fun x => { x with flight := [f] })
     released s 3 (cmd 4 [(2, 1, 1)]) = some f) ∧
    mayTake readyTwo 1 = false ∧ mayTake (readyTwo.upHost (fun h => { h with visited := 8 })) 1 = true ∧
    released ready 0 (cmd 1 [(2, 1, 1)]) = none := by
  and_intros <;> decide +kernel

/-- Slice 0 owns a sequence. -/
def readySeq : State := { ready with aes := [(0, { seqs := [(0, some seq0)] })] }

/-- A message of this code waits in the mailbox of slice n. -/
def mail (n : SliceId) (code k : Word) : State := readyTwo.upPage n (fun p => { p with dbMbx := true, words := [(0, code), (1, k)] })

/-- AdminCommandsAndMailbox. The image that FW_UPDATE accepts is one that Config's opaque key functions accept, so no concrete one is shown. -/
theorem witness_adminCommands :
    sentRow 1 ready 0 (cmd 1 []) = true ∧ (∀ k ∈ [0, 7], sentRow 4 ready 0 (cmd 4 [(8, 1, k)]) = true) ∧
    (∀ k ∈ [2, 5], sentRow 4 visiting1 1 (cmd 4 [(8, 1, k)]) = true) ∧
    (∀ k ∈ [1, 2, 5], let w := cmd 4 [(8, 1, k), (16, 8, 0x10000), (24, 4, 64)]
      sentRow 4 ready 0 w = true ∧ destOk (accept ready 0 w) 0 w 16 (min 64 (diagRecord (accept ready 0 w) 0 k).length) = true) ∧
    (let w := cmd 4 [(8, 1, 6), (16, 8, 0x1FFC0), (24, 4, 64)]
     sentRow 4 readySeq 0 w = true ∧ (accept readySeq 0 w).kv 0 0 = some seq0 ∧ seq0.slice = 0 ∧ destOk (accept readySeq 0 w) 0 w 16 (min 64 (seqBytes seq0).length) = true) ∧
    (let w := cmd 5 [(24, 8, 0x10000), (32, 4, 32)]
     sentRow 5 ready 0 w = true ∧ destOk (accept ready 0 w) 0 w 24 0 = true) := by
  and_intros <;> decide +kernel

/-- AdminCommandsAndMailbox: POWER_SET in both states, refused and not, and an image that fails. An image that passes is one whose key is
Config's opaque owner key, so no concrete one is shown. -/
theorem witness_powerSet :
    sentRow 6 ready 0 (cmd 6 [(8, 1, 2)]) = true ∧ sentRow 6 readyParked 0 (cmd 6 [(8, 1, 1)]) = true ∧ parked (accept readyParked 0 (cmd 6 [(8, 1, 1)])) = true ∧
    (let a := accept ready 0 (cmd 6 [(8, 1, 1)])
     parked a = false ∧ heldDomain a parkDomains = none ∧ powerBusy a = false) ∧
    (let a := accept { ready with jobs := [job0] } 0 (cmd 6 [(8, 1, 1)])
     parked a = false ∧ heldDomain a parkDomains = none ∧ powerBusy a = true) ∧
    (let s := readyParked.upPwr (fun p => { p with emergency := true })
     sentRow 6 s 0 (cmd 6 []) = true ∧ parked (accept s 0 (cmd 6 [])) = true ∧ (accept s 0 (cmd 6 [])).pwr.emergency = true) ∧
    readyParked.pwr.emergency = false ∧ sentRow 7 ready 0 (cmd 7 [(8, 1, 2)]) = true ∧
    (let w := cmd 7 [(8, 1, 1), (16, 8, 0x10000), (24, 4, 64)]
     sentRow 7 ready 0 w = true ∧ structOk (accept ready 0 w) 0 w 16 0x10000 64 = true ∧ imageOk (accept ready 0 w) 1 (zeros 64) = false ∧
     imageOk (structRead (accept ready 0 w) 0 0x10000 64) 1 (zeros 64) = false) := by
  and_intros <;> decide +kernel

/-- The mailbox: each code, a stop of another slice, of one that is not valid, and of the slice itself. -/
theorem witness_mailbox : (∀ code k, let s := mail 1 code k
      s.host.devReady = true ∧ (s.slice 1).valid = true ∧ (s.slice 1).page.dbMbx = true ∧ tget 0 (s.slice 1).page.words 0 = code ∧ tget 0 (s.slice 1).page.words 1 = k) ∧
    (∀ p ∈ [((1 : Word), 1), (2, 2), (3, 3), (0x10000, 0), (4, 4)], p.1.toNat % 65536 = p.2) ∧ ((mail 0 3 5).slice 0).page.dbMbx = true ∧
    ((mail 0 3 5).slice 5).valid = false ∧ ((mail 1 3 1).slice 1).valid = true := by
  refine ⟨fun _ _ => ⟨rfl, rfl, rfl, rfl, rfl⟩, ?_⟩
  and_intros <;> decide +kernel

/-- Ended without an error. -/
def isOk {α β : Type} : Except α β → Bool
  | .ok _ => true
  | .error _ => false

/-- A package of one job and its one scene. -/
def pkg0 : Package :=
  { imageVa := 0x10000, dataVa := 0x18000, length := 448, dataSize := 0, sections := [], jobs := [work], bufs := [], enclave := none, cleared := [] }
def scene0 : Scene :=
  { lending := false, kaf := false, slice := 0, cls := 0, label := 0, start := 0, duration := 20000, gbps := 0, lendTo := 0, cores := 1, aes := 1, rfes := 1 }

/-- A package loaded, and a sheet with its scene; a page of host memory mapped at 0x40000. -/
def loaded : State := (ready.upSlice 0 (fun x => { x with
    packages := [(0, some pkg0)]
    maps := x.maps ++ [{ va := 0x40000, pa := 0x100000, size := 0x10000, w := true, x := false, noAlloc := false, host := true }] })).upCue id
  |> fun s => { s with sheets := [(0, some { period := 1000000, scenes := [scene0, { scene0 with slice := 1 }] })] }

/-- SliceCommands: slices made in each way, at the ends of the ranges, and destroyed. -/
theorem witness_slices :
    (∀ p ∈ [(127, 15, 6, 1048575), (1, 2, 0, 1), (1, 2, 0, 7)], let w := cmd 0x0101 [(8, 1, p.1), (9, 1, p.2.1), (10, 1, p.2.2.1), (12, 4, p.2.2.2)]
      let s := { ready with slices := ready.slices ++ [(2, { valid := true, pasid := 7, partition := 2 })] }
      sentRow 0x0101 s 0 w = true ∧ ((accept s 0 w).slice (BitVec.ofNat 7 (fld w 8 1))).valid = false ∧ fld w 9 1 ∉ enclavePartitions (accept s 0 w)) ∧
    (let s := { ready with slices := ready.slices ++ [(2, { valid := true, pasid := 7, partition := 2 })] }
     ((accept s 0 (cmd 0x0101 [(8, 1, 1)])).slice 2).valid = true ∧ ((accept s 0 (cmd 0x0101 [(8, 1, 1)])).slice 2).pasid.toNat = 7) ∧
    (let w := cmd 0x0101 [(8, 1, 1), (9, 1, 2), (12, 4, 1)]
     sentRow 0x0101 readyTwo 0 w = true ∧ ((accept readyTwo 0 w).slice 1).valid = true) ∧
    (let w := cmd 0x0102 [(8, 1, 1)]
     sentRow 0x0102 readyTwo 0 w = true ∧ ((accept readyTwo 0 w).slice 1).valid = true ∧ ((accept readyTwo 0 w).slice 1).destroying = false ∧
     (accept readyTwo 0 w).sec.enclaves = [] ∧ sentRow 0x0102 ready 0 w = true ∧ ((accept ready 0 w).slice 1).valid = false) := by
  and_intros <;> decide +kernel

/-- SliceCommands: quotas in range and out of it; a resource that is free, and one that is in use. -/
theorem witness_quotaAssign :
    (∀ p ∈ [(0, 65536, true), (0, 1, false), (5, 942, true), (5, 943, false)], let w := cmd 0x0103 [(9, 1, p.1), (16, 8, p.2.1)]
      sentRow 0x0103 ready 0 w = true ∧ ((accept ready 0 w).slice 0).valid = true ∧ ((accept ready 0 w).slice 0).destroying = false ∧
      quotaOk (accept ready 0 w) 0 (fld w 9 1) (fld w 16 8) = p.2.2) ∧
    (let w := cmd 0x0104 [(8, 1, 3), (10, 2, 31)]
     sentRow 0x0104 ready 0 w = true ∧ resourceOn (accept ready 0 w) 3 31 = false) ∧
    (let s := { ready with groups := [(0x6000003, { shadow := 0, committed := 1, written := false, used := false })] }
     let w := cmd 0x0104 [(10, 2, 3)]
     sentRow 0x0104 s 0 w = true ∧ resourceOn (accept s 0 w) 0 3 = true) := by
  and_intros <;> decide +kernel

/-- SliceCommands: mappings that are made, of pages and of host memory, and one that meets another; unmappings of a whole leaf, of a
part of one, and of a package's; the aperture and the swap area. -/
theorem witness_mappings :
    (∀ p ∈ [(0, 0, 0x50000, 0x1000, 0), (1, 8, 0x50000, 0x10000, 0xFFFFFFFF0000), (2, 1, 0xFFFFFFE00000, 0x200000, 0)],
      let w := cmd 0x0106 [(8, 1, p.1), (9, 1, p.2.1), (16, 8, p.2.2.1), (24, 8, p.2.2.2.1), (32, 8, p.2.2.2.2)]
      let psz := if fld w 8 1 = 0 then 4096 else if fld w 8 1 = 1 then 65536 else 2097152
      sentRow 0x0106 loaded 0 w = true ∧ fld w 16 8 % psz = 0 ∧ fld w 24 8 % psz = 0 ∧ fld w 16 8 + fld w 24 8 ≤ 2 ^ 48 ∧ fld w 32 8 % psz = 0 ∧
      fld w 32 8 + fld w 24 8 ≤ 2 ^ 48 ∧ meets (fld w 16 8) (fld w 24 8) intakeLo (intakeHi - intakeLo) = false ∧
      (∀ l ∈ ((accept loaded 0 w).slice 0).maps, meets (fld w 16 8) (fld w 24 8) l.va l.size = false) ∧ parked (accept loaded 0 w) = false ∧
      isOk (mapRange (accept loaded 0 w) 0 (fld w 16 8) psz (fld w 24 8 / psz) (fld w 9 1) (fld w 32 8)) = true) ∧
    (∃ l ∈ ((accept loaded 0 0).slice 0).maps, meets 0x1F000 0x1000 l.va l.size = true) ∧
    (∀ p ∈ [(0x10000, 0x10000), (0x11000, 0x1000), (0x40000, 0x10000)], let w := cmd 0x0107 [(16, 8, p.1), (24, 8, p.2)]
      sentRow 0x0107 loaded 0 w = true ∧ fld w 16 8 % 4096 = 0 ∧ fld w 24 8 % 4096 = 0 ∧ meets p.1 p.2 intakeLo (intakeHi - intakeLo) = false) ∧
    (let gone va size := ((accept loaded 0 0).slice 0).maps.filter (fun l => meets va size l.va l.size)
     (∀ l ∈ gone 0x10000 0x10000, 0x10000 ≤ l.va ∧ l.va + l.size ≤ 0x20000) ∧ holdsImage ((accept loaded 0 0).slice 0) 0x10000 0x10000 = true ∧
     (∀ l ∈ gone 0x40000 0x10000, 0x40000 ≤ l.va ∧ l.va + l.size ≤ 0x50000) ∧ holdsImage ((accept loaded 0 0).slice 0) 0x40000 0x10000 = false ∧
     (∃ l ∈ gone 0x11000 0x1000, l.va < 0x11000)) := by
  and_intros <;> decide +kernel

theorem witness_areas :
    (∀ p ∈ [(2, 0), (1, 0xFFFFFE000000)], sentRow 0x0108 ready 0 (cmd 0x0108 [(8, 1, p.1), (16, 8, p.2)]) = true) ∧ 0xFFFFFE000000 % 2 ^ 25 = 0 ∧
    (let w := cmd 0x0109 [(16, 8, 0x40000), (24, 8, 0x1000)]
     sentRow 0x0109 loaded 0 w = true ∧ ((accept loaded 0 w).slice 0).swapSlots = [] ∧ hostMapped (accept loaded 0 w) 0 (fld w 16 8) (fld w 24 8) = true) := by
  and_intros <;> decide +kernel

/-- A whole package: a program of BEGIN and END for one core, its job entry, and the digest. -/
def pkgHead : Bytes :=
  let u := leBytes
  let header := u 4 0x4B504755 ++ u 2 1 ++ u 2 3 ++ u 8 448 ++ u 2 0x2045 ++ u 2 1 ++ u 2 1 ++ zeros 42
  let section_ (t o n : Nat) := u 8 t ++ u 8 o ++ u 8 n ++ zeros 8
  let job := u 2 1 ++ zeros 8 ++ u 2 0xFFFF ++ u 2 0xFFFF ++ zeros 50
  header ++ section_ 1 192 128 ++ section_ 6 320 64 ++ section_ 9 384 64 ++ zeros 32 ++ leBytes 64 beginD.toNat ++ leBytes 64 2 ++ job
def pkgImage : Bytes := pkgHead ++ sha384 pkgHead ++ zeros 16

/-- JobCommands, a load: a header that is wrong, a package that is right, and one with a right header and no sections. -/
theorem witness_graphLoad :
    (∀ p ∈ [(0x10000, 0x18000), (0x10040, 0x18000)], let w := cmd 0x0201 [(16, 8, p.1), (24, 8, p.2)]
      sentRow 0x0201 ready 0 w = true ∧ sentRow 0x0201 readyParked 0 w = true ∧ freeHandle (accept ready 0 w) 0 = some 0) ∧
    (let w := cmd 0x0201 [(16, 8, 0x10000), (24, 8, 0x18000)]
     structOk (accept ready 0 w) 0 w 16 0x10000 64 = true ∧ bytesAt (accept ready 0 w) 0 0x10000 64 = some (zeros 64)) ∧
    (headerErr (zeros 64) false).isSome = true := by
  and_intros <;> decide +kernel
theorem witness_package : isOk (loadSteps pkgImage 0x10000 0x18000) = true ∧ isOk (loadSteps (pkgHead.take 64 ++ zeros 384) 0x10000 0x18000) = false ∧ headerErr (pkgHead.take 64) false = none := by
  and_intros <;> decide +kernel
theorem witness_packageInMemory : let w := cmd 0x0201 [(16, 8, 0x10000), (24, 8, 0x18000)]
    let s := readyBytes (pkgHead.take 64 ++ zeros 384)
    structOk (accept s 0 w) 0 w 16 0x10000 448 = true ∧ mapErr (accept s 0 w) 0 0x10000 448 0x18000 0 = none ∧ bytesAt (accept s 0 w) 0 0x10000 448 = some (pkgHead.take 64 ++ zeros 384) := by
  decide +kernel

/-- JobCommands: an unload of a package that is free, of one in use and of none; a start in a scene of the slice, in one of another's,
and one refused; an abort that finds its job and one that does not. -/
theorem witness_jobCommands :
    (let w := cmd 0x0202 []
     sentRow 0x0202 loaded 0 w = true ∧ tget none ((accept loaded 0 w).slice 0).packages 0 = some pkg0 ∧ packageBusy (accept loaded 0 w) 0 0 = false ∧
     sentRow 0x0202 ready 0 w = true ∧ tget none ((accept ready 0 w).slice 0).packages 0 = none ∧ packageBusy (accept { loaded with jobs := [job0] } 0 w) 0 0 = true) ∧
    (∀ p ∈ [(0, 0xFF, 0), (1, 0xFF, 0), (0, 1, 14)], let w := cmd 0x0301 [(13, 1, p.1), (14, 1, p.2.1), (24, 8, 0x10000)]
      let a := accept loaded 0 w
      sentRow 0x0301 loaded 0 w = true ∧ jobFieldErr w = none ∧ tget none (a.slice 0).packages (fld w 8 2) = some pkg0 ∧ pkg0.jobs[fld w 10 2]? = some work ∧
      parked a = false ∧ jobAddrErr a 0 w (work.cores + work.aes + work.rfes) = none ∧
      jobRefusal a 0 w pkg0 work (if p.1 = 0 then scene0 else { scene0 with slice := 1 }) = (if p.1 = 1 then some (4, 13) else if p.2.2 = 14 then some (9, 14) else none)) ∧
    (let w := cmd 0x0302 [(8, 4, 7)]
     sentRow 0x0302 ready 0 w = true ∧ (accept { ready with jobs := [job0] } 0 w).jobs = [job0] ∧ job0.kaf.isNone = true ∧ job0.tag.toNat = 7 ∧ (accept ready 0 w).jobs = []) := by
  and_intros <;> decide +kernel

/-- A sheet's header and its first entry. -/
def sheetBytes (period k : Nat) (x : Bytes) : Bytes := leBytes 4 period ++ leBytes 1 k ++ zeros 59 ++ x
/-- An entry of core 0 at the sheet's start, and one of no unit. -/
def sceneBytes : Bytes := zeros 8 ++ leBytes 4 20000 ++ zeros 4 ++ leBytes 8 1 ++ zeros 40
def sceneEmpty : Bytes := zeros 8 ++ leBytes 4 20000 ++ zeros 52

/-- CueCommands, SHEET_WRITE: the ends of PERIOD and of the number of scenes, and an entry that fails. -/
theorem witness_sheetWrite :
    (∀ p ∈ [(999999, 1), (200000001, 1), (1000000, 0), (200000000, 33)], let s := readyBytes (sheetBytes p.1 p.2 [])
      let w := cmd 0x0401 [(8, 1, 3), (16, 8, 0x10000)]
      sentRow 0x0401 s 0 w = true ∧ structOk (accept s 0 w) 0 w 16 0x10000 64 = true ∧
      (bytesAt (accept s 0 w) 0 0x10000 64).map (fun h => (structReserved h [(0, 5)], fieldOf h 0 4, (byteAt h 4 : Nat))) = some (none, p)) ∧
    (∀ x ∈ [sceneBytes, sceneEmpty], let s := readyBytes (sheetBytes 1000000 1 x)
      let w := cmd 0x0401 [(8, 1, 3), (16, 8, 0x10000)]
      structOk (accept s 0 w) 0 w 16 0x10040 64 = true ∧ bytesAt (accept s 0 w) 0 0x10040 64 = some x ∧ isOk (sheetEntries x 1) = true ∧
      bankBusy (accept s 0 w) 3 = false) ∧
    firstFailing ready 1000000 [sceneFrom sceneEmpty] = some 0 ∧
    bankBusy (ready.upCue (fun c => { c with configured := true, bank := 3 })) 3 = true := by
  and_intros <;> decide +kernel

/-- A sheet passes wherever Config's opaque rates of the committed sets leave room for its scenes. -/
theorem witness_sheetPasses (h : Config.realTimeGbps ready.groups ≤ 942) : firstFailing ready 1000000 [sceneFrom sceneBytes] = none := by
  have e : sceneFrom sceneBytes = { scene0 with aes := 0, rfes := 0 } := by decide +kernel
  have v : (ready.slice 0#7).valid = true := rfl
  have u : ∀ c, (ready.unit c).fenced = false := fun _ => rfl
  have r : List.range 1 = [0] := rfl
  rw [e]
  simp [firstFailing, sceneFails, scene0, slewStep, openAt, v, u, r, h]

/-- The CUE set is committed: period 1 ms, beats of 20.1 µs, bank 0. -/
def cueReady (f : CueSt → CueSt) : State := { ready with
  cue := f { configured := true, period := 1000000, beat := 20100 }
  sheets := [(0, some { period := 1000000, scenes := [scene0] })] }

/-- CueCommands, the start and the stop: a follower, a cue that runs, nothing committed, no sheet, and a start; a stop in each state. -/
theorem witness_cueStart :
    (let s := ready.upHost (fun h => { h with twinRole := 2 })
     sentRow 0x0403 s 0 (cmd 0x0403 []) = true ∧ isFollower (accept s 0 (cmd 0x0403 [])) = true) ∧
    (∀ p ∈ [(false, false), (false, true), (true, false)], let s := cueReady fun c => { c with running := p.1, starting := p.2 }
      sentRow 0x0403 s 0 (cmd 0x0403 []) = true ∧ sentRow 0x0404 s 0 (cmd 0x0404 []) = true ∧ isFollower (accept s 0 (cmd 0x0403 [])) = false ∧
      (accept s 0 (cmd 0x0403 [])).cue.running = p.1 ∧ (accept s 0 (cmd 0x0403 [])).cue.starting = p.2) ∧
    (startSet (accept ready 0 0)).isNone = true ∧ (startSet (cueReady id)).map (·.bank) = some 0 ∧ (tget none (cueReady id).sheets 0).isSome = true ∧
    (startSet (cueReady fun c => { c with bank := 1 })).map (·.bank) = some 1 ∧ tget none (cueReady id).sheets 1 = none := by
  and_intros <;> decide +kernel

/-- Slice 0 owns counter 5, and slice 1 counter 6. -/
def ctrReady (x : Ctr) : State := { readyTwo with ctrs := [(5, x), (6, { slice := some 1 })] }

/-- CounterCommands: 256 counters, more than the quota allows, the ends of COUNT; a run freed at the top; a write, a signal at the limit and one
past it, and reads of one's own, of another's, of one not allocated and of one that does not exist. -/
theorem witness_counterCommands :
    (∀ k ∈ [0, 1, 256, 257], sentRow 0x0501 ready 0 (cmd 0x0501 [(8, 2, k)]) = true) ∧ fits (accept ready 0 (cmd 0x0501 [(8, 2, 1)])) 0 3 1 = true ∧
    freeRun (accept ready 0 (cmd 0x0501 [(8, 2, 1)])) 1 = some 0 ∧
    (let s := ready.upSlice 0 (fun x => { x with quota := [(3, some 255)] })
     sentRow 0x0501 s 0 (cmd 0x0501 [(8, 2, 256)]) = true ∧ fits (accept s 0 (cmd 0x0501 [(8, 2, 256)])) 0 3 256 = false) ∧
    (∀ x ∈ [({ slice := some 0 } : Ctr), { slice := some 0, flight := [{ value := 1, src := .twin }] }],
      let s := { ready with ctrs := [(8191, x)] }
      sentRow 0x0502 s 0 (cmd 0x0502 [(8, 2, 8191), (10, 2, 1)]) = true ∧ (accept s 0 0).ctr 8191 = x ∧ ctrBusy x = !x.flight.isEmpty) ∧
    (∀ p ∈ [(0x0503, 0), (0x0504, 0), (0x0504, 0xFFFFFFFE), (0x0504, 0xFFFFFFFF)], let s := ctrReady { slice := some 0, value := 1 }
      let w := cmd p.1 [(8, 2, 5), (12, 4, p.2)]
      sentRow p.1 s 0 w = true ∧ fld w 8 2 < 8192 ∧ ((accept s 0 w).ctr 5).slice = some 0 ∧ ((accept s 0 w).ctr 5).dead = false ∧
      decide (((accept s 0 w).ctr 5).value.toNat + fld w 12 4 < 2 ^ 32) = decide (p.2 < 0xFFFFFFFF) ∧ ctrBusy ((accept s 0 w).ctr 5) = false) ∧
    (∀ p ∈ [(5, some (0 : SliceId)), (6, some 1), (7, none), (8192, none)], let s := ctrReady { slice := some 0 }
      let w := cmd 0x0505 [(8, 2, p.1)]
      sentRow 0x0505 s 0 w = true ∧ ((accept s 0 w).ctr (BitVec.ofNat 13 (fld w 8 2))).slice = p.2) := by
  and_intros <;> decide +kernel

/-- A commit of this group is pending. -/
def pendingCommit (g : Word) (set : BitVec 4608) : Commit :=
  { slice := 0, groups := [g], sets := [set], atCue := true, due := 1, target := none, twinAgreed := false, tag := 0, pos := 0, at_ := 0 }

/-- ShadowCommands: each command's structure in order, and each group locked and not. -/
theorem witness_shadowFields :
    (∀ p ∈ [(999999, 20100), (200000001, 40000), (1000000, 20099), (1000000, 1000001), (200000000, 40000), (1000000, 1000000)],
      sentRow 0x0402 ready 0 (cmd 0x0402 [(8, 4, p.1), (12, 4, p.2), (16, 1, 3), (17, 1, 3)]) = true) ∧ 200000000 / 40000 > 1024 ∧ 1000000 / 1000000 ≤ 1024 ∧
    (∀ k ∈ [0, 2], sentRow 0x0B01 (ready.upHost (fun h => { h with twinRole := 1 })) 0 (cmd 0x0B01 [(8, 1, k)]) = true) ∧
    paired (ready.upHost (fun h => { h with twinRole := 1 })) = true ∧
    (∀ g ∈ [0x1000000, 0x2000000, 0x3000000, 0x4000000, 0x5000003, 0x6000003, 0x700000F, 0x8000FFF, 0x900001F],
      locked { ready with commits := [pendingCommit (BitVec.ofNat 32 g) 0] } g = true ∧ locked ready g = false) := by
  and_intros <;> decide +kernel

/-- A head of one lane at 8 bits, and a camera of 16 × 16 pixels. -/
def headW : BitVec 4608 := [(1, 1, 1), (3, 1, 8), (40, 2, 20), (42, 2, 2)].foldl (fun w f => setFld w f.1 f.2.1 f.2.2) 0
def camW : BitVec 1024 := [(2, 1, 0x2B), (4, 2, 16), (6, 2, 16), (36, 2, 16), (38, 2, 16), (40, 2, 16), (42, 2, 16), (44, 1, 1), (68, 4, 1), (72, 4, 1), (88, 2, 2)].foldl
  (fun w f => setFld w f.1 f.2.1 f.2.2) 0

theorem witness_shadowStructures :
    (∀ p ∈ [(0x0105, 0, 0, zeros 32), (0x0902, 0, 3, leBytes 64 defaultTimebase.toNat), (0x0801, 0, 3, leBytes 64 headW.toNat), (0x0802, 7, 3, zeros 64), (0x0703, 0, 15, leBytes 128 camW.toNat)],
      let s := readyBytes p.2.2.2
      let w := cmd p.1 ([(8, 1, p.2.2.1), (16, 8, 0x10000)] ++ if p.2.1 = 0 then [] else [(9, 1, p.2.1)])
      sentRow p.1 s 0 w = true ∧ structOk (accept s 0 w) 0 w 16 0x10000 p.2.2.2.length = true ∧ bytesAt (accept s 0 w) 0 0x10000 p.2.2.2.length = some p.2.2.2) ∧
    (∀ p ∈ [(0, 0, 3), (1, 0, 15), (2, 4095, 15), (3, 0, 31)], ownerSlice (accept ready 0 0) p.1 p.2.2 = 0) ∧
    (let w := cmd 0x0A01 [(16, 8, 0x10000)]
     sentRow 0x0A01 ready 0 w = true ∧ structOk (accept ready 0 w) 0 w 16 0x10000 256 = true) ∧
    safetyErr (bytesAtOff (leBytes 256 defaultSafety.toNat) 0 0) = none ∧ timebaseErr (bytesAtOff (leBytes 64 defaultTimebase.toNat) 0 0) 3 = none ∧
    headErr headW 3 = none ∧ layerErr 0 = none ∧ camErr (camOf (bytesAtOff (leBytes 128 camW.toNat) 0 0)) = none ∧ loopReserved 0 = none ∧
    (let w := cmd 0x0905 [(8, 1, 31), (16, 8, 0x10000)]
     sentRow 0x0905 ready 0 w = true ∧ structOk (accept ready 0 w) 0 w 16 0x10000 320 = true) ∧
    (∀ p ∈ [(4095, 1), (0, 256)], sentRow 0x0901 ready 0 (cmd 0x0901 [(8, 2, p.1), (10, 2, p.2), (16, 8, 0x10000)]) = true) ∧
    (structOk (accept ready 0 0) 0 (cmd 0x0901 [(16, 8, 0x10000)]) 16 0x10000 64 = true ∧ isOk (routeTable (zeros 64) 4095 1) = true) := by
  and_intros <;> decide +kernel

/-- A pair's lead, the link to its partner up, with this shadow of the time base 0 written. -/
def commitReady (set : BitVec 4608) (cs : List Commit) : State := { ready with
  host := { ready.host with twinRole := 1 }, fab := { twinUp := true }
  groups := [(0x5000000, { shadow := set, committed := defaultTimebase, written := true, used := false })]
  commits := cs }

/-- CommitCommands: a commit at once, at the next edge and at a count; one whose set does not fit, one of a locked group, and the bounds of the count. -/
theorem witness_commit :
    (∀ p ∈ [(0, 0), (1, 0), (1, 2), (1, 1), (0, 2)], let s := commitReady defaultTimebase []
      let w := cmd 2 [(8, 1, p.1), (9, 1, 1), (16, 8, p.2), (24, 4, 0x5000000)]
      sentRow 2 s 0 w = true ∧ (∀ i < 10, fld w 9 1 ≤ i → fld w (24 + 4 * i) 4 = 0) ∧ commitErr (accept s 0 w) 0 w = none ∧
      commitFits (accept s 0 w) ((commitGroups w).map (fun g => (g, ((accept s 0 w).group g).shadow))) = true ∧ paired (accept s 0 w) = true ∧ (accept s 0 w).fab.twinUp = true ∧
      (accept s 0 w).cue.count.toNat = 0) ∧
    (let s := commitReady 4 []
     let w := cmd 2 [(8, 1, 1), (9, 1, 1), (24, 4, 0x5000000)]
     commitErr (accept s 0 w) 0 w = none ∧ commitFits (accept s 0 w) ((commitGroups w).map (fun g => (g, ((accept s 0 w).group g).shadow))) = false) ∧
    (let s := commitReady defaultTimebase [pendingCommit 0x5000000 0]
     let w := cmd 2 [(8, 1, 1), (9, 1, 1), (24, 4, 0x5000000)]
     commitErr (accept s 0 w) 0 w = some (6, 24)) := by
  and_intros <;> decide +kernel

theorem witness_cancel :
    (∀ g ∈ [0x5000000, 0x5000004], sentRow 3 ready 0 (cmd 3 [(8, 4, g)]) = true) ∧ groupErr (accept ready 0 0) 0 0x5000004 8 = some (3, 8) ∧
    groupErr (accept ready 0 0) 0 0x5000000 8 = none ∧ (accept ready 0 0).commits = [] ∧
    (let c := pendingCommit 0x5000000 0
     c.atCue = true ∧ (setFor c 0x5000000).isSome = true ∧ cancellable (commitReady 0 [c]) c = true ∧
     cancellable (State.upCue (commitReady 0 [c]) (fun x => { x with running := true, next := 49999 })) c = false) := by
  and_intros <;> decide +kernel

/-- Slice 0's sequence 0 of attention engine 0, with this engine. -/
def seqState0 (x : KvSeq) (f : AeSt → AeSt) : State := { ready with
  aes := [(0, f { total := 4, free := [0x40000, 0x48000, 0x50000], seqs := [(0, some x)] })]
  mem := { ready.mem with owner := [(2, some (sealOwner { typ := .slice, id := 0, grants := 1 })), (3, some (sealOwner { typ := .pyotos, grants := 1 }))] } }

/-- SequenceMemory: pools that shrink, cannot shrink and grow; sequences of class 0 and 3 created, and refused by each quota. -/
theorem witness_seqCreate :
    (∀ p ∈ [(0, 1, 3), (1, 3, 1), (0, 4, 0)], let s := seqState0 seq0 fun e => { e with free := e.free.drop p.1 }
      let w := cmd 0x0601 [(12, 4, p.2.1)]
      let a := accept s 0 w
      sentRow 0x0601 s 0 w = true ∧ parked a = false ∧ (a.ae 0).total - fld w 12 4 = p.2.2 ∧ decide ((a.ae 0).free.length < p.2.2) = false ∧
      (pickPages a ((fld w 12 4 - (a.ae 0).total + 1) / 2) false).length = (fld w 12 4 - (a.ae 0).total + 1) / 2) ∧
    (let s := seqState0 seq0 fun e => { e with free := [] }
     (s.ae 0).free.length < (s.ae 0).total - 1) ∧
    (let w := cmd 0x0601 [(8, 1, 15), (12, 4, 1)]
     sentRow 0x0601 ready 0 w = true ∧ ((accept ready 0 w).ae 15).total = 0 ∧ (pickPages (accept ready 0 w) 1 false).length = 1) ∧
    (∀ c ∈ [0, 3], let w := cmd 0x0602 [(9, 1, c), (10, 1, 9), (11, 1, 1), (12, 2, 64), (14, 2, 1), (20, 4, 128)]
      let a := accept (seqState0 seq0 id) 0 w
      let x := newSeq a 0 w 0 0 (pickPages a (tablePages 1) false)
      let pages := if x.cls.toNat < 2 then 0 else fullNeed x
      sentRow 0x0602 (seqState0 seq0 id) 0 w = true ∧ seqFieldErr w = none ∧ parked a = false ∧ fits a 0 4 1 = true ∧ fits a 0 0 (8192 + 16384 + 32768 * pages) = true ∧
      (pickPages a (tablePages 1) false).length = tablePages 1 ∧ pages ≤ (a.ae 0).free.length ∧ freeDescriptor a 0 = some 1) ∧
    (∀ p ∈ [(4, 0), (0, 65536)], let s := ready.upSlice 0 (fun x => { x with quota := [(p.1, some p.2)] })
      let w := cmd 0x0602 [(10, 1, 9), (11, 1, 1), (12, 2, 64), (14, 2, 1), (20, 4, 128)]
      sentRow 0x0602 s 0 w = true ∧ fits (accept s 0 w) 0 4 1 = decide (p.1 = 0) ∧ fits (accept s 0 w) 0 0 (8192 + 16384) = decide (p.1 ≠ 0)) := by
  and_intros <;> decide +kernel

/-- SequenceMemory: a command on a sequence, of each state, class and latch. -/
theorem witness_seqNames (x : KvSeq) (f : AeSt → AeSt) (h : ∀ e, (f e).seqs = e.seqs) : (accept (seqState0 x f) 0 0).kv 0 0 = some x ∧ parked (accept (seqState0 x f) 0 0) = false := by
  refine ⟨?_, rfl⟩
  show tget none (f _).seqs 0 = some x
  rw [h]
  rfl

theorem witness_seqCommands :
    (∀ op ∈ [0x0603, 0x0604, 0x0605, 0x0606], sentRow op (seqState0 seq0 id) 0 (cmd op []) = true) ∧ seq0.slice = 0 ∧ seq0.state = .resident ∧ seq0.cls.toNat < 2 ∧
    latched (accept (seqState0 seq0 id) 0 0) 0 0 = false ∧ latched (accept (seqState0 seq0 (fun e => { e with epoch := 1, ops := [1], op := some { home := 0, epoch := 1, latch := [(0, seq0)] } })) 0 0) 0 0 = true ∧
    (let x := { seq0 with sparse := true, window := 64, length := 1, tables := [4] }
     let s := { seqState0 x id with mem := ready.mem }
     let w := cmd 0x0604 [(12, 1, 1), (16, 8, 0x10000)]
     let a := accept s 0 w
     sentRow 0x0604 s 0 w = true ∧ structOk a 0 w 16 0x10000 4 = true ∧ bytesAt a 0 0x10000 4 = some (zeros 4) ∧ ascending 0 [0] = true ∧ ascending 0 [0, 0] = false ∧
     fits a 0 0 (8192 + 16384) = true ∧ (cowTables a 0 0 x (globalTree x [0]) [0]).isSome = true) ∧
    (let s := seqState0 { seq0 with state := .swapped, tree := [] } id
     fits (accept s 0 0) 0 0 (KvSeq.bytes { seq0 with state := .swapped, tree := [] }) = true ∧ (pickPages (accept s 0 0) (tablePages 1) false).length = tablePages 1) ∧
    (let s := (seqState0 { seq0 with state := .swapped } id).upSlice 0 (fun x => { x with quota := [(0, some 0)], swapArea := some (0x40000, 0x1000) })
     fits (accept s 0 0) 0 0 1 = false ∧ ((accept s 0 0).slice 0).swapArea.isSome = true) := by
  and_intros <;> decide +kernel

/-- SequenceMemory: refills that are none, not needed, of class 2, refused and granted. -/
theorem witness_kvRefill :
    (∀ f ∈ ([id, fun x => { x with maxTokens := 129 }, fun x => { x with cls := 2 }] : List (KvSeq → KvSeq)),
      let s := seqState0 (f seq0) fun e => { e with refills := [0] }
      refillHead s 0 = some 0 ∧ s.kv 0 0 = some (f seq0)) ∧ refillHead (seqState0 seq0 id) 0 = none ∧
    refillHead (seqState0 seq0 fun e => { e with refills := [0, 1, 2], seqs := [(0, some seq0), (1, some { seq0 with cls := 1 }), (2, some { seq0 with cls := 1 })] }) 0 = some 1 ∧ seq0.maxTokens ≤ seq0.capacity ∧
    (let x := { seq0 with maxTokens := 129 }
     let t := unmapStale (seqState0 x fun e => { e with refills := [0] }) 0 0
     x.capacity < x.maxTokens ∧ fits t 0 0 (32768 * x.streams) = true ∧ x.streams ≤ (t.ae 0).free.length ∧ x.cls.toNat < 2 ∧ 2 ≤ ({ x with cls := 2 } : KvSeq).cls.toNat ∧
     ((seqState0 x fun e => { e with refills := [0], free := [] }).ae 0).free.length < x.streams ∧
     entryTaken x = false ∧ entryTaken { x with tree := [(0, 0x38001), (1, 0x40001)] } = true ∧
     fits (unmapStale ((seqState0 x fun e => { e with refills := [0] }).upSlice 0 (fun y => { y with quota := [(0, some 0)] })) 0 0) 0 0 (32768 * x.streams) = false) := by
  and_intros <;> decide +kernel

/-- SequenceMemory: swaps out with good pages and with a bad one, and swaps in with a slot and without one. -/
theorem witness_swaps :
    (let x := { seq0 with state := .swapOut }
     let s := (seqState0 x id).upSlice 0 (fun y => { y with swapArea := some (0x40000, 0x20000) })
     latched s 0 0 = false ∧ badPage s x = false ∧ (swapPlace (s.slice 0) (swapPageSize * x.frames.length)).isSome = true ∧
     badPage (s.upMem (fun m => { m with dram := m.dram.poison 0x38000 64 })) x = true ∧
     x.swapTag.toNat < (oldest (s.ae 0)).toNat ∧ (oldest (s.ae 0)).toNat ≤ ({ x with swapTag := 1 } : KvSeq).swapTag.toNat ∧
     swapPlace ((seqState0 x id).slice 0) (swapPageSize * x.frames.length) = none) ∧
    (let x := { seq0 with state := .swapIn, tree := [] }
     let k : SwapSlot := { ae := 0, seq := 0, va := 0x10000, size := 0 }
     let s := (seqState0 x id).upSlice 0 (fun y => { y with swapSlots := [k] })
     (s.slice 0).swapSlots.find? (fun k => k.ae = 0 ∧ k.seq = 0) = some k ∧ (swapPages s x k).isSome = true ∧
     ((seqState0 x id).slice 0).swapSlots.find? (fun k => k.ae = 0 ∧ k.seq = 0) = none) := by
  and_intros <;> decide +kernel

/-- TimeAndLoopCommands: the fallback surface, the time bases at their ends. -/
theorem witness_timeCommands :
    (let w := cmd 0x0803 [(8, 1, 3), (16, 8, 0x10000), (24, 8, 0x10040), (32, 4, 64)]
     let a := accept ready 0 w
     sentRow 0x0803 ready 0 w = true ∧ ownerSlice a 0 3 = 0 ∧ parked a = false ∧ structOk a 0 w 16 0x10000 64 = true ∧
     layerErr (BitVec.ofNat 512 (leNat (zeros 64))) = none ∧ structOk a 0 w 24 0x10040 64 = true) ∧
    (∀ k ∈ [0, 2, 3, 4], sentRow 0x0903 ready 0 (cmd 0x0903 [(8, 1, k)]) = true ∧ sentRow 0x0904 ready 0 (cmd 0x0904 [(8, 1, k)]) = true) := by
  and_intros <;> decide +kernel

/-- Loop 31 runs with one stage of type 1, internal or not. -/
def loopReady (c0 : Nat) (f : LoopSt → LoopSt) : State := { ready with
  groups := [(0x900001F, { shadow := 0, committed := setFld (setFld (setFld 0 0 1 c0) 2 1 1) 192 16 1, written := false, used := false })]
  ctl := { loops := [(31, f { mode := .run })] } }

/-- TimeAndLoopCommands: a coefficient word for a running loop, for one that is off and for another type; tunings that begin, are refused and stop. -/
theorem witness_loopCommands :
    (∀ v ∈ [1, 2], let w := cmd 0x0906 [(8, 1, 31), (16, 16, v)]
      let a := accept (loopReady 1 id) 0 w
      sentRow 0x0906 (loopReady 1 id) 0 w = true ∧ ownerSlice a 3 31 = 0 ∧ wordOk (BitVec.ofNat 128 v) (slotOrder a 31 0) = true ∧ locked a 0x900001F = false ∧
      (a.loop 31).tuning = none ∧ (a.loop 31).mode = .run ∧ loopSafe a 31 (loopSet a 31) = false ∧ lpStages (loopSet a 31) = 1 ∧
      decide (swType (BitVec.ofNat 128 v) = swType (lpWord (loopSet a 31) 0)) = decide (v = 1) ∧
      swOrder (BitVec.ofNat 128 v) = swOrder (lpWord (loopSet a 31) 0)) ∧
    ((accept (loopReady 1 fun x => { x with mode := .off }) 0 0).loop 31).mode = .off ∧
    sentRow 0x0907 (loopReady 1 id) 0 (cmd 0x0907 [(8, 1, 31)]) = true ∧
    (∀ p ∈ [(1, 1), (2, 3)], let s := loopReady p.2 id
      let w := cmd 0x0907 [(8, 1, 31), (9, 1, p.1), (16, 8, 0x10000), (24, 8, 0x10040)]
      let a := accept s 0 w
      sentRow 0x0907 s 0 w = true ∧ structOk a 0 w 16 0x10000 64 = true ∧ destOk a 0 w 24 (16 * 16384) = false ∧ destOk a 0 w 24 32 = true ∧
      tuneRefusal a 31 (p.1 == 2) = none ∧ (tuneRefusal a 31 (p.1 != 2)).isSome = true) ∧
    tuneErr (line [(4, 4, 1), (8, 4, 1)]) false = none ∧ tuneErr (line [(8, 4, 16777216), (36, 4, 1), (44, 1, 64)]) true = none ∧
    (∀ k ∈ [0, 1], sentRow 0x0908 ready 0 (cmd 0x0908 [(8, 1, k)]) = true ∧ (accept ready 0 0).ctl.waiting = none ∧ (accept ready 0 0).ctl.degraded = false) ∧
    splitRefused (accept ready 0 0) = false := by
  and_intros <;> decide +kernel

/-- A JPEG of one byte for slice 0, a dictionary of one string, a tensor of one page. -/
def jpeg : Line := line [(0, 1, 1), (1, 1, 9), (16, 4, 1), (20, 4, 20)]
def dictBytes : Bytes := leBytes 4 0x31444B54 ++ leBytes 4 1 ++ leBytes 4 0 ++ leBytes 4 0xFFFFFFFF ++ leBytes 4 72 ++ zeros 44 ++ leBytes 4 1 ++ [0x61, 0, 0, 0]
def intaking (f : IntakeSt → IntakeSt) : State := { readyBytes dictBytes with intake := f {} }

/-- IntakeSamples, the commands: one sample with a queue that has room and with a full one, the ends of COUNT; a dictionary; a tensor that is there
and one that is not. -/
theorem witness_intakeCommands :
    (∀ k ∈ [0, 1, 256, 257], sentRow 0x0701 ready 0 (cmd 0x0701 [(8, 2, k), (16, 8, 0x10000)]) = true) ∧ structOk (accept ready 0 0) 0 (cmd 0x0701 [(16, 8, 0x10000)]) 16 0x10000 64 = true ∧
    sampleErr (leBytes 64 jpeg.toNat) = none ∧
    (∀ t ∈ [1, 2, 3], slotsUsed (accept ready 0 0) t 0 + ([leBytes 64 jpeg.toNat].filter (fun d => byteAt d 0 == t)).length ≤ 1024) ∧
    1024 < slotsUsed (intaking fun x => { x with queues := [(queueKey 1 0, List.replicate 1024 jpeg)] }) 1 0 + ([leBytes 64 jpeg.toNat].filter (fun d => byteAt d 0 == 1)).length ∧
    (let w := cmd 0x0702 [(8, 1, 7), (16, 8, 0x10000)]
     let a := accept (intaking id) 0 w
     sentRow 0x0702 (intaking id) 0 w = true ∧ dictOwner a 7 = none ∧ structOk a 0 w 16 0x10000 72 = true ∧ bytesAt a 0 0x10000 72 = some dictBytes ∧
     dictHeadErr (dictBytes.take 64) = none ∧ isOk (dictRecords dictBytes 72 0 none 1 64 0 []) = true) ∧ sentRow 0x0702 ready 0 (cmd 0x0702 [(8, 1, 8)]) = true ∧
    (let t : IntakeTensor := { slice := 0, va := 0x7F0000000000, pages := [3] }
     sentRow 0x0704 ready 0 (cmd 0x0704 [(16, 8, 0x7F0000000000)]) = true ∧ ready.intake.tensors = [] ∧
     (accept (intaking fun x => { x with tensors := [t] }) 0 0).intake.tensors.find? (fun t => t.slice == 0 && t.va == 0x7F0000000000) = some t) := by
  and_intros <;> decide +kernel

/-- IntakeSamples, the engines: none waits, one waits with room and without, one runs, and its budget is spent or not. -/
theorem witness_intakeEngines :
    (let r : RunSample := { slice := 0, d := line [(0, 1, 2), (16, 4, 10), (20, 4, 20)], start := 0, maxPixels := 0 }
     (∀ k ∈ [1, 2, 3], IntakeEngine.code (if k = 1 then .jpeg else if k = 2 then .tokens else .dice) = k ∧ nextQueue (intaking id) k = none ∧
       nextQueue (intaking fun x => { x with queues := [(queueKey k 0, [jpeg])] }) k = some 0 ∧ (intaking id).runningOn k = []) ∧
     (intaking fun x => { x with queues := [(queueKey 1 0, [jpeg])] }).queueOf 1 0 = [jpeg] ∧
     (intaking fun x => { x with running := [(2, [r])] }).runningOn 2 = [r] ∧ 20000 ≤ r.start + 1000 * budgetUs (intaking id) 2 r ∧ r.start + 1000 * budgetUs (intaking id) 2 r < 20001 ∧ cuts (intaking id) 2 r 9 = true ∧ cuts (intaking id) 2 r 10 = false ∧ budgetUs (intaking id) 2 r = 20 ∧
     cuts (intaking id) 1 { r with d := jpeg } 0 = true ∧ budgetUs (intaking id) 1 { r with d := jpeg } = 20) := by
  and_intros <;> decide +kernel

/-- VehicleCommands: a known-answer frame set and removed, the status record, and a channel that is set, is another's, copies, and is free. -/
theorem witness_vehicleCommands :
    (let e := { work with cls := 2 }
     let sc := { scene0 with kaf := true, cls := 2 }
     let s := { loaded.upSlice 0 (fun x => { x with packages := [(0, some { pkg0 with jobs := [e] })] }) with sheets := [(3, some { period := 1000000, scenes := List.replicate 32 sc })] }
     let w := cmd 0x0A02 [(13, 1, 3), (14, 1, 31), (16, 8, 0x10000), (24, 8, 0x10000)]
     let a := accept s 0 w
     sentRow 0x0A02 s 0 w = true ∧ sentRow 0x0A02 s 0 (cmd 0x0A02 []) = true ∧ (tget none (a.slice 0).packages 0).map (·.jobs) = some [e] ∧ parked a = false ∧
     (tget none a.sheets 3).bind (fun sh => sh.scenes[31]?) = some sc ∧ kafErr 0 { pkg0 with jobs := [e] } e sc = none ∧ a.saf.kafs = [] ∧ inputBytes pkg0 e = 0 ∧
     structOk a 0 w 16 0x10000 0 = true ∧ structOk a 0 w 24 0x10000 8 = true) ∧
    (let k : Kaf := { slice := 0, handle := 0, jobIdx := 0, k := 8, bank := 3, scene := 31, pages := [], len := 0, expect := 0, since := none, running := none }
     ([k].any (fun r => r.slice == 0 && r.handle == 0 && r.jobIdx == 0)) = true) ∧
    (let w := cmd 0x0A03 [(16, 8, 0x1FF00)]
     sentRow 0x0A03 ready 0 w = true ∧ destOk (accept ready 0 w) 0 w 16 256 = true) := by
  and_intros <;> decide +kernel

theorem witness_twinChannels :
    (∀ p ∈ [(0x1FFC0, true), (0x20000, false)], let s := ctrReady { slice := some 0 }
      let w := cmd 0x0B02 [(8, 1, 63), (9, 1, 1), (10, 2, 5), (16, 8, p.1), (24, 4, 64)]
      let a := accept s 0 w
      sentRow 0x0B02 s 0 w = true ∧ (a.ctr 5).slice = some 0 ∧ tget none a.fab.channels 63 = none ∧ reachable a 0 (.slice 0) .write (fld w 16 8) 64 = p.2 ∧ lenDiffers a 63 64 = false) ∧
    (let w := cmd 0x0B03 [(8, 1, 63)]
     sentRow 0x0B03 ready 0 w = true ∧ tget none (accept ready 0 w).fab.channels 63 = none ∧
     (∀ p ∈ [((0 : SliceId), false), (0, true), (1, false)], let e : TwinEnd := { slice := p.1, receive := true, ctr := 5, va := 0x10000, len := 64, copying := p.2 }
       sentRow 0x0B03 { ready with fab := { channels := [(63, some e)] } } 0 w = true ∧ tget none (accept { ready with fab := { channels := [(63, some e)] } } 0 w).fab.channels 63 = some e)) := by
  and_intros <;> decide +kernel

/-- Enclave 31 hosted by slice 0. -/
def enclave31 : Enclave := { host := 0, pages := [], tables := [], partition := 15, image := 0, data := 0, save := 0, handle := none }
def wrapper : Bytes := leBytes 4 0x57454E45 ++ leBytes 4 1 ++ leBytes 8 64 ++ zeros 496
def enclaved (h : SliceId) (js : List Job) : State := { readyBytes wrapper with sec := { enclaves := [(31, some { enclave31 with host := h })] }, jobs := js }

/-- VehicleCommands, the enclaves: one created, one of another's host, one whose wrapper no supplier signed, one destroyed and one that a job uses. A
wrapper that is accepted is one that Config's opaque key functions accept, so no concrete one is shown. -/
theorem witness_enclaves :
    (let s := { ready with groups := [(0x2000000, { shadow := 0, committed := setFld 0 30 2 1, written := false, used := true })] }
     let w := cmd 0x0C01 [(16, 8, 65536)]
     let a := accept s 0 w
     sentRow 0x0C01 s 0 w = true ∧ (a.slice 0).valid = true ∧ (a.slice 0).destroying = false ∧ parked a = false ∧
     ((List.range 31).map (· + 1)).find? (fun e => (tget none a.sec.enclaves e).isNone) = some 1 ∧ enclavePartition a = some 15 ∧ fld (committed a 2 0) 30 2 ≠ 0 ∧
     fits a 0 0 65536 = true ∧ isOk (enclavePages a (1 + enclaveTables 1)) = true) ∧
    (let w := cmd 0x0C02 [(8, 1, 31), (16, 8, 0x10000)]
     let a := accept (enclaved 0 []) 0 w
     sentRow 0x0C02 (enclaved 0 []) 0 w = true ∧ tget none a.sec.enclaves 31 = some enclave31 ∧ firstOff a 0 .read (fld w 16 8) 512 isDram = none ∧
     structOk a 0 w 16 0x10000 512 = true ∧ bytesAt a 0 0x10000 512 = some wrapper ∧ wrapperErr wrapper = none ∧ (tget none a.sec.slots (byteAt wrapper 6)).isNone = true ∧
     (tget none (accept (enclaved 1 []) 0 w).sec.enclaves 31).map (·.host) = some 1) ∧
    (let w := cmd 0x0C03 [(8, 1, 31)]
     sentRow 0x0C03 (enclaved 0 []) 0 w = true ∧ (accept (enclaved 0 []) 0 w).jobs = [] ∧
     (∃ j ∈ (accept (enclaved 0 [{ job0 with enclave := some 31 }]) 0 w).jobs, j.enclave = some 31)) := by
  and_intros <;> decide +kernel

/-! ### The host, the rings and the channels -/

/-- `ready` with this page of slice 0. -/
def paged (f : Page → Page) : State := ready.upPage 0 f

/-- RingRegisters: an answering page, a disabled one, a ring full to its 64 entries, one entry past that, and sizes and bases at their ends. -/
theorem witness_ringRegisters :
    (∀ f, let s := paged f
      s.host.linkUp = true ∧ s.host.d3hot = false ∧ s.host.devReady = true ∧ (s.slice 0).valid = true ∧ (s.slice 0).page = f (ready.slice 0).page) ∧
    (let p (t : Word) : Page := { (ready.slice 0).page with cmdTail := t }
     (p 64).enable = true ∧ (p 64).error = false ∧ ((p 64).cmdTail - (p 64).cmdHead).toNat ≤ 2 ^ (p 64).cmdLog2.toNat ∧
     2 ^ (p 65).cmdLog2.toNat < ((p 65).cmdTail - (p 65).cmdHead).toNat) ∧
    (0x1000 : DWord).toNat % 4096 = 0 ∧ (1 : DWord).toNat % 4096 ≠ 0 := by
  refine ⟨fun _ => ⟨rfl, rfl, rfl, rfl, rfl⟩, ?_⟩
  and_intros <;> decide +kernel

/-- RING_CTRL with each size at its least and at its most, and with a command ring below and above. -/
theorem witness_ringSizes : ((0x18C6 : Word).extractLsb' 0 5, (0x18C6 : Word).extractLsb' 5 5, (0x18C6 : Word).extractLsb' 10 5) = ((6 : BitVec 5), 6, 6) ∧
    ((0x4210 : Word).extractLsb' 0 5, (0x4210 : Word).extractLsb' 5 5, (0x4210 : Word).extractLsb' 10 5) = ((16 : BitVec 5), 16, 16) ∧
    (0x18C5 : Word).extractLsb' 0 5 = 5 ∧ (0x4211 : Word).extractLsb' 0 5 = 17 := by
  decide

/-- RequestsWithoutLink: no link, and D3hot. -/
theorem witness_requestsWithoutLink : State.reset.host.linkUp = false ∧ (ready.upHost (fun h => { h with d3hot := true })).host.linkUp = true ∧
    (ready.upHost (fun h => { h with d3hot := true })).host.d3hot = true := ⟨rfl, rfl, rfl⟩

/-- The aperture of slice 0 shows its page, from 0. -/
def apertured : State := (ready.upPage 0 (fun p => { p with aptEnable := true, aptBase := 0x10000 })).upHost (fun h => { h with
  ranges := [(0, { valid := true, bar2 := true, first := 0, last := 0 })]
  lastRead := [(0, (0xF80, 64))]
  reads := [{ addr := 0x100000, len := 64, src := .job (.core 0), pasid := 0 }] })

/-- LinkAndAccesses: counters, apertures that are off, on, past their end and of a bad granule, accesses of page 0, completions and prefetches. -/
theorem witness_accesses :
    ready.host.mbxLock = false ∧ (ready.upHost (fun h => { h with mbxLock := true })).host.mbxLock = true ∧ (0x80000000 : Word).getLsbD 31 = true ∧
    (let s := ctrReady { slice := some 0 }
     s.host.devReady = true ∧ (s.ctr 5).dead = false ∧ (s.slice 0).valid = true ∧ (s.ctr 5).slice = some 0 ∧ (s.ctr 6).slice ≠ some 0) ∧
    (ready.slice 0).page.aptEnable = false ∧
    (let s := apertured
     (s.slice 0).valid = true ∧ (s.slice 0).page.aptEnable = true ∧ meetsHost s 0 (0x10000 + 0xFFFC) 4 = false ∧ bytesAt s 0 (0x10000 + 0xFFFC) 4 = some (zeros 4) ∧
     readVa s 0 (.slice 0) .read (0x10000 + 0x10000) 4 = .fault 0x20000 ∧
     readVa (s.upMem (fun m => { m with dram := m.dram.poison 0x20000 64 })) 0 (.slice 0) .read 0x10000 4 = .check 0x10000 true ∧
     firstUnreachable s 0 (.slice 0) .write (0x10000 + 0xFFFC) 4 = none ∧ firstUnreachable s 0 (.slice 0) .write (0x10000 + 0xFFFC) 8 = some 0x20000 ∧
     meetsHost s 0 (0x10000 + 0xFFFC) 8 = false ∧ linkOk s = true ∧ mayPrefetch s 0 0xFC0 64 = true ∧ meetsHost s 0 (0x10000 + 0xFC0) 64 = false ∧
     (bytesAt s 0 (0x10000 + 0xFC0) 64).isSome = true ∧ (readsAt s 0x10003F).length = 1 ∧ readsAt s 0x100040 = []) ∧
    bar0Accepts ready 0 4 = true ∧ bar0Accepts ready 2 4 = false ∧ ready.host.configReady = true := by
  and_intros <;> decide +kernel

/-- Channel 0 between the host and Stagehand's secure processor, and channel 1 between it and the control engine. -/
def channeled (f : PwrSt → PwrSt) : State := (ready.upPwr f).upHost (fun h => { h with channels := [(0, { reg := 0x80000031 }), (1, { reg := 0x80000063 })] })

/-- Channels: each end, a master of neither, ends that are off, and a channel that is not enabled. -/
theorem witness_channels :
    (∀ k ∈ [(0 : ChanId), 1], chanOn (channeled id) k = true) ∧ chanOn (channeled id) 2 = false ∧
    endA ((channeled id).chan 0) = 1 ∧ endB ((channeled id).chan 0) = 3 ∧ endA ((channeled id).chan 1) = 3 ∧ endB ((channeled id).chan 1) = 6 ∧
    linkOk (channeled id) = true ∧ endOff (channeled id) 3 = false ∧ endOff (channeled id) 1 = false ∧
    endOff (channeled fun p => { p with secureOff := true }) 3 = true ∧ endOff (channeled fun p => { p with controlOff := true }) 6 = true ∧
    (channeled id).host.pdValid = false ∧ ((channeled id).upHost (fun h => { h with pdValid := true })).host.pdValid = true := by
  and_intros <;> decide +kernel

/-- NoticeRings: a ring with room, a full one, staging with room and full, a held completion, and timers at their instants. -/
theorem witness_noticeRings :
    (let e : Notice := { code := 1, vec := 0, slice := 0, seq := 0, cue := 0, payload := 0 }
     let s (k : Nat) (lost : Word) := ready.upSlice 0 (fun x => { x with staged := List.replicate k e, lostPending := lost })
     ((s 0 0).slice 0).staged = [] ∧ ntcRoom ((s 1 0).slice 0).page = true ∧ linkOk (s 1 0) = true ∧ ((s 1 0).slice 0).staged = [e] ∧ ((s 1 1).slice 0).lostPending = 1 ∧
     ((s 63 0).slice 0).staged.length < 64 ∧ ((s 64 0).slice 0).staged.length = 64) ∧
    (let p : Page := { (ready.slice 0).page with ntcTail := 64 }
     decide ((p.ntcTail - p.ntcHead).toNat < 2 ^ p.ntcLog2.toNat) = false) ∧
    (let c : Cpl := { status := 0, tag := 0, pos := 0, op := 1, detail := 0, result := 0 }
     let s := ready.upSlice 0 (fun x => { x with held := [c], timer0 := some 5, timer1 := some 5 })
     (s.slice 0).held = [c] ∧ (s.slice 0).page.enable = true ∧ cplRoom (s.slice 0).page = true ∧ (s.slice 0).timer0 = some 5 ∧ (s.slice 0).timer1 = some 5) := by
  and_intros <;> decide +kernel

/-! ### The cue, time bases, cameras, displays and networks -/

/-- The cue runs with beats of a tenth of its period and two scenes. -/
def cueing (f : CueSt → CueSt) : State := { ready with
  cue := f { configured := true, running := true, period := 1000000, beat := 100000, length := 1000000, next := 1000000 }
  sheets := [(0, some { period := 1000000, scenes := [scene0, { scene0 with start := 20000 }] })] }

/-- CueEvents: an edge as planned, one that stops and one that comes when none is planned; the last beat and the one after it; a scene's
opening and closing. -/
theorem witness_cueEvents :
    (∀ f, (cueing f).cue = f { configured := true, running := true, period := 1000000, beat := 100000, length := 1000000, next := 1000000 }) ∧
    ready.cue.running = false ∧ ready.cue.starting = false ∧ (cueing id).cue.adopt = none ∧ (cueing fun c => { c with adopt := some 7 }).cue.adopt = some 7 ∧
    (cueing fun c => { c with stopping := true }).cue.stopping = true ∧
    beatCount (cueing id) = 10 ∧ (cueing fun c => { c with beatIdx := 9 }).cue.beatIdx < 10 ∧
    ((sceneOf (cueing id) 1).map (fun x => (x.start, x.duration))) = some (20000, 20000) ∧ scene0.kaf = false := by
  refine ⟨fun _ => rfl, ?_⟩
  and_intros <;> decide +kernel

/-- ConservationAudits: each pool as it should be, and with one too many or too few. -/
theorem witness_conservationAudits :
    (let x : Ctr := { slice := some 0, value := 3, initial := 1, added := 2, issued := 2, applied := 1, flight := [{ value := 1, src := .twin }] }
     x.dead = false ∧ x.value.toNat = x.initial + x.added - x.consumed ∧ x.issued = x.applied + x.flight.length ∧ ({ x with added := 3 } : Ctr).value.toNat ≠ 1 + 3 - 0) ∧
    bitAt (seqState0 seq0 id).pwr.dieOff.toNat 0 = false ∧ (poolFrames ((seqState0 seq0 id).ae 0)).length = ((seqState0 seq0 id).ae 0).total ∧
    (poolFrames ((seqState0 seq0 fun e => { e with total := 5 }).ae 0)).length ≠ 5 ∧
    (∀ q, let s := ready.upSlice 0 (fun x => { x with staged := List.replicate q { code := 1, vec := 0, slice := 0, seq := 0, cue := 0, payload := 0 } })
     slotStaged s (.notices 0) = (List.replicate q ({ code := 1, vec := 0, slice := 0, seq := 0, cue := 0, payload := 0 } : Notice)).length ∧ slotTotal s (.notices 0) = 64) ∧
    slotStaged ready (.ring 0) + 0 + 0 = slotTotal ready (.ring 0) ∧ slotStaged ready (.ring 15) + 1 + 0 ≠ slotTotal ready (.ring 15) ∧
    (let x : BwAccount := { tokens := 3, issued := 5, drawn := 2 }
     x.tokens + x.drawn = x.issued ∧ ({ x with drawn := 1 } : BwAccount).tokens + ({ x with drawn := 1 } : BwAccount).drawn ≠ x.issued) ∧
    (poolTxns ready 5).length = 0 ∧ 4096 + 0 = poolSize 5 ∧ 12287 + 0 ≠ poolSize 0 ∧
    (∀ key ∈ [1000, 1001, 4 * modKey { die := .stage 0, idx := 0 } + (0 : BitVec 2).toNat, 4 * modKey { die := .wings, idx := 1 } + (3 : BitVec 2).toNat],
     let x : CreditLoop := { total := 4, held := 1, ct := 0xFFFFFFFFFFFF }
     tget none ({ ready with fab := { credits := [(key, some x)] } } : State).fab.credits key = some x) ∧
    (let x : LoopRec := { h := 1, ct := 0xFFFFFFFFFFFF, o := 1, f := 1, cr := 0 }
     loopSum x = 4 ∧ loopSum { x with cr := 1 } ≠ 4 ∧ poolCut ready (.dieLink { die := .stage 0, idx := 0 } 0 x) = false ∧
     poolCut ready (.dieLink { die := .wings, idx := 1 } 3 x) = false ∧
     (∀ r ∈ [AuditReport.dieLink { die := .stage 0, idx := 0 } 0 x, .twinLink true x, .buffers (.intake 0 .dice) 0 0, .sync 5, .kvPages 0, .bandwidth 32, .tags 5 0 0],
       auditDue (cueing fun c => { c with audited := some [] }) r = true ∧ auditDue (cueing id) r = false ∧
       auditDue (cueing fun c => { c with audited := some [auditKey r] }) r = false)) := by
  refine ⟨?_, ?_, ?_, ?_, fun _ => ⟨rfl, rfl⟩, ?_⟩
  all_goals first | decide +kernel | (and_intros <;> decide +kernel)

/-- TimeAndLoopEvents: an immediate commit of a time base that is old enough, a source that has gone silent, groups without a block's action, and a
sample instant within the cue. -/
theorem witness_timeEvents :
    (let s := { ready with commits := [{ pendingCommit 0x5000000 0 with atCue := false }] }
     tbGroup 0 = 0x5000000 ∧ (immediates s 0x5000000).length = 1 ∧ (∀ c ∈ immediates s 0x5000000, c.at_ + 1000000 ≤ 1000000)) ∧
    (let s := { ready with groups := [(0x5000000, { shadow := 0, committed := setFld defaultTimebase 0 1 1, written := false, used := true })] }
     tbSource (tbSet s 0) = 1 ∧ (s.tb 0).st = 0 ∧ (s.tb 0).last + 1000000 * fld (tbSet s 0) 24 4 = 3000000000) ∧
    (∀ g ∈ [0x2000000, 0x4000000, 0x8000FFF, 0x900001F], freeSafePoint ready g = true) ∧ freeSafePoint ready 0x5000000 = false ∧
    tget [] ready.net.syncRx (syncKey 3 1) = [] ∧ tget [] ({ ready with net := { syncRx := [(syncKey 3 1, [5, 6])] } } : State).net.syncRx (syncKey 3 1) ≠ [] ∧
    (cueing id).cue.running = true ∧ (cueing id).pwr.controlOff = false ∧ (cueing id).cue.last ≤ 0 ∧ 0 < (cueing id).cue.next ∧
    (ready.upPwr (fun p => { p with controlOff := true })).pwr.controlOff = true := by
  and_intros <;> decide +kernel

/-- Stream 0 is used: port 0, virtual channel 0, RAW10, FSYNC on pin 3. -/
def camOn (x : CamSt) (f : CueSt → CueSt) : State := { cueing f with
  groups := [(0x7000000, { shadow := 0, committed := setFld (bytesAtOff (leBytes 128 camW.toNat) 0 0) 62 1 0x83, written := true, used := true })]
  intake := { cams := [(0, x)], fsync := 8 } }

/-- CameraEvents: a stream that is used and one that is not, a trigger, a pin to fall, packets of a stream and of none, a line of a frame and of
none, a window that ends and a frame that is done. -/
theorem witness_cameraEvents :
    (let s := camOn {} id
     s.cue.running = true ∧ (s.cam 0).fired = false ∧ s.cue.last = 0 ∧ triggerAt s (edgeSet s 0) = 0 ∧ triggerAt s (edgeSet s 1) = 0 ∧ camUsed (safePoint (endPrevious s 0) 0x7000000) 0 = true ∧
     camUsed (safePoint (endPrevious s 1) 0x7000001) 1 = false) ∧
    (let s := camOn { k := 1, set := BitVec.ofNat 1024 (fld (setFld (bytesAtOff (leBytes 128 camW.toNat) 0 0) 62 1 0x83) 0 128) } id
     s.intake.fsync.getLsbD 3 = true ∧ (s.cam 0).k ≠ 0 ∧ bitAt (fld (s.cam 0).set 62 1) 7 = true ∧ fld (s.cam 0).set 62 1 % 16 = 3 ∧ (s.cam 0).trigAt + fld (s.cam 0).set 68 4 = 1 ∧ ∀ c < 16, c ≠ 0 → (s.cam c).k = 0) ∧
    (let p : CsiPacket := { port := 0, vc := 0, dt := 0x2B, eccOk := true, crcOk := true }
     streamsOf (camOn {} id) p = [0] ∧ streamsOf (camOn {} id) { p with vc := 1 } = [] ∧
     (streamsOf (camOn {} id) p).find? (fun c => fld (camNow (camOn {} id) c) 2 1 == p.dt.toNat) = some 0 ∧ p.dt ≠ 0x12 ∧ ({ p with dt := 0x12 } : CsiPacket).dt = 0x12 ∧
     (streamsOf (camOn {} id) p).find? (fun c => fld (camNow (camOn {} id) c) 2 1 == 0x1E) = none) ∧
    (∀ ended ∈ [false, true], let f : CamFrame := { k := 0, set := 0, slice := 0, cue := 0, time := 0, lines := [], csi := false, sizeErr := false, overload := false, ended := ended }
      ((camOn { frame := some f } id).cam 0).frame = some f) ∧ ((camOn {} id).cam 0).frame = none ∧
    (let s := camOn { openedAt := some 5, set := setFld 0 72 4 1 } id
     (s.cam 0).openedAt = some 5 ∧ 5 + 1000 * fld (s.cam 0).set 72 4 = 1005) := by
  and_intros <;> decide +kernel

/-- DisplayEvents: head 0 on with one line of one pixel, before and after that line, and a head that is off. -/
theorem witness_displayEvents :
    (∀ l ∈ [0, 1], let s := { ready with groups := [(0x6000000, { shadow := 0, committed := setFld (setFld (setFld headW 0 1 1) 12 2 1) 20 2 1, written := true, used := true })], heads := [(0, { line := l })] }
      headOn s 0 = true ∧ vActive (headSet s 0) = 1 ∧ hActive (headSet s 0) = 1 ∧ (s.head 0).line = l ∧ (s.head 0).training = none) ∧ headOn ready 3 = false := by
  and_intros <;> decide +kernel

/-- A network block: port 0 on with frames of up to 1,522 bytes and one gate entry, CAN 0 in FD mode, and a stream filter that admits
frames of up to 64 bytes. -/
def netBytes : Bytes :=
  let u := leBytes
  zeros 6 ++ u 2 5 ++ zeros 56 ++ (u 2 1 ++ u 2 48 ++ u 2 0x0100 ++ zeros 8 ++ u 2 1522 ++ zeros 6 ++ u 2 1 ++ u 4 1000 ++ zeros 20)
  ++ (u 2 2 ++ u 2 12 ++ zeros 4 ++ u 4 500) ++ (u 2 16 ++ u 2 8 ++ u 2 0x0200 ++ zeros 2) ++ (u 2 6 ++ u 2 20 ++ zeros 12 ++ u 2 1 ++ zeros 2) ++ (u 2 7 ++ u 2 16 ++ zeros 2 ++ u 2 0xFFFF ++ u 2 0xFFFF ++ u 2 64 ++ zeros 4)

/-- That block in force, with route 5 (a signal from CAN 0, identifier 7, stale after 1 µs). -/
def networked (f : NetSt → NetSt) : State := { ready with
  pwr := { ready.pwr with net := netBytes }
  groups := [(0x8000005, { shadow := 0, committed := [(0, 1, 2), (4, 4, 7), (48, 4, 1)].foldl (fun w f => setFld w f.1 f.2.1 f.2.2) 0, written := true, used := true })]
  net := f { eth := [(0, { linkUp := true })] } }

/-- NetworkEvents, CAN: a frame that a route takes, one that none does, one that the controller does not take; a frame offered; a controller off the bus. -/
theorem witness_canEvents :
    (let f : CanFrame := { id := 7, ext := false, fd := true, brs := false, rtr := false, data := [1] }
     canTakes (networked id) 0 f = true ∧ canTakes (networked id) 1 f = false ∧ (∃ x ∈ routes (networked id), isSignal x.2 = true) ∧
     (∀ x ∈ routes (networked id), (fld x.2 1 1 == 0 && fld x.2 2 1 == 0 && canMatch x.2 7 false) = true ∧ (fld x.2 1 1 == 0 && fld x.2 2 1 == 0 && canMatch x.2 8 false) = false) ∧
     (canOffer { buf0 := some f } : Option (Option Nat × CanFrame)) = some (none, f) ∧ canMode (networked id).pwr.net 0 = 2) ∧
    ((networked fun n => { n with can := [(0, { busOff := true })] }).can 0).busOff = true := by
  and_intros <;> decide +kernel

/-- NetworkEvents, Ethernet and routes: a gate's end, frames that are too short, too long, policed and forwarded, and due routes. -/
theorem witness_ethEvents :
    ethMode (networked id).pwr.net 0 = 1 ∧ (gateEnd (networked id) 0).isSome = true ∧ (ethRec (networked id).pwr.net 0).map (fun r => (fieldOf r 14 2, fieldOf r 16 2)) = some (1522, 0) ∧
    ((networked id).eth 0).linkUp = true ∧
    (∀ good ∈ [false, true], ∀ p ∈ [(60, true), (61, false)], let f := { parseEth 0 (zeros p.1) with good := good }
     (police (keepSync (stampRx ((networked id).at_ 0) 0 p.1) 0 f) 0 f (p.1 + 4)).2.2 = p.2) ∧
    ({} : EthRx).fcsOk = true ∧ ({ fcsOk := false } : EthRx).fcsOk = false ∧
    (∀ n ∈ [59, 60, 1518, 1519], (zeros n).length = n) ∧
    (let s := networked fun n => { n with routes := [(5, { due := some 9, event := some 9 })] }
     (s.route 5).due = some 9 ∧ (s.route 5).event = some 9 ∧ isSignal (routeSet s 5) = true ∧ fld (routeSet s 5) 48 4 = 1) := by
  and_intros <;> decide +kernel

/-! ### Memory, fabric, jobs, safety, security and power -/

/-- MemoryEvents: the end of a window and the instant before it, an entry whose check fails and one that has none, pages that await a test, and
translation changes that may be finished and may not. -/
theorem witness_memoryEvents :
    outOfReset ready = true ∧ outOfReset (ready.upPwr (fun p => { p with phase := .held })) = false ∧
    ready.mem.txns.find? (fun t => t.tag = 9) = none ∧ ready.mem.windowStart + 1000 = 1000 ∧ (ownerOf ready (dpaOfLocal ready 0 0 / 65536)).typ ≠ .uninit ∧
    (ownerOf ready (dpaOfLocal ready 0 0 / 65536)).echkOk = true ∧ (ownerOf State.reset 0).typ = .uninit ∧
    (let s := ready.upMem (fun m => { m with owner := [(0, some { typ := .pyotos, echk := 0xFF })] })
     (ownerOf (((List.range 32).map (dpaOfLocal s 0 0 / 64 + ·)).foldl (scrubGranule [3]) s) (dpaOfLocal s 0 0 / 65536)).echkOk = false) ∧
    (let s := ready.upMem (fun m => { m with testPages := [5], retiredList := List.replicate 1023 0 })
     5 ∈ s.mem.testPages ∧ (ownerOf s 5).typ = .free ∧ s.mem.retiredList.length < 1024) ∧
    (∀ op ∈ [0x0102, 0x0107], let p : PendingUnmap := { slice := 0, pages := [3], tag := 0, pos := 0, op := BitVec.ofNat 16 op, result := 0, held := [(0, 0)] }
      (ready.upMem (fun m => { m with unmaps := [p] })).mem.unmaps.find? (changeReady ready) = some p ∧
      changeReady (ready.upMem (fun m => { m with txns := [{ tag := 0, pool := 0, src := .job (.core 0), write := true, crossing := false, issued := 0, slice := 0, mid := 0 }] })) p = false) := by
  and_intros <;> decide +kernel

/-- FabricEvents: a far write outstanding and a read, a module that runs, at its limit of errors and that retrains, a second prediction, and dice. -/
theorem witness_fabricEvents :
    (∀ wr ∈ [true, false], let x : Txn := { tag := 9, pool := 0, src := .job (.core 0), write := wr, crossing := wr, issued := 0, slice := 0, mid := 0 }
      let s := ready.upMem (fun m => { m with txns := [x] })
      outOfReset s = true ∧ (∃ t ∈ s.mem.txns, t.tag = 9 ∧ t.write = wr) ∧ s.mem.txns.find? (fun t => t.tag = 9) = some x ∧ (∀ t ∈ s.mem.txns, t.tag ≠ 8)) ∧
    (∀ m ∈ [({ die := .stage 3, idx := 7 } : ModId), { die := .wings, idx := 1 }], modExists m = true ∧ (ready.module m).up = true ∧ (ready.module m).retraining = false ∧
      linkIsland m = (if m.die = .wings then .b else .a) ∧
      (∀ n ∈ [15, 16], let s := ready.upModule m (fun x => { x with laneErrors := [(69, List.replicate n 0)] })
        (s.module m).laneErrors = [(69, List.replicate n 0)] ∧ (recentErrors s.now (List.replicate n 0)).length = n ∧ recentErrors 1000000 (List.replicate n 0) = []) ∧
      repairs ready m [0, 1] = true ∧ repairs ready m [0, 1, 2] = false ∧ repairs ready m [0, 71] = true ∧ repairs ready m [0, 1, 71] = false ∧
      (∀ cf ∈ [true, false], let s := ready.upModule m (fun x => { x with retraining := true, creditFault := cf })
        (s.module m).retraining = true ∧ (s.module m).creditFault = cf ∧ repairs s m [] = true)) ∧
    (∀ k ∈ [0, 1], let s := cueing fun c => { c with predicted := [(dieCode .floor, k)] }
      s.cue.running = true ∧ decide (tget 0 s.cue.predicted (dieCode .floor) + 1 < 2) = decide (k = 0)) ∧ DieId.floor ≠ .wings := by
  and_intros <;> decide +kernel

/-- A pair's lead or follower, with this fabric. -/
def twin (role : BitVec 2) (f : FabSt) (c : CueSt → CueSt) : State := { cueing c with host := { ready.host with twinRole := role }, fab := f }

/-- TwinLink: the link up and down, the 64th error, a follower's cue frames, a line held, requested and free, and requests that time out. -/
theorem witness_twinLink :
    (twin 1 { twinRetrain := [1001] } id).fab.twinRetrain = [1001] ∧ (twin 1 {} id).fab.twinRetrain = [] ∧ paired (twin 1 {} id) = true ∧ (twin 1 {} id).fab.twinUp = false ∧ (twin 1 { twinUp := true, twinUncorrectableCue := 63 } id).fab.twinUncorrectableCue < 64 ∧
    64 ≤ (twin 1 { twinUp := true, twinUncorrectableCue := 64 } id).fab.twinUncorrectableCue ∧ isFollower (twin 2 { twinUp := true } id) = true ∧ (twin 2 {} id).cue.running = true ∧
    (twin 2 { twinUp := true } fun c => { c with running := false }).cue.running = false ∧
    (let s := twin 1 { twinUp := true, farHeld := [(4, 100)], ops := [{ line := 5, requested := 0, pos := 0, slice := 0 }] } id
     (∃ p ∈ s.fab.farHeld, p.1 = 4) ∧ (∃ o ∈ s.fab.ops, o.line = 5) ∧ isLead s = true ∧ (∀ p ∈ s.fab.farHeld, p.1 ≠ 6) ∧ (∀ o ∈ s.fab.ops, o.line ≠ 6) ∧
     (∀ p ∈ s.fab.farHeld, p.1 = 4 → 99 < p.2) ∧ (∀ o ∈ s.fab.ops, o.line = 5 → 19999 < o.requested + 20000) ∧
     ownLock s 5 = true ∧ ownLock s 6 = false ∧
     s.fab.ops.find? (fun o => o.line == 5 && o.locked) = some { line := 5, requested := 0, pos := 0, slice := 0 }) ∧
    (∃ o ∈ (twin 2 { twinUp := true, ops := [{ line := 5, requested := 0, pos := 0, slice := 0, locked := false }] } id).fab.ops, o.line = 5 ∧ o.locked = false) ∧
    (let f : Flight := { tag := 0, pos := 0, op := 2, wait := .twinAgree }
     let s := (twin 1 { twinUp := true, ops := [{ line := 5, requested := 0, pos := 0, slice := 0 }] } id).upSlice 0 (fun x => { x with flight := [f] })
     (s.slice 0).flight.find? (fun g => g.pos = 0) = some f) := by
  and_intros <;> decide +kernel

/-- TwinLink: a channel's send end that is triggered and that is not, its wait, and its receive end. -/
theorem witness_twinCopies :
    (∀ tr ∈ [false, true], ∀ rx ∈ [false, true], let e : TwinEnd := { slice := 0, receive := rx, ctr := 5, va := 0x10000, len := 64, copying := false, triggered := tr }
      let s : State := { twin 1 { twinUp := true, twinMode := 1, channels := [(63, some e)], credits := twinPools } id with ctrs := [(5, { slice := some 0 })] }
      tget none s.fab.channels 63 = some e ∧ s.pwr.state = .active ∧ s.fab.twinUp = true ∧ s.fab.twinMode ≠ 0 ∧ (s.ctr 5).dead = false ∧ 
      ({ who := .twin 63, ctr := 5, mode1 := true, value := 1 } : SyncWait).who = .twin 63 ∧ copyFits s 64 = true ∧ copyFits { s with fab := { s.fab with credits := [] } } 64 = false ∧ freeTag s 4 = some 49152 ∧
      carriedBytes (openCopy s 63 e 49152) 0 (.slice 0) 0x10000 64 = some (zeros 64) ∧ carriedBytes (openCopy s 63 e 49152) 0 (.slice 0) 0x20000 64 = none ∧ reachable s 0 (.slice 0) .write 0x10000 64 = true) ∧
    (zeros 64).length = 64 := by
  and_intros <;> decide +kernel

/-- TwinLink: the cue frame of the example after R312: it arrives 412 ns after the lead's edge, the one-way delay is 405 ns,
and the follower's own edge, 18 ns after the lead's and the delay, is still to come; a frame that comes after the own edge is not early. -/
theorem witness_cueFrames :
    (let f : TwinCue := { count := 1, lead := 5000000, sent := 5000007, stops := false, at_ := 999994 }
     let s := (twin 2 { twinUp := true, oneWay := 405 } fun c => { c with next := 1000005 }).at_ f.at_
     leadEdge s f = 999987 ∧ (s.cue.next : Int) - leadEdge s f = 18 ∧ frameEarly s f = true ∧ s.cue.running = true ∧ isFollower s = true) ∧
    (let f : TwinCue := { count := 0, lead := 5000000, sent := 5000007, stops := true, at_ := 412 }
     frameEarly ((twin 2 { twinUp := true, oneWay := 405 } fun c => { c with last := 423 }).at_ f.at_) f = false) ∧
    packetCredits 2048 = 34 ∧ copyCredits 4096 = 68 := by
  and_intros <;> decide +kernel

/-- Core 0's unit in a phase, with job 0. -/
def phased (p : UnitPhase) : State := { ready with
  jobs := [job0], jobNext := 1, units := [(0, { job := some 0, phase := p })]
  saved := [(0, some { seq := {}, live := {}, core := {}, rfe := {} })] }

/-- JobEvents: a job that can be placed and none, each phase of a unit, a job that is over and one that is not, a context to restore, and a head that is on. -/
theorem witness_jobEvents :
    (∀ p, ((phased p).unit (.core 0)).phase = p ∧ jobOf (phased p) (.core 0) = some job0 ∧ ((phased p).unit (.core 0)).entry = 0 ∧
      tget none (phased p).saved (128 * job0.id + ((phased p).unit (.core 0)).entry) = some { seq := {}, live := {}, core := {}, rfe := {} } ∧
      ((phased p).ve 0).tex = none ∧ writesAcked (phased p) (.core 0) = true) ∧
    (placeHead { cueing id with jobs := [{ job0 with phase := .queued }], jobNext := 1 } 0).isSome = true ∧ (placeHead ready 0).isNone = true ∧
    (let j := { job0 with entries := [{ state := 1 }, { state := 1 }, { state := 2 }] }
     ({ ready with jobs := [j] } : State).job 0 = some j ∧ jobOver { ready with jobs := [j] } j = true ∧ crossChecked { ready with jobs := [j] } j = false ∧ j.kaf = none) ∧
    (let j := { job0 with e := { work with cls := 3 }, entries := [{ state := 1 }] }
     crossChecked { ready with jobs := [j], fab := { twinUp := true, twinMode := 2 } } j = true) ∧
    (let s (ws : List TileWork) : State := { phased .running with rasters := [(0, { work := ws })] }
     leadOf job0 = some 0 ∧ betweenTiles (s []) 0 0 job0 = true ∧ betweenTiles (s [{ entry := 0, tile := 0, rest := [], draw := none }]) 0 0 job0 = false) ∧
    jobOver (phased .running) job0 = false ∧ ready.job 0 = none ∧
    writesAcked ((phased (.preemptStopped true)).upMem (fun m => { m with txns := [{ tag := 0, pool := 0, src := .job (.core 0), write := true, crossing := false, issued := 0, slice := 0, mid := 0 }] })) (.core 0) = false ∧
    ((ready.upVe 0 (fun x => { x with tex := some 0 })).ve 0).tex.isSome = true ∧
    headOn { ready with groups := [(0x6000000, { shadow := 0, committed := 1, written := true, used := true })] } 0 = true := by
  refine ⟨fun _ => ⟨rfl, rfl, rfl, rfl, rfl, rfl⟩, ?_⟩
  and_intros <;> decide +kernel

/-- Island A in this state. -/
def islanded (f : Island → Island) : State := ready.upSaf (fun x => { x with a := f {} })

/-- SafetyIslands: the curtain up and down, pairs that compare, voters that agree and that disagree by one, restarts in time and again, and the alive word. -/
theorem witness_safetyIslands :
    (∀ f, (islanded f).island .a = f {} ∧ islandsRun (islanded f) = true ∧ (islanded f).cue.running = false ∧ (islanded f).saf.silent = false ∧ (islanded f).saf.curtain = false) ∧
    (let s := ready.upSaf (fun x => { x with curtain := true, messages := 1, nextMessage := 5 })
     s.saf.curtain = true ∧ s.saf.messages ≠ 0 ∧ s.saf.nextMessage ≤ 5) ∧
    1 ≤ (0x24 : Byte).toNat ∧ (0x24 : Byte).toNat ≤ 0x24 ∧
    (∀ p ∈ [LockstepPair.stagehand, .security, .control], pairCompares ready p = true) ∧
    (let x : Island := { mode := .service }
     voters x = [0, 1, 2] ∧ voters { x with understudy := some 1 } = [0, 2] ∧ x.mode ≠ .start ∧ x.restarting = false ∧ x.lastToggle + 495000 = 495000 ∧
     ready.saf.nonSafety &&& pathBit (.island .a) = 0) ∧
    (let g : Fin 3 → Word := fun a => if a = 2 then 1 else 0
     (∀ a, a ≠ 2 → g a ≠ g 2) ∧ (∀ a b, a ≠ 2 → b ≠ 2 → g a = g b)) ∧
    (999 : DWord).toNat < (0 : DWord).toNat + 1000 ∧ (0 : DWord).toNat + 1000 ≤ (1000 : DWord).toNat := by
  refine ⟨fun _ => ⟨rfl, rfl, rfl, rfl, rfl⟩, ?_⟩
  and_intros <;> decide +kernel

/-- A core in this state as a unit without a job. -/
def tested (f : UnitSt → UnitSt) : State := { ready with units := [(0, f {})] }

/-- Rehearsals: a suspect, its test done with and without a transient to spare, a segment that may run and one under way, a checker past its age, and the
records of two packages. -/
theorem witness_rehearsals :
    (let s := tested fun x => { x with suspect := true }
     (s.unit (.core 0)).suspect = true ∧ (s.unit (.core 0)).fenced = false ∧ (s.unit (.core 0)).job = none ∧ (s.unit (.core 0)).phase = .idle ∧ unitPowered s (.core 0) = true) ∧
    ((tested fun x => { x with phase := .selfTest }).unit (.core 0)).phase = .selfTest ∧ transientLimit ready = 8 ∧
    (let s := (tested fun x => { x with phase := .selfTest }).upSaf (fun x => { x with transients := [(0, List.replicate 7 0)] })
     (tget [] s.saf.transients 0).filter (fun c => decide (s.cue.count.toNat < c + transientWindow s)) = List.replicate 7 0) ∧
    (∀ k ∈ [Checker.te 0, .rfe 3], (checkerUnit k).isSome = true ∧ k ∈ allCheckers ∧ checkerOn (cueing id) k = true ∧ mayRehearse ((cueing id).at_ 500000) k = true ∧ k ≠ .island .a ∧ k ≠ .island .b) ∧ (cueing id).cue.running = true ∧ (cueing id).host.devReady = true ∧ (cueing id).saf.segments = [] ∧
    (∃ p ∈ (ready.upSaf (fun x => { x with segments := [(.te 0, 5)] })).saf.segments, p.1 = .te 0) ∧
    (.te 0 ∉ ready.saf.overdue ∧ 1000000 * lfiMs ready < ageOf ready (.te 0) 10000000001) ∧
    (let j := { job0 with phase := .ended }
     let s : State := { ready with jobs := [j], fab := { twinUp := true, twinMode := 2 } }
     s.job 0 = some j ∧ s.saf.crossMine = [] ∧ j.kaf = none ∧ s.saf.crossTheirs.find? (fun r => sameKey r (crossRecord j 0)) = none ∧
     [crossRecord j 1].find? (fun r => sameKey r (crossRecord j 0)) = some (crossRecord j 1) ∧
     [(crossRecord j 1, 0)].find? (fun p => sameKey p.1 (crossRecord j 0)) = some (crossRecord j 1, 0)) := by
  and_intros <;> decide +kernel

/-- A message of this code and address waits in channel 0 for the secure processor. -/
def secureMail (code : Word) (addr : Word) : State := ready.upHost (fun h => { h with channels := [(0, { reg := 0x80000031, bellB := true, words := [(0, code), (1, addr)] })] })

/-- SecureAndManagement: each message, an address that is not aligned, a record with a bad byte, no nonce, the locks, and the watchdog. A record
or token that is accepted is one that Config's opaque key functions accept, so no concrete one is shown. -/
theorem witness_secure :
    (∀ c ∈ [0x0101, 0x0102, 0x0103, 0x0104, 0x0105], ∀ a ∈ [0, 4], let s := secureMail (BitVec.ofNat 32 c) (BitVec.ofNat 32 a)
      s.host.devReady = true ∧ chanOn s 0 = true ∧ (s.chan 0).bellB = true ∧ endOff s 3 = false ∧ linkOk s = true ∧ secCode s = c ∧ secAddr s = a) ∧
    provisionStatus ready (zeros 3 ++ [1] ++ zeros 188) ≠ 0 ∧ tokenOk ready (zeros 160) = false ∧ ready.sec.debugLock = false ∧
    (let s := ready.upSec (fun x => { x with wdtRunning := true, period := 1023 })
     s.sec.wdtRunning = true ∧ s.sec.warned = false ∧ s.sec.kicked + 500000 * s.sec.period.toNat = 511500000) := by
  and_intros <;> decide +kernel

theorem witness_management : ready.pwr.i2cOn = true ∧ State.reset.pwr.i2cOn = false ∧ fieldOf [4, 0x80] 0 2 % 4 = 0 ∧ fieldOf [2, 0] 0 2 % 4 ≠ 0 ∧ outOfReset ready = true ∧
    debugEnabled ready (.unit (.core 0)) true = false ∧ debugEnabled (ready.upSec (fun x => { x with debugBits := 15 })) (.unit (.core 0)) true = true ∧
    debugEnabled (ready.upSec (fun x => { x with debugBits := 15 })) (.unit (.core 0)) false = true ∧
    .secure ∈ (ready.upPwr (fun p => { p with waking := [.secure, .control] })).pwr.waking ∧ .control ∈ (ready.upPwr (fun p => { p with waking := [.secure, .control] })).pwr.waking := by
  and_intros <;> decide +kernel

/-- With this temperature at sensor 0. -/
def heated (t : Int) (f : PwrSt → PwrSt) : State := ready.upPwr (fun p => f { p with sensors := [(0, t)] })

/-- Thermal: each threshold reached and just missed, the cap, a step under way, dies cut and rejoining, and a gated core. -/
theorem witness_thermal :
    (heated 0 id).pwr.aonUp = true ∧ dieOn (heated 0 id) 0 = true ∧ tget none (heated 0 id).pwr.stepTo 0 = none ∧ hot (heated 105000 id) (dieSensors 0) 105000 = true ∧
    hot (heated 104999 id) (dieSensors 0) 105000 = false ∧ pointOf (heated 0 id) 0 = 0 ∧ powerCap (heated 0 id) = 300000 ∧ powerCap (heated 0 id) < (heated 0 fun p => { p with powerMw := 300001 }).pwr.powerMw ∧
    (let s := heated 100000 fun p => { p with point := [(0, 4)], powerMw := 284999 }
     hot s (dieSensors 0) 100001 = false ∧ 100 * s.pwr.powerMw < 95 * powerCap s ∧ 0 < pointOf s 0) ∧
    tget none (heated 0 fun p => { p with stepTo := [(0, some 4)] }).pwr.stepTo 0 = some 4 ∧
    emergencyNow (heated 125000 id) = true ∧ (heated 125000 id).pwr.emergency = false ∧
    (let s := heated 95000 fun p => { p with emergency := true }
     s.pwr.emergency = true ∧ hot s (List.range 44) 95001 = false ∧ parked s = false) ∧
    hot (heated 135000 id) (List.range 44) 135000 = true ∧ ready.pwr.tripped = false ∧ ready.host.dramRate ≠ 0 ∧ ready.pwr.overTemp.getLsbD 11 = false ∧
    (ready.upPwr (fun p => { p with overTemp := 0x800 })).pwr.overTemp.getLsbD 11 = true ∧ ready.pwr.state = .active ∧ bitAt ready.pwr.dieOff.toNat 0 = false ∧
    ((tested fun x => { x with gated := true }).unit (.core 0)).gated = true ∧ bitAt (ready.upPwr (fun p => { p with dieOff := 8 })).pwr.dieOff.toNat 3 = true := by
  and_intros <;> decide +kernel

/-- RailsAndResets: each rail group due, late and failing, PORST_N low and high, a reset due and one that is not, SLEEP asked for and left, and cuts. -/
theorem witness_rails :
    State.reset.pwr.aonUp = false ∧ ready.pwr.aonUp = true ∧
    (∀ k ∈ [0, 1, 2], let s := ready.upPwr (fun p => { p with good := 0 })
      s.pwr.pwrEn.getLsbD k = true ∧ s.pwr.good.getLsbD k = false ∧ s.pwr.enTimeout = false ∧ ready.pwr.good.getLsbD k = true) ∧
    railIdx .g4 = 2 ∧ railEn 2 = some 0 ∧ railEn 6 = some 1 ∧ railEn 7 = some 2 ∧ (ready.upPwr (fun p => { p with enTimeout := true })).pwr.enTimeout = true ∧
    ready.pwr.porstHigh = true ∧ State.reset.pwr.porstHigh = false ∧ (ready.upPwr (fun p => { p with resetDue := some .watchdog })).pwr.resetDue = some .watchdog ∧
    ready.pwr.resetDue ≠ some .watchdog ∧ ready.pwr.refLost = false ∧ ready.pwr.state ≠ .sleep ∧ outOfReset ready = true ∧ parked readyParked = true ∧ parked ready = false ∧
    (let s := ready.upPwr (fun p => { p with state := .sleep, pwrEn := 0, good := 0 })
     s.pwr.tripped = false ∧ s.pwr.state = .sleep ∧ s.pwr.pwrEn = 0 ∧ s.pwr.enTimeout = false) ∧
    heldDomain ready (cutDomains (.die 3)) = none ∧ heldDomain ready (cutDomains (.domain .secure)) = some 24 := by
  and_intros <;> decide +kernel

/-- In this phase of the bring-up, at this stage. -/
def booting (p : BootPhase) (stage : Nat) (f : PwrSt → PwrSt) : State := (ready.upPwr (fun x => f { x with phase := p })).upHost (fun h => { h with devReady := false, configReady := false, boot := bootWord stage 0 0 0 })

/-- The report of a good image, with a network block of no records. -/
def goodImage : ImageReport :=
  { fieldsOk := true, keyHashOk := true, keyRevoked := false, sigOk := true, digestOk := true, rollback := 0, version := 1, net := leBytes 4 0x4B42434E ++ leBytes 2 1 ++ zeros 58 }

/-- The six dice of one device. -/
def goodStraps : List (DieId × Word) := [(.stage 0, 0), (.stage 1, 0x10), (.stage 2, 0x20), (.stage 3, 0x30), (.wings, 1), (.floor, 2)]

/-- BringUp: each phase, images that pass and fail, trims that pass and fail, and a training tried once and twice. -/
theorem witness_bringUp :
    (∀ p ∈ [BootPhase.rom, .verify, .trim, .training, .initing], (booting p 4 id).pwr.phase = p ∧ (booting p 4 id).host.configReady = false ∧ outOfReset (booting p 4 id) = true ∧
      (booting p 4 id).sec.wdtRunning = false ∧ (booting p 4 id).pwr.xspi = .inReset) ∧
    (booting .halted 1 fun x => { x with xspi := .single }).pwr.phase = .halted ∧ (booting .halted 1 fun x => { x with xspi := .single }).pwr.xspi ≠ .inReset ∧
    (booting .halted 1 id).pwr.resetDue = none ∧ (booting .halted 1 id).sec.wdtRunning = false ∧ ready.pwr.porst + 100000000 = 100000000 ∧
    stageOf (booting .initing 4 id) = 4 ∧ stageOf (booting .initing 5 id) = 5 ∧
    failedType (booting .verify 1 id) { sf := goodImage, py := goodImage } = none ∧ failedType (booting .verify 1 id) { sf := goodImage, py := { goodImage with sigOk := false } } = some 2 ∧
    failedType (booting .verify 1 id) { sf := { goodImage with keyRevoked := true }, py := goodImage } = some 1 ∧
    (let r : TrimReport := { straps := goodStraps, pllFail := none, lanes := [] }
     identityOk r = true ∧ deadLinks (booting .trim 2 id) r = [] ∧
     deadLinks (booting .trim 2 id) { r with lanes := [({ die := .wings, idx := 1 }, [3, 70, 9])] } = [{ die := .wings, idx := 1 }]) ∧
    (booting .training 3 id).pwr.retrained.contains 47 = false ∧ (booting .training 3 fun p => { p with retrained := [47] }).pwr.retrained.contains 47 = true ∧
    1 < (booting .training 3 id).pwr.bootRate.toNat ∧ (booting .training 3 fun p => { p with bootRate := 1 }).pwr.bootRate.toNat ≤ 1 ∧
    ready.host.devReady = true ∧ ready.host.memComplete = false := by
  and_intros <;> decide +kernel

/-- AddressMapIsFaithful: the first and the last address. -/
theorem witness_addressMap : 0 < dataTop ready ∧ dataTop ready - 1 < dataTop ready := by
  and_intros <;> decide +kernel

/-- The last counter of each 256 is slice 1's. -/
def scattered : State := { ready with ctrs := (List.range 32).map (fun q => (256 * q + 255, { slice := some 1 })) }

/-- CounterCommands: a quota with room for 256 counters, and no run of 256 that is free. -/
theorem witness_noFreeRun : fits (accept scattered 0 0) 0 3 256 = true ∧ freeRun (accept scattered 0 0) 256 = none := by
  have taken : ∀ q : Fin 32, ((accept scattered 0 0).ctr (BitVec.ofNat 13 (256 * q.val + 255))).slice.isNone = false := by decide +kernel
  refine ⟨by decide +kernel, ?_⟩
  unfold freeRun
  rw [List.find?_eq_none]
  intro a ha h
  rw [List.mem_range] at ha
  have f := List.all_eq_true.mp h (255 - a % 256) (List.mem_range.mpr (by omega))
  have e : a + (255 - a % 256) = 256 * (a / 256) + 255 := by omega
  have t := taken ⟨a / 256, by omega⟩
  simp only [e, t, Bool.false_and] at f
  cases f

/-- The tables of ready's one leaf in page 2, from Table 9-5: three links and the sixteen entries of a 64 KiB page (VALID, C64, W,
X, the index in bits 15:12); and the pages lost when the granule of the first entry fails its check (R268). -/
theorem test_tableEntries :
    tableEntries [2] (ready.slice 0).maps = [(0x20000, 0x21003), (0x21000, 0x22003), (0x22000, 0x23003)] ++
      (List.range 16).map (fun i => (0x23080 + 8 * i, 0x2001D + 4096 * i)) ∧
    (let s := ready.upSlice 0 (fun x => { x with tables := [3] })
     translate s 0 (.slice 0) .read 0x10010 = some (.dram 0x20010) ∧
     translate (s.upMem (fun m => { m with dram := m.dram.poison 0x30000 1 })) 0 (.slice 0) .read 0x10010 = none) := by
  and_intros <;> decide +kernel

/-- FIPS 197, C.3: AES-256 of the block 00 11 … ff under the key 00 01 … 1f. -/
theorem test_aes : (aes (aesKeys (beBytes 32 0x000102030405060708090a0b0c0d0e0f101112131415161718191a1b1c1d1e1f)) (beBytes 16 0x00112233445566778899aabbccddeeff)) =
    beBytes 16 0x8ea2b7ca516745bfeafc49904b496089 := by decide +kernel

/-- SP 800-186: the base point of P-384 lies on the curve, and twice it too. -/
theorem test_curve : onCurve gx384 gy384 = true ∧ onCurve basePoint.double.affine.1 basePoint.double.affine.2 = true := by
  and_intros <;> decide +kernel

/-- R277, by hand: of 100 bytes, slices that want 10, 80 and 90 get 10, 45 and 45. -/
theorem test_evenShare : evenShare 3 100 [10, 80, 90] = 45 := by decide

end Sys2Proof.Tests
end

section
/-! SUPPORT. Which commands write what lasts (`State.lasting`): every command but thirteen keeps all of it. Seven of the
thirteen can reset the device; this says what each of the other six does to it. -/

namespace Sys2Proof.Machine

/-! ### Answers and bodies, by what lasts after them -/

/-- The answer is a next state, and `P` holds of what lasts in it. -/
def Ans.leads (a : Ans) (P : Lasting → Prop) : Prop := match a with
  | .next t => P t.lasting
  | .fault _ => False
  | .refused _ => False

/-- `P` holds of what lasts in the state that a command body ends in; an error without effects ends in no state of its own (R350). -/
def Res.leads (r : Res) (P : Lasting → Prop) : Prop := match r with
  | .ok t _ => P t.lasting
  | .err _ _ => True
  | .errR _ _ _ => True
  | .errS t _ _ _ => P t.lasting
  | .wait t _ => P t.lasting

theorem Ans.leads_of_keeps {a : Ans} {l : Lasting} {P : Lasting → Prop} (h : a.keeps l) (hl : P l) : a.leads P := by
  cases a with
  | next t => cases h; exact hl
  | fault r => exact h
  | refused r => exact h

theorem Ans.leads_mono {a : Ans} {P Q : Lasting → Prop} (h : a.leads P) (hPQ : ∀ l, P l → Q l) : a.leads Q := by
  cases a with
  | next t => exact hPQ _ h
  | fault r => exact h
  | refused r => exact h

theorem Ans.of_leads_next {a : Ans} {P : Lasting → Prop} {t : State} (h : a.leads P) (ht : a = .next t) : P t.lasting := by
  subst ht; exact h

theorem doWhen_leads {c : Bool} {s t : State} {P : Lasting → Prop} (hs : P s.lasting) (ht : P t.lasting) :
    (doWhen c s t).leads P := by
  cases c
  · exact hs
  · exact ht

theorem settle_leads {s : State} {n : SliceId} {f : Flight} {r : Res} {P : Lasting → Prop} (hs : P s.lasting) (hr : r.leads P) :
    P (settle s n f r).lasting := by
  cases r with
  | ok t x => rw [settle, complete_lasting]; exact hr
  | err st d => rw [settle, complete_lasting]; exact hs
  | errR st d x => rw [settle, complete_lasting]; exact hs
  | errS t st d x => rw [settle, complete_lasting]; exact hr
  | wait t w => rw [settle, awaitEvent_lasting]; exact hr

theorem checked_leads {c : CmdSpec} {body : Body} {s : State} {n : SliceId} {f : Flight} {w : Line} {P : Lasting → Prop}
    (h : (body s n f w).leads P) : (checked c body s n f w).leads P := by
  unfold checked
  split
  · trivial
  split
  · trivial
  split
  · trivial
  · exact h

/-- A command that is taken, waits or starts after its wait leads where its body does, from any state with the same lasting part. -/
theorem runCmd_leads {c : CmdSpec} {body : Body} {n : SliceId} {w : Line} {s : State} {P : Lasting → Prop} (hs : P s.lasting)
    (hb : ∀ t f, t.lasting = s.lasting → (body t n f w).leads P) : (runCmd c body n w s).leads P := by
  have run (t : State) (f : Flight) (ht : t.lasting = s.lasting) : P (settle t n f (checked c body t n f w)).lasting :=
    settle_leads (ht ▸ hs) (checked_leads (hb t f ht))
  refine doWhen_leads hs ?_
  split
  · exact run _ _ (awaitEvent_lasting ..)
  split
  · exact run _ _ (accept_lasting ..)
  split
  · rw [awaitEvent_lasting, accept_lasting]; exact hs
  · exact hs

theorem withBytes_leads {s : State} {n : SliceId} {w : Line} {off va len : Nat} {k : State → Bytes → Res} {P : Lasting → Prop}
    (hs : P s.lasting) (hk : ∀ t bs, t.lasting = s.lasting → (k t bs).leads P) : (withBytes s n w off va len k).leads P := by
  unfold withBytes
  split
  · trivial
  split
  · trivial
  split
  · exact hk _ _ (structRead_lasting ..)
  · exact (congrArg P (meetEntry_lasting ..)).mpr hs
  · exact (congrArg P (reportCheckOf_lasting ..)).mpr hs

/-! ### The commands that write what lasts without a reset -/

/-- SHEET_WRITE puts a sheet into the bank it names, or keeps what lasts. -/
theorem execSheetWrite_leads (n : SliceId) (w : Line) (s : State) : (execSheetWrite n w s).leads fun l =>
    l = s.lasting ∨ ∃ sh, l = { s.lasting with sheets := tset none s.sheets (fld w 8 1) (some sh) } := by
  refine runCmd_leads (.inl rfl) fun a f ha => ?_
  unfold sheetWrite
  dsimp only
  split
  · trivial
  refine withBytes_leads (.inl ha) fun b hdr hb => ?_
  split
  · trivial
  split
  · trivial
  split
  · trivial
  refine withBytes_leads (.inl (hb.trans ha)) fun t raw ht => ?_
  split
  · trivial
  split
  · trivial
  split
  · trivial
  have hl : t.lasting = s.lasting := ht.trans (hb.trans ha)
  have hsh : t.sheets = s.sheets := congrArg Lasting.sheets hl
  exact .inr ⟨_, by rw [← hl, ← hsh]; rfl⟩

/-- PROVISION writes the supplier slots, or keeps what lasts. -/
theorem execProvision_leads (s : State) : (execProvision s).leads fun l => ∃ slots, l = { s.lasting with slots := slots } := by
  refine doWhen_leads ⟨s.sec.slots, rfl⟩ ?_
  dsimp only
  split
  · rw [secReply_lasting]
    split
    · exact ⟨_, rfl⟩
    · exact ⟨s.sec.slots, rfl⟩
  · rw [secReply_lasting]
    exact ⟨s.sec.slots, rfl⟩

theorem Lasting.with_mbxLock {l : Lasting} (h : l.mbxLock = true) : { l with mbxLock := true } = l := by
  cases l; cases h; rfl

theorem Lasting.with_wdtLock {l : Lasting} (h : l.wdtLock = true) : { l with wdtLock := true } = l := by
  cases l; cases h; rfl

theorem Lasting.with_debugLock {l : Lasting} (h : l.debugLock = true) : { l with debugLock := true } = l := by
  cases l; cases h; rfl

theorem lockChannels_lasting (s : State) : (lockChannels s).lasting = { s.lasting with mbxLock := true } := by
  unfold lockChannels
  rw [lasting_foldl]
  · rfl
  · exact fun t _ => raiseCode_lasting t .b 0

/-- MBX_LOCK_SET leaves the lock of the channel table set. -/
theorem execMbxLockSet_keeps (s : State) : (execMbxLockSet s).keeps { s.lasting with mbxLock := true } := by
  unfold execMbxLockSet
  cases h : s.host.mbxLock with
  | false => exact lockChannels_lasting s
  | true => rw [Lasting.with_mbxLock h]; rfl

theorem readyBridge_lasting (s : State) : (readyBridge s).lasting = { s.lasting with mbxLock := true, rangesLocked := true } := by
  unfold readyBridge
  dsimp only
  split
  case isTrue h =>
    have hb : (s.upHost setBridge).lasting = { s.lasting with rangesLocked := true } := rfl
    rw [hb]; exact (Lasting.with_mbxLock h).symm
  case isFalse => exact lockChannels_lasting _

/-- DEV_READY sets three locks, or keeps what lasts. -/
theorem execDevReady_leads (at_ : Nat) (s : State) : (execDevReady at_ s).leads fun l =>
    l = s.lasting ∨ l = { s.lasting with mbxLock := true, rangesLocked := true, wdtLock := true } := by
  refine doWhen_leads (.inl rfl) (.inr ?_)
  have hw (t : State) : (t.upSec (fun x => { x with wdtLock := true })).lasting = { t.lasting with wdtLock := true } := rfl
  simp [hw, readyBridge_lasting]

/-- A write to SEC_DEBUG sets LOCK from the secure world, and never clears it. -/
theorem writeDebug_lasting (s : State) (secure : Bool) (v : Word) :
    (writeDebug s secure v).lasting = { s.lasting with debugLock := s.sec.debugLock || secure && v.getLsbD 8 } := by
  unfold writeDebug
  cases secure with
  | false => rw [if_pos (by decide), srwDenied_lasting, Bool.false_and, Bool.or_false]; rfl
  | true =>
    rw [if_neg (by decide), Bool.true_and]
    cases h : s.sec.debugLock with
    | false => rfl
    | true => exact (Lasting.with_debugLock h).symm

/-- A write to SEC_WDT_CTRL sets its LOCK from the secure world, and never clears it. -/
theorem writeReg_secWdtCtrl_lasting (s : State) (secure : Bool) (v : DWord) :
    (writeReg s .secWdtCtrl secure v).lasting = { s.lasting with wdtLock := s.sec.wdtLock || secure && v.getLsbD 31 } := by
  unfold writeReg
  dsimp only
  cases secure with
  | false => rw [if_pos (by decide), srwDenied_lasting, Bool.false_and, Bool.or_false]; rfl
  | true =>
    rw [if_neg (by decide), Bool.true_and]
    cases h : s.sec.wdtLock with
    | false => rfl
    | true => exact (Lasting.with_wdtLock h).symm

@[simp] theorem writeBar0Of_lasting (s : State) (off : Nat) (eight : Bool) (v : DWord) : (writeBar0Of s off eight v).lasting = s.lasting := by
  unfold writeBar0Of
  (repeat' split) <;> simp

@[simp] theorem readBar0Of_lasting (s : State) (off size : Nat) : (readBar0Of s off size).lasting = s.lasting := by
  unfold readBar0Of
  split <;> simp

theorem readReg_lasting (s : State) (r : RegAddr) (secure : Bool) : (readReg s r secure).1.lasting = s.lasting := by
  cases r <;> cases secure <;> simp [readReg]

/-- A write to a register outside BAR0 writes LOCK of the watchdog or of SEC_DEBUG as those registers allow, or keeps what lasts. -/
theorem writeReg_lasting_cases (s : State) (r : RegAddr) (secure : Bool) (v : DWord) :
    (writeReg s r secure v).lasting = s.lasting ∨
    (∃ b, (writeReg s r secure v).lasting = { s.lasting with wdtLock := s.sec.wdtLock || b }) ∨
    ∃ b, (writeReg s r secure v).lasting = { s.lasting with debugLock := s.sec.debugLock || b } := by
  by_cases hw : r = .secWdtCtrl
  · subst hw; exact .inr (.inl ⟨_, writeReg_secWdtCtrl_lasting s secure v⟩)
  by_cases hd : r = .secDebug
  · subst hd; exact .inr (.inr ⟨_, writeDebug_lasting s secure _⟩)
  · exact .inl (writeReg_lasting s r secure v hw hd)

/-- REGISTER_WRITE does to what lasts what the register written does, and a read or an access in BAR0 nothing. -/
theorem execRegisterWrite_leads (r : RegAddr) (secure : Bool) (d : RegData) (s : State) :
    (execRegisterWrite r secure d s).leads fun l => l = s.lasting ∨ ∃ v, l = (writeReg s r secure v).lasting := by
  unfold execRegisterWrite
  split
  case h_1 => exact Ans.leads_of_keeps (inbound_keeps _ _ (writeBar0Of_lasting ..)) (.inl rfl)
  case h_2 => exact Ans.leads_of_keeps (inbound_keeps _ _ (readBar0Of_lasting ..)) (.inl rfl)
  case h_3 => exact .inl (onConfig_lasting _ _ (emit_lasting ..))
  case h_4 v _ => exact .inr ⟨v, rfl⟩
  case h_5 => exact .inl ((emit_lasting ..).trans (readReg_lasting s r secure))

/-! ### Every command -/

/-- The commands that write a lock, a supplier slot or a cue sheet and cannot reset the device. -/
inductive WritesLasting : Instr → Prop
  | sheetWrite (n : SliceId) (w : Line) : WritesLasting (.sheetWrite n w)
  | provision : WritesLasting .provision
  | mbxLockSet : WritesLasting .mbxLockSet
  | devReady (at_ : Nat) : WritesLasting (.devReady at_)
  | secDebugWrite (secure : Bool) (v : Word) : WritesLasting (.secDebugWrite secure v)
  | registerWrite (r : RegAddr) (secure : Bool) (d : RegData) : WritesLasting (.registerWrite r secure d)

/-- A command that neither can reset the device nor is one of those six keeps what lasts. -/
theorem exec_keeps (i : Instr) (s : State) (hr : mayReset i = false) (hw : ¬ WritesLasting i) : Ans.keeps (exec i s) s.lasting :=
  match i with
  | .nop n w => execNop_keeps n w s
  | .commit n w => execCommit_keeps n w s
  | .cancel n w => execCancel_keeps n w s
  | .diagRead n w => execDiagRead_keeps n w s
  | .logRead n w => execLogRead_keeps n w s
  | .powerSetParked _ _ => nomatch hr
  | .powerSetActive n w => execPowerSetActive_keeps n w s
  | .fwUpdate n w => execFwUpdate_keeps n w s
  | .sliceCreate n w => execSliceCreate_keeps n w s
  | .sliceDestroy n w => execSliceDestroy_keeps n w s
  | .quotaSet n w => execQuotaSet_keeps n w s
  | .assign n w => execAssign_keeps n w s
  | .cacheSet n w => execCacheSet_keeps n w s
  | .memMap n w => execMemMap_keeps n w s
  | .memUnmap n w => execMemUnmap_keeps n w s
  | .apertureSet n w => execApertureSet_keeps n w s
  | .swapAreaSet n w => execSwapAreaSet_keeps n w s
  | .graphLoad n w => execGraphLoad_keeps n w s
  | .graphUnload n w => execGraphUnload_keeps n w s
  | .jobStart n w => execJobStart_keeps n w s
  | .jobAbort n w => execJobAbort_keeps n w s
  | .sheetWrite n w => (hw (.sheetWrite n w)).elim
  | .cueSet n w => execCueSet_keeps n w s
  | .cueStart n w => execCueStart_keeps n w s
  | .cueStop n w => execCueStop_keeps n w s
  | .syncAlloc n w => execSyncAlloc_keeps n w s
  | .syncFree n w => execSyncFree_keeps n w s
  | .syncSet n w => execSyncSet_keeps n w s
  | .syncSignal n w => execSyncSignal_keeps n w s
  | .syncRead n w => execSyncRead_keeps n w s
  | .kvPoolSet n w => execKvPoolSet_keeps n w s
  | .seqCreate n w => execSeqCreate_keeps n w s
  | .seqFree n w => execSeqFree_keeps n w s
  | .seqGlobals n w => execSeqGlobals_keeps n w s
  | .seqSwapOut n w => execSeqSwapOut_keeps n w s
  | .seqSwapIn n w => execSeqSwapIn_keeps n w s
  | .sampleSubmit n w => execSampleSubmit_keeps n w s
  | .dictLoad n w => execDictLoad_keeps n w s
  | .camSet n w => execCamSet_keeps n w s
  | .sampleRelease n w => execSampleRelease_keeps n w s
  | .headSet n w => execHeadSet_keeps n w s
  | .layerSet n w => execLayerSet_keeps n w s
  | .fallbackLoad n w => execFallbackLoad_keeps n w s
  | .routeSet n w => execRouteSet_keeps n w s
  | .timebaseSet n w => execTimebaseSet_keeps n w s
  | .timeSet n w => execTimeSet_keeps n w s
  | .timeRead n w => execTimeRead_keeps n w s
  | .loopSet n w => execLoopSet_keeps n w s
  | .loopCoeff n w => execLoopCoeff_keeps n w s
  | .loopTuneStop n w => execLoopTuneStop_keeps n w s
  | .loopTuneInject n w => execLoopTuneInject_keeps n w s
  | .loopTuneRelay n w => execLoopTuneRelay_keeps n w s
  | .safetyPolicy n w => execSafetyPolicy_keeps n w s
  | .kafSet n w => execKafSet_keeps n w s
  | .safetyStatus n w => execSafetyStatus_keeps n w s
  | .twinMode n w => execTwinMode_keeps n w s
  | .twinChannelSet n w => execTwinChannelSet_keeps n w s
  | .twinChannelFree n w => execTwinChannelFree_keeps n w s
  | .enclaveCreate n w => execEnclaveCreate_keeps n w s
  | .enclaveLoad n w => execEnclaveLoad_keeps n w s
  | .enclaveDestroy n w => execEnclaveDestroy_keeps n w s
  | .ceSplit n w => execCeSplit_keeps n w s
  | .ceJoin n w => execCeJoin_keeps n w s
  | .identify n => execIdentify_keeps n s
  | .echo n => execEcho_keeps n s
  | .stopSlice n => execStopSlice_keeps n s
  | .getKeys => execGetKeys_keeps s
  | .bootInfo => execBootInfo_keeps s
  | .provision => (hw .provision).elim
  | .debugChallenge => execDebugChallenge_keeps s
  | .debugUnlock => execDebugUnlock_keeps s
  | .descriptorIssue u k => execDescriptorIssue_keeps u k s
  | .begin_ u => execBegin_keeps u s
  | .end_ u => execEnd_keeps u s
  | .seMove c k => execSeMove_keeps c k s
  | .seWindow c => execSeWindow_keeps c s
  | .teOp c k => execTeOp_keeps c k s
  | .veLaunch c => execVeLaunch_keeps c s
  | .veLaunchConv c k => execVeLaunchConv_keeps c k s
  | .syncWait u => execSyncWait_keeps u s
  | .syncSignalDescriptor u => execSyncSignalDescriptor_keeps u s
  | .yield_ u => execYield_keeps u s
  | .aeAppend a k => execAeAppend_keeps a k s
  | .aeGather a k => execAeGather_keeps a k s
  | .aeDecode a k => execAeDecode_keeps a k s
  | .rfeRender r k => execRfeRender_keeps r k s
  | .rfeClear r => execRfeClear_keeps r s
  | .rfeResolve r => execRfeResolve_keeps r s
  | .tileIssue r k => execTileIssue_keeps r k s
  | .veNop c => execVeNop_keeps c s
  | .halt c => execHalt_keeps c s
  | .br c => execBr_keeps c s
  | .brz c => execBrz_keeps c s
  | .brnz c => execBrnz_keeps c s
  | .brany c => execBrany_keeps c s
  | .brnone c => execBrnone_keeps c s
  | .loop c k => execLoop_keeps c k s
  | .trap c => execTrap_keeps c s
  | .sadd c k => execSadd_keeps c k s
  | .ssub c k => execSsub_keeps c k s
  | .smul c k => execSmul_keeps c k s
  | .sand c k => execSand_keeps c k s
  | .sor c k => execSor_keeps c k s
  | .sxor c k => execSxor_keeps c k s
  | .sshl c k => execSshl_keeps c k s
  | .sshr c k => execSshr_keeps c k s
  | .smin c k => execSmin_keeps c k s
  | .smax c k => execSmax_keeps c k s
  | .scmp c k => execScmp_keeps c k s
  | .smovi c k => execSmovi_keeps c k s
  | .vadd c k => execVadd_keeps c k s
  | .vsub c k => execVsub_keeps c k s
  | .vmul c k => execVmul_keeps c k s
  | .vmulh c k => execVmulh_keeps c k s
  | .vmad c k => execVmad_keeps c k s
  | .vdot4 c k => execVdot4_keeps c k s
  | .vabs c k => execVabs_keeps c k s
  | .vneg c k => execVneg_keeps c k s
  | .vmin c k => execVmin_keeps c k s
  | .vmax c k => execVmax_keeps c k s
  | .vand c k => execVand_keeps c k s
  | .vor c k => execVor_keeps c k s
  | .vxor c k => execVxor_keeps c k s
  | .vnot c k => execVnot_keeps c k s
  | .vshl c k => execVshl_keeps c k s
  | .vshr c k => execVshr_keeps c k s
  | .vcmp c k => execVcmp_keeps c k s
  | .vclz c k => execVclz_keeps c k s
  | .vld c => execVld_keeps c s
  | .vst c => execVst_keeps c s
  | .vlds c => execVlds_keeps c s
  | .vsts c => execVsts_keeps c s
  | .vgath c => execVgath_keeps c s
  | .vscat c => execVscat_keeps c s
  | .vldbc c => execVldbc_keeps c s
  | .vldpip c => execVldpip_keeps c s
  | .vstpip c k => execVstpip_keeps c k s
  | .sld c => execSld_keeps c s
  | .sst c => execSst_keeps c s
  | .tsample c k => execTsample_keeps c k s
  | .tsampleResult c => execTsampleResult_keeps c s
  | .fadd c k => execFadd_keeps c k s
  | .fsub c k => execFsub_keeps c k s
  | .fmul c k => execFmul_keeps c k s
  | .ffma c k => execFfma_keeps c k s
  | .ffms c k => execFfms_keeps c k s
  | .fmin c k => execFmin_keeps c k s
  | .fmax c k => execFmax_keeps c k s
  | .fabs c k => execFabs_keeps c k s
  | .fneg c k => execFneg_keeps c k s
  | .fcmp c k => execFcmp_keeps c k s
  | .fdiv c k => execFdiv_keeps c k s
  | .fsqrt c k => execFsqrt_keeps c k s
  | .frcp c k => execFrcp_keeps c k s
  | .frsq c k => execFrsq_keeps c k s
  | .fexp2 c k => execFexp2_keeps c k s
  | .flog2 c k => execFlog2_keeps c k s
  | .fsin c k => execFsin_keeps c k s
  | .fcos c k => execFcos_keeps c k s
  | .ftanh c k => execFtanh_keeps c k s
  | .fsigm c k => execFsigm_keeps c k s
  | .ffloor c k => execFfloor_keeps c k s
  | .fround c k => execFround_keeps c k s
  | .fclamp c k => execFclamp_keeps c k s
  | .cvt c k => execCvt_keeps c k s
  | .f8pack c k => execF8pack_keeps c k s
  | .f8unpk c k => execF8unpk_keeps c k s
  | .i4pack c k => execI4pack_keeps c k s
  | .i4unpk c k => execI4unpk_keeps c k s
  | .narrow c k => execNarrow_keeps c k s
  | .vsel c k => execVsel_keeps c k s
  | .vmov c k => execVmov_keeps c k s
  | .vperm c k => execVperm_keeps c k s
  | .vrot c k => execVrot_keeps c k s
  | .vext c k => execVext_keeps c k s
  | .vins c k => execVins_keeps c k s
  | .vredadd c k => execVredadd_keeps c k s
  | .vredmax c k => execVredmax_keeps c k s
  | .vredmin c k => execVredmin_keeps c k s
  | .vidx c k => execVidx_keeps c k s
  | .pand c k => execPand_keeps c k s
  | .por c k => execPor_keeps c k s
  | .pnot c k => execPnot_keeps c k s
  | .pfirstn c k => execPfirstn_keeps c k s
  | .pcnt c k => execPcnt_keeps c k s
  | .doorbellCmd n => execDoorbellCmd_keeps n s
  | .doorbellMbx n => execDoorbellMbx_keeps n s
  | .ringEnable n v => execRingEnable_keeps n v s
  | .ringDisable n v => execRingDisable_keeps n v s
  | .cplHeadWrite n v => execCplHeadWrite_keeps n v s
  | .ntcHeadWrite n v => execNtcHeadWrite_keeps n v s
  | .ntcLostRead n speculative => execNtcLostRead_keeps n speculative s
  | .pdStatusClear v => execPdStatusClear_keeps v s
  | .counterFetchAdd n ctr v => execCounterFetchAdd_keeps n ctr v s
  | .counterSwapCas n ctr => execCounterSwapCas_keeps n ctr s
  | .bar0InvalidAccess write off size => execBar0InvalidAccess_keeps write off size s
  | .apertureRead n off r => execApertureRead_keeps n off r s
  | .apertureWrite n off data r => execApertureWrite_keeps n off data r s
  | .pasidPrefixedRequest bar2 => execPasidPrefixedRequest_keeps bar2 s
  | .channelDoorbell ch master => execChannelDoorbell_keeps ch master s
  | .channelWordAccess ch master write idx v => execChannelWordAccess_keeps ch master write idx v s
  | .mbxLockSet => (hw .mbxLockSet).elim
  | .secWdtKick secure v => execSecWdtKick_keeps secure v s
  | .secDebugWrite secure v => (hw (.secDebugWrite secure v)).elim
  | .registerWrite r secure d => (hw (.registerWrite r secure d)).elim
  | .i2cOffsetWrite data => execI2cOffsetWrite_keeps data s
  | .i2cRead words => execI2cRead_keeps words s
  | .i2cSclTimeout => execI2cSclTimeout_keeps s
  | .jtagDebugAccess d invasive => execJtagDebugAccess_keeps d invasive s
  | .jtagTrst => execJtagTrst_keeps s
  | .aonPowerOn => nomatch hr
  | .railGood g => execRailGood_keeps g s
  | .railEnableTimeout rail => execRailEnableTimeout_keeps rail s
  | .railRetry => execRailRetry_keeps s
  | .brownOut rail => execBrownOut_keeps rail s
  | .porstNLow => nomatch hr
  | .porstNRise twin i2c => execPorstNRise_keeps twin i2c s
  | .chipReset _ => nomatch hr
  | .secureRomStart r => execSecureRomStart_keeps r s
  | .configRetryEnd at_ => execConfigRetryEnd_keeps at_ s
  | .imageVerifyDone a b => execImageVerifyDone_keeps a b s
  | .trimAndPllLock r => execTrimAndPllLock_keeps r s
  | .dramTrainingDone r => execDramTrainingDone_keeps r s
  | .bistComplete fail islandFail => execBistComplete_keeps fail islandFail s
  | .devReady at_ => (hw (.devReady at_)).elim
  | .memoryInitComplete => execMemoryInitComplete_keeps s
  | .refclkLoss => nomatch hr
  | .sleepRequest => nomatch hr
  | .wake => execWake_keeps s
  | .thermalSensorUpdate x milliC => execThermalSensorUpdate_keeps x milliC s
  | .throttleStep d => execThrottleStep_keeps d s
  | .throttleStepUp d => execThrottleStepUp_keeps d s
  | .operatingPointStepDone d => execOperatingPointStepDone_keeps d s
  | .thermalEmergency => execThermalEmergency_keeps s
  | .thermalRecovery => execThermalRecovery_keeps s
  | .thermalTrip => execThermalTrip_keeps s
  | .powerMeasure milliW => execPowerMeasure_keeps milliW s
  | .mr4Read k mult overTemp => execMr4Read_keeps k mult overTemp s
  | .ivrCoreWake c => execIvrCoreWake_keeps c s
  | .pcieLinkDown => execPcieLinkDown_keeps s
  | .d3hotEntry => execD3hotEntry_keeps s
  | .d0Return => execD0Return_keeps s
  | .hostCompletion a st data => execHostCompletion_keeps a st data s
  | .hostCompletionTimeout a => execHostCompletionTimeout_keeps a s
  | .bridgePrefetch n off len at_ => execBridgePrefetch_keeps n off len at_ s
  | .prefetchExpiry at_ => execPrefetchExpiry_keeps at_ s
  | .noticeDeliver n => execNoticeDeliver_keeps n s
  | .completionWrite n => execCompletionWrite_keeps n s
  | .coalesceTimer n v at_ => execCoalesceTimer_keeps n v at_ s
  | .cueEdge at_ => execCueEdge_keeps at_ s
  | .conservationAudit r => execConservationAudit_keeps r s
  | .beatStart at_ => execBeatStart_keeps at_ s
  | .cameraTrigger c at_ => execCameraTrigger_keeps c at_ s
  | .fsyncFall p at_ => execFsyncFall_keeps p at_ s
  | .sceneOpen x at_ => execSceneOpen_keeps x at_ s
  | .sceneClose x at_ => execSceneClose_keeps x at_ s
  | .jobPlace x => execJobPlace_keeps x s
  | .jobTerminate u => execJobTerminate_keeps u s
  | .jobEnd j => execJobEnd_keeps j s
  | .preemptRequest u => execPreemptRequest_keeps u s
  | .forcedSpill u => execForcedSpill_keeps u s
  | .preemptSaveDone u => execPreemptSaveDone_keeps u s
  | .contextRestore u => execContextRestore_keeps u s
  | .displayReclaim h => execDisplayReclaim_keeps h s
  | .coreFence u => execCoreFence_keeps u s
  | .regulationWindow at_ => execRegulationWindow_keeps at_ s
  | .syncSignalApply ctr => execSyncSignalApply_keeps ctr s
  | .syncWaitArrive u => execSyncWaitArrive_keeps u s
  | .farWriteAck tag => execFarWriteAck_keeps tag s
  | .transactionTimeout tag => execTransactionTimeout_keeps tag s
  | .translationChangeDone => execTranslationChangeDone_keeps s
  | .patrolScrubBlock r => execPatrolScrubBlock_keeps r s
  | .floorSramScrub e => execFloorSramScrub_keeps e s
  | .writeLinkEccError page again => execWriteLinkEccError_keeps page again s
  | .pageTest page pass => execPageTest_keeps page pass s
  | .flitCrcFail m => execFlitCrcFail_keeps m s
  | .laneErrorRetrain m => execLaneErrorRetrain_keeps m s
  | .linkRetrainDone m repaired => execLinkRetrainDone_keeps m repaired s
  | .rawFrameReceive st d ok0 ok1 payload => execRawFrameReceive_keeps st d ok0 ok1 payload s
  | .cuePredictedEdge d => execCuePredictedEdge_keeps d s
  | .pllLockLoss d => execPllLockLoss_keeps d s
  | .twinLinkUp roundTrip => execTwinLinkUp_keeps roundTrip s
  | .twinLinkDown => execTwinLinkDown_keeps s
  | .twinCodewordUncorrectable => execTwinCodewordUncorrectable_keeps s
  | .twinAlignmentTimeout => execTwinAlignmentTimeout_keeps s
  | .twinCueFrame f => execTwinCueFrame_keeps f s
  | .farLockRequest line => execFarLockRequest_keeps line s
  | .farLockTimeout line at_ => execFarLockTimeout_keeps line at_ s
  | .twinChannelCopy ch => execTwinChannelCopy_keeps ch s
  | .twinChannelCopyDone ch r data => execTwinChannelCopyDone_keeps ch r data s
  | .curtainFrameReceive => execCurtainFrameReceive_keeps s
  | .crossRecordReceive r => execCrossRecordReceive_keeps r s
  | .safetyEventLatch x e at_ => execSafetyEventLatch_keeps x e at_ s
  | .curtainMessageRepeat at_ => execCurtainMessageRepeat_keeps at_ s
  | .safeOkToggle x at_ => execSafeOkToggle_keeps x at_ s
  | .voterCompare x s0 s1 s2 => execVoterCompare_keeps x s0 s1 s2 s
  | .understudyRejoin x => execUnderstudyRejoin_keeps x s
  | .islandRestartDone x => execIslandRestartDone_keeps x s
  | .islandCheckpointTimer x at_ => execIslandCheckpointTimer_keeps x at_ s
  | .aliveWord at_ => execAliveWord_keeps at_ s
  | .islandASilent at_ => execIslandASilent_keeps at_ s
  | .lockstepMismatch p => execLockstepMismatch_keeps p s
  | .targetedSelfTest u => execTargetedSelfTest_keeps u s
  | .targetedSelfTestDone u pass => execTargetedSelfTestDone_keeps u pass s
  | .rehearsalSegment k at_ => execRehearsalSegment_keeps k at_ s
  | .rehearsalSegmentEnd k detected at_ => execRehearsalSegmentEnd_keeps k detected at_ s
  | .rehearsalStarved k at_ => execRehearsalStarved_keeps k at_ s
  | .signatureReady j => execSignatureReady_keeps j s
  | .secureWdtWarning at_ => execSecureWdtWarning_keeps at_ s
  | .secureWdtExpiry at_ => execSecureWdtExpiry_keeps at_ s
  | .csi2LongPacket p data => execCsi2LongPacket_keeps p data s
  | .csi2FrameStart p at_ => execCsi2FrameStart_keeps p at_ s
  | .csi2FrameEnd p => execCsi2FrameEnd_keeps p s
  | .cameraWindowExpiry c at_ => execCameraWindowExpiry_keeps c at_ s
  | .cameraFrameDone c => execCameraFrameDone_keeps c s
  | .sampleStart e at_ => execSampleStart_keeps e at_ s
  | .sampleEnd e at_ => execSampleEnd_keeps e at_ s
  | .sampleBudgetExpiry e progress at_ => execSampleBudgetExpiry_keeps e progress at_ s
  | .vblankStart h at_ => execVblankStart_keeps h at_ s
  | .lineSend h complete => execLineSend_keeps h complete s
  | .headLinkTrained h => execHeadLinkTrained_keeps h s
  | .kvRefill a => execKvRefill_keeps a s
  | .swapOutComplete a q => execSwapOutComplete_keeps a q s
  | .epochPageRelease a => execEpochPageRelease_keeps a s
  | .canFrameReceive c f at_ => execCanFrameReceive_keeps c f at_ s
  | .ethFrameReceive p k data at_ => execEthFrameReceive_keeps p k data at_ s
  | .minGapExpiry r at_ => execMinGapExpiry_keeps r at_ s
  | .routeStale r at_ => execRouteStale_keeps r at_ s
  | .canBusoffRecovery c => execCanBusoffRecovery_keeps c s
  | .gclEntry p at_ => execGclEntry_keeps p at_ s
  | .capEdge p falling pulseNs at_ => execCapEdge_keeps p falling pulseNs at_ s
  | .ptpSyncReceive dom m at_ => execPtpSyncReceive_keeps dom m at_ s
  | .followSample tb at_ => execFollowSample_keeps tb at_ s
  | .timebaseSafePoint tb at_ => execTimebaseSafePoint_keeps tb at_ s
  | .timebaseHoldover tb at_ => execTimebaseHoldover_keeps tb at_ s
  | .groupSafePointApply g at_ => execGroupSafePointApply_keeps g at_ s
  | .loopSample at_ => execLoopSample_keeps at_ s
  | .descriptorComplete u e => execDescriptorComplete_keeps u e s
  | .swapInComplete a q => execSwapInComplete_keeps a q s
  | .canFrameTransmitted c r at_ => execCanFrameTransmitted_keeps c r at_ s
  | .ethPortLinkChange p up => execEthPortLinkChange_keeps p up s
  | .farLockResponse line r => execFarLockResponse_keeps line r s
  | .domainWakeComplete d => execDomainWakeComplete_keeps d s
  | .cutRequest d => execCutRequest_keeps d s
  | .aonRailRemoval => nomatch hr

end Sys2Proof.Machine
end

section
/-! SUPPORT. Locks that are set stay set (R10, R329, R333, R387, R390): every command that cannot reset the device leads
from what lasts to a lasting part in which no lock is cleared. -/

namespace Sys2Proof.Machine

/-- Every lock set in `l` is set in `m`. -/
def Lasting.LocksHold (l m : Lasting) : Prop :=
  (l.mbxLock = true → m.mbxLock = true) ∧ (l.rangesLocked = true → m.rangesLocked = true) ∧
  (l.wdtLock = true → m.wdtLock = true) ∧ (l.debugLock = true → m.debugLock = true)

theorem Lasting.LocksHold.refl (l : Lasting) : l.LocksHold l := ⟨id, id, id, id⟩

theorem writeReg_locksHold (s : State) (r : RegAddr) (secure : Bool) (v : DWord) :
    s.lasting.LocksHold (writeReg s r secure v).lasting := by
  obtain h | ⟨b, h⟩ | ⟨b, h⟩ := writeReg_lasting_cases s r secure v
  · rw [h]; exact .refl _
  · rw [h]; exact ⟨id, id, Bool.or_eq_true_iff.mpr ∘ .inl, id⟩
  · rw [h]; exact ⟨id, id, id, Bool.or_eq_true_iff.mpr ∘ .inl⟩

/-- Of the six commands that write what lasts, none clears a lock: SHEET_WRITE and PROVISION write none, MBX_LOCK_SET and
DEV_READY only set some, and a write to SEC_DEBUG or SEC_WDT_CTRL keeps a LOCK that is set. -/
theorem exec_locksHold_of_writesLasting (i : Instr) (s : State) (h : WritesLasting i) : Ans.leads (exec i s) s.lasting.LocksHold := by
  cases h with
  | sheetWrite n w =>
    refine Ans.leads_mono (execSheetWrite_leads n w s) ?_
    rintro l (rfl | ⟨sh, rfl⟩) <;> exact ⟨id, id, id, id⟩
  | provision =>
    refine Ans.leads_mono (execProvision_leads s) ?_
    rintro l ⟨slots, rfl⟩
    exact ⟨id, id, id, id⟩
  | mbxLockSet => exact Ans.leads_of_keeps (execMbxLockSet_keeps s) ⟨fun _ => rfl, id, id, id⟩
  | devReady at_ =>
    refine Ans.leads_mono (execDevReady_leads at_ s) ?_
    rintro l (rfl | rfl)
    · exact .refl _
    · exact ⟨fun _ => rfl, fun _ => rfl, fun _ => rfl, id⟩
  | secDebugWrite secure v =>
    exact Ans.leads_of_keeps (writeDebug_lasting s secure v) ⟨id, id, id, Bool.or_eq_true_iff.mpr ∘ .inl⟩
  | registerWrite r secure d =>
    refine Ans.leads_mono (execRegisterWrite_leads r secure d s) ?_
    rintro l (rfl | ⟨v, rfl⟩)
    · exact .refl _
    · exact writeReg_locksHold s r secure v

/-- No command that cannot reset the device clears a lock. -/
theorem exec_locksHold (i : Instr) (s : State) (hr : mayReset i = false) : Ans.leads (exec i s) s.lasting.LocksHold := by
  by_cases hw : WritesLasting i
  · exact exec_locksHold_of_writesLasting i s hw
  · exact Ans.leads_of_keeps (exec_keeps i s hr hw) (.refl _)

/-- Settles O7: thirteen commands alone write what lasts; seven can reset the device, and the other six clear no lock. -/
theorem locksHold : Obligations.LocksHold :=
  fun i s _ hr ht => Ans.of_leads_next (exec_locksHold i s hr) ht

end Sys2Proof.Machine
end

section
/-! SUPPORT. Cue sheets stay safe (R22, R230 to R233, R275, R422): SHEET_WRITE refuses a sheet with a scene that fails, a
reset leaves no sheet, and every other command leaves the sheets as they are. -/

namespace Sys2Proof.Machine

/-! ### What SHEET_WRITE checks -/

theorem sceneRange_none {r : Bytes} (h : sceneRange r = none) :
    20000 ≤ (sceneFrom r).duration ∧ (sceneFrom r).gbps ≤ 942 := by
  unfold sceneRange at h
  split at h
  · cases h
  split at h
  · cases h
  exact ⟨Nat.le_of_not_lt ‹_›, Nat.le_of_not_lt ‹_›⟩

/-- The entries accepted one by one: as many as the header says, each with its fields in range. -/
theorem sheetEntries_ok {raw : Bytes} {k : Nat} {sc : List Scene} (h : sheetEntries raw k = .ok sc) :
    sc.length = k ∧ ∀ x ∈ sc, 20000 ≤ x.duration ∧ x.gbps ≤ 942 := by
  unfold sheetEntries at h
  dsimp only at h
  split at h
  · cases h
  split at h
  · cases h
  · next hr =>
    obtain rfl := Except.ok.inj h
    refine ⟨by simp, fun x hx => ?_⟩
    obtain ⟨p, hp, rfl⟩ := List.mem_map.mp hx
    exact sceneRange_none (Option.map_eq_none_iff.mp (List.findSome?_eq_none_iff.mp hr p hp))

/-- A scene that passes every check of R22, R233, R275 and R422 against the scenes of its sheet. -/
structure ScenePasses (period : Nat) (sc : List Scene) (i : Nat) (x : Scene) : Prop where
  inside : x.start + x.duration ≤ period - period / 10000
  units : x.cores ≠ 0 ∨ x.aes ≠ 0 ∨ x.rfes ≠ 0
  apart : ∀ o ∈ sc.take i, overlap x o = true → sharesUnit x o = false
  lends : x.lending = true → ∃ t, sc[x.lendTo.toNat]? = some t ∧ x.lendTo.toNat ≠ i ∧ overlap x t = true ∧
    t.cls.toNat ≤ 1 ∧ t.lending = false
  label : x.label ≠ 7
  kaf : x.kaf = true → x.lending = false ∧ 2 ≤ x.cls.toNat

theorem scenePasses_of_not_fails {s : State} {period : Nat} {sc : List Scene} {i : Nat} {x : Scene}
    (h : sceneFails s period sc i = false) (hx : sc[i]? = some x) : ScenePasses period sc i x := by
  simp only [sceneFails, hx, Bool.or_eq_false_iff] at h
  obtain ⟨⟨⟨⟨⟨⟨⟨⟨hin, hunits⟩, hapart⟩, -⟩, -⟩, hlend⟩, -⟩, hlabel⟩, hkaf⟩ := h
  constructor
  case inside => exact Nat.le_of_not_lt (of_decide_eq_false hin)
  case units => simpa only [Bool.and_eq_false_iff, beq_eq_false_iff_ne, or_assoc] using hunits
  case apart => simpa using hapart
  case lends =>
    intro hl
    rw [hl, Bool.true_and] at hlend
    split at hlend
    · cases hlend
    · next t ht => exact ⟨t, ht, by simpa [and_assoc] using hlend⟩
  case label => simpa using hlabel
  case kaf => exact fun hk => by simpa [hk, Nat.succ_le_iff] using hkaf

theorem scenePasses_of_firstFailing {s : State} {period : Nat} {sc : List Scene} (h : firstFailing s period sc = none)
    {i : Nat} {x : Scene} (hx : sc[i]? = some x) : ScenePasses period sc i x := by
  have hi : i < sc.length := (List.getElem?_eq_some_iff.mp hx).1
  exact scenePasses_of_not_fails (eq_false_of_ne_true (List.find?_eq_none.mp h i (List.mem_range.mpr hi))) hx

/-- A sheet whose header, entries and scenes pass the checks of SHEET_WRITE is safe. -/
theorem sheetSafe_of_checks {s : State} {period k : Nat} {raw : Bytes} {sc : List Scene}
    (hp : 1000000 ≤ period ∧ period ≤ 200000000) (hk : 1 ≤ k ∧ k ≤ 32) (hsc : sheetEntries raw k = .ok sc)
    (hf : firstFailing s period sc = none) : SheetSafe { period := period, scenes := sc } := by
  obtain ⟨hlen, hrange⟩ := sheetEntries_ok hsc
  have passes {x : Scene} (hx : x ∈ sc) : ∃ i, ScenePasses period sc i x := by
    obtain ⟨i, hi⟩ := List.mem_iff_getElem?.mp hx
    exact ⟨i, scenePasses_of_firstFailing hf hi⟩
  constructor
  case period => exact hp
  case count => rw [hlen]; exact hk
  case length => exact fun x hx => (hrange x hx).1
  case gbps => exact fun x hx => (hrange x hx).2
  case inside => exact fun x hx => (passes hx).elim fun _ h => h.inside
  case units => exact fun x hx => (passes hx).elim fun _ h => h.units
  case label => exact fun x hx => (passes hx).elim fun _ h => h.label
  case kaf => exact fun x hx => (passes hx).elim fun _ h => h.kaf
  case lends => exact fun i x hx => (scenePasses_of_firstFailing hf hx).lends
  case apart =>
    intro i j x y hij hx hy ho
    have hmem : x ∈ sc.take j := List.mem_iff_getElem?.mpr ⟨i, by rw [List.getElem?_take_of_lt hij]; exact hx⟩
    simpa [sharesUnit, and_assoc] using (scenePasses_of_firstFailing hf hy).apart x hmem ho

/-! ### What each command does to the sheets -/

theorem sheets_of_lasting {s t : State} (h : t.lasting = s.lasting) : t.sheets = s.sheets := congrArg Lasting.sheets h

/-- Every sheet written in the banks of `t` is safe. -/
def BanksSafe (t : Tbl (Option Sheet)) : Prop := ∀ (b : Nat) (sh : Sheet), tget none t b = some sh → SheetSafe sh

theorem banksSafe_nil : BanksSafe [] := fun _ _ h => nomatch h

theorem BanksSafe.tset {t : Tbl (Option Sheet)} {sh : Sheet} (ht : BanksSafe t) (hs : SheetSafe sh) (b : Nat) :
    BanksSafe (tset none t b (some sh)) := by
  intro c x hx
  rw [tget_tset] at hx
  split at hx
  · obtain rfl := Option.some.inj hx; exact hs
  · exact ht c x hx

/-- SHEET_WRITE puts no sheet into a bank but one that is safe. -/
theorem execSheetWrite_banksSafe (n : SliceId) (w : Line) (s : State) (hs : BanksSafe s.sheets) :
    (execSheetWrite n w s).leads fun l => BanksSafe l.sheets := by
  refine runCmd_leads hs fun a f ha => ?_
  have hsa : BanksSafe a.sheets := (sheets_of_lasting ha).symm ▸ hs
  unfold sheetWrite
  dsimp only
  split
  · trivial
  refine withBytes_leads hsa fun b hdr hb => ?_
  have hsb : BanksSafe b.sheets := (sheets_of_lasting hb).symm ▸ hsa
  split
  · trivial
  split
  · trivial
  split
  · trivial
  next hp hk =>
  refine withBytes_leads hsb fun t raw ht => ?_
  have hst : BanksSafe t.sheets := (sheets_of_lasting ht).symm ▸ hsb
  split
  · trivial
  next sc hsc =>
  split
  · trivial
  next hf =>
  split
  · trivial
  exact hst.tset (sheetSafe_of_checks (by omega) (by omega) hsc hf) _

theorem enterSleep_sheets (s : State) : (enterSleep s).sheets = [] := by
  simp only [enterSleep, State.upPwr_sheets, State.upSaf_sheets, State.emit_sheets]
  rw [sheets_of_lasting (lowerRails_lasting _)]
  rfl

/-- The move to SLEEP leaves no sheet; a hold that refuses it leaves the sheets as they are. -/
theorem trySleep_sheets (s : State) : (trySleep s).sheets = s.sheets ∨ (trySleep s).sheets = [] := by
  unfold trySleep
  split
  · exact .inl rfl
  · exact .inr (enterSleep_sheets s)

theorem powerSetParked_sheets (s : State) (n : SliceId) (f : Flight) (w : Line) :
    (powerSetParked s n f w).leads fun l => l.sheets = s.sheets ∨ l.sheets = [] := by
  unfold powerSetParked
  split
  · trivial
  split
  · exact .inl rfl
  split
  · exact .inl rfl
  split
  · trivial
  have ht : (sideBand (complete (park s) n f 0 0 0) 6 1).sheets = s.sheets := sheets_of_lasting (by simp)
  dsimp only [Res.leads]
  split
  · rw [← ht]; exact trySleep_sheets _
  · exact .inl ht

/-- A command that can reset the device leaves no sheet, or the sheets as they are. -/
theorem exec_sheets_of_mayReset (i : Instr) (s : State) (h : mayReset i = true) :
    Ans.leads (exec i s) fun l => l.sheets = s.sheets ∨ l.sheets = [] := by
  cases i with
  | powerSetParked n w =>
    refine runCmd_leads (.inl rfl) fun t f ht => ?_
    rw [← sheets_of_lasting ht]
    exact powerSetParked_sheets t n f w
  | aonPowerOn =>
    refine doWhen_leads (.inl rfl) (.inr ?_)
    rw [raiseEn_lasting]; rfl
  | porstNLow => exact doWhen_leads (.inl rfl) (.inr rfl)
  | chipReset c =>
    refine doWhen_leads (.inl rfl) (.inr ?_)
    rw [startIfReady_lasting]; rfl
  | refclkLoss =>
    refine doWhen_leads (.inl rfl) ?_
    split
    · exact .inl rfl
    · exact .inr rfl
  | sleepRequest =>
    refine doWhen_leads (.inl rfl) ?_
    split
    · exact trySleep_sheets s
    · exact .inl rfl
  | aonRailRemoval => exact doWhen_leads (.inl rfl) (.inr rfl)
  | _ => cases h

/-- Every command leaves safe sheets where it found safe sheets. -/
theorem exec_banksSafe (i : Instr) (s : State) (hs : BanksSafe s.sheets) : Ans.leads (exec i s) fun l => BanksSafe l.sheets := by
  by_cases hr : mayReset i = true
  · refine Ans.leads_mono (exec_sheets_of_mayReset i s hr) ?_
    rintro l (h | h) <;> rw [h]
    · exact hs
    · exact banksSafe_nil
  by_cases hw : WritesLasting i
  case neg => exact Ans.leads_of_keeps (exec_keeps i s (eq_false_of_ne_true hr) hw) hs
  cases hw with
  | sheetWrite n w => exact execSheetWrite_banksSafe n w s hs
  | provision => exact Ans.leads_mono (execProvision_leads s) fun l ⟨_, h⟩ => h ▸ hs
  | mbxLockSet => exact Ans.leads_of_keeps (execMbxLockSet_keeps s) hs
  | devReady at_ => exact Ans.leads_mono (execDevReady_leads at_ s) fun l h => h.elim (· ▸ hs) (· ▸ hs)
  | secDebugWrite secure v => exact Ans.leads_of_keeps (writeDebug_lasting s secure v) hs
  | registerWrite r secure d =>
    refine Ans.leads_mono (execRegisterWrite_leads r secure d s) ?_
    rintro l (rfl | ⟨v, rfl⟩)
    · exact hs
    · obtain h | ⟨b, h⟩ | ⟨b, h⟩ := writeReg_lasting_cases s r secure v <;> rw [h] <;> exact hs

/-- Settles O5: only SHEET_WRITE writes a sheet, and it writes one whose scenes have passed every check. -/
theorem sheetsStaySafe : Obligations.SheetsStaySafe := by
  intro s t hs ht
  unfold step at ht
  split at ht
  · obtain rfl := Host.Outcome.next.inj ht; exact hs
  · next c rest _ => exact Ans.of_leads_next (exec_banksSafe c { s with pending := rest } hs) ht

end Sys2Proof.Machine
end

section
/-! SUPPORT. The commands that write the shadow of a staged group (R33 to R38, R354, R355). -/

namespace Sys2Proof.Machine

variable {a : State} {n : SliceId} {w : Line} {g detail off len : Nat} {x : BitVec 4608} {bs : Bytes} {gives : Res → Prop}

/-! ### What the bodies share -/

theorem writeShadow_locked (h : locked a g = true) : writeShadow a g detail x = .err 6 detail := if_pos h

theorem writeShadow_free (h : locked a g = false) :
    writeShadow a g detail x = .ok (a.upGroup g (fun y => { y with shadow := x, written := true })) 0 := if_neg (by simp [h])

/-- A body that ends in the write of a shadow answers BUSY while a commit locks the group, and otherwise writes it. -/
theorem puts_of_writeShadow {r : Res} (hr : r = writeShadow a g detail x) (hg : ∀ q, r = q → gives q) :
    (locked a g = true → gives (.err 6 detail)) ∧
    (locked a g = false → gives (.ok (a.upGroup g (fun y => { y with shadow := x, written := true })) 0)) :=
  ⟨fun h => hg _ (hr.trans (writeShadow_locked h)), fun h => hg _ (hr.trans (writeShadow_free h))⟩

theorem withOwned_of {kind idx count : Nat} {k : Res} (hi : idx < count) (ho : ownerSlice a kind (if kind = 2 then idx / 256 else idx) = n) :
    withOwned a n kind idx count off k = k := by
  unfold withOwned
  rw [if_neg (Nat.not_le.mpr hi), if_neg (not_not_intro ho)]

theorem writeSet_of {err : BitVec 4608 → Option (Bool × Nat)} (h : StructAt a n w 16 (fld w 16 8) len bs)
    (he : err (bytesAtOff bs 0 0) = none) :
    writeSet a n w g detail len err = writeShadow (structRead a n (fld w 16 8) len) g detail (bytesAtOff bs 0 0) := by
  unfold writeSet
  rw [withStruct_of h]
  simp only [he]

theorem patchSet_of {err : BitVec 512 → Option (Bool × Nat)} (h : StructAt a n w 16 (fld w 16 8) 64 bs)
    (he : err (BitVec.ofNat 512 (leNat bs)) = none) :
    patchSet a n w g off err =
      let t := structRead a n (fld w 16 8) 64
      writeShadow t g 8 (bytesAtOff bs off (t.group g).shadow) := by
  unfold patchSet
  rw [withStruct_of h]
  simp only [he]

/-- Settles O34: the body of each row, past the checks that the statement grants, writes the shadow. -/
theorem shadowCommands : Obligations.ShadowCommands := by
  refine ⟨onRow (fun _ _ _ => rfl) (by decide) ?cueSet, onRow (fun _ _ _ => rfl) (by decide) ?cacheSet,
    onRow (fun _ _ _ => rfl) (by decide) ?twinMode, onRow (fun _ _ _ => rfl) (by decide) ?safetyPolicy,
    onRow (fun _ _ _ => rfl) (by decide) ?timebaseSet, onRow (fun _ _ _ => rfl) (by decide) ?headSet,
    onRow (fun _ _ _ => rfl) (by decide) ?layerSet, onRow (fun _ _ _ => rfl) (by decide) ?camSet,
    onRow (fun _ _ _ => rfl) (by decide) ?loopSet, onRow (fun _ _ _ => rfl) (by decide) ?routeSet⟩
  case cueSet =>
    intro a n w f gives hg
    refine ⟨fun hp => hg _ rfl (if_pos hp), fun hp hp' hb => hg _ rfl ?badBeat,
      fun hp hp' hb hb' hk ht hbank => puts_of_writeShadow ?put (fun r => hg r rfl)⟩
    case badBeat => exact (if_neg (by omega)).trans (if_pos hb)
    case put => exact (if_neg (by omega)).trans ((if_neg (by unfold slewStep; omega)).trans ((if_neg (by omega)).trans (if_neg (by omega))))
  case cacheSet =>
    intro a n w f gives hg bs h
    exact puts_of_writeShadow (withStruct_of h) (fun r => hg r rfl)
  case twinMode =>
    intro a n w f gives hg hm hp
    exact puts_of_writeShadow ((if_neg (by omega)).trans (if_neg (fun h => h.2 (hp h.1)))) (fun r => hg r rfl)
  case safetyPolicy =>
    intro a n w f gives hg bs h _ he
    exact puts_of_writeShadow (writeSet_of h he) (fun r => hg r rfl)
  case timebaseSet =>
    intro a n w f gives hg bs hk h t hs he
    refine puts_of_writeShadow ((if_neg (by omega)).trans ((withStruct_of h).trans ?_)) (fun r => hg r rfl)
    have hn : ¬ (fld w 8 1 = 3 ∧ inRange 1 (tbSource (bytesAtOff bs 0 0)) 3 = true) := fun h3 => Bool.false_ne_true ((hs h3.1).symm.trans h3.2)
    exact (if_neg hn).trans (by rw [he])
  case headSet =>
    intro a n w f gives hg bs hk ho h t he
    exact puts_of_writeShadow ((withOwned_of hk ho).trans (patchSet_of h he)) (fun r => hg r rfl)
  case layerSet =>
    intro a n w f gives hg bs hk ho hl h t he
    exact puts_of_writeShadow ((withOwned_of hk ho).trans ((if_neg (by omega)).trans (patchSet_of h he))) (fun r => hg r rfl)
  case camSet =>
    intro a n w f gives hg bs hk ho h t he
    exact puts_of_writeShadow ((withOwned_of hk ho).trans (writeSet_of (err := fun x => camErr (camOf x)) h he)) (fun r => hg r rfl)
  case loopSet =>
    intro a n w f gives hg bs hk ho h t he
    exact puts_of_writeShadow ((withOwned_of hk ho).trans (writeSet_of h he)) (fun r => hg r rfl)
  case routeSet =>
    intro a n w f gives hg bs rs h1 h2 h3 hk ho h t hrs
    have read (r : Res) := fun e => hg r rfl ((if_neg (by omega)).trans ((withOwned_of hk ho).trans ((withStruct_of h).trans e)))
    refine ⟨fun hl => read _ ?_, fun hl => read _ ?_⟩
    · rw [hrs]; exact if_pos (by simpa using hl)
    · rw [hrs]; exact if_neg (by simpa using hl)

end Sys2Proof.Machine
end

section
/-! SUPPORT. The commands of the cue (R17, R18, R22, R230 to R233, R359). -/

namespace Sys2Proof.Machine

variable {a : State} {n : SliceId} {w : Line} {f : Flight} {h : Bytes}

/-! ### SHEET_WRITE -/

/-- SHEET_WRITE with a bank that exists and a header that can be read, whose reserved bytes are zero. -/
theorem sheetWrite_header (hb : fld w 8 1 ≤ 3) (hh : StructAt a n w 16 (fld w 16 8) 64 h) (hr : structReserved h [(0, 5)] = none) :
    let t := structRead a n (fld w 16 8) 64
    let period := fieldOf h 0 4
    let k := byteAt h 4
    (period < 1000000 ∨ 200000000 < period → sheetWrite a n f w = .err 3 0x8000) ∧
    (1000000 ≤ period → period ≤ 200000000 → k < 1 ∨ 32 < k → sheetWrite a n f w = .err 3 0x8004) ∧
    (∀ raw sc, 1000000 ≤ period → period ≤ 200000000 → 1 ≤ k → k ≤ 32 →
      StructAt t n w 16 (fld w 16 8 + 64) (64 * k) raw → sheetEntries raw k = .ok sc →
      let u := structRead t n (fld w 16 8 + 64) (64 * k)
      (∀ i, firstFailing u period sc = some i → sheetWrite a n f w = .err 9 i) ∧
      (firstFailing u period sc = none → bankBusy u (fld w 8 1) = true → sheetWrite a n f w = .err 6 8) ∧
      (firstFailing u period sc = none → bankBusy u (fld w 8 1) = false →
        sheetWrite a n f w = .ok { u with sheets := tset none u.sheets (fld w 8 1) (some { period := period, scenes := sc }) } 0)) := by
  unfold sheetWrite
  dsimp only
  rw [if_neg (by omega), withStruct_of hh]
  simp only [hr]
  refine ⟨fun hp => if_pos hp, fun hp hp' hk => ?_, fun raw sc hp hp' hk hk' hraw hsc => ?_⟩
  · exact (if_neg (by omega)).trans (if_pos hk)
  rw [if_neg (by omega), if_neg (by omega), withBytes_of hraw]
  simp only [hsc]
  refine ⟨fun i hi => ?_, fun hi hbusy => ?_, fun hi hbusy => ?_⟩
  · rw [hi]; rfl
  · rw [hi]; exact if_pos hbusy
  · rw [hi]; exact if_neg (by simp [hbusy])

/-- Settles O32: each outcome follows the checks of its body in their order. -/
theorem cueCommands : Obligations.CueCommands := by
  refine ⟨onRow (fun _ _ _ => rfl) (by decide) ?write, onRow (fun _ _ _ => rfl) (by decide) ?start, onRow (fun _ _ _ => rfl) (by decide) ?stop⟩
  case write =>
    intro a n w f gives hg h hb hh t hr period k
    have body {r : Res} (e : sheetWrite a n f w = r) : gives r := hg r rfl e
    obtain ⟨hperiod, hcount, hscenes⟩ := sheetWrite_header (f := f) hb hh hr
    refine ⟨fun hp => body (hperiod hp), fun hp hp' hk => body (hcount hp hp' hk), ?_⟩
    intro raw sc hp hp' hk hk' hraw u hsc
    obtain ⟨hfail, hbusy, hok⟩ := hscenes raw sc hp hp' hk hk' hraw hsc
    exact ⟨fun i hi => body (hfail i hi), fun hi hx => body (hbusy hi hx), fun hi hx => body (hok hi hx)⟩
  case start =>
    intro a n w f gives hg
    refine ⟨fun hf => hg _ rfl (if_pos hf), fun hf hr => hg _ rfl ((if_neg (by simp [hf])).trans (if_pos hr)), fun hf hr hs => ?_⟩
    have idle (r : Res) := fun e => hg r rfl ((if_neg (by simp [hf])).trans ((if_neg (by simp [hr, hs])).trans e))
    refine ⟨fun hc => idle _ (by rw [hc]; rfl), fun c hc hn => idle _ ?_, fun c sh hc hsh => idle _ ?_⟩
    · rw [hc]; exact if_pos (by simp [hn])
    · rw [hc]; exact if_neg (by simp [hsh])
  case stop =>
    intro a n w f gives hg
    refine ⟨fun hs => hg _ rfl (if_pos hs), fun hs hr => hg _ rfl ?_, fun hs hr => hg _ rfl ?_⟩
    · exact (if_neg (by simp [hs])).trans (if_pos (by simp [hr]))
    · exact (if_neg (by simp [hs])).trans (if_neg (by simp [hr]))

end Sys2Proof.Machine
end

section
/-! SUPPORT. COMMIT and CANCEL (R34 to R38, R354, R355). -/

namespace Sys2Proof.Machine

variable {a : State} {n : SliceId} {f : Flight} {w : Line}

/-- What is stated of COMMIT's fields: MODE 0 or 1, 1 to 10 groups, and zeros in the words past them. -/
structure CommitFields (w : Line) : Prop where
  mode : fld w 8 1 ≤ 1
  least : 1 ≤ fld w 9 1
  most : fld w 9 1 ≤ 10
  rest : ∀ i < 10, fld w 9 1 ≤ i → fld w (24 + 4 * i) 4 = 0

theorem CommitFields.no_reserved (hf : CommitFields w) :
    (List.range 10).find? (fun i => decide (fld w 9 1 ≤ i) && fld w (24 + 4 * i) 4 != 0) = none := by
  rw [List.find?_eq_none]
  intro i hi h
  simp only [Bool.and_eq_true, decide_eq_true_eq, bne_iff_ne] at h
  exact h.2 (hf.rest i (List.mem_range.mp hi) h.1)

/-- COMMIT answers for its first group that fails, then for its target, then for the whole set, and accepts what passes. -/
theorem commitBody_of_fields (hf : CommitFields w) :
    let items := (commitGroups w).map (fun g => (g, (a.group g).shadow))
    (∀ e, commitErr a n w = some e → commitBody a n f w = .err e.1 e.2) ∧
    (commitErr a n w = none → commitBody a n f w =
      if fld w 16 8 ≠ 0 ∧ (fld w 8 1 = 0 ∨ fld w 16 8 < a.cue.count.toNat + 2) then .err 3 16
      else if commitFits a items then acceptCommit a n f w items else .err 9 0) := by
  have hz := hf.no_reserved
  obtain ⟨hmode, hleast, hmost, -⟩ := hf
  unfold commitBody
  simp only [hz]
  rw [if_neg (by omega), if_neg (by omega)]
  exact ⟨fun e he => by rw [he], fun he => by rw [he]; rfl⟩

/-- The commit that COMMIT makes pending, with the sets of its items. -/
def pendingCommit (a : State) (n : SliceId) (f : Flight) (w : Line) (items : List (Nat × BitVec 4608)) : Commit :=
  { slice := n, groups := items.map (fun p => BitVec.ofNat 32 p.1), sets := items.map (·.2), atCue := fld w 8 1 == 1, due := dueCount a,
    target := if fld w 16 8 = 0 then none else some (BitVec.ofNat 64 (fld w 16 8)), twinAgreed := false, tag := f.tag, pos := f.pos, at_ := a.now }

/-- An accepted commit waits for its edge, for its groups' safe points, or for the partner's agreement. -/
theorem acceptCommit_of (items : List (Nat × BitVec 4608)) :
    let c := pendingCommit a n f w items
    let t : State := { a with commits := a.commits ++ [c] }
    (fld w 16 8 = 0 → fld w 8 1 = 1 → acceptCommit a n f w items = .ok t (payload [(0, 8, c.due.toNat)])) ∧
    (fld w 16 8 = 0 → fld w 8 1 = 0 → acceptCommit a n f w items = .wait t .commit) ∧
    (fld w 16 8 ≠ 0 → paired a = false ∨ a.fab.twinUp = false → acceptCommit a n f w items = .err 12 0) ∧
    (fld w 16 8 ≠ 0 → paired a = true → a.fab.twinUp = true → acceptCommit a n f w items = .wait ((t.upFab (fun x => { x with
      ops := x.ops ++ [{ line := commitLine n f, requested := a.now, pos := f.pos, slice := n }] })).emit (.farRequest (commitLine n f))) .twinAgree) := by
  refine ⟨fun h0 hm => ?_, fun h0 hm => ?_, fun h0 hp => ?_, fun h0 hp hu => ?_⟩
  · exact (if_neg (not_not_intro h0)).trans (if_pos (by simp [hm]))
  · exact (if_neg (not_not_intro h0)).trans (if_neg (by simp [hm]))
  · exact (if_pos h0).trans (if_pos (by simpa using hp))
  · exact (if_pos h0).trans (if_neg (by simp [hp, hu]))

/-- Settles O35: COMMIT by the order of its checks, CANCEL by the commit that it finds. -/
theorem commitCommands : Obligations.CommitCommands := by
  refine ⟨onRow (fun _ _ _ => rfl) (by decide) ?commit, onRow (fun _ _ _ => rfl) (by decide) ?cancel⟩
  case commit =>
    intro a n w f gives hg items hm hl hu hz
    have body {r : Res} (e : commitBody a n f w = r) : gives r := hg r rfl e
    obtain ⟨herr, hpass⟩ := commitBody_of_fields (a := a) (n := n) (f := f) ⟨hm, hl, hu, hz⟩
    refine ⟨fun e he => body (herr e he), fun he h0 ht => body ((hpass he).trans (if_pos ⟨h0, ht⟩)), fun he ht => ?_⟩
    have target : ¬ (fld w 16 8 ≠ 0 ∧ (fld w 8 1 = 0 ∨ fld w 16 8 < a.cue.count.toNat + 2)) := by
      rintro ⟨h0, h⟩
      have := ht h0
      omega
    refine ⟨fun hfit => body ((hpass he).trans ((if_neg target).trans (if_neg (by simp [items, hfit])))), fun hfit => ?_⟩
    have accepted {r : Res} (e : acceptCommit a n f w items = r) : gives r :=
      body ((hpass he).trans ((if_neg target).trans ((if_pos hfit).trans e)))
    obtain ⟨hcue, himm, htwin, hagree⟩ := acceptCommit_of (a := a) (n := n) (f := f) (w := w) items
    exact ⟨fun h0 h1 => accepted (hcue h0 h1), fun h0 h1 => accepted (himm h0 h1), fun h0 h1 => accepted (htwin h0 h1),
      fun h0 h1 h2 => accepted (hagree h0 h1 h2)⟩
  case cancel =>
    intro a n w f gives hg
    refine ⟨fun e he => hg _ rfl (by simp only [he]),
      fun he => ⟨fun hh => hg _ rfl ?none, fun c hh hc => hg _ rfl ?drop, fun c hh hc => hg _ rfl ?late⟩⟩
    case none => simp only [he, hh]; rfl
    case drop => simp only [he, hh, hc, if_true]
    case late => simp only [he, hh, hc]; rfl

end Sys2Proof.Machine
end

section
/-! SUPPORT. Events (log entry 1): a row has its effect when its condition holds, and otherwise leaves the state. -/

namespace Sys2Proof.Machine

theorem doWhen_true {c : Bool} {s t : State} (h : c = true) : doWhen c s t = .next t := by subst h; rfl

theorem doWhen_false {c : Bool} {s t : State} (h : c = false) : doWhen c s t = .next s := by subst h; rfl

/-- An event whose condition holds, with an effect that is known to be `u`. -/
theorem doWhen_next {c : Bool} {s t u : State} (h : c = true) (hu : t = u) : doWhen c s t = .next u := hu ▸ doWhen_true h

end Sys2Proof.Machine
end

section
/-! SUPPORT. The events of the cue, row by row (R17 to R27, R238, R240, R244, R424, R451). -/

namespace Sys2Proof.Machine

variable {s : State} {at_ : Nat} {i : SceneId} {sc : Scene}

/-- The edge that is planned, at which a stop takes effect after step 2 of Table 1-4. -/
theorem cueEdge_planned (h : s.cue.running = true ∨ s.cue.starting = true) (ht : at_ = s.cue.next) :
    exec (.cueEdge at_) s = .next (checkpoint .b (checkpoint .a
      (if s.cue.stopping = true then leadFrame (restartWindows (cueStopped (edgeStart (s.at_ at_)))) true
       else edgeRun (edgeStart (s.at_ at_)) (!s.cue.running)))) :=
  doWhen_true (by simpa [ht] using h)

theorem cueEdge_unplanned (h : (s.cue.running = false ∧ s.cue.starting = false) ∨ at_ ≠ s.cue.next) : exec (.cueEdge at_) s = .next s := by
  refine doWhen_false ?_
  obtain ⟨hr, hs⟩ | ht := h
  · rw [hr, hs]; rfl
  · rw [beq_eq_false_iff_ne.mpr ht, Bool.and_false]

/-- The beat that is due. -/
theorem beatStart_due (hr : s.cue.running = true) (hb : s.cue.beat ≠ 0) (hi : s.cue.beatIdx < beatCount s)
    (ht : at_ = s.cue.last + s.cue.beatIdx * s.cue.beat) :
    exec (.beatStart at_) s = .next (sendPeriodic ((s.at_ at_).upCue (fun c => { c with beatIdx := s.cue.beatIdx + 1 })) s.cue.beatIdx) :=
  doWhen_true (by simp [hr, hb, hi, ht])

theorem beatStart_other (h : beatCount s ≤ s.cue.beatIdx ∨ at_ ≠ s.cue.last + s.cue.beatIdx * s.cue.beat) : exec (.beatStart at_) s = .next s := by
  refine doWhen_false ?_
  obtain h | h := h
  · simp [Nat.not_lt.mpr h]
  · simp [h]

/-- The known-answer runs of a scene that are due at its start. -/
theorem sceneOpen_start (hs : sceneOf s i = some sc) (hr : s.cue.running = true) (ht : at_ = s.cue.last + sc.start) :
    let t := if sc.kaf then (s.at_ at_).saf.kafs.zipIdx.foldl (queueKaf i) (s.at_ at_) else s.at_ at_
    exec (.sceneOpen i at_) s = .next (placeAll (t.jobs.length + 1) t i) := by
  change execSceneOpen i at_ s = _
  unfold execSceneOpen
  rw [hs]
  exact doWhen_true (by simp [hr, ht])

theorem sceneClose_end (hs : sceneOf s i = some sc) (hr : s.cue.running = true) (ht : at_ = s.cue.last + sc.start + sc.duration) :
    let t := closeScene (s.at_ at_) i
    exec (.sceneClose i at_) s = .next ((t.jobs.filter (fun j => ofScene t i j)).foldl dropKaf t) := by
  change execSceneClose i at_ s = _
  unfold execSceneClose
  rw [hs]
  exact doWhen_true (by simp [hr, ht])

theorem sceneOpen_stopped (hr : s.cue.running = false) : exec (.sceneOpen i at_) s = .next s := by
  change execSceneOpen i at_ s = _
  unfold execSceneOpen
  split
  · rfl
  · exact doWhen_false (by simp [hr])

theorem sceneClose_stopped (hr : s.cue.running = false) : exec (.sceneClose i at_) s = .next s := by
  change execSceneClose i at_ s = _
  unfold execSceneClose
  split
  · rfl
  · exact doWhen_false (by simp [hr])

/-- Settles O45: each event of the cue by the lemma of its row. -/
theorem cueEvents : Obligations.CueEvents := by
  refine ⟨fun s at_ => ⟨cueEdge_unplanned, fun h ht => ⟨fun hs => ?stop, fun hs => ?run⟩, fun h => ?count, fun k h => ?adopted⟩,
    fun s at_ => beatStart_due, fun s at_ => beatStart_other,
    fun s i sc at_ hs hr => ⟨sceneOpen_start hs hr, sceneClose_end hs hr⟩, fun s i at_ hr => ⟨sceneOpen_stopped hr, sceneClose_stopped hr⟩⟩
  case stop => rw [cueEdge_planned h ht, if_pos hs]
  case run => rw [cueEdge_planned h ht, if_neg (Bool.not_eq_true _ ▸ hs)]
  case count => rw [edgeCount, h, Option.getD_none]
  case adopted => rw [edgeCount, h, Option.getD_some]

end Sys2Proof.Machine
end

section
/-! SUPPORT. The audit of each pool of Table 1-6 (R41, R42, R257, R300, R301). -/

namespace Sys2Proof.Machine

variable {s : State}

/-- The audit of pool r is noted, so that this edge makes it once (R41). -/
def auditNoted (s : State) (r : AuditReport) : State := s.upCue (fun c => { c with audited := c.audited.map (auditKey r :: ·) })

theorem slotTotal_auditNoted (r : AuditReport) (q : SlotPool) : slotTotal (auditNoted s r) q = slotTotal s q := by
  cases q <;> rfl

theorem slotStaged_auditNoted (r : AuditReport) (q : SlotPool) : slotStaged (auditNoted s r) q = slotStaged s q := by
  cases q <;> rfl

theorem conservationAudit_notDue {r : AuditReport} (h : auditDue s r = false) : exec (.conservationAudit r) s = .next s :=
  if_pos (by simp [h])

/-! ### What the audit of each pool answers -/

theorem conservationAudit_sync {c : CtrId} (h : auditDue s (.sync c) = true) :
    let x := s.ctr c
    let ledger := x.initial + x.added - x.consumed
    exec (.conservationAudit (.sync c)) s = .next (if x.dead = true ∨ x.value.toNat ≠ ledger ∨ x.issued ≠ x.applied + x.flight.length
      then auditFault (auditNoted s (.sync c)) .a 3 c.toNat ledger x.value.toNat else auditNoted s (.sync c)) :=
  if_neg (not_not_intro h)

theorem conservationAudit_kvPages {a : AeId} (h : auditDue s (.kvPages a) = true) :
    exec (.conservationAudit (.kvPages a)) s = .next (if (poolFrames (s.ae a)).length ≠ (s.ae a).total
      then auditFault (auditNoted s (.kvPages a)) .a 4 a.toNat (s.ae a).total (poolFrames (s.ae a)).length else auditNoted s (.kvPages a)) :=
  if_neg (not_not_intro h)

theorem conservationAudit_buffers {q : SlotPool} {held flight : Nat} (h : auditDue s (.buffers q held flight) = true) :
    exec (.conservationAudit (.buffers q held flight)) s = .next (if slotStaged s q + held + flight ≠ slotTotal s q
      then auditFault (auditNoted s (.buffers q held flight)) .b 2 (slotIndex q) (slotTotal s q) (slotStaged s q + held + flight)
      else auditNoted s (.buffers q held flight)) := by
  rw [← slotTotal_auditNoted (.buffers q held flight), ← slotStaged_auditNoted (.buffers q held flight)]
  exact if_neg (not_not_intro h)

theorem conservationAudit_bandwidth {k : Nat} (h : auditDue s (.bandwidth k) = true) :
    let x := tget {} s.mem.acct k
    exec (.conservationAudit (.bandwidth k)) s = .next (if x.tokens + x.drawn ≠ x.issued
      then auditFault (auditNoted s (.bandwidth k)) .a 5 k x.issued (x.tokens + x.drawn) else auditNoted s (.bandwidth k)) :=
  if_neg (not_not_intro h)

theorem conservationAudit_tags {p : Fin 6} {free used : Nat} (h : auditDue s (.tags p free used) = true) :
    exec (.conservationAudit (.tags p free used)) s = .next (if free + used ≠ poolSize p ∨ used ≠ (poolTxns s p).length
      then auditFault (auditNoted s (.tags p free used)) .a 6 p.val (poolSize p) (free + (poolTxns s p).length)
      else auditNoted s (.tags p free used)) :=
  if_neg (not_not_intro h)

theorem conservationAudit_twinLink {req : Bool} {x : LoopRec} (h : auditDue s (.twinLink req x) = true) :
    let key := if req then 1000 else 1001
    exec (.conservationAudit (.twinLink req x)) s = .next (auditLoop (auditNoted s (.twinLink req x)) .b key x (retrainTwin key)) :=
  if_neg (not_not_intro h)

theorem conservationAudit_dieLink {m : ModId} {vc : BitVec 2} {x : LoopRec} (h : auditDue s (.dieLink m vc x) = true) :
    exec (.conservationAudit (.dieLink m vc x)) s = .next (auditLoop (auditNoted s (.dieLink m vc x)) (if m.die = .wings then .b else .a)
      (4 * modKey m + vc.toNat) x (fun s => startRetrain s m true)) :=
  if_neg (not_not_intro h)

/-! ### Credit loops (R43, R300) -/

/-- A loop that agrees takes the transmitter's counts from its record; one that does not is reported and retrains. -/
theorem auditLoop_of {i : IslandId} {key : Nat} {x : LoopRec} {y : CreditLoop} {again : State → State} (h : tget none s.fab.credits key = some y) :
    (loopSum x = y.total → auditLoop s i key x again =
      s.upFab (fun f => { f with credits := tset none f.credits key (some { y with held := x.h, ct := x.ct }) })) ∧
    (loopSum x ≠ y.total → auditLoop s i key x again = again (auditFault s i 1 key y.total (loopSum x))) := by
  unfold auditLoop
  rw [h]
  exact ⟨fun hs => if_pos hs, fun hs => if_neg hs⟩

/-- An audit that leads to `fault` where two counts differ leads to `ok` where they agree. -/
theorem agrees_or_reports {k total : Nat} {ok fault : State} :
    (k = total → (.next (if k ≠ total then fault else ok) : Ans) = .next ok) ∧
    (k ≠ total → (.next (if k ≠ total then fault else ok) : Ans) = .next fault) :=
  ⟨fun h => congrArg _ (if_neg (not_not_intro h)), fun h => congrArg _ (if_pos h)⟩

/-- Settles O46: each pool by the lemma of its audit. -/
theorem conservationAudits : Obligations.ConservationAudits := by
  intro s
  refine ⟨fun r => conservationAudit_notDue, fun c h => ?sync, fun a h => ?kvPages, fun q held flight h => ?buffers,
    fun k h => ?bandwidth, fun p free used h => ?tags, fun req x y => ?twinLink, fun m vc x y => ?dieLink⟩
  case sync =>
    dsimp only
    rw [conservationAudit_sync h]
    exact ⟨fun hd hv hi => congrArg _ (if_neg (by simp [hd, hv, hi])), fun hx => congrArg _ (if_pos hx)⟩
  case kvPages => rw [conservationAudit_kvPages h]; exact agrees_or_reports
  case buffers => rw [conservationAudit_buffers h]; exact agrees_or_reports
  case bandwidth => dsimp only; rw [conservationAudit_bandwidth h]; exact agrees_or_reports
  case tags =>
    rw [conservationAudit_tags h]
    exact ⟨fun hf hu => congrArg _ (if_neg (by simp [← hf, ← hu])), fun hx => congrArg _ (if_pos hx)⟩
  case twinLink =>
    intro key r h hy
    rw [conservationAudit_twinLink h]
    exact (auditLoop_of (s := auditNoted s r) hy).imp (fun g hs => congrArg _ (g hs)) (fun g hs => congrArg _ (g hs))
  case dieLink =>
    intro key r h hy
    rw [conservationAudit_dieLink h]
    exact (auditLoop_of (s := auditNoted s r) hy).imp (fun g hs => congrArg _ (g hs)) (fun g hs => congrArg _ (g hs))

end Sys2Proof.Machine
end

section
/-! SUPPORT. The events of the time unit and of the control loops, row by row (R21, R34, R436 to R442, R459 to R464). -/

namespace Sys2Proof.Machine

variable {s : State} {at_ : Nat}

/-! ### Samples and captures (R435, R438, R442) -/

theorem ptpSyncReceive_unmatched {dom : Fin 2} {m : PtpSync} (h : tget [] s.net.syncRx (syncKey m.port.val dom.val) = []) :
    exec (.ptpSyncReceive dom m at_) s = .next s := by
  change execPtpSyncReceive dom m at_ s = _
  unfold execPtpSyncReceive
  rw [h]
  rfl

theorem ptpSyncReceive_matched {dom : Fin 2} {m : PtpSync} (h : tget [] s.net.syncRx (syncKey m.port.val dom.val) ≠ []) :
    let rx := (tget [] s.net.syncRx (syncKey m.port.val dom.val)).getD dom.val 0
    exec (.ptpSyncReceive dom m at_) s =
      .next (sampleOf (relaySync (s.at_ at_) dom.val m rx) dom.val (fun w => tbSource w == 1) (fun _ => syncTime m - rx)) := by
  change execPtpSyncReceive dom m at_ s = _
  unfold execPtpSyncReceive
  split
  · contradiction
  · rfl

theorem followSample_base {tb : TbId} (h : tb ≠ 3) :
    exec (.followSample tb at_) s = .next (sampleOf (s.at_ at_) tb.toNat (fun w => tbSource w == 3)
      (fun s => (s.tb (fld (tbSet s tb.toNat) 2 1 % 4)).nsAt s.now + signed 64 (fld (tbSet s tb.toNat) 32 8) - (s.tb tb.toNat).nsAt s.now)) :=
  doWhen_true (by simpa using h)

/-- A pulse shorter than 20 ns is no edge. -/
theorem capEdge_glitch {p : BitVec 3} {fall : Bool} {ns : Nat} (h : ns < 20) : exec (.capEdge p fall ns at_) s = .next s :=
  doWhen_false (by simpa using h)

theorem capEdge_pulse {p : BitVec 3} {fall : Bool} {ns : Nat} (h : 20 ≤ ns) :
    let ts := stamps s 8 at_
    exec (.capEdge p fall ns at_) s = .next (drainCaptures ([0, 1, 2].foldl (fun s n => sampleOf s n
      (fun w => tbSource w == 2 && fld w 1 1 % 8 == p.toNat && bitAt (fld w 1 1) 7 == fall) (fun _ => ppsOffset (ts.getD n 0)))
        (bufferEdge { (s.at_ at_) with free := s.free + 1 } p.toNat fall ts))) :=
  doWhen_true (decide_eq_true h)

/-! ### Safe points and holdover (R34, R437, R440) -/

theorem timebaseSafePoint_aged {tb : TbId} (h : ∃ c ∈ immediates s (tbGroup tb.toNat), c.at_ + 1000000 ≤ at_) :
    exec (.timebaseSafePoint tb at_) s = .next (safePoint (s.at_ at_) (tbGroup tb.toNat)) :=
  doWhen_true (by simpa using h)

theorem timebaseHoldover_silent {tb : TbId} (h : tbSource (tbSet s tb.toNat) ≠ 0) (hs : (s.tb tb.toNat).st ≠ 3)
    (ht : (s.tb tb.toNat).last + 1000000 * fld (tbSet s tb.toNat) 24 4 ≤ at_) :
    exec (.timebaseHoldover tb at_) s = .next ((s.at_ at_).setTb tb.toNat { ((s.at_ at_).tb tb.toNat) with st := 3, good := 0 }) :=
  doWhen_true (by rw [bne_iff_ne.mpr h, bne_iff_ne.mpr hs, decide_eq_true ht]; rfl)

/-! ### The sample instant of the loops (R459, R460) -/

theorem loopSample_instant (hr : s.cue.running = true) (hc : s.pwr.controlOff = false) (hl : s.cue.last ≤ at_) (hn : at_ < s.cue.next) :
    let t := loopSafePoints (s.at_ at_)
    exec (.loopSample at_) s = .next ((dueLoops t).foldl (fun r p => sampleLoop t r p.1 p.2) t) :=
  doWhen_true (by simp [hr, hc, hl, hn])

theorem loopSample_off (h : s.cue.running = false ∨ s.pwr.controlOff = true) : exec (.loopSample at_) s = .next s :=
  doWhen_false (by obtain h | h := h <;> simp [h])

/-- Settles O47: each event of the time unit, the loops and the cue by the lemma of its row. -/
theorem timeAndLoopEvents : Obligations.TimeAndLoopEvents := by
  refine ⟨fun s at_ => ⟨fun dom m => ⟨ptpSyncReceive_unmatched, ptpSyncReceive_matched⟩, fun tb => followSample_base, rfl,
      fun p fall ns => ⟨capEdge_glitch, capEdge_pulse⟩, fun tb => timebaseSafePoint_aged, fun tb => timebaseHoldover_silent,
      fun g h => doWhen_true h⟩,
    fun s at_ => ⟨loopSample_instant, loopSample_off⟩,
    fun s => ⟨fun h => cueEdge_planned h rfl, fun hr hb hi => beatStart_due hr hb hi rfl,
      fun i sc hs hr => ⟨fun hk => ?plain, fun hk => ?kaf, sceneClose_end hs hr rfl⟩⟩⟩
  case plain => simpa [hk] using sceneOpen_start hs hr rfl
  case kaf => simpa [hk] using sceneOpen_start hs hr rfl

end Sys2Proof.Machine
end

section
/-! SUPPORT. The events of the fabric, row by row (R43, R287, R289, R295 to R299). -/

namespace Sys2Proof.Machine

variable {s : State}

/-! ### Transactions (R287, R289) -/

theorem farWriteAck_visible {tag : BitVec 16} (h : outOfReset s = true) (ht : ∃ t ∈ s.mem.txns, t.tag = tag ∧ t.write = true) :
    exec (.farWriteAck tag) s = .next (s.upMem (fun m => { m with txns := m.txns.filter (fun t => t.tag ≠ tag) })) :=
  doWhen_next h (if_pos (by simpa using ht))

theorem farWriteAck_late {tag : BitVec 16} (h : outOfReset s = true) (ht : ∀ t ∈ s.mem.txns, t.tag = tag → t.write = false) :
    exec (.farWriteAck tag) s = .next (s.upMem (fun m => { m with lateResponses := m.lateResponses + 1 })) :=
  doWhen_next h (if_neg (by simpa using ht))

/-- The tracker times a transaction out at its limit, 100 us or, across the twin link, 2 ms. -/
theorem transactionTimeout_found {tag : BitVec 16} {at_ : Nat} {t : Txn} (h : s.mem.txns.find? (fun t => t.tag = tag) = some t) :
    exec (.transactionTimeout ⟨tag, at_⟩) s =
      doWhen (decide (t.issued + t.limit ≤ at_)) s (raiseCode (failTxn (s.at_ at_) t 0x11 1) .a 0x0B) := by
  change execTransactionTimeout _ _ = _
  simp only [execTransactionTimeout, h]

theorem transactionTimeout_none {tag : BitVec 16} {at_ : Nat} (h : ∀ t ∈ s.mem.txns, t.tag ≠ tag) :
    exec (.transactionTimeout ⟨tag, at_⟩) s = .next s := by
  have hn : s.mem.txns.find? (fun t => t.tag = tag) = none := List.find?_eq_none.mpr (by simpa using h)
  change execTransactionTimeout _ _ = _
  simp only [execTransactionTimeout, hn, did]

/-! ### Die links (R43, R295, R296) -/

theorem flitCrcFail_replays {f : FlitFail} (h : outOfReset s = true) (hm : modExists f.mod_ = true) (hu : (s.module f.mod_).up = true)
    (hr : (s.module f.mod_).retraining = false) :
    exec (.flitCrcFail f) s = .next (((s.upModule f.mod_ (fun x => { x with
      laneErrors := tup [] x.laneErrors f.lane (fun ts => recentErrors s.now ts ++ [s.now])
      replays := (s.module f.mod_).replays + (f.last - f.seq + 1) })).emit (.linkNak f.mod_ f.seq)).emit (.linkReplay f.mod_ f.seq f.last)) :=
  doWhen_true (by simp [h, hm, hu, hr])

theorem laneFails_iff {m : ModId} :
    laneFails s m = true ↔ ∃ l ts, (l, ts) ∈ (s.module m).laneErrors ∧ 16 ≤ (recentErrors s.now ts).length := by
  simp [laneFails]

theorem laneErrorRetrain_of_fails {m : ModId} (hm : modExists m = true) (hr : (s.module m).retraining = false) (hf : laneFails s m = true) :
    exec (.laneErrorRetrain m) s = .next (startRetrain s m false) :=
  doWhen_true (by simp [hm, hr, hf])

theorem laneErrorRetrain_of_holds {m : ModId} (hf : laneFails s m = false) : exec (.laneErrorRetrain m) s = .next s :=
  doWhen_false (by simp [hf])

/-- A module that its spares repair runs again. -/
theorem linkRetrainDone_repaired {m : ModId} {bad : List Nat} (hr : (s.module m).retraining = true) (h : repairs s m bad = true) :
    let back (x : Module) : Module := { x with retraining := false, laneErrors := [], mapped := badLanes s m bad, creditFault := false }
    ((s.module m).creditFault = false → exec (.linkRetrainDone m bad) s = .next (s.upModule m back)) ∧
    ((s.module m).creditFault = true → exec (.linkRetrainDone m bad) s = .next ([0, 1, 2, 3].foldl (creditsAgain m)
      (raiseCode ((s.upModule m back).upFab (fun f => { f with
        credits := initCredits f.credits (4 * modKey m), auditFaults := f.auditFaults + 1 })) (linkIsland m) 0x09))) :=
  ⟨fun hc => doWhen_next hr ((if_pos h).trans (if_neg (by simp [hc]))), fun hc => doWhen_next hr ((if_pos h).trans (if_pos hc))⟩

/-- A module that cannot be repaired is lost, with its Stage die or, at the Wings and the floor, with the curtain. -/
theorem linkRetrainDone_lost {m : ModId} {bad : List Nat} (hr : (s.module m).retraining = true) (h : repairs s m bad = false) :
    let down := s.upModule m (fun x => { x with retraining := false, up := false })
    (∀ d, m.die = .stage d → exec (.linkRetrainDone m bad) s = .next (loseDie down d)) ∧
    ((∀ d, m.die ≠ .stage d) → exec (.linkRetrainDone m bad) s = .next (raise down .b { code := 0x08, die := some m.die })) := by
  have hb : ¬ repairs s m bad = true := Bool.not_eq_true _ ▸ h
  refine ⟨fun d hd => doWhen_next hr ((if_neg hb).trans ?_), fun hd => doWhen_next hr ((if_neg hb).trans ?_)⟩
  · rw [hd]
  · cases hm : m.die with
    | stage d => exact absurd hm (hd d)
    | wings => rfl
    | floor => rfl

/-! ### Raw streams and PLLs (R297 to R299) -/

theorem doubled_iff {st : RawStream} : doubled st = true ↔ st = .cue ∨ st = .safety := by simp [doubled]

/-- A stream on one lane takes a frame that passes, and counts one that fails. -/
theorem rawFrameReceive_single {st : RawStream} {d : DieId} {ok : Bool} {v : BitVec 64} (hc : st ≠ .cue) (hs : st ≠ .safety)
    (h : outOfReset s = true) :
    exec (.rawFrameReceive st d true ok v) s = .next (takeFrame (s.upFab (fun f => { f with rawErrors := f.rawErrors + 0 })) st d v) ∧
    exec (.rawFrameReceive st d false ok v) s = .next (s.upFab (fun f => { f with rawErrors := f.rawErrors + 1 })) := by
  have hd : doubled st = false := by simp [doubled, hc, hs]
  exact ⟨doWhen_next h (by simp [hd]), doWhen_next h (by simp [hd])⟩

/-- A stream on two lanes takes the copy that passes, and reports a frame of which none does. -/
theorem rawFrameReceive_double {st : RawStream} {d : DieId} {v : BitVec 64} (hst : st = .cue ∨ st = .safety) (h : outOfReset s = true) :
    exec (.rawFrameReceive st d false false v) s =
      .next (raise (s.upFab (fun f => { f with rawErrors := f.rawErrors + 2 })) .a { code := 0x00, die := some d }) ∧
    exec (.rawFrameReceive st d false true v) s = .next (takeFrame (s.upFab (fun f => { f with rawErrors := f.rawErrors + 1 })) st d v) := by
  have hd : doubled st = true := doubled_iff.mpr hst
  exact ⟨doWhen_next h (by simp [hd]), doWhen_next h (by simp [hd])⟩

/-- The first predicted edge is reported, the second in a row loses the die. -/
theorem cuePredictedEdge_running {d : DieId} (hr : s.cue.running = true) (hd : d ≠ .wings) :
    let k := tget 0 s.cue.predicted (dieCode d) + 1
    let t := raise (s.upCue (fun c => { c with
      predicted := tset 0 c.predicted (dieCode d) k
      dieCount := tset 0 c.dieCount (dieCode d) (tget 0 c.dieCount (dieCode d) + 1)
      dieEdge := tset 0 c.dieEdge (dieCode d) (tget 0 c.dieEdge (dieCode d) + c.period) })) .a { code := 0x10, die := some d }
    (k < 2 → exec (.cuePredictedEdge d) s = .next t) ∧ (2 ≤ k → exec (.cuePredictedEdge d) s = .next (loseAny t d)) := by
  have hc : (s.cue.running && d != .wings) = true := by simp [hr, hd]
  exact ⟨fun hk => doWhen_next hc (if_neg (Nat.not_le.mpr hk)), fun hk => doWhen_next hc (if_pos hk)⟩

/-- Settles O52: each event of the fabric by the lemma of its row. -/
theorem fabricEvents : Obligations.FabricEvents := by
  intro s
  refine ⟨fun tag => ⟨fun h => doWhen_false h, farWriteAck_visible, farWriteAck_late, fun t at_ ht => ?timeout,
      fun at_ => transactionTimeout_none⟩,
    fun f => flitCrcFail_replays, fun m hm hr => ⟨fun l ts hl hn => ?fails, fun h => ?holds⟩, fun m bad => linkRetrainDone_repaired,
    fun m bad => linkRetrainDone_lost, fun st d ok v => rawFrameReceive_single, fun st d v => rawFrameReceive_double, fun d v => rfl,
    fun d => cuePredictedEdge_running, fun d h => doWhen_true h⟩
  case timeout =>
    rw [transactionTimeout_found ht]
    exact ⟨fun h => doWhen_true (decide_eq_true h), fun h => doWhen_false (decide_eq_false (Nat.not_le.mpr h))⟩
  case fails => exact laneErrorRetrain_of_fails hm hr (laneFails_iff.mpr ⟨l, ts, hl, hn⟩)
  case holds =>
    refine laneErrorRetrain_of_holds (eq_false_of_ne_true fun hf => ?_)
    obtain ⟨l, ts, hl, hn⟩ := laneFails_iff.mp hf
    exact absurd hn (Nat.not_le.mpr (h l ts hl))

end Sys2Proof.Machine
end

section
/-! SUPPORT. The sequencer's own descriptors, and what each does (R75 to R77, R80, R81, R105). -/

namespace Sys2Proof.Machine

variable {s t : State} {u : UnitId} {j : Job} {d : Line} {bs : Bytes}

/-! ### What the rows share -/

theorem curOf_of {n : Nat} (hw : working s u = true) (hc : (s.unit u).seq.cur = some d) (ht : typeOf d = n) : curOf s u n = some d := by
  simp [curOf, hw, hc, ht]

theorem enginesIdle_iff {q : Seq} : enginesIdle q = true ↔ q.se = [] ∧ q.te = [] ∧ q.ve = [] ∧ q.own = [] := by
  simp [enginesIdle, and_assoc]

theorem requestOf_of_working (hw : working s u = true) : requestOf (s.unit u).phase = none := by
  have hp : (s.unit u).phase = .running := by simp_all [working]
  rw [hp]; rfl

/-- A check that passes leaves a read as it is. -/
@[simp] theorem readBy_pass (va : Nat) : readBy s t u j va .pass = t := by
  unfold readBy
  split <;> rfl

/-- A check that passes leaves a merge as it is. -/
@[simp] theorem mergeBy_pass (va len : Nat) : mergeBy s t u j va len .pass = t := by
  unfold mergeBy
  split
  · exact ite_self t
  · rfl

/-! ### DESCRIPTOR_ISSUE (R75, R76, R80) -/

/-- A sequencer with a descriptor to fetch, none in hand and no wait. -/
structure Fetches (s : State) (u : UnitId) (j : Job) (bs : Bytes) : Prop where
  job : jobOf s u = some j
  works : working s u = true
  idle : (s.unit u).seq.cur = none
  free : (s.unit u).seq.wait = none
  more : (s.unit u).seq.idx < (s.unit u).seq.len
  read : readVa s j.slice (actorOf j) .fetch ((s.unit u).seq.base + 64 * (s.unit u).seq.idx) 64 = .ok bs

theorem Fetches.descriptorIssue (h : Fetches s u j bs) (k : Chk) :
    let q := (s.unit u).seq
    exec (.descriptorIssue u k) s = .next (
      if ¬ descOk (kindOf u) q.preemptible q.idx q.len (lineOf bs) then failDesc s u (lineOf bs) 0x01
      else if mayIssue u q (lineOf bs) then
        readBy s (unitAccess (takeDesc s u (lineOf bs)) u false .fetch (q.base + 64 * q.idx) 64 false) u j (q.base + 64 * q.idx) k
      else s) := by
  obtain ⟨hj, hw, hc, hf, hm, hr⟩ := h
  change execDescriptorIssue u k s = _
  simp only [execDescriptorIssue, hj, hr]
  exact doWhen_true (by simp [hw, hc, hf, hm])

theorem Fetches.invalid (h : Fetches s u j bs)
    (hok : descOk (kindOf u) (s.unit u).seq.preemptible (s.unit u).seq.idx (s.unit u).seq.len (lineOf bs) = false) (k : Chk) :
    exec (.descriptorIssue u k) s = .next (failUnit (atDesc s u (lineOf bs)) u 0x01) :=
  (h.descriptorIssue k).trans (congrArg _ (if_pos (by simp [hok])))

theorem Fetches.issues (h : Fetches s u j bs)
    (hok : descOk (kindOf u) (s.unit u).seq.preemptible (s.unit u).seq.idx (s.unit u).seq.len (lineOf bs) = true)
    (hi : mayIssue u (s.unit u).seq (lineOf bs) = true) :
    exec (.descriptorIssue u .pass) s = .next (unitAccess (takeDesc s u (lineOf bs)) u false .fetch
      ((s.unit u).seq.base + 64 * (s.unit u).seq.idx) 64 false) :=
  (h.descriptorIssue .pass).trans (by simp [hok, hi])

/-! ### BEGIN, END and the counters (R75, R77, R81, R101, R252 to R256) -/

theorem begin_runs (h : curOf s u 1 = some d) : exec (.begin_ u) s =
    .next ((curDone s u).upSeq u (fun q => { q with preemptible := preOf d, liveBase := fld d 8 2, liveSize := fld d 10 2 })) := by
  change execBegin u s = _
  simp only [execBegin, h, did]

theorem end_finishes (h : curOf s u 2 = some d) (hj : jobOf s u = some j) (hi : enginesIdle (s.unit u).seq = true) :
    exec (.end_ u) s = .next ((helperRfes s u j.id).foldl finishUnit (finishUnit (atDesc (curDone s u) u d) u)) := by
  change execEnd u s = _
  simp only [execEnd, h, hj]
  exact doWhen_true hi

theorem syncWait_waits (h : curOf s u 7 = some d) (hj : jobOf s u = some j) :
    exec (.syncWait u) s = .next ((atDesc s u d).upSeq u (fun q => { q with
      cur := none
      wait := some { who := .unit u j.id, ctr := BitVec.ofNat 13 (fld d 4 2), mode1 := fld d 6 1 == 1, value := BitVec.ofNat 32 (fld d 8 4) }
      arrived := false })) := by
  change execSyncWait u s = _
  simp only [execSyncWait, h, hj, did]

/-- A signal goes to a counter of the job's own slice, and fails the unit at any other. -/
theorem syncSignal_by_slice (h : curOf s u 8 = some d) (hj : jobOf s u = some j) :
    let c := BitVec.ofNat 13 (fld d 4 2)
    ((s.ctr c).slice = some j.slice → exec (.syncSignalDescriptor u) s =
      .next (issueSignal (curDone s u) c { value := BitVec.ofNat 32 (fld d 8 4), src := .program u j.id })) ∧
    ((s.ctr c).slice ≠ some j.slice → exec (.syncSignalDescriptor u) s = .next (failUnit (atDesc s u d) u 0x06)) := by
  dsimp only
  rw [show exec (.syncSignalDescriptor u) s = execSyncSignalDescriptor u s from rfl]
  simp only [execSyncSignalDescriptor, h, hj, did]
  exact ⟨fun hs => congrArg _ (if_neg (not_not_intro hs)), fun hs => congrArg _ (if_pos hs)⟩

/-! ### YIELD (R105) -/

/-- A YIELD that is reached: the descriptor is done and its live range applies. -/
def yielded (s : State) (u : UnitId) (d : Line) : State :=
  (atDesc (curDone s u) u d).upSeq u (fun q => if fld d 6 2 = 0 then q else { q with liveBase := fld d 4 2, liveSize := fld d 6 2 })

theorem yielded_phase : ((yielded s u d).unit u).phase = (s.unit u).phase := by
  simp [yielded, atDesc, curDone]

/-- A YIELD is reached once the engines are idle, by a unit at work or asked to stop. -/
theorem yield_reached (hj : jobOf s u = some j) (hc : (s.unit u).seq.cur = some d) (ht : typeOf d = 9)
    (hw : working s u = true ∨ (requestOf (s.unit u).phase).isSome = true) (hi : enginesIdle (s.unit u).seq = true) :
    exec (.yield_ u) s = .next (yieldPoint (yielded s u d) u j (fld d 8 4)) := by
  change execYield u s = _
  simp only [execYield, hc, hj]
  exact doWhen_true (by simp [ht, hi, hw])

theorem yieldPoint_asked {b : Bool} {horizon : Nat} (h : requestOf (t.unit u).phase = some b) :
    yieldPoint t u j horizon = t.upUnit u (fun x => { x with phase := .preemptStopped b }) := by
  simp only [yieldPoint, h]

theorem yieldPoint_goes_on {horizon : Nat} (h : requestOf (t.unit u).phase = none) (hc : j.carryOver = false ∨ horizon = 0) :
    yieldPoint t u j horizon = t := by
  simp only [yieldPoint, h]
  exact if_neg (by rintro ⟨h1, h2, -⟩; simp_all)

/-! ### DESCRIPTOR_COMPLETE (R76, R77, R100) -/

theorem writesAcked_iff : writesAcked s u = true ↔ ∀ t ∈ s.mem.txns, t.src ≠ .job u := by simp [writesAcked]

theorem descriptorComplete_head {e : EngineId} {x : QItem} {xs : List QItem} (hq : (s.unit u).seq.queue e = x :: xs)
    (hw : working s u = true) (hr : x.ran = true) (ha : e = .se → writesAcked s u = true) :
    exec (.descriptorComplete u e) s = .next (popDesc s u e x xs) := by
  change execDescriptorComplete u e s = _
  simp only [execDescriptorComplete, hq]
  refine doWhen_true ?_
  by_cases he : e = .se
  · simp [hw, hr, ha he]
  · simp [hw, hr, he]

/-- Settles O20: each descriptor by the lemma of its row. -/
theorem sequencerDescriptors : Obligations.SequencerDescriptors := by
  intro s u j hj q next
  refine ⟨?issue, fun d hw hc => ?own, fun d b at_ hp hc ht hse hte hve hown => ?asked, fun e x xs hw hq hr ha => ?complete⟩
  case issue =>
    rintro _ bs hw hc hf hm hr rfl
    have h : Fetches s u j bs := ⟨hj, hw, hc, hf, hm, hr⟩
    exact ⟨h.invalid, h.issues⟩
  case own =>
    have cur {n : Nat} (ht : typeOf d = n) : curOf s u n = some d := curOf_of hw hc ht
    refine ⟨fun ht => begin_runs (cur ht), fun ht hse hte hve hown => ⟨_, end_finishes (cur ht) hj ?_, rfl⟩,
      fun ht => syncWait_waits (cur ht) hj, fun ht => (syncSignal_by_slice (cur ht) hj).1, fun ht => (syncSignal_by_slice (cur ht) hj).2,
      fun ht hse hte hve hown hg => ?_⟩
    · exact enginesIdle_iff.mpr ⟨hse, hte, hve, hown⟩
    · have hreq : requestOf ((yielded s u d).unit u).phase = none := by rw [yielded_phase, requestOf_of_working hw]
      exact (yield_reached hj hc ht (.inl hw) (enginesIdle_iff.mpr ⟨hse, hte, hve, hown⟩)).trans (congrArg _ (yieldPoint_goes_on hreq hg))
  case asked =>
    have hreq : requestOf (s.unit u).phase = some b := by rw [hp]; rfl
    have hyielded : requestOf ((yielded s u d).unit u).phase = some b := by rw [yielded_phase, hreq]
    exact (yield_reached hj hc ht (.inr (by rw [hreq]; rfl)) (enginesIdle_iff.mpr ⟨hse, hte, hve, hown⟩)).trans (congrArg _ (yieldPoint_asked hyielded))
  case complete => exact descriptorComplete_head hq hw hr (fun he => writesAcked_iff.mpr (ha he))

end Sys2Proof.Machine
end

section
/-! SUPPORT. The engines of a core perform the head of their queue (R83 to R87, R91 to R99, R103, R126 to R135). -/

namespace Sys2Proof.Machine

variable {s t : State} {c : CoreId} {d : Line} {j : Job}

/-! ### The stream engine (R83 to R87) -/

theorem seWindow_loads (h : headOf s (.core c) .se = some d) (ht : typeOf d = 4) :
    exec (.seWindow c) s = .next (ran (s.upCore c (fun x => { x with win := tset none x.win (fld d 4 1) (some d) })) (.core c) .se 0) := by
  change execSeWindow c s = _
  simp only [execSeWindow, h]
  exact doWhen_true (by simp [ht])

/-- An SE_MOVE at the head of its queue, no read of which is out. -/
theorem seMove_starts (h : headOf s (.core c) .se = some d) (hj : jobOf s (.core c) = some j) (ht : typeOf d = 3)
    (hr : ∀ r ∈ s.host.reads, r.src ≠ .job (.core c)) (k : MoveChk) : exec (.seMove c k) s = .next (startMove s c j d k) := by
  change execSeMove c k s = _
  simp only [execSeMove, h, hj]
  exact doWhen_true (by simpa [ht] using hr)

theorem startMove_own_core (k : MoveChk) (hn : (decodeMove d).neighbour = true) (hb : (decodeMove d).nb = c.toNat % 4) :
    startMove s c j d k = failUnit (atDesc s (.core c) d) (.core c) 0x01 := if_pos ⟨hn, hb⟩

theorem startMove_outside (k : MoveChk) (hn : ¬ ((decodeMove d).neighbour = true ∧ (decodeMove d).nb = c.toNat % 4))
    (hi : inStore (decodeMove d).near (decodeMove d).len (decodeMove d).counts (decodeMove d).nearStrides = false) :
    startMove s c j d k = failUnit (atDesc s (.core c) d) (.core c) 0x05 := (if_neg hn).trans (if_pos (by simp [hi]))

theorem job_atDesc (v u : UnitId) : ((atDesc s u d).unit v).job = (s.unit v).job := by
  by_cases hv : v = u
  · subst hv; simp [atDesc]
  · rw [atDesc, State.upSeq, unit_upUnit_ne _ _ _ _ hv]

theorem startMove_neighbour (k : MoveChk) (hn : (decodeMove d).neighbour = true) (hb : (decodeMove d).nb ≠ c.toNat % 4)
    (hi : inStore (decodeMove d).near (decodeMove d).len (decodeMove d).counts (decodeMove d).nearStrides = true)
    (hf : inStore (decodeMove d).far (decodeMove d).len (decodeMove d).counts (decodeMove d).farStrides = true)
    (hj : (s.unit (.core (neighbourOf c (decodeMove d).nb))).job = some j.id) :
    startMove s c j d k = moveAll (decodeMove d) c j k (atDesc s (.core c) d) := by
  simp [startMove, performMove, hostPieces, hn, hb, hi, hf, job_atDesc, hj]

/-- A move of slice memory within the store is performed once no host range is left to read. -/
theorem startMove_memory (k : MoveChk) (hn : (decodeMove d).neighbour = false)
    (hi : inStore (decodeMove d).near (decodeMove d).len (decodeMove d).counts (decodeMove d).nearStrides = true)
    (hp : hostPieces (decodeMove d) c j (atDesc s (.core c) d) = []) :
    startMove s c j d k = performMove (atDesc s (.core c) d) c j (decodeMove d) k := by
  simp [startMove, hn, hi, hp]

theorem hostPieces_toFar {m : Move} (h : m.toFar = true) : hostPieces m c j s = [] := if_pos (.inl h)

theorem performMove_reads {m : Move} {k : MoveChk} (hm : m.toFar = false) (hk : k.far = .pass) : performMove s c j m k = moveAll m c j k s := by
  simp [performMove, hm, hk]

/-- A move into slice memory holds a tag of its pool. -/
theorem performMove_writes {m : Move} {k : MoveChk} (hm : m.toFar = true) (hn : m.neighbour = false) :
    let u := UnitId.core c
    (∀ g, freeTag s (poolOf u) = some g → k.far = .pass → performMove s c j m k = moveAll m c j k
      (openTxn s { tag := g, pool := poolOf u, src := .job u, mid := midUnit u, enc := tget 0 s.sec.unitEnc (UnitId.code u), write := true, crossing := false, issued := s.now, slice := j.slice })) ∧
    (freeTag s (poolOf u) = none → performMove s c j m k = s.upMem (fun x => { x with tagStalls := tup 0 x.tagStalls (poolOf u).val (· + 1) })) := by
  refine ⟨fun g hg hk => ?_, fun hg => ?_⟩
  · simp [performMove, hm, hn, hg, hk]
  · simp [performMove, hm, hn, hg]

/-! ### The tensor engine (R91 to R99) -/

theorem teOp_starts (h : headOf s (.core c) .te = some d) (k : TeChk) : exec (.teOp c k) s = .next (startTe s c k d) := by
  change execTeOp c k s = _
  simp only [execTeOp, h, did]

/-- The TE_OP that a descriptor asks for, with its window context. -/
def teOf (s : State) (c : CoreId) (d : Line) : Te :=
  decodeTe d ((if bitAt (fld d 7 1) 4 then tget none (s.core c).win (bits (fld d 7 1) 6 5) else none).map decodeWin)

/-- Every range of a TE_OP lies in the store. -/
def TeInStore (x : Te) : Prop := rangesFit (teReads x) = true ∧ rangesFit (teWrites x) = true ∧ rangesFit (teWindow x) = true

theorem not_teInStore_iff {x : Te} : ¬ TeInStore x ↔
    ¬ rangesFit (teReads x) = true ∨ ¬ rangesFit (teWrites x) = true ∨ ¬ rangesFit (teWindow x) = true := by
  simp only [TeInStore, Classical.not_and_iff_not_or_not]

/-- Every metadata code of a TE_OP is valid. -/
def MetaValid (s : State) (c : CoreId) (x : Te) : Prop := ∀ j < x.n, ∀ g < x.k / 4, metaOk (metaCode s c x j g) = true

theorem not_metaValid_iff {x : Te} : ¬ MetaValid s c x ↔
    (List.range x.n).any (fun j => (List.range (x.k / 4)).any (fun g => !metaOk (metaCode s c x j g))) = true := by
  simp [MetaValid]

/-- A TE_OP that takes a window context names one that is loaded. -/
def ContextLoaded (s : State) (c : CoreId) (d : Line) : Prop :=
  bitAt (fld d 7 1) 4 = true → (tget none (s.core c).win (bits (fld d 7 1) 6 5)).isSome = true

theorem ContextLoaded.not_missing (h : ContextLoaded s c d) : ¬ (bitAt (fld d 7 1) 4 = true ∧
    (if bitAt (fld d 7 1) 4 then tget none (s.core c).win (bits (fld d 7 1) 6 5) else none).isNone = true) := by
  rintro ⟨hb, hn⟩
  rw [if_pos hb, Option.isNone_iff_eq_none] at hn
  exact absurd (h hb) (by simp [hn])

theorem startTe_outside (hctx : ContextLoaded s c d) (hfit : teFits (teOf s c d) = true) (hin : ¬ TeInStore (teOf s c d)) (k : TeChk) :
    startTe s c k d = failUnit (atDesc s (.core c) d) (.core c) 0x05 :=
  (if_neg hctx.not_missing).trans ((if_neg (not_not_intro hfit)).trans (if_pos (not_teInStore_iff.mp hin)))

/-- A TE_OP whose operands pass their checks asks for its metadata only. -/
theorem startTe_operands (hctx : ContextLoaded s c d) (hfit : teFits (teOf s c d) = true) (hin : TeInStore (teOf s c d))
    (hok : ∀ r ∈ teReads (teOf s c d) ++ teWindow (teOf s c d), storeBad (atDesc s (.core c) d) c r.1 r.2 = none) (k : TeChk) :
    let u := UnitId.core c
    let t := atDesc s u d
    let x := teOf s c d
    (x.sparse = true → ¬ MetaValid t c x → startTe s c k d = failUnit t u 0x09) ∧
    ((x.sparse = true → MetaValid t c x) → startTe s c k d = runTe t c k d x) := by
  intro u t x
  have hbad : (teReads x ++ teWindow x).findSome? (fun r => storeBad t c r.1 r.2) = none := List.findSome?_eq_none_iff.mpr hok
  have hstart : startTe s c k d =
      if x.sparse = true ∧ (List.range x.n).any (fun j => (List.range (x.k / 4)).any (fun g => !metaOk (metaCode t c x j g))) = true
      then failUnit t u 0x09 else runTe t c k d x := by
    refine (if_neg hctx.not_missing).trans ((if_neg (not_not_intro hfit)).trans ((if_neg fun h => not_teInStore_iff.mpr h hin).trans ?_))
    split
    next p hp => exact nomatch hbad.symm.trans hp
    next => rfl
  exact ⟨fun hs hv => hstart.trans (if_pos ⟨hs, not_metaValid_iff.mp hv⟩),
    fun hv => hstart.trans (if_neg fun h => not_metaValid_iff.mpr h.2 (hv h.1))⟩

/-! ### Output blocks (R60, R62 to R64, R67, R72) -/

variable {x : Te} {r : Flagged State} {b : List Nat × List Nat} {bs : List (List Nat × List Nat)} {i : Nat} {ks : List Chk}

theorem chkOutcome_pass (u : UnitId) (key : Nat) : chkOutcome s u key .pass = .pass := if_neg (by simp)
theorem chkOutcome_fail (u : UnitId) (key : Nat) : chkOutcome s u key .fail = .fail := if_neg (by simp)

theorem blockShows_agrees (h : ∀ p ∈ b.1, rowAgrees s c x b.2 p = true) (k : Chk) : blockShows s c x b k = k :=
  if_pos (List.all_eq_true.mpr h)

/-- A block fails where a row of it disagrees, or where the checkers observed a failure of it. -/
theorem blockShows_fails (h : (∃ p ∈ b.1, rowAgrees s c x b.2 p = false) ∨ ks.head? = some .fail) :
    blockShows s c x b (ks.headD .pass) = .fail := by
  obtain h | h := h
  · exact if_neg (by simpa using h)
  · rw [List.headD_eq_head?_getD, h]
    exact ite_self _

/-- Blocks that agree, with nothing else observed, are written in order. -/
theorem runBlocks_agree (h : ∀ b ∈ bs, ∀ p ∈ b.1, rowAgrees t c x b.2 p = true) :
    runBlocks c d x t none bs i [] r = blocksEnd c d x (i + bs.length) (bs.foldl (teBlock c x t) r) := by
  induction bs generalizing i r with
  | nil => rfl
  | cons b bs ih =>
    obtain ⟨hb, hbs⟩ := List.forall_mem_cons.mp h
    have hstep : runBlocks c d x t none (b :: bs) i [] r = runBlocks c d x t none bs (i + 1) [] (teBlock c x t r b) := by
      simp [runBlocks, blockShows_agrees hb, chkOutcome_pass]
    rw [hstep, ih hbs, List.foldl_cons, List.length_cons, Nat.add_right_comm, Nat.add_assoc]

theorem runBlocks_fail {double : Option Nat} (hd : double ≠ some i) (h : blockShows t c x b (ks.headD .pass) = .fail) :
    runBlocks c d x t double (b :: bs) i ks r = failCheck r.1 (.core c) 1 false := by
  simp only [runBlocks, if_neg hd, h, chkOutcome_fail]

theorem runBlocks_double : runBlocks c d x t (some i) (b :: bs) i ks r = failCheck r.1 (.core c) 3 false := if_pos rfl

variable {k : TeChk}

theorem runTe_agrees (hd : k.ecc.double = none) (hb : k.blocks = []) :
    let q := headItem s (.core c) .te
    let left := (teBlocks x).drop q.part
    let now := left.take (k.stop.getD left.length)
    (∀ b ∈ now, ∀ p ∈ b.1, rowAgrees s c x b.2 p = true) → runTe s c k d x =
      blocksEnd c d x (q.part + now.length) (now.foldl (teBlock c x s) (eccCount s (.core c) k.ecc.corrected, q.flags)) := by
  intro q left now h
  simp only [runTe, hd, hb]
  exact runBlocks_agree h

/-- A TE_OP that takes a block begins with the first of those left. -/
theorem runTe_begins (hl : (teBlocks x).drop (headItem s (.core c) .te).part = b :: bs) (hs : k.stop ≠ some 0) :
    let q := headItem s (.core c) .te
    ∃ rest, runTe s c k d x =
      runBlocks c d x s (k.ecc.double.map (· + q.part)) (b :: rest) q.part k.blocks (eccCount s (.core c) k.ecc.corrected, q.flags) := by
  have hn : k.stop.getD (b :: bs).length ≠ 0 := by
    cases hk : k.stop with
    | none => simp
    | some n => simpa [hk] using hs
  obtain ⟨n, hn⟩ := Nat.exists_eq_succ_of_ne_zero hn
  exact ⟨bs.take n, by simp only [runTe, hl, hn, List.take_succ_cons]⟩

theorem runTe_fails (hl : (teBlocks x).drop (headItem s (.core c) .te).part = b :: bs) (hs : k.stop ≠ some 0) (hd : k.ecc.double ≠ some 0)
    (hf : (∃ p ∈ b.1, rowAgrees s c x b.2 p = false) ∨ k.blocks.head? = some .fail) :
    runTe s c k d x = failCheck (eccCount s (.core c) k.ecc.corrected) (.core c) 1 false := by
  obtain ⟨rest, hrun⟩ := runTe_begins (d := d) hl hs
  exact hrun.trans (runBlocks_fail (by simpa using hd) (blockShows_fails hf))

theorem runTe_double (hl : (teBlocks x).drop (headItem s (.core c) .te).part = b :: bs) (hs : k.stop ≠ some 0) (hd : k.ecc.double = some 0) :
    runTe s c k d x = failCheck (eccCount s (.core c) k.ecc.corrected) (.core c) 3 false := by
  obtain ⟨rest, hrun⟩ := runTe_begins (d := d) hl hs
  rw [hrun, hd, Option.map_some, Nat.zero_add, runBlocks_double]

/-! ### The vector engine (R126 to R135) -/

theorem veLaunch_starts (h : headOf s (.core c) .ve = some d) (hr : (s.ve c).running = false) (hm : fld d 4 1 = 0) :
    exec (.veLaunch c) s = .next (startKernel s c d none) := by
  change execVeLaunch c s = _
  simp only [execVeLaunch, h]
  exact doWhen_true (by simp [hr, hm])

theorem startKernel_copies (hb : bitAt (fld d 5 1) 0 = false) (hok : storeBad s c (fld d 12 4) (8 * fld d 10 2) = none) :
    startKernel s c d none = s.upVe c (fun _ => startPoint s c 0 0
      { running := true, d := d, code := codeOf (storeRead s c (fld d 12 4) (8 * fld d 10 2)),
        codeKey := some ((s.unit (.core c)).job.getD 0, fld d 12 4, fld d 10 2), launches := (s.ve c).launches + 1 }) := by
  simp [startKernel, hb, hok]

variable {win : Line}

/-- A convolution over a context that fits it, its operands valid. -/
theorem veLaunchConv_runs (h : headOf s (.core c) .ve = some d) (hr : (s.ve c).running = false) (hm : fld d 4 1 = 1)
    (hw : tget none (s.core c).win (fld d 6 1 % 4) = some win) (hf : convFits d win = true)
    (hi : rangesFit (convReads d (decodeWin win)) = true) (ht : convTableFits d win = true) (hb : convBad s c d win = none) (k : ConvChk) :
    exec (.veLaunchConv c k) s = .next (runConv (convBegin (atDesc s (.core c) d) c) c k d win) := by
  change execVeLaunchConv c k s = _
  simp only [execVeLaunchConv, h, hw, hb]
  exact doWhen_next (by simp [hr, hm]) (by simp [hf, hi, ht])

/-- A launch that takes every tap left of it, no check of which is observed. -/
theorem runConv_whole {k : ConvChk} (hn : k.taps = none) (hk : fld d 40 4 * convTaps win ≤ k.tap) :
    let a := convDone s c win
    let total := fld d 40 4 * convTaps win
    runConv s c k d win = veDraw (convEnd (convRun c d win (total - a) s) c d win) c (convDrawn d win a total) := by
  simp only [runConv, hn]
  exact if_pos (.inr hk)

/-- A launch that yields after n taps, no check of which is observed. -/
theorem runConv_yields {k : ConvChk} {n : Nat} (hn : k.taps = some n) (hlt : convDone s c win + n < fld d 40 4 * convTaps win)
    (hk : convDone s c win + n ≤ k.tap) :
    let a := convDone s c win
    runConv s c k d win = veDraw (convEnd (convRun c d win n s) c d win) c (convDrawn d win a (a + n)) := by
  simp only [runConv, hn, Nat.min_eq_right (Nat.le_of_lt hlt), Nat.add_sub_cancel_left]
  exact if_pos (.inr hk)

/-- Settles O23: each engine's rows by the lemmas of what it performs. -/
theorem coreEngines : Obligations.CoreEngines := by
  intro s c d j hj u t
  refine ⟨fun h => ⟨seWindow_loads h, fun ht hr => ?move⟩, fun h => ?te, fun h hr => ⟨fun hm hb hok => ?kernel, ?conv⟩⟩
  case move =>
    intro m
    have start (k : MoveChk) : exec (.seMove c k) s = .next (startMove s c j d k) := seMove_starts h hj ht hr k
    refine ⟨fun hn hb k => ?_, fun hn hi k => ?_, fun hn hb hi hf hjob k => ?_, fun hn hi => ⟨fun hm hp k hk => ?_, fun g k hm hg hk => ?_, fun k hm hg => ?_⟩⟩
    · rw [start, startMove_own_core k hn hb]
    · rw [start, startMove_outside k (fun h => hn h.1 h.2) hi]
    · rw [start, startMove_neighbour k hn hb hi hf hjob]
    · rw [start, startMove_memory k hn hi hp, performMove_reads hm hk]
    · rw [start, startMove_memory k hn hi (hostPieces_toFar hm), (performMove_writes hm hn).1 g hg hk]
      rfl
    · rw [start, startMove_memory k hn hi (hostPieces_toFar hm), (performMove_writes hm hn).2 hg]
  case te =>
    intro post x hctx hfit fits
    refine ⟨fun hin k => (teOp_starts h k).trans (congrArg _ (startTe_outside hctx hfit hin k)), fun hin hok => ?_⟩
    intro valid begun
    have operands (k : TeChk) := startTe_operands hctx hfit hin hok k
    refine ⟨fun hs hv k => (teOp_starts h k).trans (congrArg _ ((operands k).1 hs hv)), fun hv => ?_⟩
    have run (k : TeChk) {r : State} (hr : runTe t c k d x = r) : exec (.teOp c k) s = .next r :=
      (teOp_starts h k).trans (congrArg _ (((operands k).2 hv).trans hr))
    exact ⟨fun k hd hb hagree => run k (runTe_agrees hd hb hagree),
      fun k b bs hl hs => ⟨fun hd hf => run k (runTe_fails hl hs hd hf), fun hd => run k (runTe_double hl hs hd)⟩⟩
  case kernel => rw [veLaunch_starts h hr hm, startKernel_copies hb hok]
  case conv =>
    intro win hm hw hf hi htab hb begun total at0 drawn
    refine ⟨fun k hn hk => ?_, fun k n hn hlt hk => ?_⟩
    · rw [veLaunchConv_runs h hr hm hw hf hi htab hb k, runConv_whole hn hk]
    · rw [veLaunchConv_runs h hr hm hw hf hi htab hb k, runConv_yields hn hlt hk]

end Sys2Proof.Machine
end

section
/-! SUPPORT. The end of a render job and the scenes that a reclaim keeps from lending (R197, R198). The model lifts a reclaim with
the job that is bound to its head, as R198 names it; the statement lifts every reclaim of the job's scene. -/

namespace Sys2Proof.Machine

/-- A render job of slice 1 in scene 0, its one raster front end done. -/
def endedRender : Job :=
  { id := 0, slice := 1, tag := 0, pos := 0, handle := 0, jobIdx := 0, bank := 0, scene := 0, label := 0, carryOver := false, carryLimit := 0,
    e := { cores := 0, align := 0, cls := 0, aes := 0, rfes := 1, preemptible := false, coreSec := 0, aeSec := 0, rfeSec := 0, inputs := 0, kept := 0, name := 0 }
    statusVa := 0, semVa := 0, flagVa := 0, enclave := none, savePages := [], phase := .running, entries := [{ state := 1, unit := some (.rfe 0) }],
    suspensions := 0, borrowing := false, kaf := none, startCue := 0, endCue := 0, safetyRaised := false, susCue := none }

/-- The job is there with a reclaim for head 0, which belongs to slice 0, on its scene. -/
def reclaimedByOther : State := { State.reset with jobs := [endedRender], cue := { noLend := [(0, 0)] } }

/-- The scenes that reclaims keep from lending after an answer, with their heads. -/
def keptBy (a : Ans) : List (Nat × Nat) := match a with
  | .next t => t.cue.noLend
  | _ => []

/-- A job of another slice than the head's is not bound to the head. -/
theorem boundTo_of_other_slice {s : State} {h : HeadId} {j : Job} (hs : j.slice ≠ headSlice s h) : boundTo s h j = false := by
  simp [boundTo, hs]

theorem lendAgain_noLend (s : State) (j : Job) : (lendAgain s j).cue.noLend =
    s.cue.noLend.filter (fun p => !(p.1 == j.scene.toNat && boundTo s (BitVec.ofNat 2 p.2) j)) := rfl

/-- The reclaim for a head that the job is not bound to outlasts the job. -/
theorem lendAgain_reclaimedByOther : (lendAgain reclaimedByOther endedRender).cue.noLend = [(0, 0)] := by
  have hb : boundTo reclaimedByOther 0 endedRender = false := boundTo_of_other_slice (by decide)
  rw [lendAgain_noLend]
  exact List.filter_cons_of_pos (by simpa using .inr hb)

theorem jobEnd_keeps_reclaimedByOther : keptBy (exec (.jobEnd 0) reclaimedByOther) = [(0, 0)] := lendAgain_reclaimedByOther

/-- Refutes O54: at the end of a job whose scene a reclaim for another slice's head keeps from lending, the statement lifts that
reclaim, and JOB_END keeps it. -/
theorem not_jobEvents : ¬ Obligations.JobEvents := by
  intro h
  obtain ⟨-, -, -, -, -, hend, -⟩ := h reclaimedByOther
  have hstated := (hend 0 endedRender rfl (by decide)).2.1 rfl rfl
  have hkept := jobEnd_keeps_reclaimedByOther
  rw [hstated] at hkept
  exact absurd hkept (by decide)

end Sys2Proof.Machine
end

section
/-! SUPPORT. The operations of an attention engine: their start, their refusals and their whole run (R148 to R156, R164, R167). -/

namespace Sys2Proof.Machine

variable {s : State} {a : AeId} {d : Line} {j : Job} {q : Nat} {x : KvSeq} {o : AeOp}

/-! ### What appends and gathers share -/

section
variable {err : State → Option KvSeq → Option Byte} {run : State → KvSeq → AeOp → State}

/-- An operation under way goes on with the sequence that it latched. -/
theorem withOp_goes_on (ho : (s.ae a).op = some o) (hx : opSeq s o q = some x) : withOp s a d q err run = run s x o := by
  simp only [withOp, ho, hx]

theorem withOp_refused {r : Byte} (hn : (s.ae a).op = none) (he : err (startOp (atDesc s (.ae a) d) a [q]) (s.kv a q) = some r) (hr : r ≠ 0x0C) :
    withOp s a d q err run = failUnit (startOp (atDesc s (.ae a) d) a [q]) (.ae a) r := by
  simp only [withOp, hn, he, if_neg hr]

/-- A sequence that meets its CAPACITY is noted before the unit fails (R162). -/
theorem withOp_full (hn : (s.ae a).op = none) (he : err (startOp (atDesc s (.ae a) d) a [q]) (s.kv a q) = some 0x0C) (hx : s.kv a q = some x) :
    withOp s a d q err run = failUnit (kvFull (startOp (atDesc s (.ae a) d) a [q]) a q x.slice) (.ae a) 0x0C := by
  rw [hx] at he
  simp [withOp, hn, hx, he]

theorem withOp_starts (hn : (s.ae a).op = none) (ho : ((startOp (atDesc s (.ae a) d) a [q]).ae a).op = some o) (hx : s.kv a q = some x)
    (he : err (startOp (atDesc s (.ae a) d) a [q]) (some x) = none) :
    withOp s a d q err run = run (startOp (atDesc s (.ae a) d) a [q]) x o := by
  simp only [withOp, hn, hx, he, ho]

end

/-- A check of which nothing is observed passes. -/
theorem aeOutcome_pass (u : UnitId) (i : Nat) : aeOutcome s u i {} = .pass := if_neg (by simp)

theorem aeChecked_pass (t : State) (u : UnitId) : aeChecked s t u {} = t := by simp only [aeChecked, aeOutcome_pass]

/-- A part that takes the rest of a list leaves none of it. -/
theorem place_drop_not_lt {α : Type} (xs : List α) (i : Nat) : ¬ i + (xs.drop i).length < xs.length := by
  rw [List.length_drop]
  omega

/-! ### AE_APPEND (R148, R149) -/

theorem aeAppend_runs (h : headOf s (.ae a) .own = some d) (hj : jobOf s (.ae a) = some j) (ht : typeOf d = 0x10) (k : AeChk) :
    exec (.aeAppend a k) s = .next (withOp s a d (fld d 4 2) (fun t x => appendErr t a j d x) (fun t x o => runAppend t a k j d (fld d 4 2) x o)) := by
  change execAeAppend a k s = _
  simp only [execAeAppend, h, hj]
  exact doWhen_true (by simp [ht])

theorem withOperand_ok {space addr len : Nat} {bs : Bytes} {k : Bytes → State} (h : aeRead s a j space addr len = .ok bs) :
    withOperand s a j space addr len k = k bs := by
  simp only [withOperand, h]

/-- Bytes of the values, and of the exponents, that an append reads per plane. -/
abbrev appendValueLen (d : Line) (x : KvSeq) : Nat := fld d 8 4 * x.kvHeads * kvM (fld d 13 1) x.headDim
abbrev appendExponentLen (d : Line) (x : KvSeq) : Nat := fld d 8 4 * x.kvHeads * kvX (fld d 13 1) x.headDim

/-- The four operands of an append can be read. -/
structure AppendReads (s : State) (a : AeId) (j : Job) (d : Line) (x : KvSeq) (kb vb ke ve : Bytes) : Prop where
  keys : aeRead s a j (fld d 12 1) (fld d 16 8) (appendValueLen d x) = .ok kb
  values : aeRead s a j (fld d 12 1) (fld d 24 8) (appendValueLen d x) = .ok vb
  keyExponents : aeRead s a j (fld d 12 1) (fld d 32 8) (appendExponentLen d x) = .ok ke
  valueExponents : aeRead s a j (fld d 12 1) (fld d 40 8) (appendExponentLen d x) = .ok ve

/-- The walks of an append: every stream of its layer, with the entries of its tokens. -/
abbrev appendKeys (d : Line) (x : KvSeq) : List (Nat × Nat) :=
  layerKeys x (fld d 6 2) ((tokenPages x x.length (fld d 8 4)).map (fun p => entryOf x p.1))

/-- The granules of an append with the flags of their conversion. -/
def appendGranules (s : State) (d : Line) (q : Nat) (x : KvSeq) (o : AeOp) (kb vb ke ve : Bytes) : List ((Nat × Bytes) × Byte) :=
  (appendRuns s o.home q x (fld d 6 2) (fld d 13 1) (fld d 8 4) kb vb ke ve).flatMap (fun r => (cutGranules r.pa r.bs).map (fun g => (g, r.flags)))

/-- The traffic of an append's operands. -/
def drawAppend (s : State) (a : AeId) (d : Line) (x : KvSeq) : State :=
  let space := fld d 12 1
  aeDraw (aeDraw (aeDraw (aeDraw s a space (fld d 16 8) (appendValueLen d x)) a space (fld d 24 8) (appendValueLen d x))
    a space (fld d 32 8) (appendExponentLen d x)) a space (fld d 40 8) (appendExponentLen d x)

/-- An append that runs from its place to its status word. -/
def appended (s : State) (a : AeId) (j : Job) (d : Line) (q : Nat) (x : KvSeq) (o : AeOp) (kb vb ke ve : Bytes) : State :=
  let part := (appendGranules s d q x o kb vb ke ve).drop o.pos
  let flags := part.foldl (fun f g => f ||| g.2) (o.flags ||| 0)
  let t := cacheWalks (part.foldl (fun s g => kvWrite (.ae a) j s g.1.1 g.1.2) s) o.home q x (treeKeys (appendKeys d x))
  ran (stepSeq (setOp (drawAppend t a d x) a { o with pos := o.pos + part.length, flags := flags }) o.home
    (stepKey j.id (s.unit (.ae a)).entry) q (fld d 6 2) (fld d 8 4)) (.ae a) .own (statusWord (tagOf d) 3 flags)

section
variable {kb vb ke ve : Bytes}

theorem runAppend_walk_fails {r : Option Bool} (h : AppendReads s a j d x kb vb ke ve) (hw : walksBad s o.home q x (appendKeys d x) = some r) (k : AeChk) :
    runAppend s a k j d q x o = walkFail s (.ae a) r := by
  obtain ⟨hk, hv, hke, hve⟩ := h
  rw [runAppend, withOperand_ok hk, withOperand_ok hv, withOperand_ok hke, withOperand_ok hve]
  simp only [hw]

theorem runAppend_whole (h : AppendReads s a j d x kb vb ke ve) (hw : walksBad s o.home q x (appendKeys d x) = none) :
    runAppend s a {} j d q x o = appended s a j d q x o kb vb ke ve := by
  obtain ⟨hk, hv, hke, hve⟩ := h
  rw [runAppend, withOperand_ok hk, withOperand_ok hv, withOperand_ok hke, withOperand_ok hve]
  simp only [hw, List.getD_nil, aeOutcome_pass, aeChecked_pass, fromPlace]
  exact if_neg (place_drop_not_lt _ _)

end

/-! ### AE_GATHER (R150, R151) -/

theorem aeGather_runs (h : headOf s (.ae a) .own = some d) (hj : jobOf s (.ae a) = some j) (ht : typeOf d = 0x11) (k : AeChk) :
    exec (.aeGather a k) s = .next (withOp s a d (fld d 4 2) (fun t x => gatherErr t a j d x) (fun t x o => runGather t a k d (fld d 4 2) x o)) := by
  change execAeGather a k s = _
  simp only [execAeGather, h, hj]
  exact doWhen_true (by simp [ht])

/-- A gather takes no token, so that it never meets CAPACITY. -/
theorem gatherErr_ne_full {y : Option KvSeq} {r : Byte} (h : gatherErr s a j d y = some r) : r ≠ 0x0C := by
  unfold gatherErr at h
  cases y with
  | none => (repeat' split at h) <;> cases h <;> decide
  | some y => (repeat' split at h) <;> cases h <;> decide

/-- The walks of a gather: one stream, with the entry of each token. -/
abbrev gatherKeys (d : Line) (x : KvSeq) : List (Nat × Nat) :=
  (List.range (fld d 16 4)).map (fun i => (fld d 6 2 * x.kvHeads + fld d 8 1, gatherEntry x (fld d 12 4 + i)))

/-- The pages of the tokens of a gather. -/
abbrev gatherPages (s : State) (d : Line) (q : Nat) (x : KvSeq) (o : AeOp) : List Nat :=
  (gatherKeys d x).map (fun k => pageAt s o.home q x k.1 k.2)

/-- What a gather writes fits the core store. -/
def GatherFits (d : Line) (x : KvSeq) : Prop :=
  (∀ r ∈ (gatherRows d x).1, r.1 + r.2 ≤ storeSize) ∧ (gatherRows d x).2.1 + (gatherRows d x).2.2 ≤ storeSize

/-- Every token of a gather passes its check. -/
def GatherGood (s : State) (d : Line) (q : Nat) (x : KvSeq) (o : AeOp) : Prop :=
  ∀ p ∈ (gatherPages s d q x o).zipIdx, kvBad s x p.1 (fld d 12 4 + p.2) (bitAt (fld d 9 1) 0) = none

/-- A gather that runs from its place to its status word. -/
def gathered (s : State) (a : AeId) (d : Line) (q : Nat) (x : KvSeq) (o : AeOp) : State :=
  let fs := gatherPages s d q x o
  let g := gatherData s d x fs
  let part := (gatherGranules d x g.1).drop o.pos
  let core := spaceCore a (bits (fld d 9 1) 3 2 + 1)
  let t := cacheWalks (part.foldl (fun s g => storeWrite s (.ae a) core g.1 g.2) s) o.home q x (treeKeys (gatherKeys d x).eraseDups)
  let t := setOp t a { o with pos := o.pos + part.length, flags := o.flags ||| 0 }
  ran (fs.zipIdx.foldl (fun s p => kvDraw s (.ae a) x p.1 (fld d 12 4 + p.2) (bitAt (fld d 9 1) 0)) t) (.ae a) .own
    (statusWord (tagOf d) 3 (o.flags ||| 0 ||| g.2))

section
variable {gl : List Nat}

theorem runGather_walk_fails {r : Option Bool} (hg : rootGlobals s x = .ok gl)
    (hw : walksBad s o.home q { x with globals := gl } (gatherKeys d { x with globals := gl }) = some r) (k : AeChk) :
    runGather s a k d q x o = walkFail s (.ae a) r := by
  simp only [runGather, hg, hw]

theorem runGather_whole (hg : rootGlobals s x = .ok gl) (hw : walksBad s o.home q { x with globals := gl } (gatherKeys d { x with globals := gl }) = none)
    (hf : GatherFits d { x with globals := gl }) (hb : GatherGood s d q { x with globals := gl } o) :
    runGather s a {} d q x o = gathered s a d q { x with globals := gl } o := by
  have hfit : ¬ ¬ ((gatherRows d { x with globals := gl }).1.all (fun r => decide (r.1 + r.2 ≤ storeSize)) &&
      decide ((gatherRows d { x with globals := gl }).2.1 + (gatherRows d { x with globals := gl }).2.2 ≤ storeSize)) = true := by
    simpa [GatherFits] using hf
  have hgood := List.findSome?_eq_none_iff.mpr hb
  simp only [runGather, hg, hw, if_neg hfit, hgood, List.getD_nil, aeOutcome_pass, aeChecked_pass, fromPlace]
  exact if_neg (place_drop_not_lt _ _)

end

/-! ### AE_DECODE (R152 to R156, R167) -/

section
variable (h : headOf s (.ae a) .own = some d) (hj : jobOf s (.ae a) = some j) (ht : typeOf d = 0x12) (k : AeChk)
include h hj ht

theorem aeDecode_goes_on (ho : (s.ae a).op = some o) : exec (.aeDecode a k) s = .next (runBatch s a k j d o) := by
  change execAeDecode a k s = _
  simp only [execAeDecode, h, hj]
  exact doWhen_next (by simp [ht]) (by simp [ho, goBatch])

theorem aeDecode_foreign_space (hn : (s.ae a).op = none) (hs : spaceOk s a j (fld d 23 1) = false) :
    exec (.aeDecode a k) s = .next (failUnit (atDesc s (.ae a) d) (.ae a) 0x06) := by
  change execAeDecode a k s = _
  simp only [execAeDecode, h, hj]
  exact doWhen_next (by simp [ht]) (by simp [hn, hs])

theorem aeDecode_unwritable {va : Nat} (hn : (s.ae a).op = none) (hs : spaceOk s a j (fld d 23 1) = true)
    (hw : firstUnreachable s j.slice (actorOf j) .write (fld d 8 8) (32 * fld d 6 2) = some va) :
    exec (.aeDecode a k) s = .next (failAccess (atDesc s (.ae a) d) (.ae a) va) := by
  change execAeDecode a k s = _
  simp only [execAeDecode, h, hj, hw]
  exact doWhen_next (by simp [ht]) (by simp [hn, hs])

theorem aeDecode_starts {tbl : Bytes} (hn : (s.ae a).op = none) (hs : spaceOk s a j (fld d 23 1) = true)
    (hw : firstUnreachable s j.slice (actorOf j) .write (fld d 8 8) (32 * fld d 6 2) = none)
    (hr : jobRead s j (fld d 8 8) (32 * fld d 6 2) = .ok tbl) :
    exec (.aeDecode a k) s = .next (goBatch (startBatch
      (unitAccess (atDesc s (.ae a) d) (.ae a) false .read (fld d 8 8) (32 * fld d 6 2) false) a d tbl) a k j d) := by
  change execAeDecode a k s = _
  simp only [execAeDecode, h, hj, hw, hr]
  exact doWhen_next (by simp [ht]) (by simp [hn, hs])

end

/-- The sequence that a batch entry names, whether an entry before it names the same, and its GEN. -/
abbrev entrySeq (o : AeOp) (i : Nat) : Nat := fieldOf ((o.table.drop (32 * i)).take 32) 0 2 % 1024
abbrev entryRepeats (o : AeOp) (i : Nat) : Bool := (List.range i).any (fun i' => fieldOf o.table (32 * i') 2 % 1024 == entrySeq o i)
abbrev entryGen (s : State) (o : AeOp) (i : Nat) : Nat := ((opSeq s o (entrySeq o i)).map (fun x => x.gen.toNat)).getD 0

/-- A batch entry that has not begun and fails its validation is over with its status (R153). -/
theorem decodeEntry_refused {k : AeChk} {r : BatchRun} {i st : Nat} (ho : (r.st.ae a).op = some o) (hh : r.halt = false) (hl : r.left ≠ some 0)
    (hb : o.begun = false) (hst : entryStatus j d (opSeq r.st o (entrySeq o i)) (entryRepeats o i) = st) (hne : st ≠ 0) :
    decodeEntry a j d k r i = { r with st := entryOver (entryFailed r.st (.ae a) o.home j (entrySeq o i) st (entryRepeats o i)) a j d o i st (entryGen r.st o i) 0 } := by
  obtain ⟨n, rfl⟩ := Nat.exists_eq_succ_of_ne_zero hne
  simp only [decodeEntry, ho, hh, if_neg hl, hb, Bool.false_eq_true, if_false, hst]

/-- Settles O25: each operation by its start, its refusals and its whole run. -/
theorem attentionEngines : Obligations.AttentionEngines := by
  intro s a d j u h hj q s1
  refine ⟨fun o k ho => ⟨fun x ht hx => ?appendOn, fun x ht hx => ?gatherOn, fun ht => aeDecode_goes_on h hj ht k ho⟩,
    fun hn ht => ⟨fun k r he hr => ?appendRefused, fun k x he hx => ?appendFull, fun o x kb vb ke ve ho hx he => ?append⟩,
    fun hn ht => ⟨fun k r he => ?gatherRefused, fun o x gl ho hx he hg => ?gather⟩,
    fun hn ht k => ⟨aeDecode_foreign_space h hj ht k hn, fun hs => ⟨fun va hw => aeDecode_unwritable h hj ht k hn hs hw,
      fun tbl hw hr => aeDecode_starts h hj ht k hn hs hw hr⟩⟩,
    fun k r o i st _ ho hh hl hb => decodeEntry_refused ho hh hl hb⟩
  case appendOn => rw [aeAppend_runs h hj ht, withOp_goes_on ho hx]
  case gatherOn => rw [aeGather_runs h hj ht, withOp_goes_on ho hx]
  case appendRefused => rw [aeAppend_runs h hj ht, withOp_refused hn he hr]
  case appendFull => rw [aeAppend_runs h hj ht, withOp_full hn he hx]
  case append =>
    intro layer count space src m e keys hkb hvb hke hve
    have reads : AppendReads s1 a j d x kb vb ke ve := ⟨hkb, hvb, hke, hve⟩
    have start (k : AeChk) : exec (.aeAppend a k) s = .next (runAppend s1 a k j d q x o) := by
      rw [aeAppend_runs h hj ht, withOp_starts hn ho hx he]
    refine ⟨fun r hw k => ?_, fun hw => ?_⟩
    · rw [start, runAppend_walk_fails reads hw]
    · rw [start, runAppend_whole reads hw]
      rfl
  case gatherRefused => rw [aeGather_runs h hj ht, withOp_refused hn he (gatherErr_ne_full he)]
  case gather =>
    intro v first y keys rows fs
    have start (k : AeChk) : exec (.aeGather a k) s = .next (runGather s1 a k d q x o) := by
      rw [aeGather_runs h hj ht, withOp_starts hn ho hx he]
    refine ⟨fun r hw k => ?_, fun hw hrows hexps hgood => ?_⟩
    · rw [start, runGather_walk_fails hg hw]
    · rw [start, runGather_whole hg hw ⟨hrows, hexps⟩ hgood]
      rfl

end Sys2Proof.Machine
end

section
/-! SUPPORT. The KV pools, the commands on sequences, and the refills, swaps and releases that follow (R141 to R166). -/

namespace Sys2Proof.Machine

variable {s a : State} {n : SliceId} {w : Line} {x : KvSeq} {k : AeId → Nat → KvSeq → Res}

/-! ### The commands (Table 12-8) -/

/-- A command names a sequence of the issuing slice, outside PARKED. -/
def NamesSeq (a : State) (n : SliceId) (w : Line) (x : KvSeq) : Prop :=
  fld w 8 1 ≤ 15 ∧ fld w 10 2 ≤ 1023 ∧ a.kv (BitVec.ofNat 4 (fld w 8 1)) (fld w 10 2) = some x ∧ x.slice = n ∧ parked a = false

theorem withSeq_of (h : NamesSeq a n w x) : withSeq a n w k = k (BitVec.ofNat 4 (fld w 8 1)) (fld w 10 2) x := by
  obtain ⟨hae, hseq, hkv, hslice, hp⟩ := h
  simp [withSeq, Nat.not_lt.mpr hae, Nat.not_lt.mpr hseq, hkv, hslice, hp]

/-- SEQ_CREATE with fields in range answers for its slice's quotas, and then makes the sequence. -/
theorem seqCreate_of {f : Flight} (hw : seqFieldErr w = none) (hp : parked a = false) :
    let ae : AeId := BitVec.ofNat 4 (fld w 8 1)
    let streams := fld w 14 2 * fld w 11 1
    let ps := pickPages a (tablePages streams) false
    let x := newSeq a n w ae 0 ps
    let pages := if x.cls.toNat < 2 then 0 else fullNeed x * streams
    let bytes := 8192 + 16384 * streams + 32768 * pages
    (fits a n 4 1 = false → seqCreate a n f w = .err 7 4) ∧
    (fits a n 4 1 = true → fits a n 0 bytes = false → seqCreate a n f w = .err 7 0) ∧
    (∀ q, fits a n 4 1 = true → fits a n 0 bytes = true → ps.length = tablePages streams → pages ≤ (a.ae ae).free.length →
      freeDescriptor a ae = some q → seqCreate a n f w = .ok (createSeq a n ae q (newSeq a n w ae q ps)) (payload [(0, 2, q)])) := by
  intro ae streams ps x pages bytes
  unfold seqCreate
  simp only [hw]
  refine ⟨fun h4 => ?_, fun h4 h0 => ?_, fun q h4 h0 hps hfree hq => ?_⟩
  · exact (if_neg (by simp [hp])).trans (if_pos (by simp [h4]))
  · exact (if_neg (by simp [hp])).trans ((if_neg (by simp [h4])).trans (if_pos (ne_true_of_eq_false h0)))
  · refine (if_neg (by simp [hp])).trans ((if_neg (by simp [h4])).trans ((if_neg (not_not_intro h0)).trans
      ((if_neg (Nat.not_lt.mpr (Nat.le_of_eq hps.symm))).trans ((if_neg (Nat.not_lt.mpr hfree)).trans ?_))))
    rw [hq]

/-! ### Refills (R161, R162, R273) -/

section
variable {e : AeId} {q : SeqId} (hh : refillHead s e = some q) (hx : s.kv e q.toNat = some x)

/-- The refill that is served first ranks above every other. -/
theorem refillHead_ranks_first (hh : refillHead s e = some q) : ∀ r ∈ (s.ae e).refills, seqClass s e r ≤ seqClass s e q := by
  simpa using List.find?_some hh

include hh hx

theorem kvRefill_of : exec (.kvRefill e) s = .next (
    let t := unmapStale s e q.toNat
    if x.state ≠ .resident ∨ x.maxTokens ≤ x.capacity then dropRefill s e q
    else if 2 ≤ x.cls.toNat then turnRing s e q
    else if ¬ fits t x.slice 0 (32768 * x.streams) then refillRefused t e q x.slice
    else if (t.ae e).free.length < x.streams then refillWaits t e q
    else if ((t.kv e q.toNat).map entryTaken).getD false then t
    else mapRefill (takeSpare t e q.toNat x.streams) e q) := by
  change execKvRefill e s = _
  simp only [execKvRefill, hh, hx]
  rfl

theorem kvRefill_not_needed (h : x.state ≠ .resident ∨ x.maxTokens ≤ x.capacity) : exec (.kvRefill e) s = .next (dropRefill s e q) :=
  (kvRefill_of hh hx).trans (congrArg _ (if_pos h))

section
variable (hr : x.state = .resident) (hc : x.capacity < x.maxTokens)
include hr hc

theorem kvRefill_turns (h2 : 2 ≤ x.cls.toNat) : exec (.kvRefill e) s = .next (turnRing s e q) :=
  (kvRefill_of hh hx).trans (congrArg _ ((if_neg (by simp [hr, hc])).trans (if_pos h2)))

/-- A refill of class 0 or 1 meets its slice's quota first, then the pool, and then the entries it takes. -/
theorem kvRefill_pool (h2 : x.cls.toNat < 2) :
    let t := unmapStale s e q.toNat
    (fits t x.slice 0 (32768 * x.streams) = false → exec (.kvRefill e) s = .next (refillRefused t e q x.slice)) ∧
    (fits t x.slice 0 (32768 * x.streams) = true →
      ((t.ae e).free.length < x.streams → exec (.kvRefill e) s = .next (refillWaits t e q)) ∧
      (∀ y, x.streams ≤ (t.ae e).free.length → t.kv e q.toNat = some y →
        (entryTaken y = true → exec (.kvRefill e) s = .next t) ∧
        (entryTaken y = false → exec (.kvRefill e) s = .next (mapRefill (takeSpare t e q.toNat x.streams) e q)))) := by
  intro t
  have hneeded : ¬ (x.state ≠ .resident ∨ x.maxTokens ≤ x.capacity) := by simp [hr, hc]
  rw [kvRefill_of hh hx]
  simp only [if_neg hneeded, if_neg (Nat.not_le.mpr h2)]
  refine ⟨fun hf => ?_, fun hf => ⟨fun hl => ?_, fun y hl hy => ⟨fun ht => ?_, fun ht => ?_⟩⟩⟩
  · rw [if_pos (ne_true_of_eq_false hf)]
  · rw [if_neg (not_not_intro hf), if_pos hl]
  · rw [if_neg (not_not_intro hf), if_neg (Nat.not_lt.mpr hl), if_pos (by simp [t, hy, ht])]
  · rw [if_neg (not_not_intro hf), if_neg (Nat.not_lt.mpr hl), if_neg (by simp [t, hy, ht])]

end

end

/-! ### Swaps (R163) -/

section
variable {e : AeId} {q : SeqId} (hx : s.kv e q.toNat = some x)
include hx

theorem swapOutComplete_early (h : x.state ≠ .swapOut ∨ (oldest (s.ae e)).toNat ≤ x.swapTag.toNat) : exec (.swapOutComplete e q) s = .next s := by
  change execSwapOutComplete e q s = _
  simp only [execSwapOutComplete, hx]
  refine doWhen_false ?_
  obtain h | h := h
  · simp [h]
  · simp [Nat.not_lt.mpr h]

theorem swapInComplete_other (h : x.state ≠ .swapIn) : exec (.swapInComplete e q) s = .next s := by
  change execSwapInComplete e q s = _
  simp only [execSwapInComplete, hx]
  exact doWhen_false (by simp [h])

section
variable (hs : x.state = .swapOut) (ht : x.swapTag.toNat < (oldest (s.ae e)).toNat)
include hs ht

/-- A sequence whose image the swap area cannot take stays. -/
theorem swapOutComplete_refused (hp : swapPlace (s.slice x.slice) (swapPageSize * x.frames.length) = none) :
    exec (.swapOutComplete e q) s = .next (reclaimNow x.slice (swapRefused s e q.toNat x)) := by
  change execSwapOutComplete e q s = _
  simp only [execSwapOutComplete, hx, hp]
  exact doWhen_true (by simp [hs, ht])

/-- A sequence that the swap area takes is swapped out, or freed where a page of it fails its check. -/
theorem swapOutComplete_placed {va : Nat} (hp : swapPlace (s.slice x.slice) (swapPageSize * x.frames.length) = some va) :
    (badPage s x = false → exec (.swapOutComplete e q) s = .next (reclaimNow x.slice (swapDone s e q.toNat x va))) ∧
    (badPage s x = true → exec (.swapOutComplete e q) s =
      .next (reclaimNow x.slice (kvNotice (freeSeq (copyOut s x va) e q.toNat) e q.toNat 3 x.slice))) := by
  rw [show exec (.swapOutComplete e q) s = execSwapOutComplete e q s from rfl]
  simp only [execSwapOutComplete, hx, hp]
  exact ⟨fun hb => doWhen_next (by simp [hs, ht]) (by simp [hb]), fun hb => doWhen_next (by simp [hs, ht]) (by simp [hb])⟩

end

section
variable (hs : x.state = .swapIn)
include hs

theorem swapInComplete_verified {slot : SwapSlot} {ps : List Bytes} (hf : (s.slice x.slice).swapSlots.find? (fun k => k.ae = e ∧ k.seq = q) = some slot)
    (hp : swapPages s x slot = some ps) :
    let t := (x.frames.zip ps).foldl (fun s p => s.upMem (fun m => { m with dram := m.dram.write p.1 p.2 })) s
    let t := dropSlot (t.setKv e q.toNat (some { x with state := .resident })) e q.toNat x.slice
    exec (.swapInComplete e q) s = .next (swapInDone (kvNotice (pageTraffic t x true) e q.toNat 2 x.slice) e q x.slice 0) := by
  change execSwapInComplete e q s = _
  simp only [execSwapInComplete, hx, hf, hp]
  exact doWhen_true (by simp [hs])

/-- A sequence without an image is freed. -/
theorem swapInComplete_lost (hf : (s.slice x.slice).swapSlots.find? (fun k => k.ae = e ∧ k.seq = q) = none) :
    exec (.swapInComplete e q) s = .next (swapInDone (kvNotice (freeSeq s e q.toNat) e q.toNat 4 x.slice) e q x.slice 25) := by
  change execSwapInComplete e q s = _
  simp only [execSwapInComplete, hx, hf]
  exact doWhen_true (by simp [hs])

end

end

/-- Settles O36: each command by the checks of its body in their order, each event by the lemma of its row. -/
theorem sequenceMemory : Obligations.SequenceMemory := by
  refine ⟨⟨onRow (fun _ _ _ => rfl) (by decide) ?pool, onRow (fun _ _ _ => rfl) (by decide) ?create, onRow (fun _ _ _ => rfl) (by decide) ?free,
    onRow (fun _ _ _ => rfl) (by decide) ?globals, onRow (fun _ _ _ => rfl) (by decide) ?swapOut, onRow (fun _ _ _ => rfl) (by decide) ?swapIn⟩,
    fun s e => ⟨fun hh => ?noRefill, fun q x hh hx => ?refill, fun q x hx => ?swaps, rfl⟩⟩
  case pool =>
    intro a n w f gives hg pages e hae hmin hmax hp
    have body {r : Res} := fun e => hg r rfl ((if_neg (Nat.not_lt.mpr hae)).trans ((if_neg (by omega)).trans ((if_neg (by simp [hp])).trans e)))
    exact ⟨fun hl hf => body ((if_pos hl).trans (if_pos hf)), fun hl hf => body ((if_pos hl).trans (if_neg (Nat.not_lt.mpr hf))),
      fun hge hps => body ((if_neg (Nat.not_lt.mpr hge)).trans (if_neg (Nat.not_lt.mpr (Nat.le_of_eq hps.symm))))⟩
  case create =>
    intro a n w f gives hg streams ps x pages hw hp
    obtain ⟨hcount, hbytes, hok⟩ := seqCreate_of (n := n) (f := f) hw hp
    exact ⟨fun h4 => hg _ rfl (hcount h4), fun h4 h0 => hg _ rfl (hbytes h4 h0),
      fun q h4 h0 hps hfree hq => hg _ rfl (hok q h4 h0 hps hfree hq)⟩
  case free =>
    intro a n w f gives hg x hx
    have body {r : Res} := fun e => hg r rfl ((withSeq_of hx).trans e)
    exact ⟨fun hb => body (if_pos hb), fun hl ho hi => body (if_neg (by simp [hl, ho, hi]))⟩
  case globals =>
    intro a n w f gives hg x bs hx hcount hbs t ts
    have body {r : Res} := fun e => hg r rfl ((withSeq_of hx).trans ((if_neg (Nat.not_lt.mpr hcount)).trans ((withStruct_of hbs).trans e)))
    refine ⟨fun hbad => body (if_pos ?_), fun hasc hlen hsp hr hfit u hu => body ?_⟩
    · obtain hbad | ⟨v, hv, hle⟩ := hbad
      · exact .inl (ne_true_of_eq_false hbad)
      · exact .inr (.inl (List.any_eq_true.mpr ⟨v, hv, decide_eq_true hle⟩))
    · have accepted : ¬ (¬ ascending 0 ts = true ∨ ts.any (fun t => decide (x.length ≤ t)) = true ∨
          (¬ x.sparse = true ∧ fld w 12 1 ≠ 0) ∨ x.state ≠ .resident) := by
        simpa [hasc, hsp, hr] using hlen
      exact (if_neg accepted).trans ((if_neg (not_not_intro hsp)).trans ((if_neg (not_not_intro hfit)).trans (by rw [hu])))
  case swapOut =>
    intro a n w f gives hg x hx
    have body {r : Res} := fun e => hg r rfl ((withSeq_of hx).trans e)
    refine ⟨fun hb => body (if_pos (by simpa using hb)), fun hc hr ha => body (if_neg ?_)⟩
    simp [Nat.not_le.mpr hc, hr, Option.isSome_iff_ne_none.mp ha]
  case swapIn =>
    intro a n w f gives hg x hx ps
    have body {r : Res} := fun e => hg r rfl ((withSeq_of hx).trans e)
    refine ⟨fun hs => body (if_pos hs), fun hs hf => body ?_, fun hs hf hps hfree => body ?_⟩
    · exact (if_neg (not_not_intro hs)).trans (if_pos (ne_true_of_eq_false hf))
    · exact (if_neg (not_not_intro hs)).trans ((if_neg (not_not_intro hf)).trans ((if_neg (Nat.not_lt.mpr (Nat.le_of_eq hps.symm))).trans (if_neg (Nat.not_lt.mpr hfree))))
  case noRefill =>
    change execKvRefill e s = _
    simp only [execKvRefill, hh, did]
  case refill =>
    exact ⟨refillHead_ranks_first hh, kvRefill_not_needed hh hx, kvRefill_turns hh hx,
      fun hr hc h2 => (kvRefill_pool hh hx hr hc h2).1, fun hr hc h2 => (kvRefill_pool hh hx hr hc h2).2⟩
  case swaps =>
    exact ⟨swapOutComplete_early hx, fun hs ht => ⟨swapOutComplete_refused hx hs ht, fun va hp => (swapOutComplete_placed hx hs ht hp).1,
      fun va hp => (swapOutComplete_placed hx hs ht hp).2⟩, swapInComplete_other hx, fun hs slot ps => swapInComplete_verified hx hs,
      swapInComplete_lost hx⟩

end Sys2Proof.Machine
end

section
/-! SUPPORT. The fallback surface of a head, the time commands, and the commands of the control engine
(R196, R398, R436, R439, R440, R465, R468 to R473). -/

namespace Sys2Proof.Machine

variable {a : State} {n : SliceId} {f : Flight} {w : Line}

/-- LOOP_COEFF on a loop of the issuer that is neither locked nor in a tuning: the word waits for its sample while the loop runs and
keeps its shape, and is refused otherwise. -/
theorem loopCoeff_of :
    let l := fld w 8 1
    let k := fld w 9 1
    let x : BitVec 128 := BitVec.ofNat 128 (fld w 16 16)
    let c := lpWord (loopSet a l) k
    l < 32 → ownerSlice a 3 l = n → k ≤ 7 → wordOk x (slotOrder a l k) = true → locked a (0x9000000 + l) = false → (a.loop l).tuning = none →
    loopCoeff a n f w =
      if (a.loop l).mode = .off ∨ loopSafe a l (loopSet a l) ∨ lpStages (loopSet a l) ≤ k ∨ swType x ≠ swType c ∨ swOrder x ≠ swOrder c
      then .err stRefused 0
      else .wait ((a.upGroup (0x9000000 + l) (fun y => { y with shadow := setFld y.shadow (192 + 16 * k) 16 x.toNat, written := true })).upLoop l
        (fun y => { y with coeffs := y.coeffs ++ [{ stage := k, word := x, at_ := a.now, tag := f.tag, pos := f.pos, slice := n }] })) .commit := by
  dsimp only
  intro hl ho hk hw hlock ht
  refine (withOwned_of hl ho).trans ((if_neg (Nat.not_lt.mpr hk)).trans ((if_neg (not_not_intro hw)).trans (if_neg ?_)))
  simp [hlock, ht]

/-- LOOP_TUNE MODE 1 or 2 with a structure and a destination that pass: refused by the loop's state, or started. -/
theorem loopTune_of {relay : Bool} {bs : Bytes} :
    let l := fld w 8 1
    let t : Line := BitVec.ofNat 512 (leNat bs)
    let b := structRead a n (fld w 16 8) 64
    l < 32 → ownerSlice a 3 l = n → StructAt a n w 16 (fld w 16 8) 64 bs → tuneErr t relay = none →
    DestAt b n w 24 (if relay then 32 else 16 * fld t 8 4) →
    loopTune relay a n f w = match tuneRefusal b l relay with
      | some e => .err e.1 e.2
      | none => .wait (b.upLoop l (fun x => { x with
          mode := .tune
          tuning := some { relay := relay, w := t, dest := fld w 24 8, slice := n, n := 0, phi := 0, recs := [], last := tget 0 x.outs 0,
                           ups := [], es := [] } })) (.tune (BitVec.ofNat 5 l)) := by
  dsimp only
  intro hl ho hs he hd
  refine (withOwned_of hl ho).trans ((withStruct_of hs).trans ?_)
  simp only [he]
  exact withDest_of hd

/-- CE_SPLIT in either MODE: busy while one waits, refused by what the mode does not allow, or waiting for its edge. -/
theorem splitBody_of {split : Bool} (h : fld w 8 1 ≤ 1) :
    splitBody split a n f w = if a.ctl.waiting.isSome then .err stBusy 8
      else if a.ctl.degraded ∨ (split ∧ splitRefused a) then .err stRefused 0
      else .wait (a.upCtl (fun c => { c with waiting := some { split := split, due := dueCount a, tag := f.tag, pos := f.pos } })) .commit :=
  if_neg (Nat.not_lt.mpr h)

/-- The rows of LOOP_TUNE MODE 1 and MODE 2 run one body. -/
theorem exec_loopTune {row : SliceId → Line → Instr} {relay : Bool} (hr : row = if relay then Instr.loopTuneRelay else Instr.loopTuneInject)
    (n : SliceId) (w : Line) (s : State) :
    exec (row n w) s = runCmd (tuneSpec (fun w => fld w 9 1 == if relay then 2 else 1)) (loopTune relay) n w s := by
  subst hr; cases relay <;> rfl

/-- The rows of CE_SPLIT with MODE 1 and with MODE 0 run one body. -/
theorem exec_ceSplit {row : SliceId → Line → Instr} {split : Bool} (hr : row = if split then Instr.ceSplit else Instr.ceJoin)
    (n : SliceId) (w : Line) (s : State) :
    exec (row n w) s = runCmd
      { op := 0x0908, zero := true, named := [(8, 1)], mine := fun w => if split then fld w 8 1 != 0 else fld w 8 1 == 0 } (splitBody split) n w s := by
  subst hr; cases split <;> rfl

/-- Settles O37: each command by the checks of its body in their order. -/
theorem timeAndLoopCommands : Obligations.TimeAndLoopCommands := by
  refine ⟨onRow (fun _ _ _ => rfl) (by decide) ?fallback, onRow (fun _ _ _ => rfl) (by decide) ?set, onRow (fun _ _ _ => rfl) (by decide) ?read,
    onRow (fun _ _ _ => rfl) (by decide) ?coeff, onRow (fun _ _ _ => rfl) (by decide) ?stop,
    fun row relay hr => onRow (exec_loopTune hr) (by decide) ?tune, fun row split hr => onRow (exec_ceSplit hr) (by decide) ?split⟩
  case fallback =>
    intro a n w f gives hg ls bs hh ho hlen hp hls b hlayer hbs
    refine hg _ rfl ((withOwned_of hh ho).trans ((if_neg (Nat.ne_of_gt hlen)).trans ((if_neg (ne_true_of_eq_false hp)).trans
      ((withStruct_of hls).trans ?_))))
    simp only [hlayer]
    exact withStruct_of hbs
  case set =>
    intro a n w f gives hg
    have body {r : Res} := fun e => hg r rfl e
    exact ⟨fun h => body (if_pos h), fun h => body ((if_neg (Nat.not_lt.mpr (Nat.le_of_eq h))).trans (if_pos h)),
      fun h => body ((if_neg (Nat.not_lt.mpr (Nat.le_of_lt h))).trans (if_neg (Nat.ne_of_lt h)))⟩
  case read =>
    exact fun a n w f gives hg => ⟨fun h => hg _ rfl (if_pos h), fun h => hg _ rfl (if_neg (Nat.not_lt.mpr h))⟩
  case coeff =>
    intro a n w f gives hg l k x c hl ho hk hw hlock ht
    have body {r : Res} := fun e => hg r rfl ((loopCoeff_of hl ho hk hw hlock ht).trans e)
    refine ⟨fun hm hs hst hty hor => body (if_neg ?_), fun hbad => body (if_pos (hbad.imp_right .inr))⟩
    rintro (h | h | h | h | h)
    · exact hm h
    · exact ne_true_of_eq_false hs h
    · exact Nat.not_le.mpr hst h
    · exact h hty
    · exact h hor
  case stop =>
    intro a n w f gives hg hl ho hm
    exact hg _ (by simp [hm]) ((withOwned_of hl ho).trans (if_neg (not_not_intro hm)))
  case tune =>
    intro a n w f gives hg bs l t hm hl ho hs b he hd
    have body {r : Res} := fun e => hg r (beq_iff_eq.mpr hm) ((loopTune_of hl ho hs he hd).trans e)
    exact ⟨fun e h => body (by rw [h]), fun h => body (by rw [h])⟩
  case split =>
    intro a n w f gives hg hm
    have hmine : (if split then fld w 8 1 != 0 else fld w 8 1 == 0) = true := by cases split <;> simp [hm]
    have body {r : Res} := fun e => hg r hmine ((splitBody_of (by cases split <;> simp [hm])).trans e)
    refine ⟨fun hw => body (if_pos hw), fun hw hd => body ?_, fun hw hd hs => body ?_⟩
    · exact (if_neg (by simp [hw])).trans (if_pos hd)
    · exact (if_neg (by simp [hw])).trans (if_neg (by simpa [hd] using hs))

end Sys2Proof.Machine
end

section
/-! SUPPORT. The events of a display head, row by row (R191 to R198). -/

namespace Sys2Proof.Machine

variable {s : State} {h : HeadId}

/-- A head that is off, or whose frame has all its lines, sends none. -/
theorem lineSend_idle {n : Nat} (hl : headOn s h = false ∨ vActive (headSet s h) ≤ (s.head h).line) :
    exec (.lineSend h n) s = .next s := by
  refine doWhen_false ?_
  obtain hoff | hend := hl
  · simp [hoff]
  · simp [Nat.not_lt.mpr hend]

/-- While the link does not train, the pixels of a line whose data came in time are those of the head (R191, R192). -/
theorem linePixels_inTime (w : BitVec 4608) (ht : trains s (s.head h) = false) :
    (List.range (hActive w)).map (fun ox => if trains s (s.head h) ∨ hActive w ≤ ox then (colour10 (fld w 32 4), [])
      else headPixel s h w (s.head h).line ox) = (List.range (hActive w)).map (headPixel s h w (s.head h).line) := by
  refine List.map_congr_left fun ox hox => if_neg ?_
  simpa [ht] using hox

/-- A line whose data all came in time: the head's pixels, the layers that failed a check reported once a frame, and the bytes drawn. -/
theorem lineSend_inTime (hon : headOn s h = true) (hl : (s.head h).line < vActive (headSet s h)) (ht : trains s (s.head h) = false) :
    let w := headSet s h
    let ps := (List.range (hActive w)).map (headPixel s h w (s.head h).line)
    let bad := (ps.flatMap (·.2)).eraseDups
    let dark := s.saf.curtain && (safeFrame w == 1 || safeFrame w == 2)
    let t := (s.emit (.line h (ps.map (fun p => outPixel (fld w 3 1) p.1)))).upHead h (fun y => { y with
      line := y.line + 1, check := y.check || !bad.isEmpty, back := (y.back ++ bad).eraseDups, scanned := y.scanned && !dark })
    exec (.lineSend h (hActive w)) s = .next (drawTokens ((bad.filter (fun i => !(s.head h).back.contains i)).foldl
      (fun s _ => reportCheckOf s .b midDisplay (headSlice s h) false) t) (.realTime (rtRank 0 midDisplay)) (lineBytesOf w (s.head h).line)) := by
  refine doWhen_next (by simp [hon, hl]) ?_
  simp only [linePixels_inTime (headSet s h) ht]
  simp only [ht, Nat.lt_irrefl, decide_false, Bool.not_false, Bool.and_true, Bool.or_false,
    Bool.false_eq_true, if_false]

/-- Settles O49: each event of a head by the lemma of its row. -/
theorem displayEvents : Obligations.DisplayEvents := fun _ _ =>
  ⟨rfl, fun _ => rfl, fun _ => lineSend_idle, lineSend_inTime⟩

end Sys2Proof.Machine
end

section
/-! SUPPORT. The raster front ends: the latched context, binning, clears and resolves, and the tiles they issue (R172 to R185). -/

namespace Sys2Proof.Machine

variable {s : State} {r : RfeId} {d : Line} {j : Job} {x : Rc}

/-! ### Bits of a metadata byte (R184) -/

theorem bitAt_eq_testBit (v i : Nat) : bitAt v i = v.testBit i := by
  rw [Nat.testBit_eq_decide_div_mod_eq, bitAt, Nat.shiftRight_eq_div_pow]
  rfl

/-- A number with bit i clear is what stands above the bit and what stands below it. -/
theorem split_at_clear_bit {v i : Nat} (h : v.testBit i = false) : v = 2 ^ (i + 1) * (v / 2 ^ i / 2) + v % 2 ^ i := by
  have hsplit := Nat.div_add_mod v (2 ^ i)
  have heven : v / 2 ^ i = 2 * (v / 2 ^ i / 2) := by
    rw [Nat.testBit_eq_decide_div_mod_eq, decide_eq_false_iff_not] at h
    omega
  rw [Nat.pow_succ, Nat.mul_assoc, ← heven, hsplit]

theorem add_two_pow_eq_or {v i : Nat} (h : v.testBit i = false) : v + 2 ^ i = v ||| 2 ^ i := by
  have hlow : v % 2 ^ i < 2 ^ i := Nat.mod_lt _ (Nat.two_pow_pos i)
  have hlow' : v % 2 ^ i + 2 ^ i < 2 ^ (i + 1) := by rw [Nat.pow_succ]; omega
  have hv := split_at_clear_bit h
  generalize v / 2 ^ i / 2 = q at hv
  generalize v % 2 ^ i = l at *
  subst hv
  rw [Nat.add_assoc, Nat.two_pow_add_eq_or_of_lt hlow', ← Nat.or_two_pow_eq_add_of_lt hlow, Nat.two_pow_add_eq_or_of_lt (by omega), Nat.or_assoc]

theorem setBit_eq_or (i v : Nat) : setBit i v = v ||| 2 ^ i := by
  unfold setBit
  rw [bitAt_eq_testBit]
  split
  · case isTrue h =>
    refine Nat.eq_of_testBit_eq fun k => ?_
    by_cases hk : i = k
    · subst hk; simp [h]
    · simp [Nat.testBit_or, Nat.testBit_two_pow_of_ne hk]
  · case isFalse h => exact add_two_pow_eq_or (Bool.eq_false_iff.mpr h)

/-- The two flags that RFE_CLEAR sets in a metadata byte are the low bits of its mask. -/
theorem clearMask_eq_or (m v : Nat) :
    (let v := if bitAt m 0 then setBit 0 v else v
     if bitAt m 1 then setBit 1 v else v) = v ||| m % 4 := by
  have h0 : bitAt m 0 = decide (m % 4 % 2 = 1) := by
    rw [bitAt_eq_testBit, Nat.testBit_eq_decide_div_mod_eq]
    exact decide_eq_decide.mpr (by omega)
  have h1 : bitAt m 1 = decide (m % 4 / 2 = 1) := by
    rw [bitAt_eq_testBit, Nat.testBit_eq_decide_div_mod_eq]
    exact decide_eq_decide.mpr (by omega)
  simp only [h0, h1, setBit_eq_or]
  obtain hm | hm | hm | hm : m % 4 = 0 ∨ m % 4 = 1 ∨ m % 4 = 2 ∨ m % 4 = 3 := by omega
  all_goals simp [hm, Nat.or_assoc]

/-! ### The descriptor and its context (R172) -/

theorem ctr_atDesc (s : State) (u : UnitId) (d : Line) (c : CtrId) : (atDesc s u d).ctr c = s.ctr c := rfl

theorem rfeHead_of {t : Nat} (h : headOf s (.rfe r) .own = some d) (hj : jobOf s (.rfe r) = some j) (ht : typeOf d = t) :
    rfeHead s r t = some (d, j) := by
  simp only [rfeHead, h, hj]
  exact if_pos ht

theorem withCtx_latches {bs : Bytes} {k : Rc → State} (hr : jobRead s j (fld d 8 8) 128 = .ok bs) (hx : BitVec.ofNat 1024 (leNat bs) = x)
    (hok : ctxOk x = true) : withCtx s r j d k = k x := by
  subst hx
  simp only [withCtx, hr]
  exact if_pos hok

theorem withCtx_refuses {bs : Bytes} {k : Rc → State} (hr : jobRead s j (fld d 8 8) 128 = .ok bs) (hx : BitVec.ofNat 1024 (leNat bs) = x)
    (hbad : ctxOk x = false) : withCtx s r j d k = failUnit (atDesc s (.rfe r) d) (.rfe r) 0x01 := by
  subst hx
  simp only [withCtx, hr]
  exact if_neg (ne_true_of_eq_false hbad)

/-! ### RFE_RENDER (R170 to R177, R180) -/

section Binning
variable {b : RasterSt}

theorem binFrom_foreign_handoff (hc : (s.ctr (BitVec.ofNat 13 (fld x 78 2))).slice ≠ some j.slice) (k : RenderChk) :
    binFrom s r j x b k = failUnit (s.upRaster r (fun _ => b)) (.rfe r) 0x06 := if_pos hc

theorem binFrom_pass (hc : (s.ctr (BitVec.ofNat 13 (fld x 78 2))).slice = some j.slice) (n : Option Nat) :
    binFrom s r j x b { upTo := n } = settleTiles (bin s r j x (n.map (· + b.triangles)) b) r j x := by
  rw [binFrom, if_neg (not_not_intro hc)]
  simp [checkedBy, chkOutcome]

theorem binFrom_fail (hc : (s.ctr (BitVec.ofNat 13 (fld x 78 2))).slice = some j.slice) :
    binFrom s r j x b { chk := .fail } = failCheck (s.upRaster r (fun _ => b)) (.rfe r) 1 false := by
  rw [binFrom, if_neg (not_not_intro hc)]
  simp [checkedBy, chkOutcome]

end Binning

/-- A render's first command latches its context and bins from the first triangle. -/
theorem rfeRender_latches {bs : Bytes} (h : headOf s (.rfe r) .own = some d) (hj : jobOf s (.rfe r) = some j) (ht : typeOf d = 0x20)
    (hr : jobRead s j (fld d 8 8) 128 = .ok bs) (hx : BitVec.ofNat 1024 (leNat bs) = x) (hok : ctxOk x = true) (hn : (s.raster r).ctx = none)
    (k : RenderChk) : exec (.rfeRender r k) s = .next (binFrom (atDesc s (.rfe r) d) r j x { ctx := some x } k) := by
  change execRfeRender r k s = _
  simp only [execRfeRender, rfeHead_of h hj ht, hn, withCtx_latches hr hx hok, did]

/-- A render that has its context goes on where its binning stands, unless it finishes tiles. -/
theorem rfeRender_resumes (h : headOf s (.rfe r) .own = some d) (hj : jobOf s (.rfe r) = some j) (ht : typeOf d = 0x20)
    (hx : (s.raster r).ctx = some x) (k : RenderChk) :
    exec (.rfeRender r k) s = .next (if (s.raster r).finishing then s else binFrom s r j x (s.raster r) k) := by
  change execRfeRender r k s = _
  simp only [execRfeRender, rfeHead_of h hj ht, hx, doWhen]
  cases (s.raster r).finishing <;> rfl

/-! ### RFE_CLEAR and RFE_RESOLVE (R184, R185) -/

theorem rfeClear_refuses {bs : Bytes} (h : headOf s (.rfe r) .own = some d) (hj : jobOf s (.rfe r) = some j) (ht : typeOf d = 0x21)
    (hr : jobRead s j (fld d 8 8) 128 = .ok bs) (hx : BitVec.ofNat 1024 (leNat bs) = x) (hbad : ctxOk x = false) :
    exec (.rfeClear r) s = .next (failUnit (atDesc s (.rfe r) d) (.rfe r) 0x01) := by
  change execRfeClear r s = _
  simp only [execRfeClear, rfeHead_of h hj ht, withCtx_refuses hr hx hbad, did]

theorem rfeClear_every_tile {bs : Bytes} (h : headOf s (.rfe r) .own = some d) (hj : jobOf s (.rfe r) = some j) (ht : typeOf d = 0x21)
    (hr : jobRead s j (fld d 8 8) 128 = .ok bs) (hx : BitVec.ofNat 1024 (leNat bs) = x) (hok : ctxOk x = true) :
    exec (.rfeClear r) s = .next (rfeRan ((List.range x.tiles).foldl (fun s t => upMeta s r j x (fun v => v ||| (fld d 4 1 % 4)) t)
      (atDesc s (.rfe r) d)) r) := by
  change execRfeClear r s = _
  simp only [execRfeClear, rfeHead_of h hj ht, withCtx_latches hr hx hok, clearMask_eq_or, did]

theorem rfeResolve_every_tile {bs : Bytes} (h : headOf s (.rfe r) .own = some d) (hj : jobOf s (.rfe r) = some j) (ht : typeOf d = 0x22)
    (hr : jobRead s j (fld d 8 8) 128 = .ok bs) (hx : BitVec.ofNat 1024 (leNat bs) = x) (hok : ctxOk x = true) :
    exec (.rfeResolve r) s = .next (rfeRan ((List.range x.tiles).foldl (resolveTile r j x) (atDesc s (.rfe r) d)) r) := by
  change execRfeResolve r s = _
  simp only [execRfeResolve, rfeHead_of h hj ht, withCtx_latches hr hx hok, did]

/-! ### TILE_ISSUE (R178 to R180) -/

section Tiles
variable {lead : RfeId} {c : CoreId}

/-- The tiles in work whose core, on the front end's die, awaits a command. -/
def readyTiles (s : State) (r lead : RfeId) (j : Job) (x : Rc) : List (CoreId × TileWork) :=
  (s.raster lead).work.filterMap (fun w => (entryCore s j r w.entry).bind (fun c => if awaitsTile s x c then some (c, w) else none))

theorem finishes_of_working (h : working s (.rfe r) = true) : finishes s r = true := by
  simp only [working, Bool.and_eq_true, beq_iff_eq] at h
  obtain ⟨hrun, hjob⟩ := h
  simp only [finishes, hrun, hjob, Bool.and_self]

/-- While front ends work on a render that finishes its tiles, the first ready tile goes on, or a new one is handed out. -/
theorem tileIssue_of (hj : jobOf s (.rfe r) = some j) (hl : leadOf j = some lead) (hx : (s.raster lead).ctx = some x)
    (hf : (s.raster lead).finishing = true) (hr : working s (.rfe r) = true) (hlw : working s (.rfe lead) = true) (k : Chk) :
    exec (.tileIssue r k) s = .next (match readyTiles s r lead j x with
      | (c, w) :: _ => yieldFronts (if w.rest.isEmpty then writeOut s lead j x c w else shadeBatch s r lead j x c w k) lead j
      | [] => handTile s r lead j x) := by
  change execTileIssue r k s = _
  simp only [execTileIssue, hj, hl, hx]
  refine doWhen_next (by rw [hf, finishes_of_working hr, finishes_of_working hlw]; rfl) ?_
  rw [if_pos ⟨hr, hlw⟩]
  rfl

/-- A job with one core, which waits and has no tile, is handed the next tile. -/
theorem handTile_only_core {n : Nat} {ns : List Nat} (ht : (s.raster lead).todo = n :: ns) (hc : entryCore s j r 0 = some c)
    (h1 : j.e.cores = 1) (hw : (s.raster lead).work = []) (ha : awaitsTile s x c = true) :
    handTile s r lead j x = loadTile (s.upRaster lead (fun y => { y with
      todo := ns
      work := y.work ++ [{ entry := 0, tile := n, rest := (tget [] (s.raster lead).lists n).reverse,
                           draw := tget none (s.raster lead).lastDraw 0 }] })) c j x n := by
  have hfree : (((List.range j.e.cores).filterMap (fun k => (entryCore s j r k).map (fun c => (c, k)))).filter
      (fun p => awaitsTile s x p.1 && !(s.raster lead).work.any (fun w => w.entry == p.2))) = [(c, 0)] := by
    simp [h1, List.range_one, hc, hw, ha]
  simp only [handTile, hfree, ht, List.mergeSort_singleton]

end Tiles

/-- Settles O26: the context's descriptors by the lemmas of their rows, then the tiles by what is ready. -/
theorem rasterFrontEnds : Obligations.RasterFrontEnds := by
  refine ⟨fun s r d j bs h hj hr => ⟨fun hbad ht => rfeClear_refuses h hj ht hr rfl hbad, fun hok => ⟨fun ht hn => ?latch,
      fun ht => rfeClear_every_tile h hj ht hr rfl hok, fun ht => rfeResolve_every_tile h hj ht hr rfl hok⟩⟩,
    fun s r d j x h hj ht hx hc n => ?resume,
    fun s r lead j x hj hl hx hf hw hlw => ?tiles⟩
  case latch =>
    have render := rfeRender_latches h hj ht hr rfl hok hn
    rw [← ctr_atDesc s (.rfe r) d]
    refine ⟨fun hc k => ?_, fun hc => ⟨fun n => ?_, ?_⟩⟩
    · rw [render, binFrom_foreign_handoff hc]
    · simp [render, binFrom_pass hc]
    · rw [render, binFrom_fail hc]
  case resume =>
    rw [rfeRender_resumes h hj ht hx, binFrom_pass hc]
  case tiles =>
    have issue := tileIssue_of hj hl hx hf hw hlw
    refine ⟨fun c w ws (hready : readyTiles s r lead j x = _) hrest k => ?_, fun c w ws (hready : readyTiles s r lead j x = _) hrest k => ?_,
      fun n ns c (hready : readyTiles s r lead j x = _) ht hc h1 hnone ha k => ?_⟩
    · simp [issue k, hready, hrest]
    · simp [issue k, hready, hrest]
    · rw [issue k, hready]
      exact congrArg _ (handTile_only_core ht hc h1 hnone ha)

end Sys2Proof.Machine
end

section
/-! SUPPORT. The commands of the intake, and the samples its engines start, end and cut (R211 to R213, R217, R220 to R222, R225, R228). -/

namespace Sys2Proof.Machine

variable {s a : State} {n : SliceId} {w : Line} {e : IntakeEngine} {at_ : Nat}

/-! ### SAMPLE_SUBMIT (R211, R213) -/

/-- Descriptors without a broken field give the batch none. -/
theorem batchErr_none {ds : List Bytes} (h : ∀ d ∈ ds, sampleErr d = none) :
    ds.zipIdx.findSome? (fun p => (sampleErr p.1).map (fun e => (e.1, 64 * p.2 + e.2))) = none := by
  refine List.findSome?_eq_none_iff.mpr fun p hp => ?_
  rw [h p.1 (List.fst_mem_of_mem_zipIdx hp), Option.map_none]

/-- Some queue of an engine has more than its 1024 slots in use once a batch is queued. -/
theorem overfull_iff {ds : List Bytes} :
    [1, 2, 3].any (fun t => decide (1024 < slotsUsed a t n + (ds.filter (fun d => byteAt d 0 == t)).length)) = true ↔
      ∃ t ∈ [1, 2, 3], 1024 < slotsUsed a t n + (ds.filter (fun d => byteAt d 0 == t)).length := by
  simp only [List.any_eq_true, decide_eq_true_iff]

/-! ### DICT_LOAD (R222) and SAMPLE_RELEASE (R217) -/

/-- A dictionary that no other slice owns is free for the issuer. -/
theorem dictOwner_not_other {i : Nat} (h : ∀ m, dictOwner a i = some m → m = n) : (dictOwner a i).getD n = n := by
  cases ho : dictOwner a i with
  | none => rfl
  | some m => exact h m ho

theorem tensor_not_found {va : Nat} (h : ∀ t ∈ a.intake.tensors, t.slice = n → t.va ≠ va) :
    a.intake.tensors.find? (fun t => t.slice == n && t.va == va) = none := by
  simpa using h

section
variable {k : Nat} (hk : IntakeEngine.code e = k)
include hk

/-! ### Samples that start (R212, R228) -/

theorem sampleStart_idle (h : nextQueue s k = none) : exec (.sampleStart e at_) s = .next s := by
  subst hk
  change execSampleStart e at_ s = _
  simp only [execSampleStart, h, did]

/-- The sample whose turn it is starts where its engine has room. -/
theorem sampleStart_turn {d : Line} {ds : List Line} (h : nextQueue s k = some n) (hq : s.queueOf k n = d :: ds) :
    exec (.sampleStart e at_) s = doWhen (decide ((s.runningOn k).length < engineRoom k)) s ((s.at_ at_).upIntake (fun x => { x with
      queues := tset [] x.queues (queueKey k n) ds
      running := tset [] x.running k (s.runningOn k ++
        [{ slice := n, d := d, start := (s.at_ at_).now, maxPixels := quotaOf (s.at_ at_) n 2 }])
      turn := tset 0 x.turn k n.toNat })) := by
  subst hk
  change execSampleStart e at_ s = _
  simp only [execSampleStart, h, hq]

/-! ### Samples that end (R212, R220, R225) -/

theorem sampleEnd_idle (h : s.runningOn k = []) : exec (.sampleEnd e at_) s = .next s := by
  subst hk
  change execSampleEnd e at_ s = _
  simp only [execSampleEnd, h, did]

section
variable {x : RunSample} {xs : List RunSample} (hx : s.runningOn k = x :: xs)
include hx

/-- The oldest sample of an engine ends by itself within its budget; a dice sample has none. -/
theorem sampleEnd_oldest : exec (.sampleEnd e at_) s = doWhen (k == 3 || decide (at_ ≤ x.start + 1000 * budgetUs s k x)) s
    (endSample (sampleResult (s.at_ at_) k x).1 k x (sampleResult (s.at_ at_) k x).2) := by
  subst hk
  change execSampleEnd e at_ s = _
  simp only [execSampleEnd, hx]

/-- Once its budget is spent, the oldest sample ends cut, or whole where nothing is left to cut. -/
theorem sampleBudgetExpiry_oldest (p : Nat) : exec (.sampleBudgetExpiry e p at_) s =
    doWhen (k != 3 && decide (x.start + 1000 * budgetUs s k x ≤ at_)) s
      (let r := if cuts s k x p then cutResult (s.at_ at_) k x p else sampleResult (s.at_ at_) k x
       endSample r.1 k x r.2) := by
  subst hk
  change execSampleBudgetExpiry e p at_ s = _
  simp only [execSampleBudgetExpiry, hx]

end

end

/-- Settles O38: each command by the checks of its body in their order, each event by the lemma of its row. -/
theorem intakeSamples : Obligations.IntakeSamples := by
  refine ⟨⟨onRow (fun _ _ _ => rfl) (by decide) ?submit, onRow (fun _ _ _ => rfl) (by decide) ?dict,
      onRow (fun _ _ _ => rfl) (by decide) ?release⟩,
    fun s e at_ => ⟨sampleStart_idle rfl, fun n d ds hn hq => ⟨fun hroom => ?starts, fun hroom => ?noRoom⟩, sampleEnd_idle rfl,
      fun x xs hx => ⟨fun hin => ?ends, fun he hlate => ?late, fun p he hcut ht => ?whole, fun p he hcut ht => ?cut, fun p ht => ?early⟩⟩⟩
  case submit =>
    intro a n w f gives hg
    refine ⟨fun hk => hg _ rfl (if_pos hk), fun bs hlo hhi hp hs hds => ?_⟩
    have body {r : Res} := fun e => hg r rfl ((if_neg (not_or.mpr ⟨Nat.not_lt.mpr hlo, Nat.not_lt.mpr hhi⟩)).trans
      ((if_neg (ne_true_of_eq_false hp)).trans ((withStruct_of hs).trans e)))
    refine ⟨fun hfull => body ?_, fun hroom => body ?_⟩
    · simp only [batchErr_none hds]
      exact if_pos (overfull_iff.mpr hfull)
    · simp only [batchErr_none hds]
      refine if_neg fun hfull => ?_
      obtain ⟨t, ht, hlt⟩ := overfull_iff.mp hfull
      exact Nat.not_le.mpr hlt (hroom t ht)
  case dict =>
    intro a n w f gives hg
    refine ⟨fun hk => hg _ rfl (if_pos hk), fun h img es hk hown hh hhead himg hes => hg _ rfl ?_⟩
    refine (if_neg (Nat.not_lt.mpr hk)).trans ((if_neg (not_not_intro (dictOwner_not_other hown))).trans ((withStruct_of hh).trans ?_))
    simp only [hhead]
    refine (withStruct_of himg).trans ?_
    simp only [hes]
  case release =>
    intro a n w f gives hg
    refine ⟨fun hnone => hg _ rfl ?_, fun t ht => hg _ rfl ?_⟩
    · simp only [tensor_not_found hnone, stNoObject]
    · simp only [ht, slice_upSlice, slice_upIntake]
  case starts => exact (sampleStart_turn rfl hn hq).trans (doWhen_true (decide_eq_true hroom))
  case noRoom => exact (sampleStart_turn rfl hn hq).trans (doWhen_false (decide_eq_false (Nat.not_lt.mpr hroom)))
  case ends => exact (sampleEnd_oldest rfl hx).trans (doWhen_true (by simpa using hin))
  case late => exact (sampleEnd_oldest rfl hx).trans (doWhen_false (by simp [he, hlate]))
  case whole => exact (sampleBudgetExpiry_oldest rfl hx p).trans (doWhen_next (by simp [he, ht]) (by simp [hcut]))
  case cut => exact (sampleBudgetExpiry_oldest rfl hx p).trans (doWhen_next (by simp [he, ht]) (by simp [hcut]))
  case early => exact (sampleBudgetExpiry_oldest rfl hx p).trans (doWhen_false (by simp [ht]))

end Sys2Proof.Machine
end

section
/-! SUPPORT. The events of a camera stream, row by row (R199 to R209). -/

namespace Sys2Proof.Machine

variable {s : State} {c : CamId} {at_ : Nat} {p : CsiPacket}

/-! ### The trigger and its pin (R201, R202, R441) -/

/-- At its instant, the stream's safe point, and the trigger's edge where the stream is then configured. -/
theorem cameraTrigger_edge (hr : s.cue.running = true) (hf : (s.cam c.toNat).fired = false)
    (ht : at_ = s.cue.last + triggerAt s (edgeSet s c.toNat)) :
    let t := safePoint (endPrevious (s.at_ at_) c.toNat) (0x7000000 + c.toNat)
    exec (.cameraTrigger c at_) s = .next (if camUsed t c.toNat then fsyncRise (t.upCam c.toNat (fun x => { x with
        k := x.k + 1, trigAt := (s.at_ at_).now, set := camSet t c.toNat, cue := (s.at_ at_).cue.count, openedAt := some (s.at_ at_).now, taken := false, fired := true }))
      (camSet t c.toNat) else t) :=
  doWhen_true (by simp [hr, hf, ← ht])

/-- A stream that has been triggered and whose FSYNC names the pin. -/
theorem namesPin_iff {p : BitVec 4} {i : Nat} :
    ((s.cam i).k != 0 && bitAt (fld (s.cam i).set 62 1) 7 && fld (s.cam i).set 62 1 % 16 == p.toNat) = true ↔
      (s.cam i).k ≠ 0 ∧ bitAt (fld (s.cam i).set 62 1) 7 = true ∧ fld (s.cam i).set 62 1 % 16 = p.toNat := by
  simp only [Bool.and_eq_true, bne_iff_ne, beq_iff_eq, and_assoc]

/-- A pin that is high falls once every stream that names it, one at least, has held it for its PULSE. -/
theorem fsyncFall_lapsed {p : BitVec 4} :
    let names (c : Nat) : Prop := (s.cam c).k ≠ 0 ∧ bitAt (fld (s.cam c).set 62 1) 7 = true ∧ fld (s.cam c).set 62 1 % 16 = p.toNat
    s.intake.fsync.getLsbD p.toNat = true → (∃ c < 16, names c) → (∀ c < 16, names c → (s.cam c).trigAt + fld (s.cam c).set 68 4 ≤ at_) →
    exec (.fsyncFall p at_) s = .next (((s.at_ at_).upIntake (fun x => { x with fsync := x.fsync &&& ~~~((1 : Half) <<< p.toNat) })).emit (.fsync p false)) := by
  rintro names hpin ⟨i, hi, hn⟩ hall
  refine doWhen_true (Bool.and_eq_true_iff.mpr ⟨hpin, Bool.and_eq_true_iff.mpr
    ⟨List.any_eq_true.mpr ⟨i, List.mem_range.mpr hi, namesPin_iff.mpr hn⟩, List.all_eq_true.mpr fun j hj => ?_⟩⟩)
  refine Bool.or_eq_true_iff.mpr ?_
  by_cases hj' : names j
  · exact .inr (decide_eq_true (hall j (List.mem_range.mp hj) hj'))
  · exact .inl ((Bool.not_eq_true' _).mpr (Bool.eq_false_iff.mpr (mt namesPin_iff.mp hj')))

/-! ### Packets (R200, R203, R204, R209) -/

/-- What a header that can be read finds of its streams decides what becomes of the packet. -/
theorem csi2FrameStart_read (h : p.eccOk = true) :
    let t := (s.at_ at_).upIntake (fun x => { x with embedded := tset [] x.embedded (embeddedKey p) [] })
    exec (.csi2FrameStart p at_) s = .next (if (streamsOf (s.at_ at_) p).isEmpty then unmatchedPacket t p else (streamsOf (s.at_ at_) p).foldl frameStart t) := by
  change execCsi2FrameStart p at_ s = _
  simp [execCsi2FrameStart, h, did]

theorem csi2FrameEnd_read (h : p.eccOk = true) :
    exec (.csi2FrameEnd p) s = .next (if (streamsOf s p).isEmpty then unmatchedPacket s p else (streamsOf s p).foldl frameEnd s) := by
  change execCsi2FrameEnd p s = _
  simp [execCsi2FrameEnd, h, did]

/-- A header that cannot be corrected names no stream. -/
theorem csi2Frame_unread (h : p.eccOk = false) :
    exec (.csi2FrameStart p at_) s = .next (s.at_ at_) ∧ exec (.csi2FrameEnd p) s = .next s := by
  change execCsi2FrameStart p at_ s = _ ∧ execCsi2FrameEnd p s = _
  simp only [execCsi2FrameStart, execCsi2FrameEnd, h, did, Bool.false_eq_true, not_false_eq_true, if_true, if_false]
  exact ⟨rfl, trivial⟩

theorem csi2LongPacket_embedded {d : Bytes} (h : p.dt = 0x12) : exec (.csi2LongPacket p d) s = .next (if p.eccOk then takeEmbedded s p d else s) :=
  congrArg _ (if_pos h)

theorem csi2LongPacket_unmatched {d : Bytes} (h : p.dt ≠ 0x12) (hit : (streamsOf s p).find? (fun c => fld (camNow s c) 2 1 == p.dt.toNat) = none) :
    exec (.csi2LongPacket p d) s = .next (unmatchedPacket s p) := by
  change execCsi2LongPacket p d s = _
  simp only [execCsi2LongPacket, if_neg h, hit, did]

section
variable {i : Nat} {d : Bytes} (h : p.dt ≠ 0x12) (hit : (streamsOf s p).find? (fun c => fld (camNow s c) 2 1 == p.dt.toNat) = some i)
include h hit

theorem csi2LongPacket_line {f : CamFrame} (hf : (s.cam i).frame = some f) (hopen : f.ended = false) :
    exec (.csi2LongPacket p d) s = .next (takeLine s i f (p.eccOk && p.crcOk) d) := by
  change execCsi2LongPacket p d s = _
  simp only [execCsi2LongPacket, if_neg h, hit, hf, hopen, did, Bool.false_eq_true, if_false]

theorem csi2LongPacket_noFrame (hf : (s.cam i).frame = none) : exec (.csi2LongPacket p d) s = .next s := by
  change execCsi2LongPacket p d s = _
  simp only [execCsi2LongPacket, if_neg h, hit, hf, did]

end

/-! ### Windows and frames (R203, R208, R209) -/

theorem cameraWindowExpiry_lapsed {t : Nat} (ho : (s.cam c.toNat).openedAt = some t) (ht : t + 1000 * fld (s.cam c.toNat).set 72 4 ≤ at_) :
    exec (.cameraWindowExpiry c at_) s = .next (if (s.cam c.toNat).taken then (s.at_ at_).upCam c.toNat (fun x => { x with openedAt := none })
      else missingFrame (s.at_ at_) c.toNat) := by
  change execCameraWindowExpiry c at_ s = _
  simp only [execCameraWindowExpiry, ho]
  exact doWhen_true (decide_eq_true ht)

theorem cameraFrameDone_ended {f : CamFrame} (hf : (s.cam c.toNat).frame = some f) (he : f.ended = true) :
    exec (.cameraFrameDone c) s = .next (finishFrame s c.toNat f) := by
  change execCameraFrameDone c s = _
  simp only [execCameraFrameDone, hf]
  exact doWhen_true he

/-- Settles O48: each event of a stream by the lemma of its row. -/
theorem cameraEvents : Obligations.CameraEvents := by
  refine fun s => ⟨fun c at_ hr hf ht => ⟨fun hu => ?unused, fun hu => ?used⟩, fun p at_ => fsyncFall_lapsed,
    fun p at_ => ⟨csi2Frame_unread, fun he => ⟨fun hs => ?startNone, fun hs => ?startSome⟩, fun he hs => ?endNone, fun he hs => ?endSome⟩,
    fun p d => ⟨csi2LongPacket_embedded, csi2LongPacket_unmatched, fun i f h hit => csi2LongPacket_line h hit, fun i => csi2LongPacket_noFrame⟩,
    fun c at_ t => cameraWindowExpiry_lapsed, fun c f => cameraFrameDone_ended⟩
  case unused => rw [cameraTrigger_edge hr hf ht, if_neg (ne_true_of_eq_false hu)]
  case used => rw [cameraTrigger_edge hr hf ht, if_pos hu]
  case startNone => rw [csi2FrameStart_read he, if_pos (List.isEmpty_iff.mpr hs)]
  case startSome => rw [csi2FrameStart_read he, if_neg (mt List.isEmpty_iff.mp hs)]
  case endNone => rw [csi2FrameEnd_read he, if_pos (List.isEmpty_iff.mpr hs)]
  case endSome => rw [csi2FrameEnd_read he, if_neg (mt List.isEmpty_iff.mp hs)]

end Sys2Proof.Machine
end

section
/-! SUPPORT. The cue sheets of the reset state (R230 to R233). -/

namespace Sys2Proof.Machine

/-- Settles O6: reset leaves no bank written. -/
theorem resetSheetsSafe : Obligations.ResetSheetsSafe := banksSafe_nil

end Sys2Proof.Machine
end

section
/-! SUPPORT. The waits that a change of a counter's value releases (R252). -/

namespace Sys2Proof.Machine

variable {s : State} {u : UnitId} {w : SyncWait} {l : List SyncWait}

/-! ### MODE 1 waits, from the oldest -/

/-- The MODE 1 waits that are released come before those that stay. -/
theorem releaseMode1_order (v : Nat) (ws : List SyncWait) :
    (releaseMode1 v ws).2.2 ++ (releaseMode1 v ws).2.1.filter (·.mode1) = ws.filter (·.mode1) := by
  fun_induction releaseMode1 v ws with
  | case1 => rfl
  | case2 v w ws h r ih => simpa [h] using ih
  | case3 v w ws h hv r ih => simpa [Decidable.not_not.mp h, r] using ih
  | case4 v w ws h hv => rfl

theorem releaseMode1_keeps_mode0 (v : Nat) (ws : List SyncWait) :
    (releaseMode1 v ws).2.1.filter (fun w => !w.mode1) = ws.filter (fun w => !w.mode1) := by
  fun_induction releaseMode1 v ws with
  | case1 => rfl
  | case2 v w ws h r ih => simpa [h] using ih
  | case3 v w ws h hv r ih => simpa [Decidable.not_not.mp h, r] using ih
  | case4 v w ws h hv => rfl

/-- Each released wait takes its value. -/
theorem releaseMode1_sum (v : Nat) (ws : List SyncWait) :
    ((releaseMode1 v ws).2.2.map (fun w => w.value.toNat)).sum + (releaseMode1 v ws).1 = v := by
  fun_induction releaseMode1 v ws with
  | case1 => simp
  | case2 v w ws h r ih => exact ih
  | case3 v w ws h hv r ih => simp only [List.map_cons, List.sum_cons, r]; omega
  | case4 v w ws h hv => simp

/-- The oldest MODE 1 wait that stays asks for more than is left. -/
theorem releaseMode1_stops (v : Nat) (ws : List SyncWait) :
    ∀ w, ((releaseMode1 v ws).2.1.filter (·.mode1)).head? = some w → (releaseMode1 v ws).1 < w.value.toNat := by
  fun_induction releaseMode1 v ws with
  | case1 => simp
  | case2 v w ws h r ih => simpa [h] using ih
  | case3 v w ws h hv r ih => exact ih
  | case4 v w ws h hv =>
    intro b hb
    rw [List.filter_cons_of_pos (Decidable.not_not.mp h)] at hb
    obtain rfl := Option.some.inj hb
    exact Nat.lt_of_not_le hv

/-! ### Sequencers that go on -/

@[simp] theorem releaseWait_ctr (s : State) (w : SyncWait) (c : CtrId) : (releaseWait s w).ctr c = s.ctr c := by
  unfold releaseWait
  split <;> rfl

theorem foldl_releaseWait_ctr (l : List SyncWait) (s : State) (c : CtrId) : (l.foldl releaseWait s).ctr c = s.ctr c := by
  induction l generalizing s with
  | nil => rfl
  | cons a l ih => rw [List.foldl_cons, ih, releaseWait_ctr]

/-- A unit that waits for something else, or for nothing, is left as it is. -/
theorem releaseWait_unit_of_ne (h : (s.unit u).seq.wait ≠ some w) : (releaseWait s w).unit u = s.unit u := by
  unfold releaseWait
  split
  · next v j hw =>
    by_cases hv : u = v
    · subst hv
      simp [h]
    · exact unit_upUnit_ne _ _ _ _ hv
  · rfl

theorem foldl_releaseWait_unit_of_ne (h : ∀ w ∈ l, (s.unit u).seq.wait ≠ some w) : (l.foldl releaseWait s).unit u = s.unit u := by
  induction l generalizing s with
  | nil => rfl
  | cons a l ih =>
    obtain ⟨ha, hl⟩ := List.forall_mem_cons.mp h
    have e := releaseWait_unit_of_ne ha
    rw [List.foldl_cons, ih (e ▸ hl), e]

/-- The sequencer whose wait is released has the SYNC_WAIT done. -/
theorem releaseWait_seq {j : Nat} (h : (s.unit u).seq.wait = some w) (hw : w.who = .unit u j) :
    ((releaseWait s w).unit u).seq = { (s.unit u).seq with wait := none, arrived := false, done := (s.unit u).seq.done + 1 } := by
  simp [releaseWait, hw, h]

/-- However often its wait is listed, the sequencer goes on once. -/
theorem foldl_releaseWait_seq {j : Nat} (h : (s.unit u).seq.wait = some w) (hw : w.who = .unit u j) (hl : w ∈ l) :
    ((l.foldl releaseWait s).unit u).seq = { (s.unit u).seq with wait := none, arrived := false, done := (s.unit u).seq.done + 1 } := by
  induction l generalizing s with
  | nil => cases hl
  | cons a l ih =>
    rw [List.foldl_cons]
    by_cases ha : a = w
    · subst ha
      have e := releaseWait_seq h hw
      rw [foldl_releaseWait_unit_of_ne (fun b _ => by simp [e]), e]
    · have e : (releaseWait s a).unit u = s.unit u := releaseWait_unit_of_ne (by simpa [h] using Ne.symm ha)
      rw [ih (e ▸ h) ((List.mem_cons.mp hl).resolve_left (Ne.symm ha)), e]

/-! ### The counter and the released waits -/

/-- The waits that are left for MODE 1's turn: all but the MODE 0 waits whose condition holds. -/
def afterMode0 (x : Ctr) : List SyncWait := x.waits.filter (fun w => ¬ (¬ w.mode1 ∧ w.value ≤ x.value))

/-- The value left, the waits kept and the MODE 1 waits released. -/
def mode1Turn (x : Ctr) : Nat × List SyncWait × List SyncWait := releaseMode1 x.value.toNat (afterMode0 x)

/-- Every wait that is released, in order. -/
def waitsReleased (x : Ctr) : List SyncWait := x.waits.filter (fun w => ¬ w.mode1 ∧ w.value ≤ x.value) ++ (mode1Turn x).2.2

theorem releaseWaits_ctr (s : State) (c : CtrId) : (releaseWaits s c).ctr c = { s.ctr c with
    value := BitVec.ofNat 32 (mode1Turn (s.ctr c)).1, waits := (mode1Turn (s.ctr c)).2.1
    consumed := (s.ctr c).consumed + ((s.ctr c).value.toNat - (mode1Turn (s.ctr c)).1) } :=
  (foldl_releaseWait_ctr _ _ c).trans (ctr_upCtr ..)

theorem releaseWaits_seq {c : CtrId} {j : Nat} (h : (s.unit u).seq.wait = some w) (hw : w.who = .unit u j) (hl : w ∈ waitsReleased (s.ctr c)) :
    ((releaseWaits s c).unit u).seq = { (s.unit u).seq with wait := none, arrived := false, done := (s.unit u).seq.done + 1 } :=
  foldl_releaseWait_seq (l := waitsReleased (s.ctr c)) h hw hl

theorem releaseWaits_unit_of_ne {c : CtrId} (h : ∀ w ∈ waitsReleased (s.ctr c), (s.unit u).seq.wait ≠ some w) :
    (releaseWaits s c).unit u = s.unit u :=
  foldl_releaseWait_unit_of_ne (l := waitsReleased (s.ctr c)) h

theorem afterMode0_mode1 (x : Ctr) : (afterMode0 x).filter (·.mode1) = x.waits.filter (·.mode1) := by
  rw [afterMode0, List.filter_filter]
  refine List.filter_congr fun w _ => ?_
  cases hm : w.mode1 <;> simp

theorem afterMode0_mode0 (x : Ctr) :
    (afterMode0 x).filter (fun w => !w.mode1) = x.waits.filter (fun w => !w.mode1 && decide (x.value.toNat < w.value.toNat)) := by
  rw [afterMode0, List.filter_filter]
  refine List.filter_congr fun w _ => ?_
  cases hm : w.mode1 <;> simp [BitVec.le_def]

theorem mode1Turn_order (x : Ctr) : (mode1Turn x).2.2 ++ (mode1Turn x).2.1.filter (·.mode1) = x.waits.filter (·.mode1) :=
  (releaseMode1_order ..).trans (afterMode0_mode1 x)

theorem mode1Turn_sum (x : Ctr) : ((mode1Turn x).2.2.map (fun w => w.value.toNat)).sum + (mode1Turn x).1 = x.value.toNat :=
  releaseMode1_sum ..

/-- What is left fits the counter. -/
theorem mode1Turn_value (x : Ctr) : (BitVec.ofNat 32 (mode1Turn x).1).toNat = (mode1Turn x).1 := by
  have hsum := mode1Turn_sum x
  exact Nat.mod_eq_of_lt (by have := x.value.isLt; omega)

theorem mem_waitsReleased {x : Ctr} : w ∈ waitsReleased x ↔
    w ∈ (mode1Turn x).2.2 ∨ (w ∈ x.waits ∧ w.mode1 = false ∧ w.value.toNat ≤ x.value.toNat) := by
  simp [waitsReleased, BitVec.le_def, or_comm]

/-- Settles O22: the MODE 1 waits released are the oldest ones that the value allows, and a sequencer goes on if its wait is among
the released. -/
theorem waitsReleasedInOrder : Obligations.WaitsReleasedInOrder := by
  intro s c x t ones
  have hctr := releaseWaits_ctr s c
  have horder : (mode1Turn x).2.2 ++ (mode1Turn x).2.1.filter (·.mode1) = ones := mode1Turn_order x
  have htake : ones.take (mode1Turn x).2.2.length = (mode1Turn x).2.2 := by rw [← horder]; exact List.take_left
  have hdrop : ones.drop (mode1Turn x).2.2.length = (mode1Turn x).2.1.filter (·.mode1) := by rw [← horder]; exact List.drop_left
  have hvalue : (t.ctr c).value.toNat = (mode1Turn x).1 := by rw [hctr]; exact mode1Turn_value x
  refine ⟨(mode1Turn x).2.2.length, ?_, ?_, ?_, ?_, ?_, ?_⟩
  · rw [← horder]; simp
  · rw [htake, hvalue]; exact mode1Turn_sum x
  · intro w hw
    rw [hvalue]
    exact releaseMode1_stops _ _ w (by rw [← List.head?_drop, hdrop] at hw; exact hw)
  · rw [hctr, hdrop]
  · rw [hctr]; exact (releaseMode1_keeps_mode0 ..).trans (afterMode0_mode0 x)
  · intro u j w hwait hwho
    rw [htake, ← mem_waitsReleased]
    refine ⟨fun hl => ?_, fun hl => releaseWaits_unit_of_ne fun b hb e => hl ?_⟩
    · have e := releaseWaits_seq hwait hwho hl
      exact ⟨congrArg Seq.wait e, congrArg Seq.done e⟩
    · rwa [Option.some.inj (hwait.symm.trans e)]

end Sys2Proof.Machine
end

section
/-! SUPPORT. Signals and waits that reach a sync counter (R250 to R256). -/

namespace Sys2Proof.Machine

variable {s : State} {c : CtrId} {g : Signal} {n : SliceId} {u : UnitId} {w : SyncWait} {j : Job}

/-! ### Signals -/

/-- The program whose signal is not added fails, if its job still holds the unit (R254, Table 9-8). -/
def failSource (s : State) (g : Signal) (code : Byte) : State := match g.src with
  | .program u j => if (s.unit u).job = some j then failUnit s u code else s
  | _ => s

/-- A signal that reaches a counter out of service counts as applied and no more. -/
theorem applySignal_dead (h : (s.ctr c).dead = true) :
    applySignal s c g = failSource (s.upCtr c (fun x => { x with applied := x.applied + 1 })) g 0x10 := if_pos h

theorem applySignal_adds (h : (s.ctr c).dead = false) (hv : (s.ctr c).value.toNat + g.value.toNat < 2 ^ 32) :
    applySignal s c g = releaseWaits (s.upCtr c (fun x => { x with
      applied := x.applied + 1, value := x.value + g.value, added := x.added + g.value.toNat })) c := by
  refine (if_neg (by simp [h])).trans ((if_neg (by omega)).trans ?_)
  rw [upCtr_upCtr]

/-- A signal past the limit is not added: its counter's slice has a notice (R254). -/
theorem applySignal_limit (h : (s.ctr c).dead = false) (hn : (s.ctr c).slice = some n) (hv : 2 ^ 32 ≤ (s.ctr c).value.toNat + g.value.toNat) :
    applySignal s c g = failSource (notify (s.upCtr c (fun x => { x with applied := x.applied + 1, overflows := x.overflows + 1 })) n 0x0A 1
      (payload [(0, 2, c.toNat), (2, 1, sourceCode g.src)])) g 0x0F := by
  refine (if_neg (by simp [h])).trans ((if_pos (by omega)).trans ?_)
  rw [hn, upCtr_upCtr]
  rfl

theorem syncSignalApply_oldest {gs : List Signal} (h : (s.ctr c).flight = g :: gs) :
    exec (.syncSignalApply c) s = .next (applySignal (s.upCtr c (fun x => { x with flight := gs })) c g) := by
  change execSyncSignalApply c s = _
  simp only [execSyncSignalApply, h, did]

/-! ### Waits -/

theorem syncWaitArrive_reaches (hw : (s.unit u).seq.wait = some w) (ha : (s.unit u).seq.arrived = false) (hu : working s u = true) :
    exec (.syncWaitArrive u) s = .next (arriveWait s u w) := by
  change execSyncWaitArrive u s = _
  simp only [execSyncWaitArrive, hw]
  exact doWhen_true (by simp [ha, hu])

theorem arriveWait_foreign (hj : jobOf s u = some j) (hs : (s.ctr w.ctr).slice ≠ some j.slice) :
    arriveWait s u w = failUnit s u 0x06 := by
  simp only [arriveWait, hj]
  exact if_pos (by simpa [foreignCtr] using hs)

theorem arriveWait_own (hj : jobOf s u = some j) (hs : (s.ctr w.ctr).slice = some j.slice) :
    arriveWait s u w = if (s.ctr w.ctr).dead then failUnit s u 0x10
      else releaseWaits ((s.upSeq u (fun q => { q with arrived := true })).upCtr w.ctr (fun x => { x with waits := x.waits ++ [w] })) w.ctr := by
  simp only [arriveWait, hj]
  exact if_neg (by simp [foreignCtr, hs])

/-- Settles O21: a signal by what its counter can do with it, a wait by whose counter it reaches. -/
theorem syncCounters : Obligations.SyncCounters := by
  refine ⟨?signal, fun s u w j hw ha hu hj => ?wait⟩
  case signal =>
    intro s c g gs hf t stop
    rw [syncSignalApply_oldest hf]
    refine ⟨fun hd hv => congrArg _ ?_, fun n hd hn hv => congrArg _ ?_, fun hd => congrArg _ ?_⟩
    · rw [applySignal_adds (by simpa using hd) (by simpa using hv)]
      simp only [t, upCtr_upCtr]
    · rw [applySignal_limit (by simpa using hd) (by simpa using hn) (by simpa using hv)]
      simp only [t, upCtr_upCtr]
      rfl
    · rw [applySignal_dead (by simpa using hd)]
      simp only [t, upCtr_upCtr]
      rfl
  case wait =>
    rw [syncWaitArrive_reaches hw ha hu]
    refine ⟨fun hs => congrArg _ (arriveWait_foreign hj hs), fun hs hd => congrArg _ ?_, fun hs hd => congrArg _ ?_⟩
    · exact (arriveWait_own hj hs).trans (if_pos hd)
    · exact (arriveWait_own hj hs).trans (if_neg (by simp [hd]))

end Sys2Proof.Machine
end

section
/-! SUPPORT. The sync-counter commands (R250, R254, R256, R257, Table 12-7). -/

namespace Sys2Proof.Machine

variable {a : State} {n m : SliceId} {c off : Nat} {serve : Bool}

/-! ### The counter that a command names -/

theorem counterErr_range (h : 8192 ≤ c) : counterErr a n c off serve = some (3, off) := if_pos h

theorem counterErr_free (hc : c < 8192) (hs : (a.ctr (BitVec.ofNat 13 c)).slice = none) : counterErr a n c off serve = some (5, off) := by
  refine (if_neg (Nat.not_le.mpr hc)).trans ?_
  rw [hs]
  rfl

theorem counterErr_foreign (hc : c < 8192) (hs : (a.ctr (BitVec.ofNat 13 c)).slice = some m) (hm : m ≠ n) :
    counterErr a n c off serve = some (4, off) := by
  refine (if_neg (Nat.not_le.mpr hc)).trans ?_
  rw [hs]
  exact if_pos hm

/-- A command may act on its own counter, if it need not be in service or is. -/
theorem counterErr_own (hc : c < 8192) (hs : (a.ctr (BitVec.ofNat 13 c)).slice = some n)
    (hd : serve = true → (a.ctr (BitVec.ofNat 13 c)).dead = false) : counterErr a n c off serve = none := by
  refine (if_neg (Nat.not_le.mpr hc)).trans ?_
  rw [hs]
  refine (if_neg (not_not_intro rfl)).trans (if_neg ?_)
  rintro ⟨h, h'⟩
  exact Bool.false_ne_true ((hd h).symm.trans h')

/-- No counter of a run that is the slice's own stops SYNC_FREE. -/
theorem counterErr_own_run {b k : Nat} (hb : b + k ≤ 8192) (hs : ∀ i < k, (a.ctr (BitVec.ofNat 13 (b + i))).slice = some n) :
    (List.range k).findSome? (fun i => counterErr a n (b + i) off false) = none := by
  refine List.findSome?_eq_none_iff.mpr fun i hi => ?_
  have hi := List.mem_range.mp hi
  exact counterErr_own (by omega) (hs i hi) (nofun)

/-- Settles O33: each command by the checks of its body in their order. -/
theorem counterCommands : Obligations.CounterCommands := by
  refine ⟨onRow (fun _ _ _ => rfl) (by decide) ?alloc, onRow (fun _ _ _ => rfl) (by decide) ?free,
    onRow (fun _ _ _ => rfl) (by decide) ?set, onRow (fun _ _ _ => rfl) (by decide) ?signal,
    onRow (fun _ _ _ => rfl) (by decide) ?read⟩
  case alloc =>
    intro a n w f gives hg k
    have count (h1 : 1 ≤ k) (h2 : k ≤ 256) (r : Res) := fun e => hg r rfl ((if_neg (by omega)).trans e)
    have quota (h1 : 1 ≤ k) (h2 : k ≤ 256) (hf : fits a n 3 k = true) (r : Res) := fun e =>
      count h1 h2 r ((if_neg (not_not_intro hf)).trans e)
    refine ⟨fun hk => hg _ rfl (if_pos hk), fun h1 h2 hf => count h1 h2 _ (if_pos (by simp [k, hf])),
      fun h1 h2 hf hr => quota h1 h2 hf _ ?_, fun b h1 h2 hf hr => quota h1 h2 hf _ ?_⟩
    · rw [hr]; rfl
    · rw [hr]
  case free =>
    intro a n w f gives hg b k hk hb hs
    have own (r : Res) := fun e => hg r rfl ((if_neg (by omega)).trans ((if_neg (by omega)).trans e))
    rw [counterErr_own_run hb hs] at own
    refine ⟨fun hx => own _ (if_pos (by simpa using hx)), fun hx => own _ (if_neg (by simpa using hx))⟩
  case set =>
    intro a n w f gives hg c ⟨hc, hs⟩ hd
    have own (r : Res) := hg r rfl
    rw [counterErr_own hc hs (fun _ => hd)] at own
    exact ⟨fun hx => own _ (if_pos hx), fun hx => own _ (if_neg (by simpa using hx))⟩
  case signal =>
    intro a n w f gives hg
    dsimp only
    rintro ⟨hc, hs⟩ hd
    have own (r : Res) := hg r rfl
    rw [counterErr_own hc hs (fun _ => hd)] at own
    refine ⟨fun hv => own _ (if_pos hv), fun hv hl => own _ ?_, fun hv hl => own _ ?_⟩
    · exact (if_neg (by omega)).trans (if_neg (by omega))
    · exact (if_neg (by omega)).trans (if_pos (by omega))
  case read =>
    intro a n w f gives hg
    have answer (r : Res) := hg r rfl
    refine ⟨fun hc => answer _ ?_, fun hc hs => answer _ ?_, fun m hc hs hm => answer _ ?_, fun ⟨hc, hs⟩ hd => answer _ ?_⟩
    · rw [counterErr_range hc]
    · rw [counterErr_free hc hs]
    · rw [counterErr_foreign hc hs hm]
    · rw [counterErr_own hc hs (fun _ => hd)]

end Sys2Proof.Machine
end

section
/-! SUPPORT. The map of physical addresses (R261): `dpaOfLocal` undoes it. -/

namespace Sys2Proof.Machine

variable {s : State} {a k : Nat}

/-! ### The capacities -/

/-- A controller has the data bytes of 8 GiB or of 16 GiB. -/
theorem dataBytes_cases (s : State) (k : Nat) : dataBytes s k = 0x1F0000000 ∨ dataBytes s k = 0x3E0000000 := by
  unfold dataBytes capGiB
  split
  · exact .inr rfl
  · exact .inl rfl

theorem dataBytes_mem (s : State) (hk : k < 12) : dataBytes s k ∈ (List.range 12).map (dataBytes s) :=
  List.mem_map.mpr ⟨k, List.mem_range.mpr hk, rfl⟩

/-- The share of region 0 that a controller holds is the least of their data bytes. -/
theorem top0_div (s : State) : top0 s / 12 = ((List.range 12).map (dataBytes s)).foldl min (dataBytes s 0) :=
  Nat.mul_div_cancel_left _ (by decide)

/-- Region 0 takes as much of each controller as the least of them has. -/
theorem top0_div_le (hk : k < 12) : top0 s / 12 ≤ dataBytes s k := by
  rw [top0_div, List.foldl_min]
  exact Nat.le_trans (Nat.min_le_right _ _) (List.min?_getD_le_of_mem (dataBytes_mem s hk))

theorem top0_div_cases (s : State) : top0 s / 12 = 0x1F0000000 ∨ top0 s / 12 = 0x3E0000000 := by
  rw [top0_div]
  refine List.foldlRecOn (motive := fun m => m = 0x1F0000000 ∨ m = 0x3E0000000) _ min (dataBytes_cases s 0) fun b hb d hd => ?_
  obtain ⟨k, -, rfl⟩ := List.mem_map.mp hd
  rw [Nat.min_def]
  split
  · exact hb
  · exact dataBytes_cases s k

theorem top0_eq (s : State) : top0 s = 12 * (top0 s / 12) := congrArg (12 * ·) (top0_div s).symm

theorem mem_bigControllers : k ∈ bigControllers s ↔ k < 12 ∧ top0 s / 12 < dataBytes s k := by
  rw [top0_div]
  simp [bigControllers]

/-- Every larger controller has the most data bytes that any has. -/
theorem dataBytes_of_big (hk : k ∈ bigControllers s) : dataBytes s k = ((List.range 12).map (dataBytes s)).foldl max 0 := by
  obtain ⟨h12, hlt⟩ := mem_bigControllers.mp hk
  have hmost : ((List.range 12).map (dataBytes s)).foldl max 0 ≤ 0x3E0000000 := by
    refine List.foldlRecOn (motive := (· ≤ 0x3E0000000)) _ max (Nat.zero_le _) fun b hb d hd => ?_
    obtain ⟨j, -, rfl⟩ := List.mem_map.mp hd
    exact Nat.max_le.mpr ⟨hb, by have := dataBytes_cases s j; omega⟩
  have hle : dataBytes s k ≤ ((List.range 12).map (dataBytes s)).foldl max 0 := by
    rw [List.foldl_max]
    exact Nat.le_trans (List.le_max?_getD_of_mem (dataBytes_mem s h12)) (Nat.le_max_right _ _)
  have := dataBytes_cases s k
  have := top0_div_cases s
  omega

theorem dataTop_of_big (hk : k ∈ bigControllers s) : dataTop s = top0 s + (bigControllers s).length * (dataBytes s k - top0 s / 12) := by
  rw [dataBytes_of_big hk, dataTop]

/-- Where there is no larger controller there is no region 1. -/
theorem bigControllers_ne_nil (h0 : top0 s ≤ a) (h : a < dataTop s) : bigControllers s ≠ [] := by
  intro hn
  rw [dataTop, hn, List.length_nil, Nat.zero_mul] at h
  omega

/-! ### The two regions -/

theorem dpaMap_region0 (h : a < top0 s) : dpaMap s a = (a / 2048 % 12, a / 2048 / 12 * 2048 + a % 2048) := if_pos h

theorem dpaMap_region1 (h : top0 s ≤ a) : dpaMap s a =
    ((bigControllers s).getD ((a - top0 s) / 2048 % (bigControllers s).length) 0,
      top0 s / 12 + (a - top0 s) / 2048 / (bigControllers s).length * 2048 + a % 2048) := if_neg (Nat.not_lt.mpr h)

/-- A block of region 0 lies below what the least controller has. -/
theorem region0_local_lt (h : a < top0 s) : a / 2048 / 12 * 2048 + a % 2048 < top0 s / 12 := by
  have := top0_div_cases s
  have := top0_eq s
  omega

/-- A block of region 1 lies on a larger controller, above what the least one has. -/
theorem region1_local_lt (hk : k ∈ bigControllers s) (h0 : top0 s ≤ a) (h : a < dataTop s) :
    top0 s / 12 + (a - top0 s) / 2048 / (bigControllers s).length * 2048 + a % 2048 < dataBytes s k := by
  rw [dataTop_of_big hk] at h
  have hlt := (mem_bigControllers.mp hk).2
  have hcap := dataBytes_cases s k
  have hleast := top0_div_cases s
  have htop := top0_eq s
  obtain ⟨w, hw⟩ : ∃ w, dataBytes s k - top0 s / 12 = 2048 * w := ⟨(dataBytes s k - top0 s / 12) / 2048, by omega⟩
  rw [hw, Nat.mul_left_comm] at h
  have hblock : (a - top0 s) / 2048 / (bigControllers s).length < w := Nat.div_lt_of_lt_mul (by omega)
  omega

theorem bigControllers_getD {i : Nat} (hi : i < (bigControllers s).length) : (bigControllers s).getD i 0 = (bigControllers s)[i] := by
  rw [List.getD_eq_getElem?_getD, List.getElem?_eq_getElem hi, Option.getD_some]

/-- The controllers of region 1's blocks, in their turn. -/
theorem getD_mem_bigControllers (h0 : top0 s ≤ a) (h : a < dataTop s) (b : Nat) :
    (bigControllers s).getD (b % (bigControllers s).length) 0 ∈ bigControllers s := by
  have hb := Nat.mod_lt b (List.length_pos_iff.mpr (bigControllers_ne_nil h0 h))
  rw [bigControllers_getD hb]
  exact List.getElem_mem hb

theorem dpaMap_within (h : a < dataTop s) : (dpaMap s a).1 < 12 ∧ (dpaMap s a).2 < dataBytes s (dpaMap s a).1 := by
  rcases Nat.lt_or_ge a (top0 s) with h0 | h0
  · rw [dpaMap_region0 h0]
    have hk : a / 2048 % 12 < 12 := Nat.mod_lt _ (by decide)
    exact ⟨hk, Nat.lt_of_lt_of_le (region0_local_lt h0) (top0_div_le hk)⟩
  · rw [dpaMap_region1 h0]
    have hk := getD_mem_bigControllers h0 h ((a - top0 s) / 2048)
    exact ⟨(mem_bigControllers.mp hk).1, region1_local_lt hk h0 h⟩

theorem dpaOfLocal_dpaMap (h : a < dataTop s) : dpaOfLocal s (dpaMap s a).1 (dpaMap s a).2 = a := by
  have hleast := top0_div_cases s
  have htop := top0_eq s
  rcases Nat.lt_or_ge a (top0 s) with h0 | h0
  · rw [dpaMap_region0 h0]
    refine (if_pos (region0_local_lt h0)).trans ?_
    omega
  · rw [dpaMap_region1 h0]
    refine (if_neg (by omega)).trans ?_
    have hb := Nat.mod_lt ((a - top0 s) / 2048) (List.length_pos_iff.mpr (bigControllers_ne_nil h0 h))
    have hnodup : (bigControllers s).Nodup := List.nodup_range.filter _
    have hblock := Nat.div_add_mod' ((a - top0 s) / 2048) (bigControllers s).length
    have hoff : ∀ q, top0 s / 12 + q * 2048 + a % 2048 - top0 s / 12 = q * 2048 + a % 2048 := by omega
    have hdiv : ∀ q, (q * 2048 + a % 2048) / 2048 = q := by omega
    dsimp only
    rw [hoff, hdiv, bigControllers_getD hb, hnodup.idxOf_getElem, hblock]
    omega

/-- Settles O10: `dpaOfLocal` undoes the map, which keeps within the data bytes in both regions. -/
theorem addressMapIsFaithful : Obligations.AddressMapIsFaithful := by
  intro s
  refine ⟨fun a h => dpaMap_within h, fun a b ha hb hab => ?_⟩
  rw [← dpaOfLocal_dpaMap ha, hab, dpaOfLocal_dpaMap hb]

end Sys2Proof.Machine
end

section
/-! SUPPORT. The commands on slices, quotas, assignments, mappings, apertures and swap areas (R266, R269, R271 to R274, R321,
R352, R357, R523, Table 12-6). -/

namespace Sys2Proof.Machine

variable {a : State} {n k : SliceId} {w : Line}

theorem mem_allSlices (m : SliceId) : m ∈ allSlices :=
  List.mem_map.mpr ⟨m.toNat, List.mem_range.mpr m.isLt, by simp⟩

/-- A slice other than slice 0 has this PASID (R266). -/
theorem pasidTaken_iff {p : Nat} : allSlices.any (fun m => (a.slice m).valid && m != 0 && (a.slice m).pasid.toNat == p) = true ↔
    ∃ m, m ≠ (0 : SliceId) ∧ (a.slice m).valid = true ∧ (a.slice m).pasid.toNat = p := by
  rw [List.any_eq_true]
  simp only [Bool.and_eq_true, bne_iff_ne, beq_iff_eq]
  constructor
  · rintro ⟨m, -, ⟨hv, h0⟩, hp⟩
    exact ⟨m, h0, hv, hp⟩
  · rintro ⟨m, h0, hv, hp⟩
    exact ⟨m, mem_allSlices m, ⟨hv, h0⟩, hp⟩

/-- No enclave is hosted by a slice that none names as its host (R352). -/
theorem hostsEnclave_false (h : ∀ p ∈ a.sec.enclaves, ∀ e, p.2 = some e → e.host ≠ k) :
    a.sec.enclaves.any (fun p => (p.2.map (fun e => e.host == k)).getD false) = false := by
  rw [List.any_eq_false]
  rintro ⟨i, _ | e⟩ hp
  · exact Bool.false_ne_true
  · exact fun he => h _ hp e rfl (beq_iff_eq.mp he)

/-- The resources of each KIND of ASSIGN. -/
theorem resourceCount_of {kind : Nat} (h : kind ≤ 3) : [4, 16, 16, 32].getD kind 0 = if kind = 0 then 4 else if kind = 3 then 32 else 16 :=
  match kind, h with
  | 0, _ | 1, _ | 2, _ | 3, _ => rfl

/-- The page size that PAGE names. -/
theorem pageSize_of {page : Nat} (h : page ≤ 2) :
    [4096, 65536, 2097152].getD page 4096 = if page = 0 then 4096 else if page = 1 then 65536 else 2097152 :=
  match page, h with
  | 0, _ | 1, _ | 2, _ => rfl

/-! ### MEM_MAP (R357) -/

/-- What is stated of MEM_MAP's fields: PAGE and FLAGS in their ranges, and whole pages within the space. -/
structure MapFields (w : Line) (psz : Nat) : Prop where
  page : fld w 8 1 ≤ 2
  flags : fld w 9 1 ≤ 31
  aligned : fld w 16 8 % psz = 0
  below : fld w 16 8 < 2 ^ 48
  nonempty : 0 < fld w 24 8
  whole : fld w 24 8 % psz = 0
  within : fld w 16 8 + fld w 24 8 ≤ 2 ^ 48
  host : bitAt (fld w 9 1) 3 = true → fld w 32 8 % psz = 0 ∧ fld w 32 8 + fld w 24 8 ≤ 2 ^ 48

/-- A mapping whose fields pass is refused where it meets another one or the intake's addresses, and in PARKED. -/
theorem memMapErr_of {psz : Nat} (h : MapFields w psz) : memMapErr a n w psz =
    if meets (fld w 16 8) (fld w 24 8) intakeLo (intakeHi - intakeLo) ∨ (a.slice n).maps.any (fun l => meets (fld w 16 8) (fld w 24 8) l.va l.size)
    then some (9, 0) else if parked a ∧ ¬ bitAt (fld w 9 1) 3 then some (9, 0) else none := by
  obtain ⟨hpage, hflags, haligned, hbelow, hsome, hwhole, hwithin, hhost⟩ := h
  refine (if_neg (Nat.not_lt.mpr hpage)).trans ((if_neg (Nat.not_lt.mpr hflags)).trans ((if_neg (by omega)).trans ((if_neg (by omega)).trans
    (if_neg ?_))))
  rintro ⟨hh, hbad⟩
  have := hhost hh
  omega

/-- Settles O30: each command by the checks of its body in their order. -/
theorem sliceCommands : Obligations.SliceCommands := by
  refine ⟨onRow (fun _ _ _ => rfl) (by decide) ?create, onRow (fun _ _ _ => rfl) (by decide) ?destroy,
    onRow (fun _ _ _ => rfl) (by decide) ?quota, onRow (fun _ _ _ => rfl) (by decide) ?assign,
    onRow (fun _ _ _ => rfl) (by decide) ?map, onRow (fun _ _ _ => rfl) (by decide) ?unmap,
    onRow (fun _ _ _ => rfl) (by decide) ?aperture, onRow (fun _ _ _ => rfl) (by decide) ?swapArea⟩
  case create =>
    intro a n w f gives hg k ranges clash
    have inRange (h : 1 ≤ fld w 8 1 ∧ fld w 8 1 ≤ 127 ∧ 2 ≤ fld w 9 1 ∧ fld w 9 1 ≤ 15 ∧ fld w 10 1 ≤ 6 ∧ 1 ≤ fld w 12 4 ∧ fld w 12 4 ≤ 1048575)
        {r : Res} := fun e => hg r rfl ((if_neg (by omega)).trans ((if_neg (by omega)).trans ((if_neg (by omega)).trans ((if_neg (by omega)).trans e))))
    have unused (h : ranges) (hv : (a.slice k).valid = false) {r : Res} := fun e => inRange h (r := r) ((if_neg (ne_true_of_eq_false hv)).trans e)
    refine ⟨fun h hv => inRange h (if_pos hv), fun h hv hc => unused h hv (if_pos (pasidTaken_iff.mpr hc)), fun h hv hc he => unused h hv ?_⟩
    exact (if_neg (fun hx => hc (pasidTaken_iff.mp hx))).trans (if_neg (by simpa using he))
  case destroy =>
    intro a n w f gives hg k
    have inRange (h1 : 1 ≤ fld w 8 1) (h2 : fld w 8 1 ≤ 127) {r : Res} := fun e => hg r rfl ((if_neg (by omega)).trans e)
    refine ⟨fun h1 h2 hv => inRange h1 h2 (if_pos (ne_true_of_eq_false hv)), fun h1 h2 hv hd he => inRange h1 h2 ?_⟩
    exact (if_neg (not_not_intro hv)).trans (if_neg (by rw [hd, hostsEnclave_false he]; decide))
  case quota =>
    intro a n w f gives hg k row reclaim t hk hrow hr hv hd
    have known {r : Res} := fun e => hg r rfl ((if_neg (Nat.not_lt.mpr hk)).trans ((if_neg (Nat.not_lt.mpr hrow)).trans
      ((if_neg (Nat.not_lt.mpr hr)).trans ((if_neg (not_or.mpr ⟨not_not_intro hv, ne_true_of_eq_false hd⟩)).trans e))))
    refine ⟨fun hq => known (if_pos (ne_true_of_eq_false hq)), fun hq hs => known ((if_neg (not_not_intro hq)).trans (if_neg ?_))⟩
    rintro ⟨hre, hn⟩
    exact absurd (hs hre) (by simpa using hn)
  case assign =>
    intro a n w f gives hg kind k i hkind hk hi hv hd
    rw [← resourceCount_of hkind] at hi
    have known {r : Res} := fun e => hg r rfl ((if_neg (Nat.not_lt.mpr hkind)).trans ((if_neg (Nat.not_lt.mpr hk)).trans
      ((if_neg (Nat.not_le.mpr hi)).trans ((if_neg (not_or.mpr ⟨not_not_intro hv, ne_true_of_eq_false hd⟩)).trans e))))
    exact ⟨fun hx => known (if_pos hx), fun hx => known (if_neg (ne_true_of_eq_false hx))⟩
  case map =>
    intro a n w f gives hg psz va size host hpage hflags haligned hbelow hsome hwhole hwithin hhost
    have hpsz : [4096, 65536, 2097152].getD (fld w 8 1) 4096 = psz := pageSize_of hpage
    have herr := memMapErr_of (a := a) (n := n) (w := w) (psz := psz) ⟨hpage, hflags, haligned, hbelow, hsome, hwhole, hwithin, hhost⟩
    have body (r : Res) := hg r rfl
    rw [hpsz] at body
    dsimp only at body
    refine ⟨fun hx => body _ ?meets, fun hintake hmaps hparked t ht => body _ ?maps⟩
    case meets =>
      rw [herr, if_pos (by simpa using hx)]
    case maps =>
      rw [herr, if_neg (by simpa using ⟨hintake, hmaps⟩), if_neg (by rintro ⟨hp, hn⟩; exact hn (hparked hp))]
      dsimp only
      rw [ht]
  case unmap =>
    intro a n w f gives hg va size gone haligned hbelow hsome hwhole hwithin hintake
    have inRange {r : Res} := fun e => hg r rfl ((if_neg (by omega)).trans ((if_neg (by omega)).trans ((if_neg (ne_true_of_eq_false hintake)).trans e)))
    have whole (h : ∀ l ∈ gone, va ≤ l.va ∧ l.va + l.size ≤ va + size) {r : Res} := fun e => inRange (r := r) ((if_neg (by
      simpa only [List.any_eq_true, Bool.or_eq_true, decide_eq_true_eq, not_exists, not_and, not_or, Nat.not_lt] using h)).trans e)
    refine ⟨fun ⟨l, hl, hx⟩ => inRange (if_pos ?_), fun h hi => whole h (if_pos hi), fun h hi => whole h (if_neg (ne_true_of_eq_false hi))⟩
    exact List.any_eq_true.mpr ⟨l, hl, by simpa using hx⟩
  case aperture =>
    intro a n w f gives hg
    refine ⟨fun h => hg _ rfl (if_pos h), fun h h0 h1 => hg _ rfl ((if_neg (Nat.not_lt.mpr h)).trans (if_neg ?_))⟩
    omega
  case swapArea =>
    intro a n w f gives hg haligned hbelow hsome hwithin hslots hmapped
    refine hg _ rfl ((if_neg (by omega)).trans ((if_neg (by omega)).trans ((if_neg ?_).trans (if_neg (not_not_intro hmapped)))))
    rw [hslots]
    exact not_not_intro rfl

end Sys2Proof.Machine
end

section
/-! SUPPORT. The patrol scrubber of a device whose floor has lost its lock (R282, R299), which MemoryEvents supposes to run. -/

namespace Sys2Proof.Machine

/-- Where no floor runs, no block is read. -/
theorem patrolScrubBlock_floorLost {s : State} (h : s.fab.floorLost = true) (r : PatrolRead) : exec (.patrolScrubBlock r) s = .next s :=
  doWhen_false (by simp [h])

/-- A bring-up that trains the memory when PLL_LOCK_LOSS takes the floor (R299). -/
def floorLostInTraining : State := (State.reset.upPwr (fun p => { p with phase := .training })).upFab (fun f => { f with floorLost := true })

/-- Before memory initialisation every page is UNINIT. -/
theorem ownerOf_uninit {s : State} (ho : s.mem.owner = []) (hi : s.mem.initPages = 0) (p : Nat) : (ownerOf s p).typ = .uninit := by
  rw [ownerOf, ho, hi, if_neg (Nat.not_lt_zero p)]
  rfl

/-- Refutes O51: where the floor's lock is lost the scrubber reads no block, and the statement counts one. -/
theorem not_memoryEvents : ¬ Obligations.MemoryEvents := by
  intro h
  obtain ⟨-, -, -, hscrub, -⟩ := h floorLostInTraining
  have hstated := (hscrub 0 [] rfl).1 (ownerOf_uninit rfl rfl _)
  rw [patrolScrubBlock_floorLost rfl] at hstated
  have hcount := congrArg (fun t : State => t.mem.scrubCount) (Host.Outcome.next.inj hstated)
  exact absurd hcount (by decide)

end Sys2Proof.Machine
end

section
/-! SUPPORT. The events of the power and thermal controller, row by row (R260, R476, R477, R491 to R497). -/

namespace Sys2Proof.Machine

variable {s : State} {d : BitVec 2} {c : CoreId} {k : Fin 12} {m : RefreshRate}

/-! ### Operating points (R477, R492, R495) -/

theorem throttleStep_down (hd : dieOn s d = true) (hs : tget none s.pwr.stepTo d.toNat = none)
    (h : hot s (dieSensors d.toNat) 105000 = true ∨ decide (powerCap s < s.pwr.powerMw) = true) (hp : pointOf s d < 4) :
    exec (.throttleStep d) s = .next (throttleNotices (beginStep s d (pointOf s d + 1))
      (hot s (dieSensors d.toNat) 105000) (decide (powerCap s < s.pwr.powerMw))) :=
  doWhen_true (by
    rw [← Bool.or_eq_true] at h
    rw [hd, hs, h, decide_eq_true hp]
    rfl)

theorem throttleStep_cool (hh : hot s (dieSensors d.toNat) 105000 = false) (hc : decide (powerCap s < s.pwr.powerMw) = false) :
    exec (.throttleStep d) s = .next s :=
  doWhen_false (by rw [hh, hc, Bool.or_false, Bool.and_false, Bool.false_and, Bool.false_and])

theorem throttleStepUp_cool (hd : dieOn s d = true) (hs : tget none s.pwr.stepTo d.toNat = none)
    (hh : hot s (dieSensors d.toNat) 100001 = false) (hc : 100 * s.pwr.powerMw < 95 * powerCap s) (hp : 0 < pointOf s d) :
    exec (.throttleStepUp d) s = .next (beginStep s d (pointOf s d - 1)) :=
  doWhen_true (by
    rw [hd, hs, hh, decide_eq_true hc, decide_eq_true hp]
    rfl)

theorem operatingPointStepDone_under_way {q : Nat} (h : tget none s.pwr.stepTo d.toNat = some q) :
    exec (.operatingPointStepDone d) s = .next (s.upPwr (fun p => { p with
      point := tset 0 p.point d.toNat q
      stepTo := tset none p.stepTo d.toNat none
      p4Since := tset none p.p4Since d.toNat (if q = 4 then some s.now else none) })) := by
  change execOperatingPointStepDone d s = _
  unfold execOperatingPointStepDone
  rw [h]
  rfl

/-! ### The emergency and the trip (R493, R494) -/

theorem thermalEmergency_reached (hr : s.host.devReady = true) (he : s.pwr.emergency = false) (hn : emergencyNow s = true) :
    exec .thermalEmergency s =
      .next ((overrideHolds ((stageJobs (raiseCode s .b 0x21)).foldl (fun s j => terminateJob s j none 0x0B 0x0B) (raiseCode s .b 0x21)) 0x21).upPwr
        (fun p => { p with dieOff := 0xF, emergency := true, rejoin := 0, stepTo := [], p4Since := [] })) :=
  doWhen_true (by rw [hr, he, hn]; rfl)

/-- Outside PARKED the dies come up and rejoin at the next edge. -/
theorem thermalRecovery_cooled (he : s.pwr.emergency = true) (hh : hot s (List.range 44) 95001 = false) :
    exec .thermalRecovery s = .next (if parked s = true then s.upPwr (fun p => { p with emergency := false })
      else ([0, 1, 2, 3].foldl powerDie (s.upPwr (fun p => { p with emergency := false }))).upPwr (fun p => { p with rejoin := 0xF })) :=
  doWhen_true (by rw [he, hh]; rfl)

theorem thermalTrip_reached (ha : s.pwr.aonUp = true) (ht : s.pwr.tripped = false) (hh : hot s (List.range 44) 135000 = true) :
    exec .thermalTrip s = .next ((lowerRails (recordCause s 6)).upPwr (fun p => { p with tripped := true, resetDue := some .thermalTrip })) :=
  doWhen_true (by rw [ha, ht, hh]; rfl)

/-! ### Memory temperature and gated cores (R260, R476, R497) -/

/-- Controller k refreshes at the rate that MR4 requests. -/
def refreshing (s : State) (k : Fin 12) (m : RefreshRate) : State := s.upMem (fun x => { x with refresh := tset .x1 x.refresh k.val m })

/-- A temperature above the memory's limit is reported when it is first read. -/
theorem mr4Read_over (h : s.host.dramRate ≠ 0) :
    let t := (refreshing s k m).upPwr (fun p => { p with overTemp := p.overTemp ||| BitVec.ofNat 12 (2 ^ k.val) })
    exec (.mr4Read k m true) s = .next (if s.pwr.overTemp.getLsbD k.val then t else raiseCode t .a 0x0F) := by
  refine doWhen_next (bne_iff_ne.mpr h) ?_
  cases s.pwr.overTemp.getLsbD k.val <;> rfl

theorem mr4Read_within (h : s.host.dramRate ≠ 0) : exec (.mr4Read k m false) s = .next ((refreshing s k m).upPwr (fun p =>
    { p with overTemp := p.overTemp &&& ~~~BitVec.ofNat 12 (2 ^ k.val) })) :=
  doWhen_true (bne_iff_ne.mpr h)

theorem ivrCoreWake_gated (ha : s.pwr.state = .active) (he : s.pwr.emergency = false) (hr : s.host.devReady = true)
    (hd : bitAt s.pwr.dieOff.toNat (c.toNat / 16) = false) (hg : (s.unit (.core c)).gated = true) :
    exec (.ivrCoreWake c) s = .next (resetUnit s (.core c)) :=
  doWhen_next (by rw [ha, he, hr, hg, hd]; rfl) (by rw [hd]; rfl)

theorem ivrCoreWake_cut (ha : s.pwr.state = .active) (he : s.pwr.emergency = false) (hr : s.host.devReady = true)
    (hd : bitAt s.pwr.dieOff.toNat (c.toNat / 16) = true) (hj : bitAt s.pwr.rejoin.toNat (c.toNat / 16) = false) :
    exec (.ivrCoreWake c) s = .next ((powerDie s (c.toNat / 16)).upPwr (fun p =>
      { p with dieOff := p.dieOff &&& ~~~(BitVec.ofNat 4 (2 ^ (c.toNat / 16))) })) :=
  doWhen_next (by rw [ha, he, hr, hd, hj]; rfl) (by rw [hd, hj]; rfl)

/-- Settles O58: each event by the lemma of its row. -/
theorem thermal : Obligations.Thermal := by
  refine fun s => ⟨fun i t => doWhen_true, fun mw => doWhen_true,
    fun d hd hs => ⟨throttleStep_down hd hs, throttleStep_cool, throttleStepUp_cool hd hs⟩, fun d q => operatingPointStepDone_under_way,
    thermalEmergency_reached, fun he hh => ⟨fun hp => ?parked, fun hp => ?recovers⟩, thermalTrip_reached,
    fun k m h => ⟨fun ho => ?first, fun ho => ?again, mr4Read_within h⟩, fun c => ivrCoreWake_gated, fun c => ivrCoreWake_cut⟩
  case parked => rw [thermalRecovery_cooled he hh, if_pos hp]
  case recovers => rw [thermalRecovery_cooled he hh, if_neg (Bool.eq_false_iff.mp hp)]
  case first => exact (mr4Read_over h).trans (congrArg _ (if_neg (Bool.eq_false_iff.mp ho)))
  case again => exact (mr4Read_over h).trans (congrArg _ (if_pos ho))

end Sys2Proof.Machine
end

section
/-! SUPPORT. The steps of the bring-up, row by row (R259, R291, R314, R370, R371, R390, R409, R486 to R489, Table 17-8). -/

namespace Sys2Proof.Machine

variable {s : State}

/-! ### Steps 1 to 4: the ROM, the host link and the images -/

/-- What the ROM does before it knows its phase: the flash leaves its reset, I2C is on and the watchdog runs. -/
def romStarted (s : State) (r : RomStart) : State :=
  let t := if s.pwr.xspi = .inReset then s.emit (.pin "XSPI_RESET_N" true) else s
  ((t.at_ r.at_).upPwr (fun p => { p with i2cOn := true, xspi := if r.octal then .octal else .single })).upSec (fun x => { x with
    wdtRunning := true, kicked := (s.at_ r.at_).now, warned := false })

/-- The pin of the flash moves no instant. -/
theorem romStarted_eq (s : State) (r : RomStart) :
    let t := if s.pwr.xspi = .inReset then s.emit (.pin "XSPI_RESET_N" true) else s
    romStarted s r = ((t.at_ r.at_).upPwr (fun p => { p with i2cOn := true, xspi := if r.octal then .octal else .single })).upSec (fun x => { x with
      wdtRunning := true, kicked := (t.at_ r.at_).now, warned := false }) := by
  unfold romStarted
  split <;> rfl

theorem secureRomStart_rom {r : RomStart} (hw : s.sec.wdtRunning = false) (hp : s.pwr.phase = .rom) :
    exec (.secureRomStart r) s = .next (setStage (romStarted s r) 1 .verify) :=
  doWhen_next (by rw [hw, hp]; rfl) ((if_pos hp).trans (by rw [romStarted_eq]; rfl))

/-- It also runs where the strap has halted the bring-up (R520). -/
theorem secureRomStart_halted {r : RomStart} (hw : s.sec.wdtRunning = false) (hp : s.pwr.phase = .halted) (hd : s.pwr.resetDue = none) :
    exec (.secureRomStart r) s = .next (romStarted s r) :=
  doWhen_next (by rw [hw, hp, hd]; rfl) ((if_neg (by rw [hp]; decide)).trans (romStarted_eq s r).symm)

theorem configRetryEnd_due {at_ : Nat} (hr : outOfReset s = true) (hc : s.host.configReady = false) (ht : s.pwr.porst + 100000000 ≤ at_) :
    exec (.configRetryEnd at_) s = .next ((s.at_ at_).upHost (fun h => { h with configReady := true, linkUp := true })) :=
  doWhen_true (by rw [hr, hc, decide_eq_true ht]; rfl)

section
variable {a b : BankRead} {f g : Nat}

/-- The report of bank B, or of bank A. -/
def reportOf (a b : BankRead) (isB : Bool) : BankReport := readBank (if isB then b else a)

/-- The state in which the other bank is tried: the ACTIVE one has failed. -/
def secondTry (s : State) (a b : BankRead) (act : Bool) : State := seenBank ((seenBank s a b act).upBank act (fun x => { x with success := 0 })) a b (!act)

theorem imageVerifyDone_active (hp : s.pwr.phase = .verify)
    (ha : failedType (seenBank s a b s.sec.activeB) (reportOf a b s.sec.activeB) = none) :
    exec (.imageVerifyDone a b) s = .next (bootOn (seenBank s a b s.sec.activeB) s.sec.activeB (reportOf a b s.sec.activeB)) := by
  refine doWhen_next (by rw [hp]; rfl) ?_
  unfold reportOf at ha ⊢
  rw [ha]

theorem imageVerifyDone_other (hp : s.pwr.phase = .verify)
    (ha : failedType (seenBank s a b s.sec.activeB) (reportOf a b s.sec.activeB) = some f)
    (ho : failedType (secondTry s a b s.sec.activeB) (reportOf a b (!s.sec.activeB)) = none) :
    exec (.imageVerifyDone a b) s = .next (bootOn (secondTry s a b s.sec.activeB) (!s.sec.activeB) (reportOf a b (!s.sec.activeB))) := by
  refine doWhen_next (by rw [hp]; rfl) ?_
  unfold reportOf secondTry at *
  rw [ha]
  dsimp only
  rw [ho]

theorem imageVerifyDone_neither (hp : s.pwr.phase = .verify)
    (ha : failedType (seenBank s a b s.sec.activeB) (reportOf a b s.sec.activeB) = some f)
    (ho : failedType (secondTry s a b s.sec.activeB) (reportOf a b (!s.sec.activeB)) = some g) :
    exec (.imageVerifyDone a b) s = .next (haltBoot ((secondTry s a b s.sec.activeB).upBank (!s.sec.activeB) (fun x => { x with success := 0 }))
      1 (if s.sec.activeB then 0 else 1) g) := by
  refine doWhen_next (by rw [hp]; rfl) ?_
  unfold reportOf secondTry at *
  rw [ha]
  dsimp only
  rw [ho]

end

/-! ### Step 5: trims, PLLs and die links (R291, R296) -/

section
variable {r : TrimReport}

/-- The device after its trims: the straps that it keeps, and its modules and credits as trained. -/
def trimmed (s : State) (r : TrimReport) : State :=
  (s.upFab (fun f => { f with straps := keptStraps r, modules := trainedModules s r, credits := trainedCredits })).emit (.pin "PUMP_PWM" true)

theorem trimAndPllLock_pllFail (hp : s.pwr.phase = .trim) (h : r.pllFail.isSome = true) :
    exec (.trimAndPllLock r) s = .next (haltBoot (trimmed s r) 2 0 0) :=
  doWhen_next (by rw [hp]; rfl) (if_pos h)

/-- With its PLLs locked and its dice those that the sites call for, the links of Wings decide. -/
theorem trimAndPllLock_links (hp : s.pwr.phase = .trim) (hl : r.pllFail = none) (hi : identityOk r = true) :
    exec (.trimAndPllLock r) s = .next (match (deadLinks s r).find? (fun m => m.die == .wings) with
      | some m => haltBoot (trimmed s r) 6 4 m.idx.toNat
      | none => setStage ((deadLinks s r).foldl linkLost (trimmed s r)) 3 .training) :=
  doWhen_next (by rw [hp]; rfl) ((if_neg (by simp [hl])).trans (if_neg (not_not_intro hi)))

end

/-! ### Steps 6 and 7: training and initialisation (R259, R487) -/

section
variable {c : Fin 12} {ch : BitVec 2}

/-- A channel that fails its training a first time is trained again. -/
theorem dramTrainingDone_retrains (hp : s.pwr.phase = .training) (h : s.pwr.retrained.contains (4 * c.val + ch.toNat) = false) :
    exec (.dramTrainingDone (.fail c ch false)) s = .next (s.upPwr (fun p => { p with retrained := p.retrained ++ [4 * c.val + ch.toNat] })) :=
  doWhen_next (by rw [hp, h]; rfl) (if_pos Bool.false_ne_true)

/-- One that fails again takes every controller a rate down, until there is none. -/
theorem dramTrainingDone_steps_down (hp : s.pwr.phase = .training) (h : s.pwr.retrained.contains (4 * c.val + ch.toNat) = true) :
    exec (.dramTrainingDone (.fail c ch true)) s = .next (if s.pwr.bootRate.toNat ≤ 1 then haltBoot s 3 c.val ch.toNat
      else s.upPwr (fun p => { p with bootRate := p.bootRate - 1, retrained := [] })) :=
  doWhen_next (by rw [hp, h]; rfl) (if_neg (not_not_intro rfl))

end

/-! ### Steps 8 to 10: tests, DEV_READY and the rest of the memory (R409, R486, R487) -/

theorem bistComplete_reports (hp : s.pwr.phase = .initing) (hs : stageOf s = 4) (fail : Option DieId) (islandFail : Bool) :
    exec (.bistComplete fail islandFail) s = .next (match fail with
      | some d => haltBoot s 7 (dieCode d) 0
      | none => if islandFail then haltBoot s 7 4 0 else setStage s 5 .initing) :=
  doWhen_true (by rw [hp, hs]; rfl)

/-- Settles O60: each step by the lemma of its row. -/
theorem bringUp : Obligations.BringUp := by
  refine fun s => ⟨fun r hw => ⟨secureRomStart_rom hw, secureRomStart_halted hw⟩, fun at_ => configRetryEnd_due,
    fun a b hp => ⟨imageVerifyDone_active hp, fun f => imageVerifyDone_other hp, fun f g => imageVerifyDone_neither hp⟩,
    fun r hp => ⟨trimAndPllLock_pllFail hp, fun hl hi hw => ?links, fun m hl hi hw => ?wings⟩,
    fun hp => ⟨fun caps => ?pass, fun c => ?capacity, fun c ch => dramTrainingDone_retrains hp, fun c ch h => ⟨fun hr => ?slowest, fun hr => ?slower⟩⟩,
    fun hp hs => ⟨fun d b => ?die, ?island, ?tested⟩, fun at_ hp hs => ?ready, fun hr hm => ?memory⟩
  case links => rw [trimAndPllLock_links hp hl hi, hw]; rfl
  case wings => rw [trimAndPllLock_links hp hl hi, hw]; rfl
  case pass => exact doWhen_true (by rw [hp]; rfl)
  case capacity => exact doWhen_true (by rw [hp]; rfl)
  case slowest => rw [dramTrainingDone_steps_down hp h, if_pos hr]
  case slower => rw [dramTrainingDone_steps_down hp h, if_neg (Nat.not_le.mpr hr)]
  case die => exact bistComplete_reports hp hs (some d) b
  case island => exact bistComplete_reports hp hs none true
  case tested => exact bistComplete_reports hp hs none false
  case ready => exact doWhen_true (by rw [hp, hs]; rfl)
  case memory => exact doWhen_true (by rw [hr, hm]; rfl)

end Sys2Proof.Machine
end

section
/-! SUPPORT. What a notice and a completion leave: they reach host memory, a slice and the log, never the cue or the fabric. -/

namespace Sys2Proof.Machine

/-- The cue and the fabric: the parts of the state that the rows of the twin link read again after a notice or a completion. -/
def State.cueFab (s : State) : CueSt × FabSt := (s.cue, s.fab)

theorem sendMsix_cueFab (s : State) (v : Nat) : (sendMsix s v).cueFab = s.cueFab := by
  unfold sendMsix
  split_ifs <;> rfl

theorem interrupt_cueFab (s : State) (n : SliceId) (v : Nat) : (interrupt s n v).cueFab = s.cueFab := by
  unfold interrupt
  dsimp only
  split
  · exact sendMsix_cueFab ..
  · rfl

@[simp] theorem upSlice_cueFab (s : State) (n : SliceId) (f : Slice → Slice) : (s.upSlice n f).cueFab = s.cueFab := rfl
@[simp] theorem upPage_cueFab (s : State) (n : SliceId) (f : Page → Page) : (s.upPage n f).cueFab = s.cueFab := rfl
@[simp] theorem dropPrefetch_cueFab (s : State) : (dropPrefetch s).cueFab = s.cueFab := rfl
@[simp] theorem pokeHost_cueFab (s : State) (a : Nat) (bs : Bytes) : (pokeHost s a bs).cueFab = s.cueFab := rfl
@[simp] theorem out_cueFab (s : State) (os : List Out) : State.cueFab { s with out := os } = s.cueFab := rfl

theorem writeNotice_cueFab (s : State) (n : SliceId) (e : Notice) : (writeNotice s n e).cueFab = s.cueFab := by
  simp only [writeNotice, interrupt_cueFab, upPage_cueFab, dropPrefetch_cueFab, out_cueFab, pokeHost_cueFab]

theorem notify_cueFab (s : State) (n : SliceId) (code : Half) (v : BitVec 3) (p : BitVec 128) : (notify s n code v p).cueFab = s.cueFab := by
  unfold notify
  dsimp only
  split_ifs
  · exact writeNotice_cueFab ..
  · rfl
  · rfl
  · rfl

theorem writeCpl_cueFab (s : State) (n : SliceId) (e : Cpl) : (writeCpl s n e).cueFab = s.cueFab := by
  simp only [writeCpl, interrupt_cueFab, upPage_cueFab, dropPrefetch_cueFab, out_cueFab, pokeHost_cueFab]

theorem postCpl_cueFab (s : State) (n : SliceId) (e : Cpl) : (postCpl s n e).cueFab = s.cueFab := by
  unfold postCpl
  dsimp only
  split_ifs
  · rfl
  · exact writeCpl_cueFab ..
  · rfl
  · rfl
  · rfl

theorem sideBand_cue (s : State) (ev value : Nat) : (sideBand s ev value).cue = s.cue := congrArg Prod.fst (notify_cueFab ..)

theorem complete_fab (s : State) (n : SliceId) (f : Flight) (status detail : Nat) (result : BitVec 128) :
    (complete s n f status detail result).fab = s.fab := congrArg Prod.snd (postCpl_cueFab ..)

end Sys2Proof.Machine
end

section
/-! SUPPORT. The events of the twin link, row by row: its training and loss, the follower's cue, far locks and channel copies
(R302 to R312, R480). -/

namespace Sys2Proof.Machine

variable {s : State}

/-! ### Training and loss (R43, R304, R305, R311) -/

/-- A link that retrained for failed audits has each loop's credits initialised again. -/
theorem twinLinkUp_retrained {rt k : Nat} {ks : List Nat} (h : s.fab.twinRetrain = k :: ks) :
    exec (.twinLinkUp rt) s = .next (ks.foldl (fun s key => retrainedTwin s rt key) (retrainedTwin s rt k)) := by
  change execTwinLinkUp rt s = _
  simp only [execTwinLinkUp, h]
  rfl

theorem twinLinkUp_trained {rt : Nat} (h : s.fab.twinRetrain = []) (hp : paired s = true) (hd : s.fab.twinUp = false) :
    exec (.twinLinkUp rt) s = .next (sideBand ((s.upFab (fun f => { f with
      twinUp := true, oneWay := rt / 2, twinUncorrectableCue := 0, twinSent := 0, twinReceived := 0, twinSpace := 0
      credits := twinPools.foldl (fun t p => tset none t p.1 p.2) f.credits })).upSaf (fun f => { f with twinLostRaised := false })) 4 0) := by
  change execTwinLinkUp rt s = _
  simp only [execTwinLinkUp, h]
  exact doWhen_true (by rw [hp, hd]; rfl)

/-- A codeword that cannot be corrected is counted, and its first packet is asked for again. -/
def codewordLost (s : State) : State :=
  (s.upFab (fun f => { f with
    twinUncorrectable := f.twinUncorrectable + 1, twinUncorrectableCue := f.twinUncorrectableCue + 1 })).emit (.twinNak s.fab.twinReceived)

/-- The 65th such codeword of a cue takes the link down. -/
theorem twinCodewordUncorrectable_up (hu : s.fab.twinUp = true) :
    exec .twinCodewordUncorrectable s = .next (if 64 < s.fab.twinUncorrectableCue + 1 then twinDown (codewordLost s) else codewordLost s) :=
  doWhen_true hu

/-! ### The follower's cue (R311, R312) -/

/-- A frame that a follower receives over a link that is up. -/
theorem twinCueFrame_received {f : TwinCue} (hf : isFollower s = true) (hu : s.fab.twinUp = true) :
    exec (.twinCueFrame (some f)) s =
      .next (if s.cue.running then followFrame (s.at_ f.at_) f else if f.stops then s.at_ f.at_ else followStart (s.at_ f.at_) f) :=
  doWhen_true (by rw [hf, hu]; rfl)

/-- The one-way delay cancels: the lead's edge lies as far before the arrival as its control block says. -/
theorem leadEdge_eq (s : State) (f : TwinCue) : leadEdge s f = (f.at_ : Int) - f.sent + f.lead := by
  unfold leadEdge
  dsimp only
  omega

/-- A frame before the own edge is held for it, a stop among them. -/
theorem followFrame_early {f : TwinCue} (h : frameEarly s f = true) :
    followFrame s f = s.upCue (fun c => if f.stops then { c with stopping := true } else { c with frame := some f }) := if_pos h

theorem followFrame_late {f : TwinCue} (h : frameEarly s f = false) :
    followFrame s f = if f.stops then cueStopped s else followCorrect s f := if_neg (ne_true_of_eq_false h)

theorem raiseUnless_cue (b : Prop) [Decidable b] (s : State) (i : IslandId) (c : Byte) : (if b then s else raiseCode s i c).cue = s.cue := by
  split <;> rfl

/-- An offset outside the bound ends the alignment; what is then reported does not touch it. -/
theorem leaveBound_aligned (s : State) : (leaveBound s).cue.aligned = false := by
  unfold leaveBound
  dsimp only
  split_ifs
  · rw [sideBand_cue]; rfl
  · rw [sideBand_cue]; rfl
  · rfl
  · rfl

theorem keepBound_aligned (s : State) : (keepBound s).cue.aligned = (s.cue.aligned || decide (4 ≤ s.cue.alignRun + 1)) := rfl

/-- The fourth cue in a row within 50 ns aligns the follower, and one outside ends its alignment. -/
theorem followCorrect_aligned (s : State) (f : TwinCue) : (followCorrect s f).cue.aligned =
    (decide (((s.cue.last : Int) - leadEdge s f).natAbs ≤ 50) && (s.cue.aligned || decide (4 ≤ s.cue.alignRun + 1))) := by
  unfold followCorrect
  dsimp only
  rw [raiseUnless_cue]
  by_cases h : ((s.cue.last : Int) - leadEdge s f).natAbs ≤ 50
  · rw [if_pos h, keepBound_aligned, decide_eq_true h]
    rfl
  · rw [if_neg h, leaveBound_aligned, decide_eq_false h]
    rfl

/-! ### Far locks (R309, R310) -/

variable {line at_ : Nat} {o : FarOp}

/-- A line that is held for the partner, or on a tie at the lead, is refused. -/
theorem farLockRequest_refused (hu : s.fab.twinUp = true) (h : (∃ p ∈ s.fab.farHeld, p.1 = line) ∨ (ownLock s line = true ∧ isLead s = true)) :
    exec (.farLockRequest line) s = .next (s.emit (.farLock line .retry)) :=
  doWhen_next hu (if_pos (h.imp_left fun ⟨p, hp, hl⟩ => List.any_eq_true.mpr ⟨p, hp, decide_eq_true hl⟩))

/-- A free line is granted, and so is the follower's own, which it gives up. -/
theorem farLockRequest_granted (hu : s.fab.twinUp = true) (hf : ∀ p ∈ s.fab.farHeld, p.1 ≠ line)
    (h : ownLock s line = false ∨ isLead s = false) :
    exec (.farLockRequest line) s = .next (grantFar (s.upOps line (fun o => { o with locked := false })) line) := by
  refine doWhen_next hu (if_neg ?_)
  rintro (hh | ⟨ho, hl⟩)
  · obtain ⟨p, hp, hl⟩ := List.any_eq_true.mp hh
    exact hf p hp (of_decide_eq_true hl)
  · simp [ho, hl] at h

/-- Operations that gave their lock up start again; without one nothing changes. -/
theorem retryOps_none (h : ∀ o ∈ s.fab.ops, o.line = line → o.locked = true) : retryOps s line = s :=
  if_neg (by simpa using h)

theorem retryOps_some (h : ∃ o ∈ s.fab.ops, o.line = line ∧ o.locked = false) :
    retryOps s line = (s.upOps line (fun o => { o with requested := s.now, locked := true })).emit (.farRequest line) :=
  if_pos (by simpa using h)

/-- The locks of a line whose deadlines have passed go: those held for the partner, and those of the package's own operations. -/
def lapse (s : State) (line at_ : Nat) : State := (s.at_ at_).upFab (fun f => { f with
  farHeld := f.farHeld.filter (fun p => ¬ (p.1 = line ∧ p.2 ≤ at_))
  ops := f.ops.filter (fun o => ¬ (o.line = line ∧ o.requested + 20000 ≤ at_)) })

/-- The operations of a line that are past their 20 us. -/
def lateOps (s : State) (line at_ : Nat) : List FarOp := s.fab.ops.filter (fun o => o.line = line ∧ o.requested + 20000 ≤ at_)

/-- The commits of operations that are late are gone, and their commands complete with TIMEOUT. -/
def failOps (late : List FarOp) (s : State) : State :=
  late.foldl (fun s o => match (s.slice o.slice).flight.find? (fun f => f.pos = o.pos) with
    | some f => complete s o.slice f 0x0B 0 0
    | none => s) { s with commits := s.commits.filter (fun (c : Commit) => ¬ late.any (fun o => o.pos = c.pos ∧ o.slice = c.slice)) }

theorem farLockTimeout_eq : exec (.farLockTimeout line at_) s =
    .next (if s.fab.farHeld.any (fun p => decide (p.1 = line) && decide (p.2 ≤ at_)) then retryOps (failOps (lateOps s line at_) (lapse s line at_)) line
      else failOps (lateOps s line at_) (lapse s line at_)) := rfl

theorem failOps_nil (s : State) : failOps [] s = s := by simp [failOps]

theorem failOps_single {f : Flight} (hf : (s.slice o.slice).flight.find? (fun f => f.pos = o.pos) = some f) :
    failOps [o] s = complete { s with commits := s.commits.filter (fun (c : Commit) => ¬ (o.pos = c.pos ∧ o.slice = c.slice)) } o.slice f 0x0B 0 0 := by
  simp only [failOps, List.foldl_cons, List.foldl_nil, List.any_cons, List.any_nil, Bool.or_false, decide_eq_true_eq]
  change (match (s.slice o.slice).flight.find? (fun f => f.pos = o.pos) with | some f => _ | none => _) = _
  rw [hf]

/-- Before every deadline of the line only time passes. -/
theorem farLockTimeout_early (hh : ∀ p ∈ s.fab.farHeld, p.1 = line → at_ < p.2)
    (ho : ∀ o ∈ s.fab.ops, o.line = line → at_ < o.requested + 20000) : exec (.farLockTimeout line at_) s = .next (s.at_ at_) := by
  have hheld : s.fab.farHeld.filter (fun p => ¬ (p.1 = line ∧ p.2 ≤ at_)) = s.fab.farHeld := List.filter_eq_self.mpr (by simpa [imp_iff_not_or] using hh)
  have hops : s.fab.ops.filter (fun o => ¬ (o.line = line ∧ o.requested + 20000 ≤ at_)) = s.fab.ops :=
    List.filter_eq_self.mpr (by simpa [imp_iff_not_or] using ho)
  have hlapse : lapse s line at_ = s.at_ at_ := by
    unfold lapse State.upFab
    simp only [State.at__fab, hheld, hops]
    rfl
  have hlate : lateOps s line at_ = [] := List.filter_eq_nil_iff.mpr (by simpa using ho)
  have hnone : s.fab.farHeld.any (fun p => decide (p.1 = line) && decide (p.2 ≤ at_)) = false := by simpa using hh
  rw [farLockTimeout_eq, hlate, hlapse, failOps_nil, hnone]
  rfl

/-- The one operation of the package fails past its 20 us, and none is left that could start again. -/
theorem farLockTimeout_late {f : Flight} (hs : s.fab.ops = [o]) (hl : o.line = line) (hd : o.requested + 20000 ≤ at_)
    (hf : (s.slice o.slice).flight.find? (fun f => f.pos = o.pos) = some f) :
    exec (.farLockTimeout line at_) s = .next (complete { (s.at_ at_).upFab (fun x => { x with
      ops := [], farHeld := x.farHeld.filter (fun p => ¬ (p.1 = line ∧ p.2 ≤ at_)) }) with
        commits := s.commits.filter (fun (c : Commit) => ¬ (o.pos = c.pos ∧ o.slice = c.slice)) } o.slice f 0x0B 0 0) := by
  have hlate : lateOps s line at_ = [o] := by simp [lateOps, hs, hl, hd]
  have hops : (lapse s line at_).fab.ops = [] := by simp [lapse, hs, hl, hd]
  have hlapse : lapse s line at_ = (s.at_ at_).upFab (fun x => { x with
      ops := [], farHeld := x.farHeld.filter (fun p => ¬ (p.1 = line ∧ p.2 ≤ at_)) }) := by
    unfold lapse State.upFab
    simp [hs, hl, hd]
  have hretry : retryOps (failOps [o] (lapse s line at_)) line = failOps [o] (lapse s line at_) := by
    refine retryOps_none ?_
    rw [failOps_single (s := lapse s line at_) hf, complete_fab]
    simp [hops]
  rw [farLockTimeout_eq, hlate, hretry, ite_self, failOps_single (s := lapse s line at_) hf, hlapse]
  rfl

/-- The partner's grant lets the operation that holds its own line commit. -/
theorem farLockResponse_grant (h : s.fab.ops.find? (fun o => o.line == line && o.locked) = some o) :
    exec (.farLockResponse line .grant) s = .next (agreeCommit s o) := by
  change execFarLockResponse line .grant s = _
  simp only [execFarLockResponse, h]
  rfl

/-- The partner's release frees its lock and lets the package's operations on the line start again. -/
theorem farLockResponse_release (line : Nat) : exec (.farLockResponse line .release) s =
    .next (retryOps (s.upFab (fun f => { f with farHeld := f.farHeld.filter (fun p => p.1 ≠ line) })) line) := rfl

/-! ### Channel copies (R288, R306 to R308, R480) -/

variable {ch : BitVec 6} {e : TwinEnd} {g : BitVec 16} {d : Bytes}

/-- A send end copies its buffer: its trigger came, the link carries channels, and the credits of a first packet are there. -/
def copyStarts (s : State) (e : TwinEnd) : Bool :=
  s.pwr.state == .active && s.fab.twinUp && s.fab.twinMode != 0 && !e.receive && !e.copying && e.triggered && copyFits s e.len

theorem twinChannelCopy_idle (hc : tget none s.fab.channels ch.toNat = some e) (h : copyStarts s e = false) :
    exec (.twinChannelCopy ch) s = .next s := by
  change execTwinChannelCopy ch s = _
  simp only [execTwinChannelCopy, hc]
  exact doWhen_false h

/-- With no tag the copy waits, which is counted. -/
theorem twinChannelCopy_stalls (hc : tget none s.fab.channels ch.toNat = some e) (h : copyStarts s e = true) (hg : freeTag s 4 = none) :
    exec (.twinChannelCopy ch) s = .next (s.upMem (fun x => { x with tagStalls := tup 0 x.tagStalls 4 (· + 1) })) := by
  change execTwinChannelCopy ch s = _
  simp only [execTwinChannelCopy, hc, hg]
  exact doWhen_true h

/-- With a tag the buffer is sent, its failing granules as they are. -/
theorem twinChannelCopy_sends {bs : Bytes} (hc : tget none s.fab.channels ch.toNat = some e) (h : copyStarts s e = true) (hg : freeTag s 4 = some g)
    (hb : carriedBytes (openCopy s ch e g) e.slice (.slice e.slice) e.va e.len = some bs) :
    exec (.twinChannelCopy ch) s = .next ((openCopy s ch e g).emit
      (.twinData ch bs (carriedBad (openCopy s ch e g) e.slice (.slice e.slice) e.va e.len))) := by
  change execTwinChannelCopy ch s = _
  simp only [execTwinChannelCopy, hc, hg, hb]
  exact doWhen_true h

/-- A buffer that cannot be read fails the channel. -/
theorem twinChannelCopy_fails (hc : tget none s.fab.channels ch.toNat = some e) (h : copyStarts s e = true) (hg : freeTag s 4 = some g)
    (hb : carriedBytes (openCopy s ch e g) e.slice (.slice e.slice) e.va e.len = none) :
    exec (.twinChannelCopy ch) s = .next (failChannel 2 (openCopy s ch e g) ch.toNat) := by
  change execTwinChannelCopy ch s = _
  simp only [execTwinChannelCopy, hc, hg, hb]
  exact doWhen_true h

/-- What a copy leaves at a channel's end where it ends: visible at the receive end, gone from the send end, or failed. -/
def copyEnded (s : State) (ch : BitVec 6) (e : TwinEnd) (d : Bytes) : TwinCopyResult → State
  | .visible =>
    if (s.fab.twinUp && s.fab.twinMode != 0) = true then
      if e.receive then
        if d.length = e.len ∧ reachable s e.slice (.slice e.slice) .write e.va e.len then
          issueSignal ((writeBy s midTwin e.slice (.slice e.slice) e.va d).upFab (fun f => { f with twinReceived := f.twinReceived + packets e.len }))
            e.ctr { value := 1, src := .twin }
        else s
      else copyOver (closeCopy s ch.toNat) ch.toNat
    else s
  | .link => failChannel 0 s ch.toNat
  | .timeout => failChannel 1 s ch.toNat
  | .check => failChannel 2 (if e.receive then reportCheckOf s .b midTwin e.slice false else s) ch.toNat

theorem twinChannelCopyDone_ends {r : TwinCopyResult} (hc : tget none s.fab.channels ch.toNat = some e) :
    exec (.twinChannelCopyDone ch r d) s = .next (copyEnded s ch e d r) := by
  change execTwinChannelCopyDone ch r d s = _
  simp only [execTwinChannelCopyDone, hc]
  cases r <;> rfl

/-- Nothing crosses a link that is down, or in SINGLE mode. -/
theorem copyEnded_single (h : s.fab.twinUp = false ∨ s.fab.twinMode = 0) : copyEnded s ch e d .visible = s := by
  refine if_neg fun hup => ?_
  simp only [Bool.and_eq_true, bne_iff_ne] at hup
  obtain h | h := h
  · exact ne_true_of_eq_false h hup.1
  · exact hup.2 h

/-- A send end of a counter in service waits on it. -/
theorem armTwin_send (hc : tget none s.fab.channels ch.toNat = some e) (hr : e.receive = false) (hd : (s.ctr e.ctr).dead = false) :
    armTwin s ch.toNat = releaseWaits (s.upCtr e.ctr (fun x => { x with
      waits := x.waits ++ [{ who := .twin ch.toNat, ctr := e.ctr, mode1 := true, value := 1 }] })) e.ctr := by
  unfold armTwin
  rw [hc]
  exact if_neg (by simp [hr, hd])

theorem releaseWait_twin {w : SyncWait} {k : Nat} (h : w.who = .twin k) :
    releaseWait s w = s.upChannel k (fun e => { e with triggered := true }) := by
  unfold releaseWait
  rw [h]

/-- Settles O53: each event of the twin link by the lemma of its row. -/
theorem twinLink : Obligations.TwinLink := by
  refine ⟨fun s => ⟨fun rt k ks => twinLinkUp_retrained, fun rt => twinLinkUp_trained,
      fun hu => ⟨doWhen_true hu, doWhen_true hu, fun hn => ?few, fun hn => ?many⟩,
      fun hu => ⟨doWhen_false hu, doWhen_false hu, doWhen_false hu⟩,
      fun hf hr => doWhen_true (by rw [hf, hr]; rfl), fun f hf hu => ?frame, followCorrect_aligned s,
      fun line hu => ⟨farLockRequest_refused hu, farLockRequest_granted hu⟩, fun line at_ => farLockTimeout_early,
      fun line at_ o f => farLockTimeout_late, fun line o => farLockResponse_grant, fun line => rfl,
      fun line => ⟨fun ho => ?again, fun ho => ?released⟩⟩,
    fun s ch e hc => ⟨fun w => releaseWait_twin, armTwin_send hc, fun hp hu hm hr hk ht hfit => ?copies, fun hfit => ?unfit,
      fun ht => ?untriggered, fun d h => ?single, fun d hu hm => ⟨fun hr hlen hreach => ?receive, fun hr => ?send⟩,
      fun d => ⟨twinChannelCopyDone_ends hc, twinChannelCopyDone_ends hc, fun hr => ?sendCheck, fun hr => ?receiveCheck⟩⟩⟩
  case few => exact (twinCodewordUncorrectable_up hu).trans (congrArg _ (if_neg (by omega)))
  case many => exact (twinCodewordUncorrectable_up hu).trans (congrArg _ (if_pos (by omega)))
  case frame =>
    dsimp only
    rw [twinCueFrame_received hf hu]
    refine ⟨leadEdge_eq _ f, fun hr he hs => ?_, fun hr he hs => ?_, fun hr he hs => ?_, fun hr he hs => ?_, fun hr => ?_⟩
    · simp only [hr, followFrame_early he, hs, if_true]
    · simp only [hr, followFrame_early he, hs, if_true, Bool.false_eq_true, if_false]
    · simp only [hr, followFrame_late he, hs, if_true]
    · simp only [hr, followFrame_late he, hs, if_true, Bool.false_eq_true, if_false]
    · rw [if_neg (ne_true_of_eq_false hr)]
  case again => exact (farLockResponse_release line).trans (congrArg _ (retryOps_some ho))
  case released => exact (farLockResponse_release line).trans (congrArg _ (retryOps_none ho))
  case copies =>
    have hs : copyStarts s e = true := by rw [copyStarts, hp, hu, bne_iff_ne.mpr hm, hr, hk, ht, hfit]; rfl
    exact ⟨fun g hg => ⟨fun bs => twinChannelCopy_sends hc hs hg, twinChannelCopy_fails hc hs hg⟩, twinChannelCopy_stalls hc hs⟩
  case unfit => exact twinChannelCopy_idle hc (by simp [copyStarts, hfit])
  case untriggered => exact twinChannelCopy_idle hc (by simp [copyStarts, ht])
  case single => exact (twinChannelCopyDone_ends hc).trans (congrArg _ (copyEnded_single h))
  case receive =>
    refine (twinChannelCopyDone_ends hc).trans (congrArg _ ((if_pos ?_).trans ((if_pos hr).trans (if_pos ⟨hlen, hreach⟩))))
    rw [hu, bne_iff_ne.mpr hm, Bool.true_and]
  case send =>
    refine (twinChannelCopyDone_ends hc).trans (congrArg _ ((if_pos ?_).trans (if_neg (ne_true_of_eq_false hr))))
    rw [hu, bne_iff_ne.mpr hm, Bool.true_and]
  case sendCheck => exact (twinChannelCopyDone_ends hc).trans (by rw [copyEnded, hr]; rfl)
  case receiveCheck => exact (twinChannelCopyDone_ends hc).trans (by rw [copyEnded, hr]; rfl)

end Sys2Proof.Machine
end

section
/-! SUPPORT. Known-answer registrations, the status record, twin channels and enclaves (R306, R307, R363, R377 to R384, R421, R422,
R427, Table 12-9). -/

namespace Sys2Proof.Machine

variable {a : State} {n : SliceId} {f : Flight} {w : Line}

/-! ### KAF_SET (R421, R422) -/

/-- A registration is of the HANDLE and JOB that KAF_SET names. -/
def namesKaf (n : SliceId) (w : Line) (r : Kaf) : Bool := r.slice == n && r.handle == fld w 8 2 && r.jobIdx == fld w 10 2

/-- The registration that KAF_SET asks for, before its pages are known. -/
def kafOf (n : SliceId) (w : Line) (input expect : Bytes) : Kaf where
  slice := n
  handle := fld w 8 2
  jobIdx := fld w 10 2
  k := if fld w 12 1 = 0 then 8 else fld w 12 1
  bank := BitVec.ofNat 2 (fld w 13 1)
  scene := BitVec.ofNat 5 (fld w 14 1)
  pages := []
  len := input.length
  expect := BitVec.ofNat 64 (leNat expect)
  since := none
  running := none

section
variable {p : Package} {e : JobEntry} (hb : fld w 13 1 ≤ 3) (hs : fld w 14 1 ≤ 31)
  (hp : tget none (a.slice n).packages (fld w 8 2) = some p) (he : p.jobs[fld w 10 2]? = some e)
include hb hs hp he

/-- At INPUT_VA 0 the job's registrations are removed, if it has any. -/
theorem kafSet_of_remove (hz : fld w 16 8 = 0) :
    kafSet a n f w = if a.saf.kafs.any (namesKaf n w) then .ok (removeKafs a (namesKaf n w)) 0 else .err stNoObject 8 := by
  refine (if_neg (Nat.not_lt.mpr hb)).trans ((if_neg (Nat.not_lt.mpr hs)).trans ?_)
  simp only [hp, he]
  exact if_pos hz

/-- A registration that R421 and R422 allow, with its input and its signature readable. -/
theorem kafSet_of_register {sh : Sheet} {sc : Scene} {input expect : Bytes} (hz : fld w 16 8 ≠ 0) (hpark : parked a = false)
    (hsh : tget none a.sheets (fld w 13 1) = some sh) (hsc : sh.scenes[fld w 14 1]? = some sc) (herr : kafErr n p e sc = none)
    (hroom : a.saf.kafs.length < 16 ∨ a.saf.kafs.any (namesKaf n w) = true) (hin : StructAt a n w 16 (fld w 16 8) (inputBytes p e) input) :
    let b := structRead a n (fld w 16 8) (inputBytes p e)
    StructAt b n w 24 (fld w 24 8) 8 expect →
      kafSet a n f w = registerKaf (structRead b n (fld w 24 8) 8) (kafOf n w input expect) input expect := by
  intro b hex
  refine (if_neg (Nat.not_lt.mpr hb)).trans ((if_neg (Nat.not_lt.mpr hs)).trans ?_)
  simp only [hp, he]
  refine (if_neg hz).trans ((if_neg (ne_true_of_eq_false hpark)).trans ?_)
  simp only [hsh, hsc, herr]
  refine (if_neg ?_).trans ((withStruct_of hin).trans (withStruct_of hex))
  rintro ⟨hfull, hnew⟩
  exact hroom.elim (Nat.not_lt.mpr hfull) hnew

end

/-! ### Twin channels (R307) -/

/-- TWIN_CHANNEL_SET with its fields in their ranges, on a counter and a channel that are the slice's, passes the field rules. -/
theorem channelFieldErr_none (hch : fld w 8 1 ≤ 63) (hdir : fld w 9 1 ≤ 1) (hctr : fld w 10 2 ≤ 8191) (hal : fld w 16 8 % 64 = 0)
    (hva : fld w 16 8 < 2 ^ 48) (hlen : 0 < fld w 24 4) (hmul : fld w 24 4 % 64 = 0) (hown : (a.ctr (BitVec.ofNat 13 (fld w 10 2))).slice = some n)
    (hend : ∀ e, tget none a.fab.channels (fld w 8 1) = some e → e.slice = n ∧ e.copying = false) : channelFieldErr a n w = none := by
  refine (if_neg (Nat.not_lt.mpr hch)).trans ((if_neg (Nat.not_lt.mpr hdir)).trans ((if_neg (Nat.not_lt.mpr hctr)).trans
    ((if_neg (by omega)).trans ((if_neg (by omega)).trans ?_))))
  simp only [hown]
  refine (if_neg (not_not_intro rfl)).trans ?_
  cases hc : tget none a.fab.channels (fld w 8 1) with
  | none => rfl
  | some e =>
    obtain ⟨hs, hk⟩ := hend e hc
    exact (if_neg (not_not_intro hs)).trans (if_neg (ne_true_of_eq_false hk))

/-! ### Enclaves (R377 to R384) -/

/-- A structure of an enclave's load that lies in device DRAM and can be read is given to the rest of the load. -/
theorem withDram_of {va len : Nat} {bs : Bytes} {k : State → Bytes → Res} (hd : firstOff a n .read va len isDram = none)
    (h : StructAt a n w 16 va len bs) : withDram a n w va len k = k (structRead a n va len) bs :=
  (if_neg (by rw [hd]; decide)).trans (withBytes_of h)

/-- What a load answers once it has its ciphertext: the package's handle, or the error of the step that failed with the enclave wiped. -/
def loadOpened (n : SliceId) (e : Nat) (x : Enclave) (wrap : Bytes) (s : State) (cipher : Bytes) : Res :=
  match openEnclave s n e x wrap cipher with
  | .error p => failLoad s e p.1 p.2.1 p.2.2
  | .ok t => .ok t.1 (payload [(0, 2, t.2)])

section
variable {x : Enclave} {wrap : Bytes} (h1 : 1 ≤ fld w 8 1) (h31 : fld w 8 1 ≤ 31) (hx : tget none a.sec.enclaves (fld w 8 1) = some x)
include h1 h31 hx

/-- A slice loads no enclave but its own. -/
theorem enclaveLoad_foreign (hh : x.host ≠ n) : enclaveLoad a n f w = .err stDenied 8 := by
  refine (if_neg (by omega)).trans ?_
  simp only [hx]
  exact if_pos hh

variable (hh : x.host = n) (hp : parked a = false) (hn : x.handle = none) (hd : firstOff a n .read (fld w 16 8) 512 isDram = none)
  (hw : StructAt a n w 16 (fld w 16 8) 512 wrap) (herr : wrapperErr wrap = none)
include hh hp hn hd hw herr

/-- An empty enclave of the slice and a wrapper with its fields in order: the supplier's signature decides. -/
theorem enclaveLoad_wrapped :
    let b := structRead a n (fld w 16 8) 512
    enclaveLoad a n f w = if ¬ supplierOk b wrap then failLoad b (fld w 8 1) stAuth 0 0
      else withDram b n w (fld w 16 8 + 512) (fieldOf wrap 8 8) (loadOpened n (fld w 8 1) x wrap) := by
  refine (if_neg (by omega)).trans ?_
  simp only [hx]
  refine (if_neg (not_not_intro hh)).trans ((if_neg (ne_true_of_eq_false hp)).trans ((if_neg (by rw [hn]; decide)).trans ((withDram_of hd hw).trans ?_)))
  simp only [herr]
  rfl

end

/-- Settles O39: each command by the checks of its body in their order. -/
theorem vehicleCommands : Obligations.VehicleCommands := by
  refine ⟨onRow (fun _ _ _ => rfl) (by decide) ?kaf, onRow (fun _ _ _ => rfl) (by decide) ?status,
    onRow (fun _ _ _ => rfl) (by decide) ?channelSet, onRow (fun _ _ _ => rfl) (by decide) ?channelFree,
    onRow (fun _ _ _ => rfl) (by decide) ?create, onRow (fun _ _ _ => rfl) (by decide) ?load, onRow (fun _ _ _ => rfl) (by decide) ?destroy⟩
  case kaf =>
    intro a n w f gives hg mine p e hb hs hp he
    have body {r : Res} := hg r rfl
    exact ⟨fun hz hm => body ((kafSet_of_remove hb hs hp he hz).trans (if_pos hm)),
      fun hz hm => body ((kafSet_of_remove hb hs hp he hz).trans (if_neg (ne_true_of_eq_false hm))),
      fun sh sc input expect hz hpark hsh hsc herr hroom hin hex => body (kafSet_of_register hb hs hp he hz hpark hsh hsc herr hroom hin hex)⟩
  case status => exact fun a n w f gives hg hd => hg _ rfl (withDest_of hd)
  case channelSet =>
    intro a n w f gives hg hch hdir hctr hal hva hlen hmul hown hend
    have body {r : Res} := hg r rfl
    simp only [channelFieldErr_none hch hdir hctr hal hva hlen hmul hown hend] at body
    exact ⟨fun hx => body (if_pos (ne_true_of_eq_false hx)),
      fun hx hl => body ((if_neg (not_not_intro hx)).trans (if_neg (ne_true_of_eq_false hl)))⟩
  case channelFree =>
    intro a n w f gives hg hch
    have body {r : Res} := fun h => hg r rfl ((if_neg (Nat.not_lt.mpr hch)).trans h)
    refine ⟨fun hc => body ?_, fun e hc => ?_⟩
    · rw [hc]; rfl
    · rw [hc] at body
      exact ⟨fun hs => body (if_pos hs), fun hs hk => body ((if_neg (not_not_intro hs)).trans (if_pos hk)),
        fun hs hk => body ((if_neg (not_not_intro hs)).trans (if_neg (ne_true_of_eq_false hk)))⟩
  case create =>
    intro a n w f gives hg
    dsimp only
    intro e p ps hhost hsz hmul hmax hv hdes hpark he hp hm hfit hps
    refine hg _ rfl ((if_neg (Nat.not_lt.mpr hhost)).trans ((if_neg (by omega)).trans
      ((if_neg (not_or.mpr ⟨not_not_intro hv, ne_true_of_eq_false hdes⟩)).trans ((if_neg (ne_true_of_eq_false hpark)).trans ?_))))
    rw [he, hp]
    refine (if_neg hm).trans ((if_neg (not_not_intro hfit)).trans ?_)
    rw [hps]
  case load =>
    intro a n w f gives hg x wrap h1 h31 hx
    have body {r : Res} := hg r rfl
    refine ⟨fun hh => body (enclaveLoad_foreign h1 h31 hx hh), fun hh hp hn hd hw => ?own⟩
    have wrapped (herr) := enclaveLoad_wrapped (f := f) h1 h31 hx hh hp hn hd hw herr
    refine ⟨fun herr hs => body ((wrapped herr).trans (if_pos (ne_true_of_eq_false hs))), fun cipher herr hs hdc hc => ?signed⟩
    case signed =>
      have opens := (wrapped herr).trans ((if_neg (not_not_intro hs)).trans (withDram_of hdc hc))
      refine ⟨fun t ht => body (opens.trans ?_), fun st o r hr => body (opens.trans ?_)⟩
      · rw [loadOpened, ht]
      · rw [loadOpened, hr]; rfl
  case destroy =>
    intro a n w f gives hg x h1 h31 hx hp
    have body {r : Res} := fun h => hg r rfl ((if_neg (by omega)).trans h)
    simp only [hx, if_neg (ne_true_of_eq_false hp)] at body
    exact ⟨fun hj => body (if_pos (by simpa using hj)), fun hj => body (if_neg (by simpa using hj))⟩

end Sys2Proof.Machine
end

section
/-! SUPPORT. The rows of Tables 12-6 to 12-9: each passes the checks of its table entry before its body (R319, R320, R348 to R350,
Table 12-4). -/

namespace Sys2Proof.Machine

variable {s : State} {n : SliceId} {w : Line} {c : CmdRow}

/-- The checks that a row of the tables asks for. -/
def CmdRow.spec (c : CmdRow) : CmdSpec := { op := c.op, zero := c.zero, named := c.named, mine := c.mine }

/-- The row is a Pyotos command, with these checks before some body. -/
def CmdRow.IsCommand (c : CmdRow) : Prop := ∀ n w s, ∃ body, exec (c.row n w) s = runCmd c.spec body n w s

theorem cmdRow_isCommand : ∀ c ∈ cmdRows, c.IsCommand := by
  simp only [cmdRows, cmdRows0, cmdRows1, cmdRows2, cmdRows3, cmdRows4, cmdRows5, List.forall_mem_append, List.forall_mem_cons,
    List.not_mem_nil, false_implies, implies_true, and_true]
  and_intros
  all_goals exact fun _ _ _ => ⟨_, rfl⟩

theorem cmdRow_op_defined : ∀ c ∈ cmdRows, c.op ∈ opcodes := by decide

theorem isRow_spec (h : fld w 0 2 = c.op) (hm : c.mine w = true) : isRow c.spec w = true := by simp [isRow, CmdRow.spec, h, hm]

theorem isRow_spec_other (ho : fld w 0 2 ∈ opcodes) (h : fld w 0 2 ≠ c.op) : isRow c.spec w = false := by simp [isRow, CmdRow.spec, h, ho]

/-- A command of slice 0 that another slice sends is denied, whatever took it. -/
theorem checked_denied {k : CmdSpec} {body : Body} {f : Flight} (ho : fld w 0 2 ∈ opcodes) (hz : k.zero = true) (hn : n ≠ 0) :
    checked k body s n f w = .err 4 0 :=
  (if_neg (not_not_intro (List.contains_iff_mem.mpr ho))).trans (if_pos ⟨hz, hn⟩)

/-- Settles O27: each row is a command with its table entry's checks, and these answer as Laws/Cmd says. -/
theorem commandChecks : Obligations.CommandChecks := by
  intro c hc s n w
  obtain ⟨body, hrow⟩ := cmdRow_isCommand c hc n w s
  have hop := cmdRow_op_defined c hc
  simp only [hrow]
  refine ⟨runCmd_bad, fun ht h hm hz hn => runCmd_denied ht hop h hm hz hn, fun o ht h hm hz ho => runCmd_reserved ht hop h hm hz ho,
    fun h hr => runCmd_idle (.inr ⟨h, hr⟩), fun ho h => runCmd_idle (.inl (isRow_spec_other ho h)),
    fun ht h hm => runCmd_waits ht (isRow_spec h hm), fun f hf h hm hz hn => ?_⟩
  rw [runCmd_released hf (isRow_spec h hm), checked_denied (h ▸ hop) hz hn, settle]

end Sys2Proof.Machine
end

section
/-! SUPPORT. Taking an entry: what it changes, and whose turn it is (R319, R349; log entry 131). -/

namespace Sys2Proof.Machine

variable {s : State} {n m : SliceId} {w : Line}

/-! ### The slices after an entry is taken -/

theorem slice_accept (s : State) (n : SliceId) (w : Line) : (accept s n w).slice n = { s.slice n with
    page := { (s.slice n).page with
      cmdHead := (s.slice n).page.cmdHead + 1, dbCmd := decide ((s.slice n).page.cmdHead + 1 ≠ (s.slice n).page.seenTail) }
    flight := (s.slice n).flight ++ [flightOf s n w] } := by
  rw [accept, slice_upHost, slice_upSlice]

theorem slice_accept_ne (w : Line) (h : m ≠ n) : (accept s n w).slice m = s.slice m := by
  rw [accept, slice_upHost, slice_upSlice_ne _ _ _ _ h]

/-! ### What an entry that can be taken finds -/

theorem ringReady_iff {x : Slice} : ringReady x = true ↔
    x.valid = true ∧ x.destroying = false ∧ x.page.enable = true ∧ x.page.error = false ∧ x.page.cmdHead ≠ x.page.seenTail ∧
    x.held = [] ∧ x.flight.length < 1024 ∧ ∀ f ∈ x.flight, isHeld f = false := by
  simp [ringReady, and_assoc]

theorem wait_ne_barrier_of_not_isHeld {f : Flight} (h : isHeld f = false) (w : Line) : f.wait ≠ .barrier w := by
  intro hw
  rw [isHeld, hw] at h
  exact Bool.noConfusion h

theorem hasTurn_iff : hasTurn s n = true ↔ ∀ p ∈ s.slices, ringReady p.2 = true → turnOf s n ≤ turnOf s (BitVec.ofNat 7 p.1) := by
  simp [hasTurn, ← Bool.not_eq_true, ← imp_iff_not_or]

/-! ### The order of the turns -/

/-- The slice visited, while it may go on. -/
theorem turnOf_visit (h : s.host.visited < 8) : turnOf s s.host.visit = 0 := if_pos ⟨rfl, h⟩

/-- Every other turn comes by the distance from the slice visited. -/
theorem turnOf_other (h : ¬ (n = s.host.visit ∧ s.host.visited < 8)) : turnOf s n = (n - s.host.visit - 1).toNat + 1 := if_neg h

theorem turnOf_le (s : State) (n : SliceId) : turnOf s n ≤ 128 := by
  unfold turnOf
  split <;> omega

theorem turnOf_inj (h : turnOf s n = turnOf s m) : n = m := by
  by_cases hn : n = s.host.visit ∧ s.host.visited < 8 <;> by_cases hm : m = s.host.visit ∧ s.host.visited < 8
  · rw [hn.1, hm.1]
  · rw [hn.1, turnOf_visit hn.2, turnOf_other hm] at h
    omega
  · rw [hm.1, turnOf_visit hm.2, turnOf_other hn] at h
    omega
  · rw [turnOf_other hn, turnOf_other hm, Nat.add_right_cancel_iff] at h
    have := BitVec.eq_of_toNat_eq h
    bv_omega

/-- A visit of 8 commands is over: the slice visited comes last. -/
theorem turnOf_visit_over (h : 8 ≤ s.host.visited) : turnOf s s.host.visit = 128 := by
  rw [turnOf_other (fun hv => by omega), BitVec.sub_self]
  rfl

/-- Settles O28: the slices after `accept`, the conditions of `canTake` one by one, and the order of the turns. -/
theorem takingAnEntry : Obligations.TakingAnEntry := by
  refine ⟨fun s n w => ⟨?page, ?flight, fun m hm => slice_accept_ne w hm, rfl, rfl⟩, fun s n w h => ?found,
    fun s n m => turnOf_inj, fun s n h => ?first, fun s n h => ?last⟩
  case page => rw [slice_accept]
  case flight => rw [slice_accept, flightOf]
  case found =>
    simp only [canTake, mayTake, Bool.and_eq_true, Bool.or_eq_true] at h
    obtain ⟨⟨⟨_, hready⟩, hturn⟩, hbar⟩ := h
    obtain ⟨_, _, hen, herr, htail, _, hlen, hheld⟩ := ringReady_iff.mp hready
    refine ⟨hen, herr, htail, hlen, fun hb => ?_, fun f hf => wait_ne_barrier_of_not_isHeld (hheld f hf), hasTurn_iff.mp hturn⟩
    simpa [isBarrier, cmdByte, hb] using hbar
  case first => exact turnOf_visit h ▸ Nat.zero_le _
  case last => exact turnOf_visit_over h ▸ turnOf_le s n

end Sys2Proof.Machine
end

section
/-! SUPPORT. The host's memory requests: they reach the part while the link is up and the function is not in D3hot (R316, R342, R343). -/

namespace Sys2Proof.Machine

variable {s t u : State} {n : SliceId}

theorem inbound_linkDown (h : s.host.linkUp = false) : inbound s t = .next s :=
  congrArg Host.Outcome.next (if_pos (ne_true_of_eq_false h))

theorem inbound_d3hot (hl : s.host.linkUp = true) (hd : s.host.d3hot = true) : inbound s t = .next (s.emit .unsupported) :=
  congrArg Host.Outcome.next ((if_neg (not_not_intro hl)).trans (if_pos hd))

theorem inbound_arrives (h : Arrives s) : inbound s t = .next t :=
  congrArg Host.Outcome.next ((if_neg (not_not_intro h.1)).trans (if_neg (ne_true_of_eq_false h.2)))

/-- A request that arrives, with an effect that is known to be `u`. -/
theorem inbound_next (h : Arrives s) (ht : t = u) : inbound s t = .next u := ht ▸ inbound_arrives h

/-- A write to a page that does not answer is discarded and counted. -/
theorem onPage_absent (h : Arrives s) (hp : s.host.devReady = false ∨ (s.slice n).valid = false) : onPage s n t = .next (dropCount s) :=
  inbound_next h (if_neg (by simpa [pageAnswers] using fun hr => hp.resolve_left (ne_false_of_eq_true hr)))

/-- Settles O41: each of the rows is an inbound request. -/
theorem requestsWithoutLink : Obligations.RequestsWithoutLink := by
  intro s n v c off len d b f o row hrow
  have hin : ∃ t, exec row s = inbound s t := by
    revert row
    simp only [List.forall_mem_cons, List.not_mem_nil, false_implies, implies_true, and_true]
    and_intros
    all_goals exact ⟨_, rfl⟩
  obtain ⟨t, ht⟩ := hin
  rw [ht]
  exact ⟨inbound_linkDown, inbound_d3hot⟩

end Sys2Proof.Machine
end

section
/-! SUPPORT. What the host's requests do to the registers, the counters and the aperture (R316, R321, R322, R326, R336). -/

namespace Sys2Proof.Machine

variable {s : State} {n : SliceId} {c : CtrId} {off : BitVec 25} {len : Nat} {bs : Bytes} {f : FloorAns} {v : Word}

/-! ### The counter window (R326) -/

/-- A slice's access to its own counter. -/
theorem counterFetchAdd_own (h : Arrives s) (hr : s.host.devReady = true) (hd : (s.ctr c).dead = false) (hv : (s.slice n).valid = true)
    (ho : (s.ctr c).slice = some n) : exec (.counterFetchAdd n c v) s = .next (
      let t := s.emit (.readData (leBytes 4 (s.ctr c).value.toNat))
      if v = 0 then t else applySignal (t.upCtr c (fun x => { x with issued := x.issued + 1 })) c { value := v, src := .host n }) :=
  inbound_next h ((if_neg (by simp [hr, hd])).trans (if_neg (by simp [hv, ho])))

theorem counterFetchAdd_foreign_read (h : Arrives s) (hr : s.host.devReady = true) (hd : (s.ctr c).dead = false)
    (ho : (s.ctr c).slice ≠ some n) : exec (.counterFetchAdd n c 0) s = .next (s.emit (.readData (zeros 4))) :=
  inbound_next h ((if_neg (by simp [hr, hd])).trans ((if_pos (.inr ho)).trans (if_pos rfl)))

/-! ### The aperture (R321, R322) -/

/-- The aperture of slice n reaches a range of its memory. -/
structure ApertureOpen (s : State) (n : SliceId) (va len : Nat) : Prop where
  ready : s.host.devReady = true
  valid : (s.slice n).valid = true
  enable : (s.slice n).page.aptEnable = true
  device : meetsHost s n va len = false

theorem apertureRead_aborts (h : Arrives s) {r : AptRead} (hr : s.host.devReady = false ∨ r.atomic = true) :
    exec (.apertureRead n off r) s = .next (abortAccess s) :=
  inbound_next h (if_pos (hr.imp_left ne_true_of_eq_false))

theorem apertureRead_absent (h : Arrives s) (hr : s.host.devReady = true) (hn : (s.slice n).valid = false ∨ (s.slice n).page.aptEnable = false) :
    exec (.apertureRead n off { len := len, floor := f }) s = .next (dropCount (s.emit (.readData (ones len)))) :=
  inbound_next h ((if_neg (by simp [hr])).trans (if_pos (hn.imp ne_true_of_eq_false (.inl ∘ ne_true_of_eq_false))))

/-- What a read through the open aperture leaves, by how the read of the slice's memory ends and when the floor answers. -/
def apertureAnswer (s : State) (n : SliceId) (off : BitVec 25) (len : Nat) (f : FloorAns) : ReadRes → State
  | .ok bs => floorEnd n f (s.emit (.readData (ones len)))
      (sliceAccess ((usePrefetch s n off.toNat len).emit (.readData bs)) midHost n false (apertureVa s n off) len)
  | .fault x => notify (dropCount (meetEntry (s.emit (.readData (ones len))) portW n (.slice n) x)) n 0x0C 3 (payload [(0, 1, 1), (8, 8, x)])
  | .check x _ => notify (countCheck (s.emit (.readData (ones len))) .b midHost) n 0x0C 3 (payload [(0, 1, 2), (8, 8, x)])

theorem apertureRead_open (h : Arrives s) (ha : ApertureOpen s n (apertureVa s n off) len) {r : ReadRes}
    (hr : readVa s n (.slice n) .read (apertureVa s n off) len = r) :
    exec (.apertureRead n off { len := len, floor := f }) s = .next (apertureAnswer s n off len f r) := by
  refine inbound_next h ((if_neg (by simp [ha.ready])).trans ((if_neg (by simp [ha.valid, ha.enable, ha.device])).trans ?_))
  simp only [hr]
  cases r <;> rfl

theorem apertureWrite_absent (h : Arrives s) {r : AptWrite}
    (hn : s.host.devReady = false ∨ (s.slice n).valid = false ∨ (s.slice n).page.aptEnable = false) :
    exec (.apertureWrite n off bs r) s = .next (dropCount s) :=
  inbound_next h (if_pos (hn.imp ne_true_of_eq_false (Or.imp ne_true_of_eq_false (.inl ∘ ne_true_of_eq_false))))

section
variable {r : AptWrite} (h : Arrives s) (ha : ApertureOpen s n (apertureVa s n off) bs.length)
include h ha

theorem apertureWrite_unreachable {x : Nat} (hx : firstUnreachable s n (.slice n) .write (apertureVa s n off) bs.length = some x) :
    exec (.apertureWrite n off bs r) s =
      .next (notify (dropCount (meetEntry s portW n (.slice n) x)) n 0x0C 3 (payload [(0, 1, 1), (8, 8, x)])) := by
  refine inbound_next h ((if_neg (by simp [ha.ready, ha.valid, ha.enable, ha.device])).trans ?_)
  simp only [hx]

theorem apertureWrite_reaches (hx : firstUnreachable s n (.slice n) .write (apertureVa s n off) bs.length = none) :
    exec (.apertureWrite n off bs r) s = .next (
      let va := apertureVa s n off
      let t := sliceAccess (writeBy (hitPrefetch s n off.toNat bs.length) midHost n (.slice n) va bs) midHost n true va bs.length
      floorEnd n r.floor (dropCount s) (if r.ep then notify (poisonVa t n va bs.length) n 0x0B 3 (payload [(0, 8, va)]) else t)) := by
  refine inbound_next h ((if_neg (by simp [ha.ready, ha.valid, ha.enable, ha.device])).trans ?_)
  simp only [hx]

end

/-! ### BAR0 (R316) -/

section
variable {o : BitVec 24} {size : Nat}

theorem bar0InvalidAccess_write (h : Arrives s) (hb : bar0Accepts s o.toNat size = false) :
    exec (.bar0InvalidAccess true o size) s = .next (dropCount s) :=
  inbound_next h ((if_pos rfl).trans (if_pos (by simp [hb])))

theorem bar0InvalidAccess_read (h : Arrives s) (hb : bar0Accepts s o.toNat size = false) :
    exec (.bar0InvalidAccess false o size) s = .next (abortAccess s) :=
  inbound_next h ((if_neg Bool.false_ne_true).trans (if_pos (by simp [hb])))

theorem bar0InvalidAccess_accepted (h : Arrives s) (hb : bar0Accepts s o.toNat size = true) :
    exec (.bar0InvalidAccess false o size) s = .next (readBar0 s o.toNat size) :=
  inbound_next h ((if_neg Bool.false_ne_true).trans (if_neg (by simp [hb])))

theorem registerWrite_bar0_accepted (h : Arrives s) {eight secure : Bool} {x : DWord}
    (hb : bar0Accepts s o.toNat (if eight then 8 else 4) = true) (hp : absentPage s (bar0Of o.toNat) = false) :
    exec (.registerWrite (.bar0 o eight) secure (.write x)) s = .next (
      if eight then writeBar0 (writeBar0 s o.toNat (x.extractLsb' 0 32)) (o.toNat + 4) (x.extractLsb' 32 32)
      else writeBar0 s o.toNat (x.extractLsb' 0 32)) :=
  inbound_next h (if_neg (by simp [hb, hp]))

theorem registerWrite_bar0_refused (h : Arrives s) {eight secure : Bool} {x : DWord}
    (hb : bar0Accepts s o.toNat (if eight then 8 else 4) = false ∨ absentPage s (bar0Of o.toNat) = true) :
    exec (.registerWrite (.bar0 o eight) secure (.write x)) s = .next (dropCount s) :=
  inbound_next h (if_pos (hb.imp_left ne_true_of_eq_false))

/-- The writes into the page of a slice. -/
theorem pageWrite_absent (h : Arrives s) (hp : s.host.devReady = false ∨ (s.slice n).valid = false) :
    ∀ row ∈ [Instr.doorbellCmd n, .doorbellMbx n, .ringEnable n v, .ringDisable n v, .cplHeadWrite n v, .ntcHeadWrite n v],
      exec row s = .next (dropCount s) := by
  simp only [List.forall_mem_cons, List.not_mem_nil, false_implies, implies_true, and_true]
  and_intros
  all_goals exact onPage_absent h hp

end

end Sys2Proof.Machine
end

section
/-! SUPPORT. The events of the host link: its loss and return, the host's completions, and prefetch (R289, R323, R329 to R331, R342,
R343). -/

namespace Sys2Proof.Machine

variable {s : State} {at_ : Nat}

theorem answered_semaphore {r : HostRead} {n : SliceId} {tag pos : Word} {status : Half} {result : BitVec 128}
    (h : r.src = .semaphore n tag pos status result) : answered s r = completeStart (pokeHost s r.addr
      (leBytes 8 (leNat ((List.range 8).map (fun i => hostByteAt s (r.addr + i))) + 1))) n tag pos status result := by
  simp only [answered, h]

theorem failHostRead_semaphore {r : HostRead} {n : SliceId} {tag pos : Word} {status : Half} {result : BitVec 128} {reason : Byte} {cause : Nat}
    (h : r.src = .semaphore n tag pos status result) : failHostRead reason cause s r =
      completeStart (notify s n 0x16 1 (payload [(0, 4, tag.toNat), (4, 1, cause)])) n tag pos status result := by
  simp only [failHostRead, h, semaphoreFailed]

/-! ### The Completion Timeout (R289, R323) -/

/-- A request of `r` has not yet waited for the Completion Timeout Value. -/
def InTime (s : State) (at_ : Nat) (r : HostRead) : Prop := at_ < r.since + (timeoutLeast s.host.cfg.timeout.toNat).getD 0

variable {a : BitVec 64}

theorem hostCompletionTimeout_early (h : readsAt s a.toNat = [] ∨ ∃ r ∈ readsAt s a.toNat, InTime s at_ r) :
    exec (.hostCompletionTimeout { addr := a, at_ := at_ }) s = .next s := by
  refine doWhen_false ?_
  obtain h | ⟨r, hr, ht⟩ := h
  · simp [h]
  · exact Bool.and_eq_false_iff.mpr (.inr (List.all_eq_false.mpr ⟨r, hr, by simpa [InTime] using ht⟩))

theorem hostCompletionTimeout_late (hn : readsAt s a.toNat ≠ []) (h : ∀ r ∈ readsAt s a.toNat, ¬ InTime s at_ r) :
    exec (.hostCompletionTimeout { addr := a, at_ := at_ }) s = .next ((readsAt s a.toNat).foldl (failHostRead 0x11 1)
      (raiseCode ((s.at_ at_).upHost (fun h => { h with
        completionTimeouts := h.completionTimeouts + 1
        reads := readsKept h a.toNat })) .a 0x0B)) :=
  doWhen_true (by simpa [hn, InTime] using h)

/-! ### Prefetch (R329 to R331) -/

theorem bridgePrefetch_reads {n : SliceId} {off : BitVec 25} {len : Nat} {bs : Bytes} (hp : mayPrefetch s n off.toNat len = true)
    (he : (s.slice n).page.aptEnable = true) (hm : meetsHost s n (apertureVa s n off) len = false)
    (hr : readVa s n (.slice n) .read (apertureVa s n off) len = .ok bs) :
    exec (.bridgePrefetch n off len at_) s = .next ((s.at_ at_).upHost (fun h => { h with
      prefetched := h.prefetched ++ (chunks (chunkFuel len) off.toNat len).map (fun c => { slice := n, off := c.1, len := c.2, since := (s.at_ at_).now }) })) :=
  doWhen_true (by simp [hp, hr, he, hm])

theorem prefetchExpiry_discards : exec (.prefetchExpiry at_) s = .next (
    let old (p : Prefetched) : Bool := decide (p.since + 10000 ≤ at_)
    (s.at_ at_).upHost (fun h => { h with
      prefetchDiscard := h.prefetchDiscard + BitVec.ofNat 32 (((h.prefetched.filter old).map (fun p => (granules p.off p.len).length)).foldl (· + ·) 0)
      prefetched := h.prefetched.filter (fun p => !old p) })) := by
  change execPrefetchExpiry at_ s = _
  simp only [execPrefetchExpiry, did, Bool.not_eq_true, Bool.decide_eq_false]

/-- Settles O42: each access and event by the lemma of its row. -/
theorem linkAndAccesses : Obligations.LinkAndAccesses := by
  refine ⟨fun s h => doWhen_false (by rw [h]; rfl), fun s h => doWhen_true (by rw [h]; rfl), fun s h => ?accesses, fun s => ?link⟩
  case accesses =>
    refine ⟨fun v hv => inbound_next h (if_pos hv), fun v hv => inbound_next h (if_neg (ne_true_of_eq_false hv)),
      fun n c v hr hd hn ho => ⟨fun hv => (counterFetchAdd_own h hr hd hn ho).trans (congrArg _ (if_pos hv)),
        fun hv => (counterFetchAdd_own h hr hd hn ho).trans (congrArg _ (if_neg hv))⟩,
      fun n c => counterFetchAdd_foreign_read h, fun n c => inbound_arrives h, fun b => inbound_arrives h,
      fun n off len => ⟨fun f => apertureRead_aborts h (.inr rfl), fun hr a f => apertureRead_aborts h (.inl hr),
        fun hr hn f => apertureRead_absent h hr hn, fun hr hv he hm => ?reads⟩,
      fun n off d => ⟨fun hn r => apertureWrite_absent h hn, fun hr hv he hm x r hx => apertureWrite_unreachable h ⟨hr, hv, he, hm⟩ hx,
        fun hr hv he hm hx => ?writes⟩,
      fun off size hb => ⟨bar0InvalidAccess_write h hb, bar0InvalidAccess_read h hb⟩, fun off size => bar0InvalidAccess_accepted h,
      fun off v b => ⟨fun hb hp => registerWrite_bar0_accepted h hb hp, fun hb hp => registerWrite_bar0_accepted h hb hp,
        fun wide hb => registerWrite_bar0_refused h hb⟩,
      fun n v hp => pageWrite_absent h hp⟩
    case reads =>
      have ha : ApertureOpen s n (apertureVa s n off) len := ⟨hr, hv, he, hm⟩
      exact ⟨fun bs hbs => ⟨apertureRead_open h ha hbs, apertureRead_open h ha hbs, apertureRead_open h ha hbs⟩,
        fun x hx f => apertureRead_open h ha hx, fun x p hx f => apertureRead_open h ha hx⟩
    case writes =>
      have ha : ApertureOpen s n (apertureVa s n off) d.length := ⟨hr, hv, he, hm⟩
      exact ⟨apertureWrite_reaches h ha hx, apertureWrite_reaches h ha hx, apertureWrite_reaches h ha hx⟩
  case link =>
    exact ⟨doWhen_true, fun hl hd => doWhen_true (by rw [hl, hd]; rfl), doWhen_true,
      fun a d hl => ⟨doWhen_true hl, doWhen_true hl, doWhen_true hl, doWhen_true hl⟩,
      fun r n tag pos status result hr => ⟨answered_semaphore hr, fun reason cause => failHostRead_semaphore hr⟩,
      fun a at_ => ⟨hostCompletionTimeout_early, hostCompletionTimeout_late⟩,
      fun n off len at_ bs hp he hm hr => bridgePrefetch_reads hp he hm hr, fun at_ => prefetchExpiry_discards⟩

end Sys2Proof.Machine
end

section
/-! SUPPORT. Mailbox channels: who is an end, what an end may do, and what a refused access leaves (R332 to R336, Tables 11-7, 11-13). -/

namespace Sys2Proof.Machine

variable {s t u : State} {ch : ChanId} {m : BitVec 4}

theorem byMaster_arrives (h : MasterArrives s m) : byMaster m s t = .next t := by
  unfold byMaster
  split
  · exact inbound_arrives (h ‹_›)
  · rfl

/-- An access that reaches the part, with an effect that is known to be `u`. -/
theorem byMaster_next (h : MasterArrives s m) (ht : t = u) : byMaster m s t = .next u := ht ▸ byMaster_arrives h

/-! ### The two ends -/

theorem codeOk_ends (h : chanOn s ch = true) : codeOk (endA (s.chan ch)) = true ∧ codeOk (endB (s.chan ch)) = true := by
  simp only [chanOn, chanValid, Bool.and_eq_true] at h
  obtain ⟨⟨⟨⟨⟨_, ha⟩, hb⟩, _⟩, _⟩, _⟩ := h
  exact ⟨ha, hb⟩

/-- A master's identifier is that of an endpoint's code just when it has that code (Table 11-13). -/
theorem midEnd_eq_iff {e : Nat} (he : codeOk e = true) : (midEnd m.toNat ≠ 0 ∧ midEnd m.toNat = midEnd e) ↔ m.toNat = e := by
  obtain ⟨h1, h6⟩ : 1 ≤ e ∧ e ≤ 6 := by simpa [codeOk] using he
  have hcodes : ∀ k < 16, ∀ e < 7, 1 ≤ e → ((midEnd k ≠ 0 ∧ midEnd k = midEnd e) ↔ k = e) := by decide
  exact hcodes _ m.isLt _ (by omega) h1

theorem admits_channel_iff {a b : Nat} (ha : codeOk a = true) (hb : codeOk b = true) :
    admits (.channel a b) (midEnd m.toNat) = true ↔ m.toNat = a ∨ m.toNat = b := by
  rw [← midEnd_eq_iff ha, ← midEnd_eq_iff hb, ← and_or_left]
  simp [admits]

/-- The firewall of a channel admits the two ends of one that is enabled, and no other master. -/
theorem isEnd_iff : (chanOn s ch && admits (.channel (endA (s.chan ch)) (endB (s.chan ch))) (midEnd m.toNat)) = true ↔
    chanOn s ch = true ∧ (m.toNat = endA (s.chan ch) ∨ m.toNat = endB (s.chan ch)) := by
  rw [Bool.and_eq_true]
  refine and_congr_right fun h => ?_
  obtain ⟨ha, hb⟩ := codeOk_ends h
  exact admits_channel_iff ha hb

/-! ### Doorbells (R334, R335) -/

theorem channelDoorbell_endA (h : MasterArrives s m) (hc : chanOn s ch = true) (ha : m.toNat = endA (s.chan ch)) (take : Bool) :
    exec (.channelDoorbell ch { master := m, take := take }) s = .next (if take then takeBell s ch true else ring s ch true) :=
  byMaster_next h (if_pos ⟨hc, ha⟩)

theorem channelDoorbell_endB (h : MasterArrives s m) (hc : chanOn s ch = true) (ha : m.toNat ≠ endA (s.chan ch)) (hb : m.toNat = endB (s.chan ch))
    (take : Bool) :
    exec (.channelDoorbell ch { master := m, take := take }) s = .next (if take then takeBell s ch false else ring s ch false) :=
  byMaster_next h ((if_neg (fun hx => ha hx.2)).trans (if_pos ⟨hc, hb⟩))

theorem channelDoorbell_refused (h : MasterArrives s m) (hn : chanOn s ch = false ∨ (m.toNat ≠ endA (s.chan ch) ∧ m.toNat ≠ endB (s.chan ch)))
    (take : Bool) : exec (.channelDoorbell ch { master := m, take := take }) s = .next (refuseEnd s m true) := by
  refine byMaster_next h ((if_neg fun ⟨hc, ha⟩ => ?_).trans (if_neg fun ⟨hc, hb⟩ => ?_))
  · exact (hn.resolve_left (ne_false_of_eq_true hc)).1 ha
  · exact (hn.resolve_left (ne_false_of_eq_true hc)).2 hb

/-! ### Words (R334, R336) -/

variable {i : BitVec 4} {v : Word}

theorem channelWordAccess_refused (h : MasterArrives s m) (hn : chanOn s ch = false ∨ (m.toNat ≠ endA (s.chan ch) ∧ m.toNat ≠ endB (s.chan ch)))
    (wr : Bool) : exec (.channelWordAccess ch m wr i v) s = .next (refuseEnd s m wr) := by
  refine byMaster_next h (if_pos fun he => ?_)
  obtain ⟨hc, he⟩ := isEnd_iff.mp he
  obtain ⟨ha, hb⟩ := hn.resolve_left (ne_false_of_eq_true hc)
  exact he.elim ha hb

/-- An end's access to a word: of the reader of that word, and of its writer. -/
theorem channelWordAccess_end (h : MasterArrives s m) (hc : chanOn s ch = true) (he : m.toNat = endA (s.chan ch) ∨ m.toNat = endB (s.chan ch))
    (wr : Bool) : exec (.channelWordAccess ch m wr i v) s = .next (
      let reader := if i.toNat < 8 then endB (s.chan ch) else endA (s.chan ch)
      let writer := if i.toNat < 8 then endA (s.chan ch) else endB (s.chan ch)
      if endOff s reader then (if wr then pdRecord s ch true reader else (pdRecord s ch false reader).emit .completerAbort)
      else if wr then (if m.toNat = writer then s.upChan ch (fun c => { c with words := tset 0 c.words i.toNat v }) else s)
      else s.emit (.readData (leBytes 4 (tget 0 (s.chan ch).words i.toNat).toNat))) :=
  byMaster_next h (if_neg (not_not_intro (isEnd_iff.mpr ⟨hc, he⟩)))

/-! ### MBX_PD_STATUS (R336, Table 11-7) -/

theorem upHost_congr {f g : HostSt → HostSt} (h : f s.host = g s.host) : s.upHost f = s.upHost g := by rw [State.upHost, h, State.upHost]

theorem pdRecord_first {wr : Bool} {e : Nat} (h : s.host.pdValid = false) : pdRecord s ch wr e = s.upHost (fun h => { h with
    pdValid := true, pdWrite := wr, pdCount := 1, pdChannel := BitVec.ofNat 8 ch.toNat, pdEndpoint := BitVec.ofNat 4 e }) :=
  upHost_congr (if_neg (ne_true_of_eq_false h))

/-- COUNT stops at 255. -/
theorem byte_saturating_succ (k : Byte) : (if k = 255 then 255 else k + 1) = BitVec.ofNat 8 (min 255 (k.toNat + 1)) := by
  split
  · subst k; rfl
  · bv_omega

theorem pdRecord_again {wr : Bool} {e : Nat} (h : s.host.pdValid = true) :
    pdRecord s ch wr e = s.upHost (fun h => { h with pdCount := BitVec.ofNat 8 (min 255 (h.pdCount.toNat + 1)) }) :=
  upHost_congr ((if_pos h).trans (by rw [byte_saturating_succ]))

/-- Settles O43: each access by the lemma of its case. -/
theorem channels : Obligations.Channels := by
  refine ⟨fun s ch m h => ⟨fun hc ha => ⟨channelDoorbell_endA h hc ha false, channelDoorbell_endA h hc ha true⟩,
      fun hc ha hb => ⟨channelDoorbell_endB h hc ha hb false, channelDoorbell_endB h hc ha hb true⟩,
      fun hn => ⟨channelDoorbell_refused h hn, fun wr i v => channelWordAccess_refused h hn wr⟩⟩,
    fun s ch m i v h hc he => ⟨fun ho => ?off, fun ho hw => ?write, fun ho hw => ?foreign, fun ho => ?read⟩,
    fun s ch wr e => ⟨pdRecord_first, pdRecord_again⟩⟩
  case off =>
    exact ⟨(channelWordAccess_end h hc he true).trans (congrArg _ (if_pos ho)), (channelWordAccess_end h hc he false).trans (congrArg _ (if_pos ho))⟩
  case write => exact (channelWordAccess_end h hc he true).trans (congrArg _ ((if_neg (ne_true_of_eq_false ho)).trans (if_pos hw)))
  case foreign => exact (channelWordAccess_end h hc he true).trans (congrArg _ ((if_neg (ne_true_of_eq_false ho)).trans (if_neg hw)))
  case read => exact (channelWordAccess_end h hc he false).trans (congrArg _ (if_neg (ne_true_of_eq_false ho)))

end Sys2Proof.Machine
end

section
/-! SUPPORT. Notices on their way to the host: the ring, the staging and the count of lost ones, and their delivery (R319, R337 to R340). -/

namespace Sys2Proof.Machine

variable {s : State} {n : SliceId} {code : Half} {v : BitVec 3} {d : BitVec 128} {at_ : Nat}

/-! ### Where a notice goes (R337, R338, R340) -/

/-- The entry of a notice that slice n gets now. -/
def noticeOf (s : State) (n : SliceId) (code : Half) (v : BitVec 3) (d : BitVec 128) : Notice :=
  { code := code, vec := v, slice := n, seq := (s.slice n).seq, cue := s.cue.count, payload := d }

/-- The notice is in the log and has taken the next SEQ of its slice. -/
def numbered (s : State) (n : SliceId) (e : Notice) : State := (logPush false e s).upSlice n (fun x => { x with seq := x.seq + 1 })

theorem notify_valid (h : (s.slice n).valid = true) : notify s n code v d =
    (let e := noticeOf s n code v d
     let t := numbered s n e
     if (s.slice n).staged = [] ∧ ntcRoom (s.slice n).page = true ∧ linkOk t = true then writeNotice t n e
     else if (s.slice n).staged.length < 64 then t.upSlice n (fun x => { x with staged := x.staged ++ [e] })
     else t.upSlice n (fun x => { x with
       lostPending := x.lostPending + 1
       page := { x.page with ntcLost := x.page.ntcLost + 1 }
       diag := tup 0 x.diag 5 (· + 1) })) := if_neg (not_not_intro h)

theorem linkOk_numbered (e : Notice) : linkOk (numbered s n e) = linkOk s := rfl

theorem ntcRoom_iff {p : Page} : ntcRoom p = true ↔ p.enable = true ∧ (p.ntcTail - p.ntcHead).toNat < ringSize p.ntcLog2 := by
  rw [ntcRoom, Bool.and_eq_true, decide_eq_true_eq]

theorem notify_writes (h : (s.slice n).valid = true) (hs : (s.slice n).staged = []) (hr : ntcRoom (s.slice n).page = true) (hl : linkOk s = true) :
    notify s n code v d = writeNotice (numbered s n (noticeOf s n code v d)) n (noticeOf s n code v d) :=
  (notify_valid h).trans (if_pos ⟨hs, hr, hl⟩)

theorem notify_stages (h : (s.slice n).valid = true) (hr : ntcRoom (s.slice n).page = false) (hs : (s.slice n).staged.length < 64) :
    notify s n code v d = (numbered s n (noticeOf s n code v d)).upSlice n (fun x => { x with staged := x.staged ++ [noticeOf s n code v d] }) :=
  (notify_valid h).trans ((if_neg fun hx => ne_true_of_eq_false hr hx.2.1).trans (if_pos hs))

theorem notify_loses (h : (s.slice n).valid = true) (hs : (s.slice n).staged.length = 64) :
    notify s n code v d = (numbered s n (noticeOf s n code v d)).upSlice n (fun x => { x with
      lostPending := x.lostPending + 1
      page := { x.page with ntcLost := x.page.ntcLost + 1 }
      diag := tup 0 x.diag 5 (· + 1) }) := by
  refine (notify_valid h).trans ((if_neg fun hx => ?_).trans (if_neg (by omega)))
  rw [hx.1] at hs
  exact absurd hs (by decide)

/-! ### The delivery of staged notices (R340) -/

/-- No overrun of the closed cue is owed to the slice. -/
theorem writeOwed_none {mine : SliceId → Bool} (h : ∀ x ∈ s.cue.owed, mine x.slice = false) : writeOwed s mine = s := by
  have hnone : s.cue.owed.filter (fun x => mine x.slice) = [] := List.filter_eq_nil_iff.mpr fun x hx => ne_true_of_eq_false (h x hx)
  have hall : s.cue.owed.filter (fun x => !mine x.slice) = s.cue.owed := List.filter_eq_self.mpr fun x hx => by rw [h x hx]; rfl
  simp only [writeOwed, hnone, State.upCue, hall, List.foldl_nil]

theorem sendMsix_slice (s : State) (k : Nat) : (sendMsix s k).slice n = s.slice n := by
  unfold sendMsix
  split_ifs <;> rfl

@[simp] theorem slice_pokeHost (s : State) (a : Nat) (bs : Bytes) : (pokeHost s a bs).slice n = s.slice n := rfl
@[simp] theorem slice_dropPrefetch (s : State) : (dropPrefetch s).slice n = s.slice n := rfl
@[simp] theorem slice_out (s : State) (os : List Out) : State.slice { s with out := os } n = s.slice n := rfl

/-- An interrupt of an entry sets a timer at most. -/
theorem interrupt_lostPending (s : State) (k : Nat) : ((interrupt s n k).slice n).lostPending = (s.slice n).lostPending := by
  unfold interrupt
  dsimp only
  split
  · rw [sendMsix_slice]
  · rw [slice_upSlice]
    split <;> rfl

theorem writeNotice_lostPending (s : State) (e : Notice) : ((writeNotice s n e).slice n).lostPending = (s.slice n).lostPending := by
  simp only [writeNotice, interrupt_lostPending, slice_upPage, slice_dropPrefetch, slice_out, slice_pokeHost]

section
variable {e : Notice} {es : List Notice} (ho : ∀ x ∈ s.cue.owed, x.slice ≠ n) (hs : (s.slice n).staged = e :: es)
  (hr : ntcRoom (s.slice n).page = true) (hl : linkOk s = true)
include ho hs hr hl

/-- The oldest staged notice enters the ring, and the overflow notice after it where some were lost. -/
theorem noticeDeliver_oldest : exec (.noticeDeliver n) s = .next (
    let t := writeNotice (s.upSlice n (fun x => { x with staged := es })) n e
    if (s.slice n).lostPending = 0 then t
    else notify (t.upSlice n (fun x => { x with lostPending := 0 })) n 0xF0 3 (payload [(0, 4, (s.slice n).lostPending.toNat)])) := by
  change did (deliverOne (writeOwed s (· == n)) n) = _
  rw [writeOwed_none (mine := (· == n)) fun x hx => beq_eq_false_iff_ne.mpr (ho x hx)]
  simp only [deliverOne, hs, hr, hl, and_self, if_true, writeNotice_lostPending, slice_upSlice, did]

end

/-! ### Held completions and coalesced interrupts (R319, R339) -/

theorem completionWrite_oldest {e : Cpl} {es : List Cpl} (hh : (s.slice n).held = e :: es) (he : (s.slice n).page.enable = true)
    (hr : cplRoom (s.slice n).page = true) :
    exec (.completionWrite n) s = .next (writeCpl (s.upSlice n (fun x => { x with held := es })) n e) := by
  change execCompletionWrite n s = _
  simp only [execCompletionWrite, hh]
  exact doWhen_true (by rw [he, hr]; rfl)

/-- The timer of offset 0 or 1 that has run out is no longer set, and its one MSI-X is sent. -/
theorem coalesceTimer_due {k : Fin 2} {due : Nat} (hd : due ≤ at_)
    (ht : (if k.val = 0 then (s.slice n).timer0 else (s.slice n).timer1) = some due) :
    exec (.coalesceTimer n k at_) s = .next (sendMsix ((s.at_ at_).upSlice n (fun x =>
      if k.val = 0 then { x with timer0 := none } else { x with timer1 := none })) (16 * n.toNat + k.val)) := by
  change execCoalesceTimer n k at_ s = _
  simp only [execCoalesceTimer, ht]
  exact doWhen_true (decide_eq_true hd)

/-- Settles O44: each place a notice goes to, and each delivery, by its lemma. -/
theorem noticeRings : Obligations.NoticeRings := by
  refine ⟨fun s n code v d h => ⟨fun hs he hr hl => ?ring, fun hr hs => ?staging, fun hs => notify_loses h hs⟩,
    fun s n e es ho hs hr hl => ⟨fun hz => ?deliver, fun hz => ?overflow⟩,
    fun s n e es => completionWrite_oldest, fun s n due at_ hd => ⟨coalesceTimer_due (k := 0) hd, coalesceTimer_due (k := 1) hd⟩⟩
  case ring => exact notify_writes h hs (ntcRoom_iff.mpr ⟨he, of_decide_eq_true hr⟩) hl
  case staging =>
    refine notify_stages h (Bool.eq_false_iff.mpr fun hx => ?_) hs
    obtain ⟨he, hroom⟩ := ntcRoom_iff.mp hx
    exact hr.elim (ne_false_of_eq_true he) (ne_false_of_eq_true (decide_eq_true hroom))
  case deliver => exact (noticeDeliver_oldest ho hs hr hl).trans (congrArg _ (if_pos hz))
  case overflow => exact (noticeDeliver_oldest ho hs hr hl).trans (congrArg _ (if_neg hz))

end Sys2Proof.Machine
end

section
/-! SUPPORT. The queue and the supplier slots (R349, R375, R376): no command writes the queue, and PROVISION alone writes the
slots. A reset keeps both: the queue lies outside the device, and the slots in its boot flash. -/

namespace Sys2Proof.Machine

/-- The part of what lasts that a reset keeps too. -/
def Lasting.queueSlots (l : Lasting) : List Instr × Tbl (Option (BitVec 384)) := (l.pending, l.slots)

/-! ### Resets -/

theorem queueSlots_of_lasting {s t : State} (h : t.lasting = s.lasting) : t.lasting.queueSlots = s.lasting.queueSlots :=
  congrArg Lasting.queueSlots h

theorem flashAfter_slots (s : State) : (flashAfter s).slots = s.sec.slots := by
  simp only [flashAfter]
  split_ifs <;> rfl

/-- A state with the queue of `t` and with what the boot flash of `t` keeps. -/
theorem queueSlots_of_flashAfter {t u : State} (hp : u.pending = t.pending) (hs : u.sec = flashAfter t) :
    u.lasting.queueSlots = t.lasting.queueSlots :=
  Prod.ext hp ((congrArg SecSt.slots hs).trans (flashAfter_slots t))

theorem resetAll_queueSlots (s : State) : (resetAll s).lasting.queueSlots = s.lasting.queueSlots := by
  rw [← lowerPins_lasting s]
  exact queueSlots_of_flashAfter rfl rfl

theorem enterSleep_queueSlots (s : State) : (enterSleep s).lasting.queueSlots = s.lasting.queueSlots := by
  simp only [enterSleep, upPwr_lasting, upSaf_lasting, emit_lasting, lowerRails_lasting, resetAll_queueSlots, sideBand_lasting]
  split
  · rw [cueStopped_lasting]
  · rfl

theorem trySleep_queueSlots (s : State) : (trySleep s).lasting.queueSlots = s.lasting.queueSlots := by
  unfold trySleep
  split
  · rfl
  · exact enterSleep_queueSlots s

theorem Res.leads_mono {r : Res} {P Q : Lasting → Prop} (h : r.leads P) (hPQ : ∀ l, P l → Q l) : r.leads Q := by
  cases r with
  | ok t x => exact hPQ _ h
  | err st d => trivial
  | errR st d x => trivial
  | errS t st d x => exact hPQ _ h
  | wait t w => exact hPQ _ h

theorem powerSetParked_queueSlots (s : State) (n : SliceId) (f : Flight) (w : Line) :
    (powerSetParked s n f w).leads fun l => l.queueSlots = s.lasting.queueSlots := by
  unfold powerSetParked
  split
  · trivial
  split
  · rfl
  split
  · rfl
  split
  · trivial
  have ht : (sideBand (complete (park s) n f 0 0 0) 6 1).lasting = s.lasting := by simp
  dsimp only [Res.leads]
  split
  · exact (trySleep_queueSlots _).trans (queueSlots_of_lasting ht)
  · exact queueSlots_of_lasting ht

/-! ### Every command -/

/-- A command that can reset the device keeps the queue and the slots. -/
theorem exec_queueSlots_of_mayReset (i : Instr) (s : State) (h : mayReset i = true) :
    Ans.leads (exec i s) fun l => l.queueSlots = s.lasting.queueSlots := by
  cases i with
  | powerSetParked n w =>
    exact runCmd_leads rfl fun t f ht => Res.leads_mono (powerSetParked_queueSlots t n f w) fun _ hl => hl.trans (queueSlots_of_lasting ht)
  | aonPowerOn =>
    refine doWhen_leads rfl ?_
    rw [raiseEn_lasting]
    exact queueSlots_of_flashAfter rfl rfl
  | porstNLow => exact doWhen_leads rfl (resetAll_queueSlots s)
  | chipReset c =>
    refine doWhen_leads rfl ?_
    rw [startIfReady_lasting, resetAll_queueSlots, overrideHolds_lasting]
    split
    · rw [recordCause_lasting]
    · rfl
  | refclkLoss =>
    refine doWhen_leads rfl ?_
    split
    · rfl
    · exact resetAll_queueSlots s
  | sleepRequest =>
    refine doWhen_leads rfl ?_
    split
    · exact trySleep_queueSlots s
    · rfl
  | aonRailRemoval =>
    have ht : (lowerRails (lowerPins s)).lasting = s.lasting := (lowerRails_lasting _).trans (lowerPins_lasting s)
    refine doWhen_leads rfl ?_
    rw [← ht]
    exact queueSlots_of_flashAfter rfl rfl
  | _ => cases h

/-- Of the commands that write what lasts without a reset, PROVISION alone writes a slot, and none the queue. -/
theorem exec_queueSlots_of_writesLasting (i : Instr) (s : State) (h : WritesLasting i) :
    Ans.leads (exec i s) fun l => l.pending = s.pending ∧ (i ≠ .provision → l.slots = s.sec.slots) := by
  cases h with
  | sheetWrite n w =>
    refine Ans.leads_mono (execSheetWrite_leads n w s) ?_
    rintro l (rfl | ⟨sh, rfl⟩) <;> exact ⟨rfl, fun _ => rfl⟩
  | provision => exact Ans.leads_mono (execProvision_leads s) fun l ⟨_, hl⟩ => hl ▸ ⟨rfl, fun hi => (hi rfl).elim⟩
  | mbxLockSet => exact Ans.leads_of_keeps (execMbxLockSet_keeps s) ⟨rfl, fun _ => rfl⟩
  | devReady at_ =>
    refine Ans.leads_mono (execDevReady_leads at_ s) ?_
    rintro l (rfl | rfl) <;> exact ⟨rfl, fun _ => rfl⟩
  | secDebugWrite secure v => exact Ans.leads_of_keeps (writeDebug_lasting s secure v) ⟨rfl, fun _ => rfl⟩
  | registerWrite r secure d =>
    refine Ans.leads_mono (execRegisterWrite_leads r secure d s) ?_
    rintro l (rfl | ⟨v, rfl⟩)
    · exact ⟨rfl, fun _ => rfl⟩
    · obtain h | ⟨b, h⟩ | ⟨b, h⟩ := writeReg_lasting_cases s r secure v <;> rw [h] <;> exact ⟨rfl, fun _ => rfl⟩

/-- Every command answers a next state with the same queue, and every one but PROVISION leaves the supplier slots. -/
theorem exec_queueSlots (i : Instr) (s : State) :
    Ans.leads (exec i s) fun l => l.pending = s.pending ∧ (i ≠ .provision → l.slots = s.sec.slots) := by
  by_cases hr : mayReset i = true
  · exact Ans.leads_mono (exec_queueSlots_of_mayReset i s hr) fun l hl => ⟨congrArg Prod.fst hl, fun _ => congrArg Prod.snd hl⟩
  by_cases hw : WritesLasting i
  · exact exec_queueSlots_of_writesLasting i s hw
  · exact Ans.leads_of_keeps (exec_keeps i s (eq_false_of_ne_true hr) hw) ⟨rfl, fun _ => rfl⟩

/-- Outside the commands that can reset the device, SHEET_WRITE alone writes a sheet. -/
theorem exec_sheets (i : Instr) (s : State) (hr : mayReset i = false) (hi : ∀ n w, i ≠ .sheetWrite n w) :
    Ans.leads (exec i s) fun l => l.sheets = s.sheets := by
  by_cases hw : WritesLasting i
  case neg => exact Ans.leads_of_keeps (exec_keeps i s hr hw) rfl
  cases hw with
  | sheetWrite n w => exact (hi n w rfl).elim
  | provision => exact Ans.leads_mono (execProvision_leads s) fun l ⟨_, hl⟩ => hl ▸ rfl
  | mbxLockSet => exact Ans.leads_of_keeps (execMbxLockSet_keeps s) rfl
  | devReady at_ => exact Ans.leads_mono (execDevReady_leads at_ s) fun l hl => hl.elim (· ▸ rfl) (· ▸ rfl)
  | secDebugWrite secure v => exact Ans.leads_of_keeps (writeDebug_lasting s secure v) rfl
  | registerWrite r secure d =>
    refine Ans.leads_mono (execRegisterWrite_leads r secure d s) ?_
    rintro l (rfl | ⟨v, rfl⟩)
    · rfl
    · obtain h | ⟨b, h⟩ | ⟨b, h⟩ := writeReg_lasting_cases s r secure v <;> rw [h] <;> rfl

theorem Ans.leads_next {a : Ans} {P : Lasting → Prop} (h : a.leads P) : ∃ t, a = .next t := by
  cases a with
  | next t => exact ⟨t, rfl⟩
  | fault r => exact h.elim
  | refused r => exact h.elim

/-! ### Steps -/

theorem step_of_pending_cons {s : State} {c : Instr} {cs : List Instr} (h : s.pending = c :: cs) :
    step s = exec c { s with pending := cs } := by
  unfold step
  rw [h]

theorem step_of_pending_nil {s : State} (h : s.pending = []) : step s = .next (idle s) := by
  unfold step
  rw [h]

/-- Settles O1: the second branch of the model's step. -/
theorem stepRunsTheFrontCommand : Obligations.StepRunsTheFrontCommand := fun _ _ _ => step_of_pending_cons

/-- Settles O2: the first branch of the model's step. -/
theorem emptyQueueIdles : Obligations.EmptyQueueIdles := fun _ => step_of_pending_nil

/-- Settles O3: every command leads to a next state, and so does a step, by its two branches. -/
theorem everyCommandCompletes : Obligations.EveryCommandCompletes := by
  refine ⟨fun i s => Ans.leads_next (exec_queueSlots i s), fun s => ?_⟩
  cases hp : s.pending with
  | nil => exact ⟨_, step_of_pending_nil hp⟩
  | cons c cs => rw [step_of_pending_cons hp]; exact Ans.leads_next (exec_queueSlots c _)

/-- Settles O4: no command writes the queue, and a step takes its front off before the command runs. -/
theorem commandsLeaveTheQueue : Obligations.CommandsLeaveTheQueue := by
  have keeps {i : Instr} {s t : State} (ht : exec i s = .next t) : t.pending = s.pending := (Ans.of_leads_next (exec_queueSlots i s) ht).1
  exact ⟨fun _ _ _ => keeps, fun s t c cs hp ht => keeps ((step_of_pending_cons hp).symm.trans ht)⟩

/-- Settles O8: what each command does to the slots, to the sheets, and SHEET_WRITE to the banks it does not name. -/
theorem slotsAndSheetsHaveOneWriter : Obligations.SlotsAndSheetsHaveOneWriter := by
  refine ⟨fun i s t hi ht => (Ans.of_leads_next (exec_queueSlots i s) ht).2 hi,
    fun i s t hr hi ht => Ans.of_leads_next (exec_sheets i s hr hi) ht, fun n w s t ht b hb => ?banks⟩
  case banks =>
    obtain h | ⟨sh, h⟩ := Ans.of_leads_next (execSheetWrite_leads n w s) ht
    · rw [sheets_of_lasting h]
    · rw [show t.sheets = tset none s.sheets (fld w 8 1) (some sh) from congrArg Lasting.sheets h, tget_tset_ne _ _ _ _ _ hb]

end Sys2Proof.Machine
end

section
/-! SUPPORT. The commands that read records and the log, set the power state and update the firmware (R344, R356, R360, R361,
R369 to R372, R479 to R481), and the messages of the mailbox (R345, R352, Table 12-1). -/

namespace Sys2Proof.Machine

variable {a : State} {n : SliceId} {f : Flight} {w : Line}

/-! ### DIAG_READ (R360) -/

theorem giveRecord_of {bs : Bytes} (h : DestAt a n w 16 (min (fld w 24 4) bs.length)) :
    giveRecord a n w bs = .ok (writeBy a midStagehand n (.slice n) (fld w 16 8) (bs.take (min (fld w 24 4) bs.length)))
      (payload [(0, 4, min (fld w 24 4) bs.length), (4, 4, bs.length)]) := by
  unfold giveRecord
  rw [withDest_of h]

/-- The records of slice 0 alone, and the one that every slice may read. -/
theorem diagRead_record (h : fld w 8 1 = 1 ∨ (2 ≤ fld w 8 1 ∧ fld w 8 1 ≤ 5 ∧ n = 0)) :
    diagRead a n f w = giveRecord a n w (diagRecord a n (fld w 8 1)) := by
  refine (if_neg (by omega)).trans ((if_neg ?_).trans (if_pos (by omega)))
  rintro ⟨h2, -, hn⟩
  obtain h1 | ⟨-, -, h0⟩ := h
  · omega
  · exact hn h0

/-- KIND 6 reads a sequence of the slice itself. -/
theorem diagRead_sequence {x : KvSeq} (h : fld w 8 1 = 6) (h1 : fld w 9 1 ≤ 15) (h2 : fld w 10 2 ≤ 1023)
    (hx : a.kv (BitVec.ofNat 4 (fld w 9 1)) (fld w 10 2) = some x) (hn : x.slice = n) :
    diagRead a n f w = giveRecord a n w (seqBytes x) := by
  refine (if_neg (by omega)).trans ((if_neg (by omega)).trans ((if_neg (by omega)).trans ((if_neg (by omega)).trans ((if_neg (by omega)).trans ?_))))
  rw [hx]
  exact if_neg (not_not_intro hn)

/-! ### POWER_SET (R479 to R481) -/

/-- From ACTIVE, with no domain held, PARKED waits only for what keeps the device at work. -/
theorem powerSetParked_active (h : fld w 8 1 = 1) (hp : parked a = false) (hd : heldDomain a parkDomains = none) :
    powerSetParked a n f w = if powerBusy a then .err 6 8
      else
        let t := sideBand (complete (park a) n f 0 0 0) 6 1
        .wait (if t.pwr.sleepAsked then trySleep t else t) .power := by
  refine (if_neg (by omega)).trans ((if_neg (ne_true_of_eq_false hp)).trans ?_)
  rw [hd]
  rfl

theorem powerSetActive_parked (hp : parked a = true) :
    powerSetActive a n f w = if a.pwr.emergency then .err 9 0 else .wait (sideBand (complete (unpark a) n f 0 0 0) 6 0) .power :=
  if_neg (not_not_intro hp)

/-! ### FW_UPDATE (R372) -/

theorem fwUpdate_of {faulty : Bool} {img : Bytes} (h : fld w 8 1 ≤ 1) (hs : StructAt a n w 16 (fld w 16 8) (fld w 24 4) img) :
    fwUpdate faulty a n f w = updateWith (structRead a n (fld w 16 8) (fld w 24 4)) (if fld w 8 1 = 0 then 2 else 1) img faulty :=
  (if_neg (Nat.not_lt.mpr h)).trans (withStruct_of hs)

/-- Step 1 of R372 is the image's verification and its fit. -/
theorem updateWith_eq (a : State) (typ : Nat) (img : Bytes) (faulty : Bool) :
    updateWith a typ img faulty = if imageOk a typ img && bankFits (newBank a typ img) then
      (if faulty then .errS (writeBank a {}) 23 0 0 else .ok (updateBank a typ img) 0) else .err 23 0 := by
  unfold updateWith
  cases imageOk a typ img <;> cases bankFits (newBank a typ img) <;> rfl

/-! ### The mailbox (R344, R345, R352, Table 12-1) -/

section
variable {s : State}

/-- A message waits in the page of slice n for Stagehand. -/
structure MailWaits (s : State) (n : SliceId) : Prop where
  ready : s.host.devReady = true
  valid : (s.slice n).valid = true
  rung : (s.slice n).page.dbMbx = true

theorem serveMbx_own {code : Nat} {body : State → State} {t : State} (h : MailWaits s n) (hc : mbxCode s n = code)
    (hk : code = 1 ∨ code = 2 ∨ code = 3) (ht : body s = t) : serveMbx code body n s = .next t := by
  obtain ⟨hready, hvalid, hrung⟩ := h
  refine doWhen_next (by simp [hready, hvalid, hrung, hc]) ((if_pos ?_).trans ht)
  simpa [hc, or_assoc] using hk

theorem serveMbx_undefined {code : Nat} {body : State → State} (h : MailWaits s n) (h1 : mbxCode s n ≠ 1) (h2 : mbxCode s n ≠ 2)
    (h3 : mbxCode s n ≠ 3) : serveMbx code body n s = .next (reply s n 1 []) := by
  obtain ⟨hready, hvalid, hrung⟩ := h
  exact doWhen_next (by simp [hready, hvalid, hrung, h1, h2, h3]) (if_neg (by simp [h1, h2, h3]))

theorem identify_served (h : MailWaits s n) (hc : mbxCode s n = 1) :
    exec (.identify n) s = .next (reply s n 0 [(runningBank s).versionPy.toNat, 0x10000, (runningBank s).versionSf.toNat, 1024]) := by
  change execIdentify n s = _
  exact serveMbx_own h hc (.inl rfl) rfl

theorem echo_served (h : MailWaits s n) (hc : mbxCode s n = 2) :
    exec (.echo n) s = .next (reply s n 0 [mbxWord s n 1, mbxWord s n 2, mbxWord s n 3, mbxWord s n 4, mbxWord s n 5, mbxWord s n 6]) := by
  change execEcho n s = _
  exact serveMbx_own h hc (.inr (.inl rfl)) rfl

/-- The slice that STOP_SLICE names. -/
def stopNamed (s : State) (n : SliceId) : SliceId := BitVec.ofNat 7 (mbxWord s n 1)

/-- STOP_SLICE stops the slice that it names where the page may name it. -/
theorem stopSlice_served (h : MailWaits s n) (hc : mbxCode s n = 3) :
    exec (.stopSlice n) s = .next (
      if n ≠ 0 ∧ stopNamed s n ≠ n then reply s n 4 []
      else if ¬ (s.slice (stopNamed s n)).valid then reply s n 5 []
      else reply (stopSlice s (stopNamed s n)) n 0 []) := by
  change execStopSlice n s = _
  exact serveMbx_own h hc (.inr (.inr rfl)) rfl

/-- Any of the three rows answers a message that Table 12-1 does not define. -/
theorem undefined_served (h : MailWaits s n) (h1 : mbxCode s n ≠ 1) (h2 : mbxCode s n ≠ 2) (h3 : mbxCode s n ≠ 3) :
    ∀ row ∈ [Instr.identify n, .echo n, .stopSlice n], exec row s = .next (reply s n 1 []) := by
  have hi : exec (.identify n) s = .next (reply s n 1 []) := by change execIdentify n s = _; exact serveMbx_undefined h h1 h2 h3
  have he : exec (.echo n) s = .next (reply s n 1 []) := by change execEcho n s = _; exact serveMbx_undefined h h1 h2 h3
  have hs : exec (.stopSlice n) s = .next (reply s n 1 []) := by change execStopSlice n s = _; exact serveMbx_undefined h h1 h2 h3
  simp [hi, he, hs]

end

/-- Settles O29: each command by its body, each message by its code, and an end of a channel by the lemmas of its accesses. -/
theorem adminCommandsAndMailbox : Obligations.AdminCommandsAndMailbox := by
  refine ⟨⟨onRow (fun _ _ _ => rfl) (by decide) ?nop, onRow (fun _ _ _ => rfl) (by decide) ?diag, onRow (fun _ _ _ => rfl) (by decide) ?log,
      onRow (fun _ _ _ => rfl) (by decide) ?park, onRow (fun _ _ _ => rfl) (by decide) ?unpark,
      fun faulty => onRow (fun _ _ _ => rfl) (by decide) ?update⟩,
    fun s n hr hv hd => ?mailbox, fun s ch m h hc he => ⟨?ring, ?take, fun i v ho => ⟨fun hm => ?write, ?read⟩⟩⟩
  case nop => exact fun a n w f gives hg => hg _ rfl rfl
  case log =>
    intro a n w f gives hg es hd
    refine hg _ rfl ?_
    unfold logRead
    rw [withDest_of hd]
  case diag =>
    intro a n w f gives hg
    refine ⟨fun h => hg _ rfl (if_pos h), fun h2 h5 hn => hg _ rfl ((if_neg (by omega)).trans (if_pos ⟨h2, h5, hn⟩)), ?_⟩
    intro bs hbs hd
    refine hg _ rfl (Eq.trans ?_ (giveRecord_of hd))
    obtain ⟨h, hb⟩ | ⟨h, h1, h2, x, hx, hn, hb⟩ := hbs
    · rw [hb]; exact diagRead_record h
    · rw [hb]; exact diagRead_sequence h h1 h2 hx hn
  case park =>
    intro a n w f gives hg
    have body (h : fld w 8 1 ≠ 0) {r : Res} := hg r (by simp [h])
    refine ⟨fun h => body (by omega) (if_pos h), fun h hp => body (by omega) ((if_neg (by omega)).trans (if_pos hp)),
      fun h hp hd hb => body (by omega) ((powerSetParked_active h hp hd).trans (if_pos hb)),
      fun h hp hd hb => body (by omega) ((powerSetParked_active h hp hd).trans (if_neg (ne_true_of_eq_false hb)))⟩
  case unpark =>
    intro a n w f gives hg
    have body (h : fld w 8 1 = 0) {r : Res} := hg r (by simp [h])
    refine ⟨fun h hp => body h (if_pos (ne_true_of_eq_false hp)), fun h hp he => body h ((powerSetActive_parked hp).trans (if_pos he)),
      fun h hp he => body h ((powerSetActive_parked hp).trans (if_neg (ne_true_of_eq_false he)))⟩
  case update =>
    intro a n w f gives hg typ
    refine ⟨fun h => hg _ rfl (if_pos h), ?_⟩
    intro img h hs a' passes
    have body {r : Res} (e : updateWith a' typ img faulty = r) : gives r :=
      hg r rfl ((fwUpdate_of h hs).trans e)
    refine ⟨fun hp => body ?_, fun hp hf => body ?_, fun hp hf => body ?_⟩
    · exact (updateWith_eq ..).trans (if_neg (ne_true_of_eq_false hp))
    · exact (updateWith_eq ..).trans ((if_pos hp).trans (if_neg (ne_true_of_eq_false hf)))
    · exact (updateWith_eq ..).trans ((if_pos hp).trans (if_pos hf))
  case mailbox =>
    have hw : MailWaits s n := ⟨hr, hv, hd⟩
    refine ⟨identify_served hw, echo_served hw, fun hc h0 hk => ?_, fun hc hk hi => ?_, fun hc hk hi => ?_, undefined_served hw⟩
    · exact (stopSlice_served hw hc).trans (congrArg _ (if_pos ⟨h0, hk⟩))
    · exact (stopSlice_served hw hc).trans (congrArg _ ((if_neg fun ⟨hn, hne⟩ => hk.elim hn hne).trans (if_pos (ne_true_of_eq_false hi))))
    · exact (stopSlice_served hw hc).trans (congrArg _ ((if_neg fun ⟨hn, hne⟩ => hk.elim hn hne).trans (if_neg (not_not_intro hi))))
  case ring =>
    by_cases ha : m.toNat = endA (s.chan ch)
    · rw [decide_eq_true ha]; exact channelDoorbell_endA h hc ha false
    · rw [decide_eq_false ha]; exact channelDoorbell_endB h hc ha (he.resolve_left ha) false
  case take =>
    by_cases ha : m.toNat = endA (s.chan ch)
    · rw [decide_eq_true ha]; exact channelDoorbell_endA h hc ha true
    · rw [decide_eq_false ha]; exact channelDoorbell_endB h hc ha (he.resolve_left ha) true
  case write =>
    have hw : m.toNat = if i.toNat < 8 then endA (s.chan ch) else endB (s.chan ch) := by
      by_cases hi : i.toNat < 8
      · rw [if_pos hi] at hm ⊢; exact he.resolve_right hm
      · rw [if_neg hi] at hm ⊢; exact he.resolve_left hm
    exact (channelWordAccess_end h hc he true).trans (congrArg _ ((if_neg (ne_true_of_eq_false ho)).trans (if_pos hw)))
  case read => exact (channelWordAccess_end h hc he false).trans (congrArg _ (if_neg (ne_true_of_eq_false ho)))

end Sys2Proof.Machine
end

section
/-! SUPPORT. The commands on packages and jobs (R358, R363, R524, Table 12-7). -/

namespace Sys2Proof.Machine

variable {a : State} {n : SliceId} {f : Flight} {w : Line}

/-! ### GRAPH_LOAD (R363) -/

/-- What GRAPH_LOAD does once its header is read and a handle is free. -/
def loadHeader (a : State) (n : SliceId) (f : Flight) (w : Line) (h : Bytes) (k : Nat) : Res :=
  match headerErr h false with
  | some e => .errR 17 e.detail (pkgResult e)
  | none => match mapErr a n (fld w 16 8) (fieldOf h 8 8) (fld w 24 8) (fieldOf h 24 8) with
    | some e => .errR 17 e.detail (pkgResult e)
    | none => withBytes a n w 16 (fld w 16 8) (fieldOf h 8 8) (fun a img => match loadSteps img (fld w 16 8) (fld w 24 8) with
      | .error (e, b) => .errS (writeImage a n (fld w 16 8) img b) 17 e.detail (pkgResult e)
      | .ok b => finishLoad a n f (fld w 16 8) (fld w 24 8) k img b)

theorem graphLoad_header {h : Bytes} {k : Nat} (hp : parked a = false) (hva : fld w 16 8 % 65536 = 0) (hd : fld w 24 8 % 64 = 0)
    (hb : fld w 24 8 < 2 ^ 48) (hs : StructAt a n w 16 (fld w 16 8) 64 h) (hk : freeHandle (structRead a n (fld w 16 8) 64) n = some k) :
    graphLoad a n f w = loadHeader (structRead a n (fld w 16 8) 64) n f w h k := by
  refine (if_neg (ne_true_of_eq_false hp)).trans ((if_neg (not_not_intro hva)).trans ((if_neg (by omega)).trans ((withBytes_of hs).trans ?_)))
  rw [hk]
  rfl

theorem loadHeader_image {h img : Bytes} {k : Nat} (hh : headerErr h false = none)
    (hm : mapErr a n (fld w 16 8) (fieldOf h 8 8) (fld w 24 8) (fieldOf h 24 8) = none) (hs : StructAt a n w 16 (fld w 16 8) (fieldOf h 8 8) img) :
    loadHeader a n f w h k = match loadSteps img (fld w 16 8) (fld w 24 8) with
      | .error (e, b) => .errS (writeImage (structRead a n (fld w 16 8) (fieldOf h 8 8)) n (fld w 16 8) img b) 17 e.detail (pkgResult e)
      | .ok b => finishLoad (structRead a n (fld w 16 8) (fieldOf h 8 8)) n f (fld w 16 8) (fld w 24 8) k img b := by
  unfold loadHeader
  rw [hh]
  dsimp only
  rw [hm]
  dsimp only
  rw [withBytes_of hs]

/-! ### JOB_START (R30, R104, R234, R358) -/

/-- The entry, the sheet and the scene that a JOB_START names, with its fields in range. -/
structure JobNamed (a : State) (n : SliceId) (w : Line) (p : Package) (e : JobEntry) (sc : Scene) : Prop where
  fields : jobFieldErr w = none
  package : tget none (a.slice n).packages (fld w 8 2) = some p
  entry : p.jobs[fld w 10 2]? = some e
  scene : ∃ sh, tget none a.sheets (fld w 12 1) = some sh ∧ sh.scenes[fld w 13 1]? = some sc
  active : parked a = false

/-- What JOB_START does with the entry and the scene that it names. -/
def admitJob (a : State) (n : SliceId) (f : Flight) (w : Line) (p : Package) (e : JobEntry) (sc : Scene) : Res :=
  match jobRefusal a n w p e sc with
  | some r => .err r.1 r.2
  | none => match jobAddrErr a n w (e.cores + e.aes + e.rfes) with
    | some r => .err r.1 r.2
    | none => submitJob a n f w p e sc

theorem jobStart_named {p : Package} {e : JobEntry} {sc : Scene} (h : JobNamed a n w p e sc) :
    jobStart a n f w = admitJob a n f w p e sc := by
  obtain ⟨hf, hp, he, ⟨sh, hsh, hsc⟩, ha⟩ := h
  unfold jobStart
  rw [hf, hp]
  dsimp only
  rw [he, hsh]
  dsimp only
  rw [hsc]
  exact if_neg (ne_true_of_eq_false ha)

theorem admitJob_refused {p : Package} {e : JobEntry} {sc : Scene} {r : Nat × Nat} (h : jobRefusal a n w p e sc = some r) :
    admitJob a n f w p e sc = .err r.1 r.2 := by
  unfold admitJob
  rw [h]

theorem admitJob_submits {p : Package} {e : JobEntry} {sc : Scene} (hr : jobRefusal a n w p e sc = none)
    (hd : jobAddrErr a n w (e.cores + e.aes + e.rfes) = none) : admitJob a n f w p e sc = submitJob a n f w p e sc := by
  unfold admitJob
  rw [hr, hd]

/-- A job whose save area is within the quota and can be had is queued. -/
theorem submitJob_fits {p : Package} {e : JobEntry} {sc : Scene} :
    let k := if e.preemptible = true ∧ p.enclave.isNone = true then 16 * e.cores + e.aes + e.rfes else 0
    (k ≠ 0 → fits a n 0 (65536 * k) = true) → k ≤ (pickPages a k false).length →
      submitJob a n f w p e sc = .wait { (grantPages a (pickPages a k false) { typ := .pyotos }) with
        jobs := a.jobs ++ [newJob a n f w p e sc (pickPages a k false)], jobNext := a.jobNext + 1 } (.job a.jobNext) := by
  intro k hq hk
  exact (if_neg fun ⟨hf, h0⟩ => hf (hq h0)).trans (if_neg (Nat.not_lt.mpr hk))

/-! ### JOB_ABORT (R524) -/

theorem jobAbort_eq : jobAbort a n f w =
    let mine (j : Job) : Bool := j.kaf.isNone && j.tag.toNat == fld w 8 4
    if a.jobs.any (fun j => j.slice == n && mine j) then .ok ((a.jobs.filter (fun j => j.slice == n && mine j)).foldl abortJob a) 0 else .err 5 8 := rfl

/-- Settles O31: each command by its body. -/
theorem jobCommands : Obligations.JobCommands := by
  refine ⟨onRow (fun _ _ _ => rfl) (by decide) ?load, onRow (fun _ _ _ => rfl) (by decide) ?unload, onRow (fun _ _ _ => rfl) (by decide) ?start,
    onRow (fun _ _ _ => rfl) (by decide) ?abort⟩
  case load =>
    intro a n w f gives hg va dataVa
    refine ⟨fun hp => hg _ rfl (if_pos hp), fun hp hva => hg _ rfl ((if_neg (ne_true_of_eq_false hp)).trans (if_pos hva)), ?_⟩
    intro h k hp hva hd hb hs a' hk
    have header {r : Res} (e : loadHeader a' n f w h k = r) : gives r := hg r rfl ((graphLoad_header hp hva hd hb hs hk).trans e)
    refine ⟨fun e he => header ?_, fun img he hm hi => ?_⟩
    · unfold loadHeader; rw [he]
    · exact ⟨fun e b hl => header ((loadHeader_image he hm hi).trans (by rw [hl])), fun b hl => header ((loadHeader_image he hm hi).trans (by rw [hl]))⟩
  case unload =>
    intro a n w f gives hg
    refine ⟨fun h => hg _ rfl (if_pos (by rw [h]; rfl)), fun p h => ?_⟩
    have loaded {r : Res} := fun e => hg r rfl ((if_neg (by simp [h])).trans e)
    exact ⟨fun hb => loaded (if_pos hb), fun hb => loaded (if_neg (ne_true_of_eq_false hb))⟩
  case start =>
    intro a n w f gives hg p e sh sc hf hp he hsh hsc ha
    have body {r : Res} (hr : admitJob a n f w p e sc = r) : gives r := hg r rfl ((jobStart_named ⟨hf, hp, he, ⟨sh, hsh, hsc⟩, ha⟩).trans hr)
    refine ⟨fun hn => body (admitJob_refused (if_pos hn)), fun r hr => body (admitJob_refused hr), ?_⟩
    intro hr hd k hq hk
    exact body ((admitJob_submits hr hd).trans (submitJob_fits hq hk))
  case abort =>
    intro a n w f gives hg mine
    refine ⟨fun h => hg _ rfl (jobAbort_eq.trans (if_neg ?_)), fun h => hg _ rfl (jobAbort_eq.trans (if_pos ?_))⟩
    · simpa [mine] using h
    · simpa [mine] using h

end Sys2Proof.Machine
end

section
/-! SUPPORT. The rows of the rails, the resets and the power states (R393, R474, R475, R482 to R484, R490, R494, R516). -/

namespace Sys2Proof.Machine

variable {s : State}

/-! ### Rails (R474, R475) -/

theorem railGood_group {g : RailGroup} (ha : s.pwr.aonUp = true) (he : s.pwr.pwrEn.getLsbD (railIdx g) = true)
    (hg : s.pwr.good.getLsbD (railIdx g) = false) :
    let t := s.upPwr (fun p => { p with good := p.good ||| BitVec.ofNat 3 (2 ^ railIdx g) })
    let t := if railIdx g < 2 then raiseEn (railIdx g + 1) t else t
    exec (.railGood g) s = .next (startIfReady (if t.pwr.good = 7 ∧ t.pwr.phase = .sequencing then t.upPwr (fun p => { p with phase := .waitPorst }) else t)) :=
  doWhen_true (by rw [ha, he, hg]; rfl)

/-- A rail is late while its PWR_EN is high and its group is not good. -/
theorem railEnableTimeout_late {r : Fin 9} {k : Nat} (hr : railEn r.val = some k) (he : s.pwr.pwrEn.getLsbD k = true)
    (hg : s.pwr.good.getLsbD k = false) (ht : s.pwr.enTimeout = false) :
    exec (.railEnableTimeout r) s = .next ((lowerRails s).upPwr (fun p => { p with rail := BitVec.ofNat 4 r.val, enTimeout := true })) := by
  refine doWhen_true ?_
  rw [hr]
  simp only [he, hg, ht, Bool.not_false, Bool.and_true]

/-- Only while PORST_N is high does a brown-out cause a chip reset. -/
theorem brownOut_good {r : Fin 9} {k : Nat} (hr : railEn r.val = some k) (hg : s.pwr.good.getLsbD k = true) :
    let t := s.upPwr (fun p => { p with good := p.good &&& ~~~(BitVec.ofNat 3 (2 ^ k)) })
    exec (.brownOut r) s = .next (if s.pwr.porstHigh then t.upPwr (fun p => { p with rail := BitVec.ofNat 4 r.val, resetDue := some .brownOut }) else t) := by
  change execBrownOut r s = _
  unfold execBrownOut
  rw [hr]
  exact doWhen_true hg

/-! ### Resets (R483, R484, R516) -/

theorem chipReset_due {c : ResetCause} (h : s.pwr.resetDue = some c) :
    exec (.chipReset c) s = .next (
      let t := match causeOf c with
        | some k => recordCause s k
        | none => s
      startIfReady (resetAll (overrideHolds t t.pwr.cause.toNat))) :=
  doWhen_true (beq_iff_eq.mpr h)

theorem chipReset_idle {c : ResetCause} (h : s.pwr.resetDue ≠ some c) : exec (.chipReset c) s = .next s :=
  doWhen_false (beq_eq_false_iff_ne.mpr h)

/-- In SLEEP everything but the always-on domain is without its rails already; elsewhere it is reset. -/
theorem refclkLoss_awake (ha : s.pwr.aonUp = true) (hl : s.pwr.refLost = false) (hs : s.pwr.state ≠ .sleep) :
    exec .refclkLoss s = .next ((resetAll s).upPwr (fun p => { p with refLost := true, resetDue := none })) :=
  doWhen_next (by rw [ha, hl]; rfl) (if_neg hs)

/-! ### SLEEP and cuts (R393, R482) -/

/-- A request is honoured in PARKED, and remembered in ACTIVE. -/
theorem sleepRequest_accepted (hr : outOfReset s = true) (ht : s.pwr.tripped = false) :
    exec .sleepRequest s = .next (if parked s then trySleep s else s.upPwr (fun p => { p with sleepAsked := true })) :=
  doWhen_true (by rw [hr, ht]; rfl)

theorem wake_asleep (ht : s.pwr.tripped = false) (hs : s.pwr.state = .sleep) (ha : s.pwr.aonUp = true) (he : s.pwr.pwrEn = 0)
    (hn : s.pwr.enTimeout = false) : exec .wake s = .next (raiseEn 0 (s.upPwr (fun p => { p with resetDue := some .sleepExit }))) :=
  (if_neg (ne_true_of_eq_false ht)).trans ((if_pos hs).trans (doWhen_true (by rw [ha, he, hn]; rfl)))

theorem wake_awake (ht : s.pwr.tripped = false) (hs : s.pwr.state ≠ .sleep) :
    exec .wake s = .next (s.upPwr (fun p => { p with sleepAsked := false })) :=
  (if_neg (ne_true_of_eq_false ht)).trans (if_neg hs)

/-- A held domain refuses the cut, and the security processor is told. -/
theorem cutRequest_held {d : CutTarget} {h : Nat} (hr : s.host.devReady = true) (hd : heldDomain s (cutDomains d) = some h) :
    exec (.cutRequest d) s = .next (s.emit (.holdMessage h midStagehand.toNat)) :=
  doWhen_next hr (by rw [hd])

theorem cutRequest_free {d : CutTarget} (hr : s.host.devReady = true) (hd : heldDomain s (cutDomains d) = none) :
    exec (.cutRequest d) s = .next (applyCut s d) :=
  doWhen_next hr (by rw [hd])

/-- Settles O59: each event by the lemma of its row. -/
theorem railsAndResets : Obligations.RailsAndResets := by
  refine fun s => ⟨fun ha => ?powerOn, doWhen_true, fun g => railGood_group, fun r k => railEnableTimeout_late, fun ha ht => ?retry,
    fun r k hr hg => ⟨fun hp => ?low, fun hp => ?high⟩, fun ha hp => ?porstLow, fun tw i2c ha hp => ?porstRise, fun c => chipReset_due,
    fun c => chipReset_idle, refclkLoss_awake, fun hr ht => ⟨fun hp => ?sleeps, fun hp => ?remembers⟩, wake_asleep, wake_awake,
    fun d hr => ⟨fun h => cutRequest_held hr, cutRequest_free hr⟩⟩
  case powerOn => exact doWhen_true (by rw [ha]; rfl)
  case retry => exact doWhen_true (by rw [ha, ht]; rfl)
  case low => exact (brownOut_good hr hg).trans (congrArg _ (if_neg (ne_true_of_eq_false hp)))
  case high => exact (brownOut_good hr hg).trans (congrArg _ (if_pos hp))
  case porstLow => exact doWhen_true (by rw [ha, hp]; rfl)
  case porstRise => exact doWhen_true (by rw [ha, hp]; rfl)
  case sleeps => exact (sleepRequest_accepted hr ht).trans (congrArg _ (if_pos hp))
  case remembers => exact (sleepRequest_accepted hr ht).trans (congrArg _ (if_neg (ne_true_of_eq_false hp)))

end Sys2Proof.Machine
end

section
/-! SUPPORT. The messages of the secure channel, SEC_DEBUG and the secure watchdog (R366, R373 to R376, R387 to R391), and
the management target, JTAG and the domains that wake (R335, R413, R484, R518 to R521). -/

namespace Sys2Proof.Machine

variable {s : State}

/-! ### The secure channel (R373 to R376, R387) -/

theorem serveSec_own {code : Nat} {body : State → State} {t : State} (h : SecServes s code) (hk : secCodes.contains code = true)
    (ht : body s = t) : serveSec code body s = .next t := by
  obtain ⟨hready, hon, hrung, hend, hlink, hcode⟩ := h
  exact doWhen_next (by rw [hready, hon, hrung, hend, hlink, hcode, beq_self_eq_true]; rfl) ((if_pos (by rw [hcode]; exact hk)).trans ht)

theorem getKeys_served (h : SecServes s 0x0101) :
    exec .getKeys s = .next (if secAddr s % 8 ≠ 0 then secReply s 3 []
      else secReply (hostWrite { s with free := s.free + 1 } 0 (secAddr s) (keyBuffer s.free) false) 0 []) := by
  change execGetKeys s = _
  exact serveSec_own h rfl rfl

theorem bootInfo_served (h : SecServes s 0x0102) :
    exec .bootInfo s = .next (secReply s 0 [if s.sec.bootedB then 1 else 0, if s.sec.fallback then 1 else 0, s.sec.fusedSf, s.sec.fusedPy]) := by
  change execBootInfo s = _
  exact serveSec_own h rfl rfl

/-- The record takes effect only with status 0. -/
theorem provision_served (h : SecServes s 0x0103) :
    let r := hostBytes s (secAddr s) 192
    exec .provision s = .next (secReply (if provisionStatus s r = 0 then applyProvision s r else s) (provisionStatus s r) []) := by
  change execProvision s = _
  exact serveSec_own h rfl rfl

theorem debugChallenge_served (h : SecServes s 0x0104) :
    let v := Config.random s.free
    exec .debugChallenge s = .next (secReply (State.upSec { s with free := s.free + 1 } (fun x => { x with nonce := some (v, s.now) })) 0
      ((List.range 6).map (fun i => fld v (4 * i) 4))) := by
  change execDebugChallenge s = _
  exact serveSec_own h rfl rfl

/-- A token that passes uses the nonce; LOCK keeps the bits from it. -/
theorem debugUnlock_served (h : SecServes s 0x0105) :
    let t := hostBytes s (secAddr s) 160
    let u := s.upSec (fun x => { x with nonce := none })
    exec .debugUnlock s = .next (if ¬ tokenOk s t then secReply s 23 []
      else secReply (if s.sec.debugLock then u else setDebug u (s.sec.debugBits ||| BitVec.ofNat 4 (byteAt t 32))) 0 []) := by
  change execDebugUnlock s = _
  exact serveSec_own h rfl rfl

/-! ### SEC_DEBUG and the watchdog (R366, R387, R390, R391) -/

theorem secDebugWrite_secure (v : Word) :
    exec (.secDebugWrite true v) s = .next (if s.sec.debugLock then s else (setDebug s (v.extractLsb' 0 4)).upSec (fun x =>
      { x with debugLock := v.getLsbD 8 })) :=
  congrArg Host.Outcome.next (if_neg (not_not_intro rfl))

theorem secWdtKick_secure (v : Word) :
    exec (.secWdtKick true v) s = .next (if v = 0x5A ∧ s.sec.wdtRunning then s.upSec (fun x => { x with kicked := s.now, warned := false }) else s) :=
  congrArg Host.Outcome.next (if_neg (not_not_intro rfl))

theorem secureWdtWarning_due {at_ : Nat} (hr : s.sec.wdtRunning = true) (hw : s.sec.warned = false)
    (ht : s.sec.kicked + 500000 * s.sec.period.toNat ≤ at_) :
    exec (.secureWdtWarning at_) s = .next ((s.at_ at_).upSec (fun x => { x with warned := true })) :=
  doWhen_true (by rw [hr, hw, decide_eq_true ht]; rfl)

theorem secureWdtExpiry_due {at_ : Nat} (hr : s.sec.wdtRunning = true) (ht : s.sec.kicked + 1000000 * s.sec.period.toNat ≤ at_) :
    exec (.secureWdtExpiry at_) s = .next ((latch ((s.at_ at_).upSec (fun x => { x with wdtRunning := false })) .b { code := 0x20 }).upPwr
      (fun p => { p with resetDue := some .watchdog })) :=
  doWhen_true (by rw [hr, decide_eq_true ht]; rfl)

theorem secureWdtExpiry_early {at_ : Nat} (ht : at_ < s.sec.kicked + 1000000 * s.sec.period.toNat) : exec (.secureWdtExpiry at_) s = .next s :=
  doWhen_false (by rw [decide_eq_false (Nat.not_le.mpr ht), Bool.and_false])

/-! ### The management target (R518, R519) -/

/-- Two bytes set an offset that is a multiple of 4, more or another offset are not acknowledged, and fewer set nothing. -/
theorem i2cOffsetWrite_on {d : Bytes} (h : s.pwr.i2cOn = true) :
    exec (.i2cOffsetWrite d) s = .next (if 2 < d.length ∨ (d.length = 2 ∧ fieldOf d 0 2 % 4 ≠ 0) then s.emit .i2cNak
      else if d.length = 2 then s.upHost (fun h => { h with i2cOffset := BitVec.ofNat 16 (fieldOf d 0 2) })
      else s) :=
  doWhen_true h

/-! ### JTAG (R364, R387 to R389, R413) -/

/-- The access as it shows at the port: SEC and ENC are those of what is accessed. -/
def jtagShown (s : State) (d : DebugTarget) : Out := .jtagAccess d (d == .security) (match d with
  | .unit u => tget 0 s.sec.unitEnc (UnitId.code u)
  | _ => 0)

theorem jtagShown_eq (s : State) (d : DebugTarget) : jtagShown s d = .jtagAccess d (jtagAttrs s d).1 (jtagAttrs s d).2 := by
  cases d <;> rfl

/-- An access that is enabled shows at the port; an invasive one, or boundary scan, breaks its path first. -/
theorem jtagDebugAccess_enabled {d : DebugTarget} {inv : Bool} (hr : outOfReset s = true) (he : debugEnabled s d inv = true) :
    exec (.jtagDebugAccess d inv) s =
      .next (((if inv || d == .boundary then breakPath s d else s).emit (jtagShown s d)).emit (.jtagData true)) := by
  rw [jtagShown_eq]
  exact doWhen_next hr (if_neg (not_not_intro he))

theorem jtagDebugAccess_disabled {d : DebugTarget} {inv : Bool} (hr : outOfReset s = true) (he : debugEnabled s d inv = false) :
    exec (.jtagDebugAccess d inv) s = .next (firewallB (s.emit (.jtagData false))) :=
  doWhen_next hr (if_pos (ne_true_of_eq_false he))

/-- Settles O57: each message, register, access and event by the lemma of its row. -/
theorem secureAndManagement : Obligations.SecureAndManagement := by
  refine ⟨⟨fun s h ha => ?badAddress, fun s h ha => ?keys, fun s => bootInfo_served, fun s h => ⟨fun hp => ?provides, fun hp => ?refuses⟩,
      fun s => debugChallenge_served, fun s h => ⟨fun ht => ?badToken, fun ht hl => ?locked, fun ht hl => ?unlocks⟩,
      fun s v => ⟨rfl, rfl, fun hl => ?debugLocked, fun hl => ?debugWrites, fun hv hw => ?kicks, fun hv => ?noKick⟩,
      fun s at_ hr => ⟨secureWdtWarning_due hr, secureWdtExpiry_due hr, secureWdtExpiry_early⟩⟩,
    fun s => ⟨fun d h => ⟨fun hd => ?nak, fun h2 h4 => ?offset, fun hd => ?short⟩, fun k => doWhen_true, fun d k h => ⟨doWhen_false h, doWhen_false h⟩,
      rfl, rfl, fun d inv hr => ⟨jtagDebugAccess_disabled hr, fun he hi => ?invasive, fun he hi hb => ?reads⟩,
      fun hw => doWhen_true (List.contains_iff_mem.mpr hw), fun hw => doWhen_true (List.contains_iff_mem.mpr hw)⟩⟩
  case badAddress => rw [getKeys_served h, if_pos ha]
  case keys => rw [getKeys_served h, if_neg (not_not_intro ha)]
  case provides => rw [provision_served h, if_pos hp, hp]
  case refuses => rw [provision_served h, if_neg hp]
  case badToken => rw [debugUnlock_served h, if_pos (ne_true_of_eq_false ht)]
  case locked => rw [debugUnlock_served h, if_neg (not_not_intro ht), if_pos hl]
  case unlocks => rw [debugUnlock_served h, if_neg (not_not_intro ht), if_neg (ne_true_of_eq_false hl)]
  case debugLocked => rw [secDebugWrite_secure, if_pos hl]
  case debugWrites => rw [secDebugWrite_secure, if_neg (ne_true_of_eq_false hl)]
  case kicks => rw [secWdtKick_secure, if_pos ⟨hv, hw⟩]
  case noKick => rw [secWdtKick_secure, if_neg (fun h => hv h.1)]
  case nak => rw [i2cOffsetWrite_on h, if_pos hd]
  case offset => rw [i2cOffsetWrite_on h, if_neg (by omega), if_pos h2]
  case short => rw [i2cOffsetWrite_on h, if_neg (by omega), if_neg (by omega)]
  case invasive => exact (jtagDebugAccess_enabled hr he).trans (by rw [if_pos (by simpa using hi)]; rfl)
  case reads => exact (jtagDebugAccess_enabled hr he).trans (by rw [if_neg (by simp [hi, hb])]; rfl)

end Sys2Proof.Machine
end

section
/-! SUPPORT. The safety islands: events, the curtain, votes, restarts and checkpoints (R396 to R410). -/

namespace Sys2Proof.Machine

variable {s : State} {i : IslandId} {at_ : Nat}

theorem upIsland_congr {f g : Island → Island} (h : f (s.island i) = g (s.island i)) : s.upIsland i f = s.upIsland i g := by
  cases i <;> simp only [State.upIsland, State.upSaf, State.island] at h ⊢ <;> rw [h]

/-! ### Events and the curtain (R396, R402, R403) -/

theorem safetyEventLatch_known {e : SafetyEvent} (h : (i, e) ∈ s.saf.raised ∨ (1 ≤ e.code.toNat ∧ e.code.toNat ≤ 0x24)) :
    exec (.safetyEventLatch i e at_) s = .next (latch (takeRaised (s.at_ at_) i e) i e) :=
  doWhen_true (by simpa using h)

theorem curtainMessageRepeat_due (hc : s.saf.curtain = true) (hm : s.saf.messages ≠ 0) (ht : s.saf.nextMessage ≤ at_) :
    exec (.curtainMessageRepeat at_) s = .next (curtainMessages (s.at_ at_)) :=
  doWhen_true (by rw [hc, bne_iff_ne.mpr hm, decide_eq_true ht]; rfl)

theorem curtainMessageRepeat_idle (h : s.saf.curtain = false ∨ s.saf.messages = 0) : exec (.curtainMessageRepeat at_) s = .next s :=
  doWhen_false (by obtain h | h := h <;> simp [h])

theorem safeOkToggle_due (hm : (s.island i).mode ≠ .start) (hr : (s.island i).restarting = false) (hc : s.saf.curtain = false)
    (hp : s.saf.nonSafety &&& pathBit (.island i) = 0) (ht : (s.island i).lastToggle + 495000 ≤ at_) :
    exec (.safeOkToggle i at_) s =
      .next (((s.at_ at_).upIsland i (fun x => { x with pin := !x.pin, lastToggle := at_ })).emit (.safeOk i (!(s.island i).pin))) :=
  doWhen_true (by rw [bne_iff_ne.mpr hm, hr, hc, hp, decide_eq_true ht]; rfl)

theorem safeOkToggle_curtain (hc : s.saf.curtain = true) : exec (.safeOkToggle i at_) s = .next s :=
  doWhen_false (by simp [hc])

/-! ### Votes (R405, R406) -/

section
variable {g : Fin 3 → Word} {vs : List (Fin 3)} {c : Fin 3}

/-- The voters whose signature none of the other voters has. -/
def oddOnes (g : Fin 3 → Word) (vs : List (Fin 3)) : List (Fin 3) :=
  vs.filter (fun c => vs.all (fun d => d == c || g d != g c))

theorem voters_nodup (x : Island) : (voters x).Nodup := List.Nodup.filter _ (by decide)

/-- Two voters or more that agree: none is odd. -/
theorem oddOnes_of_agree (hn : vs.Nodup) (h : ∀ a ∈ vs, ∀ b ∈ vs, g a = g b) (hl : 2 ≤ vs.length) : oddOnes g vs = [] := by
  rw [oddOnes, List.filter_eq_nil_iff]
  intro a ha hall
  have hne : ∃ d ∈ vs, d ≠ a := by
    by_contra hx
    have hr : vs = List.replicate vs.length a := List.eq_replicate_iff.mpr ⟨rfl, by simpa using hx⟩
    rw [hr, List.nodup_replicate] at hn
    omega
  obtain ⟨d, hd, hda⟩ := hne
  have := List.all_eq_true.mp hall d hd
  simp [hda, h d hd a ha] at this

/-- Of three voters one differs from the other two, which agree: it alone is odd. -/
theorem oddOnes_of_one (hc : ∀ a, a ≠ c → g a ≠ g c) (ho : ∀ a b, a ≠ c → b ≠ c → g a = g b) : oddOnes g [0, 1, 2] = [c] := by
  have all3 : ∀ d : Fin 3, d ∈ [(0 : Fin 3), 1, 2] := by decide
  have third : ∀ a c : Fin 3, a ≠ c → ∃ d, d ≠ c ∧ d ≠ a := by decide
  have alone : ∀ c : Fin 3, [0, 1, 2].filter (· == c) = [c] := by decide
  have odd (a : Fin 3) : ([0, 1, 2] : List (Fin 3)).all (fun d => d == a || g d != g a) = (a == c) := by
    by_cases h : a = c
    · rw [beq_iff_eq.mpr h, List.all_eq_true]
      intro d _
      by_cases hd : d = a
      · simp [hd]
      · simp [h, hc d (h ▸ hd)]
    · obtain ⟨d, hd, hda⟩ := third a c h
      rw [beq_false_of_ne h, List.all_eq_false]
      exact ⟨d, all3 d, by simp [hda, ho d a hd h]⟩
  rw [oddOnes, ← alone c]
  exact List.filter_congr fun a _ => odd a

/-- VOTER_COMPARE by the odd ones among its voters. -/
def compared (s : State) (i : IslandId) (g : Fin 3 → Word) : State :=
  if (oddOnes g (voters (s.island i))).isEmpty then s.upIsland i (fun x => { x with agreed := x.understudy.isNone })
  else match voters (s.island i), oddOnes g (voters (s.island i)) with
    | [_, _, _], [c] => if (s.island i).mode = .service then putOut s i c else beginRestart s i
    | _, _ => beginRestart s i

theorem voterCompare_runs (hr : islandsRun s = true) (hx : (s.island i).restarting = false) :
    exec (.voterCompare i (g 0) (g 1) (g 2)) s = .next (compared s i g) := by
  have hg : (fun c : Fin 3 => [g 0, g 1, g 2].getD c.val 0) = g := by
    funext c
    match c with
    | 0 => rfl
    | 1 => rfl
    | 2 => rfl
  refine doWhen_next (by rw [hr, hx]; rfl) ?_
  unfold compared oddOnes
  rw [← hg]
  rfl

theorem compared_agree (h : ∀ a ∈ voters (s.island i), ∀ b ∈ voters (s.island i), g a = g b) (hl : 2 ≤ (voters (s.island i)).length) :
    compared s i g = s.upIsland i (fun x => { x with agreed := (s.island i).understudy.isNone }) := by
  unfold compared
  rw [oddOnes_of_agree (voters_nodup _) h hl]
  exact (if_pos rfl).trans (upIsland_congr rfl)

theorem compared_one (hv : voters (s.island i) = [0, 1, 2]) (hc : ∀ a, a ≠ c → g a ≠ g c) (ho : ∀ a b, a ≠ c → b ≠ c → g a = g b) :
    compared s i g = if (s.island i).mode = .service then putOut s i c else beginRestart s i := by
  unfold compared
  rw [hv, oddOnes_of_one hc ho]
  rfl

end

theorem understudyRejoin_out (hr : (s.island i).restarting = false) (hu : (s.island i).understudy.isSome = true) :
    exec (.understudyRejoin i) s = .next (s.upIsland i (fun x => { x with understudy := none })) :=
  doWhen_true (by rw [hr, hu]; rfl)

/-! ### Restarts (R407, R408) -/

/-- The cores run again with the island as `f` leaves it, and the events held meanwhile are counted. -/
def restartedBy (s : State) (i : IslandId) (f : Island → Island) : State := processHeld (raiseCode (s.upIsland i f) i 0x1A) i

theorem restartedBy_congr {f g : Island → Island} (h : f (s.island i) = g (s.island i)) : restartedBy s i f = restartedBy s i g := by
  unfold restartedBy
  rw [upIsland_congr h]

/-- What a restart leaves of the island: the cue of the restart from which the next 1,000 count is `c`. -/
def restartedIsland (s : State) (i : IslandId) (c : DWord) (x : Island) : Island :=
  { x with restarting := false, understudy := none, agreed := true, mode := if (s.island i).mode = .start then .start else .recovery,
           restartCue := some c }

/-- A second restart within 1,000 cues drops the curtain. -/
theorem islandRestartDone_again {c : DWord} (hr : (s.island i).restarting = true) (hc : (s.island i).restartCue = some c)
    (ht : s.cue.count.toNat < c.toNat + 1000) :
    exec (.islandRestartDone i) s = .next (dropCurtain (restartedBy s i (restartedIsland s i c)) 0x1A) := by
  refine doWhen_next hr ((if_pos ?_).trans (congrArg (dropCurtain · 0x1A) (restartedBy_congr ?_)))
  · rw [hc]; exact decide_eq_true ht
  · simp [restartedIsland, hc, ht]

theorem islandRestartDone_late (hr : (s.island i).restarting = true)
    (ht : ∀ c, (s.island i).restartCue = some c → c.toNat + 1000 ≤ s.cue.count.toNat) :
    exec (.islandRestartDone i) s = .next (restartedBy s i (restartedIsland s i s.cue.count)) := by
  refine doWhen_next hr ((if_neg ?_).trans (restartedBy_congr ?_))
  · cases hc : (s.island i).restartCue with
    | none => simp
    | some c => simpa using ht c hc
  · cases hc : (s.island i).restartCue with
    | none => simp [restartedIsland]
    | some c => simp [restartedIsland, Nat.not_lt.mpr (ht c hc)]

/-! ### Checkpoints and alive words (R407, R410) -/

theorem islandCheckpointTimer_due (hc : s.cue.running = false) (ht : (s.island i).lastCkpt + 10000000 ≤ at_) :
    exec (.islandCheckpointTimer i at_) s = .next (checkpoint i (s.at_ at_)) :=
  doWhen_true (by rw [hc, decide_eq_true ht]; rfl)

theorem aliveWord_runs (hr : islandsRun s = true) (ha : s.saf.a.restarting = false) :
    exec (.aliveWord at_) s = .next ((s.at_ at_).upSaf (fun f => { f with lastAlive := at_, silent := false })) :=
  doWhen_true (by rw [hr, ha]; rfl)

theorem islandASilent_due (hr : islandsRun s = true) (hn : s.saf.silent = false) (ht : s.saf.lastAlive + 250000 ≤ at_) :
    exec (.islandASilent at_) s = .next (raiseCode ((s.at_ at_).upSaf (fun f => { f with silent := true })) .b 0x1E) :=
  doWhen_true (by rw [hr, hn, decide_eq_true ht]; rfl)

theorem islandASilent_early (ht : at_ < s.saf.lastAlive + 250000) : exec (.islandASilent at_) s = .next s :=
  doWhen_false (by rw [decide_eq_false (Nat.not_le.mpr ht), Bool.and_false])

/-- Settles O55: each event by the lemma of its row, and a vote by the odd ones among its voters. -/
theorem safetyIslands : Obligations.SafetyIslands := by
  refine ⟨fun s at_ => ⟨fun i e => safetyEventLatch_known, curtainMessageRepeat_due, curtainMessageRepeat_idle, fun hu hm => ?frame,
      fun p => doWhen_true, fun i => safeOkToggle_due, fun i => safeOkToggle_curtain⟩,
    fun s i at_ => ⟨fun g hr hx => ⟨fun h hl => ?agree, fun c hv hc ho => ⟨fun hm => ?service, fun hm => ?restarts⟩⟩, understudyRejoin_out,
      fun hr => ⟨fun c => islandRestartDone_again hr, islandRestartDone_late hr⟩, islandCheckpointTimer_due, aliveWord_runs, islandASilent_due,
      islandASilent_early⟩⟩
  case frame => exact doWhen_true (by rw [hu, bne_iff_ne.mpr hm]; rfl)
  case agree => exact (voterCompare_runs hr hx).trans (congrArg _ (compared_agree h hl))
  case service => exact (voterCompare_runs hr hx).trans (congrArg _ ((compared_one hv hc ho).trans (if_pos hm)))
  case restarts => exact (voterCompare_runs hr hx).trans (congrArg _ ((compared_one hv hc ho).trans (if_neg hm)))

end Sys2Proof.Machine
end

section
/-! SUPPORT. Self-tests, rehearsals, signatures and the records of two packages (R412, R416 to R425). -/

namespace Sys2Proof.Machine

variable {s : State} {at_ : Nat} {u : UnitId} {k : Checker}

/-! ### Targeted self-tests (R416, R417) -/

theorem targetedSelfTest_suspect (hs : (s.unit u).suspect = true) (hf : (s.unit u).fenced = false) (hj : (s.unit u).job = none)
    (hp : (s.unit u).phase = .idle) (hw : unitPowered s u = true) :
    exec (.targetedSelfTest u) s = .next (s.upUnit u (fun x => { x with phase := .selfTest, resident := [], lastOwner := .nobody })) :=
  doWhen_true (by rw [hs, hf, hj, hp, hw]; rfl)

/-- The transients of a unit that the window still counts, with the one of now. -/
def recentTransients (s : State) (u : UnitId) : List Nat :=
  (tget [] s.saf.transients (UnitId.code u)).filter (fun c => decide (s.cue.count.toNat < c + transientWindow s)) ++ [s.cue.count.toNat]

/-- A unit that fails its test is fenced, and so is one whose transients reach the limit. -/
theorem targetedSelfTestDone_testing (hp : (s.unit u).phase = .selfTest) (pass : Bool) :
    let t := s.upUnit u (fun x => { x with phase := .idle, suspect := false })
    let r := t.upSaf (fun f => { f with transients := tset [] f.transients (UnitId.code u) (recentTransients s u) })
    exec (.targetedSelfTestDone u pass) s = .next (if ¬ pass then lastingFault t u
      else if transientLimit s ≤ (recentTransients s u).length then lastingFault r u else r) :=
  doWhen_true (by rw [hp]; rfl)

/-! ### Rehearsals (R418 to R420) -/

/-- A checker in a unit runs a segment in the unit's idle windows, one at a time in each unit. -/
theorem rehearsalSegment_unit (hu : checkerUnit k = some u) (hi : ∀ i, k ≠ .island i) (hd : s.host.devReady = true)
    (hr : s.cue.running = true) (hk : k ∈ allCheckers) (ho : checkerOn s k = true) (hf : ∀ p ∈ s.saf.segments, checkerUnit p.1 ≠ some u)
    (hm : mayRehearse (s.at_ at_) k = true) :
    exec (.rehearsalSegment k at_) s = .next (((s.at_ at_).upSaf (fun f => { f with segments := f.segments ++ [(k, at_)] })).upUnit u
      (fun x => { x with wakeUntil := at_ + (segmentsOf k).2 })) := by
  have hknown : allCheckers.contains k = true := List.contains_iff_mem.mpr hk
  have hfree : (!s.saf.segments.any (fun p => checkerUnit p.1 == some u)) = true := by simpa using hf
  change execRehearsalSegment k at_ s = _
  unfold execRehearsalSegment
  cases k
  case island i => exact (hi i rfl).elim
  all_goals
    simp only [hu]
    exact doWhen_true (by rw [hd, hr, hknown, ho, hfree, hm]; rfl)

/-- The end of a segment in a unit frees the unit; what the checker missed is reported. -/
theorem rehearsalSegmentEnd_unit (hu : checkerUnit k = some u) (hi : ∀ i, k ≠ .island i) (hs : ∃ p ∈ s.saf.segments, p.1 = k) (detected : Bool) :
    let t := ((s.at_ at_).upSaf (fun f => { f with segments := f.segments.filter (fun p => p.1 ≠ k) })).upUnit u (fun x => { x with wakeUntil := 0 })
    exec (.rehearsalSegmentEnd k detected at_) s = .next (countSegment (if detected then t.upSaf (fun f => { f with
        passed := f.passed.filter (fun p => p.1 ≠ k) ++ [(k, (s.at_ at_).now)]
        starvedNow := f.starvedNow.filter (· ≠ k)
        overdue := f.overdue.filter (· ≠ k) })
      else raise t (checkerIsland k) { code := 0x18, unit := some u, checker := some k }) k) := by
  have hrun : s.saf.segments.any (fun p => p.1 == k) = true := by simpa using hs
  change execRehearsalSegmentEnd k detected at_ s = _
  unfold execRehearsalSegmentEnd
  cases k
  case island i => exact (hi i rfl).elim
  all_goals
    simp only [hu]
    exact doWhen_true hrun

/-- Once for a checker until it passes again, an age beyond LFI_MS is an event; a pair that does not compare and a twin link that is
down have none. -/
theorem rehearsalStarved_old (hd : s.host.devReady = true) (hk : k ∈ allCheckers) (ho : k ∉ s.saf.overdue)
    (ha : 1000000 * lfiMs s < ageOf s k at_) (hp : ∀ p, k = .pair p → pairCompares s p = true) (ht : k = .twin → s.fab.twinUp = true) :
    exec (.rehearsalStarved k at_) s =
      .next (raise ((s.at_ at_).upSaf (fun f => { f with overdue := f.overdue ++ [k] })) .b { code := 0x17, checker := some k }) := by
  have hknown : allCheckers.contains k = true := List.contains_iff_mem.mpr hk
  have hfirst : s.saf.overdue.contains k = false := by simpa using ho
  refine doWhen_true ?_
  rw [hd, hknown, hfirst, decide_eq_true ha]
  cases k with
  | pair p => exact hp p rfl
  | twin => exact ht rfl
  | _ => rfl

/-! ### Signatures and cross-checks (R421, R424, R425) -/

section
variable {j : Nat} {x : Job}

/-- A job that has ended and whose record has not been made yet. -/
structure Signs (s : State) (j : Nat) (x : Job) : Prop where
  job : s.job j = some x
  ended : x.phase = .ended
  fresh : ∀ p ∈ s.saf.crossMine, p.2 ≠ j

/-- The end of such a job: a known answer is checked, and a paired job's record goes to the partner and is compared with the
partner's where that has come. -/
def afterSignature (s : State) (j : Nat) (x : Job) : State :=
  let sig := signature (keptChecks s x)
  let u : State := { s with free := s.free + 1 }
  let t := (u.emit (.crossRecord (crossRecord x sig))).upSaf (fun f => { f with crossMine := f.crossMine ++ [(crossRecord x sig, j)] })
  match x.kaf with
  | some k => finishJob (endKaf u x k sig) x
  | none => match s.saf.crossTheirs.find? (fun r => sameKey r (crossRecord x sig)) with
    | some r => compareCross t x (crossRecord x sig) r
    | none => t

theorem signatureReady_signs (h : Signs s j x) : exec (.signatureReady j) s = .next (afterSignature s j x) := by
  obtain ⟨hjob, hended, hfresh⟩ := h
  change execSignatureReady j s = _
  unfold execSignatureReady
  rw [hjob]
  exact doWhen_next (by simpa [hended] using hfresh) rfl

end

/-- The partner's record is compared with this package's, or kept for it. -/
def afterRecord (s : State) (r : CrossRecord) : State :=
  let kept := s.upSaf (fun f => { f with crossTheirs := f.crossTheirs ++ [r] })
  match s.saf.crossMine.find? (fun p => sameKey p.1 r) with
  | none => kept
  | some p => match s.job p.2 with
    | some j => compareCross s j p.1 r
    | none => kept

theorem crossRecordReceive_paired {r : CrossRecord} (hu : s.fab.twinUp = true) (hm : s.fab.twinMode = 2) :
    exec (.crossRecordReceive r) s = .next (afterRecord s r) :=
  doWhen_next (by rw [hu, hm]; rfl) rfl

/-- Settles O56: each event by the lemma of its row. -/
theorem rehearsals : Obligations.Rehearsals := by
  refine fun s at_ => ⟨fun u => targetedSelfTest_suspect, fun u hp => ⟨?fails, fun hl => ?returns, fun hl => ?fenced⟩,
    fun k u => rehearsalSegment_unit, fun k u hu hi hs => ⟨rehearsalSegmentEnd_unit hu hi hs true, rehearsalSegmentEnd_unit hu hi hs false⟩,
    fun k => rehearsalStarved_old, fun j x hj he hf => ?signs, fun r hu hm => ⟨fun hn => ?keeps, fun p j hp hj => ?compares⟩⟩
  case fails => exact targetedSelfTestDone_testing hp false
  case returns => exact (targetedSelfTestDone_testing hp true).trans (congrArg _ ((if_neg (not_not_intro rfl)).trans (if_neg (Nat.not_le.mpr hl))))
  case fenced => exact (targetedSelfTestDone_testing hp true).trans (congrArg _ ((if_neg (not_not_intro rfl)).trans (if_pos hl)))
  case signs =>
    have hsigns := signatureReady_signs (s := s) ⟨hj, he, hf⟩
    unfold afterSignature at hsigns
    refine ⟨fun k hk => ?_, fun hk hn => ?_, fun r hk hr => ?_⟩
    · rw [hsigns, hk]
    · rw [hsigns, hk]; dsimp only; rw [hn]
    · rw [hsigns, hk]; dsimp only; rw [hr]
  case keeps => rw [crossRecordReceive_paired hu hm, afterRecord, hn]
  case compares => rw [crossRecordReceive_paired hu hm, afterRecord, hp]; dsimp only; rw [hj]

end Sys2Proof.Machine
end

section
/-! SUPPORT. Frames on CAN and Ethernet, gates, least gaps and stale routes (R432 to R434, R443 to R452). -/

namespace Sys2Proof.Machine

variable {s : State} {at_ : Nat}

/-! ### CAN (R443, R444, R449) -/

section
variable {c : CanId}

/-- A frame that the controller takes goes to its signal routes, or is counted where there is none. -/
theorem canFrameReceive_takes {f : CanFrame} (h : canTakes s c f = true) :
    let t := (s.at_ at_).upCan c.toNat (fun x => { x with rec_ := x.rec_ - 1 })
    let p (x : Nat × BitVec 4608) : Bool := fld x.2 1 1 == 0 && fld x.2 2 1 == c.toNat && canMatch x.2 f.id.toNat f.ext
    exec (.canFrameReceive c f at_) s = .next (if (routes s).any (fun x => isSignal x.2 && p x) then sourceEvent t f.data p
      else t.upCan c.toNat (fun x => { x with dropped := x.dropped + 1 })) :=
  doWhen_true h

/-- What becomes of the frame that a controller offers: it leaves when it is sent, fails its check, or may be tried only once. -/
def afterOffer (s : State) (c : CanId) (q : Option Nat × CanFrame) (at_ : Nat) (r : CanTxResult) : State :=
  let once (y : CanSt) : CanSt := if canOneShot s.pwr.net c.toNat then canDrop y q else y
  match r with
  | .sent => ((s.at_ at_).upCan c.toNat (fun y => { (canDrop y q) with tec := y.tec - 1 })).emit (.canFrame c q.2)
  | .checkFailed => reportCheckOf ((s.at_ at_).upCan c.toNat (fun y => { (canDrop y q) with unsent := y.unsent + 1 })) .b midGateway (frameOwner s q.1) false
  | .arbitrationLost => (s.at_ at_).upCan c.toNat once
  | .busError => (s.at_ at_).upCan c.toNat (fun y => canError (once y))

theorem canFrameTransmitted_offered {q : Option Nat × CanFrame} (hq : canOffer (s.can c.toNat) = some q)
    (hm : canMode s.pwr.net c.toNat = 1 ∨ canMode s.pwr.net c.toNat = 2) (hb : (s.can c.toNat).busOff = false) (r : CanTxResult) :
    exec (.canFrameTransmitted c r at_) s = .next (afterOffer s c q at_ r) := by
  change execCanFrameTransmitted c r at_ s = _
  unfold execCanFrameTransmitted
  dsimp only
  rw [hq]
  refine doWhen_next ?_ (by cases r <;> rfl)
  obtain h | h := hm <;> rw [h, hb] <;> rfl

end

/-! ### Ethernet (R432 to R434) -/

section
variable {p : EthId} {r : Bytes}

/-- The entry in force has ended: the next one's gates apply, or the list starts. -/
theorem gclEntry_ended {t : Nat} (he : gateEnd s p.val = some t) (hr : ethRec s.pwr.net p.val = some r) (ht : t ≤ at_) :
    let next := if (s.eth p.val).gclAt = none then 0 else ((s.eth p.val).gcl + 1) % max 1 (fieldOf r 22 2)
    exec (.gclEntry p at_) s = .next (drainPort ((s.at_ at_).upEth p.val (fun e => { e with gcl := next, gclAt := some (max t s.net.applied) })) p.val) := by
  change execGclEntry p at_ s = _
  unfold execGclEntry
  rw [he, hr]
  simp only [Option.isNone_iff_eq_none]
  exact doWhen_true (decide_eq_true ht)

section
variable {k : EthRx} {d : Bytes}

/-- A port that is up, with its record. -/
structure PortUp (s : State) (p : EthId) (r : Bytes) : Prop where
  record : ethRec s.pwr.net p.val = some r
  used : ethMode s.pwr.net p.val ≠ 0
  up : (s.eth p.val).linkUp = true

theorem ethFrameReceive_badFcs (h : PortUp s p r) (hk : k.fcsOk = false) : exec (.ethFrameReceive p k d at_) s =
    .next ((stampRx (s.at_ at_) p.val d.length).upEth p.val (fun e => { e with fcs := e.fcs + 1, drops := e.drops + 1 })) := by
  obtain ⟨hr, hm, hl⟩ := h
  change execEthFrameReceive p k d at_ s = _
  unfold execEthFrameReceive
  rw [hr]
  refine doWhen_next (by rw [bne_iff_ne.mpr hm, hl]; rfl) ?_
  rw [if_pos (ne_true_of_eq_false hk), hk, if_neg Bool.false_ne_true]

/-- What the switch does with a frame of `len` bytes with its FCS whose FCS is good: it drops one of a bad length or over its
police, and forwards the rest. -/
def switched (u : State) (r : Bytes) (p : EthId) (f : EthIn) (len : Nat) : State :=
  let q := police u p.val f len
  if len < 64 ∨ fieldOf r 14 2 < len then u.upEth p.val (fun e => { e with drops := e.drops + 1 })
  else if ¬ q.2.2 then q.1.upEth p.val (fun e => { e with drops := e.drops + 1 })
  else frerForward q.1 p.val f q.2.1

theorem ethFrameReceive_whole {f : EthIn} (h : PortUp s p r) (hk : k.fcsOk = true) (hf : f = { parseEth (fieldOf r 16 2) d with good := k.keeps }) :
    exec (.ethFrameReceive p k d at_) s = .next (switched (keepSync (stampRx (s.at_ at_) p.val d.length) p.val f) r p f (d.length + 4)) := by
  obtain ⟨hr, hm, hl⟩ := h
  change execEthFrameReceive p k d at_ s = _
  unfold execEthFrameReceive switched
  rw [hr]
  refine doWhen_next (by rw [bne_iff_ne.mpr hm, hl]; rfl) ?_
  simp only [hk, hf, not_true_eq_false, if_true, if_false]

section
variable {u : State} {f : EthIn} {len : Nat}

theorem switched_badLength (h : len < 64 ∨ fieldOf r 14 2 < len) : switched u r p f len = u.upEth p.val (fun e => { e with drops := e.drops + 1 }) :=
  if_pos h

theorem switched_policed (h : ¬ (len < 64 ∨ fieldOf r 14 2 < len)) (hq : (police u p.val f len).2.2 = false) :
    switched u r p f len = (police u p.val f len).1.upEth p.val (fun e => { e with drops := e.drops + 1 }) :=
  (if_neg h).trans (if_pos (ne_true_of_eq_false hq))

theorem switched_passes (h : ¬ (len < 64 ∨ fieldOf r 14 2 < len)) (hq : (police u p.val f len).2.2 = true) :
    switched u r p f len = frerForward (police u p.val f len).1 p.val f (police u p.val f len).2.1 :=
  (if_neg h).trans (if_neg (not_not_intro hq))

end

end

end

/-! ### Least gaps and stale routes (R450, R451) -/

section
variable {r : RouteId} {t : Nat}

theorem minGapExpiry_due (hd : (s.route r.toNat).due = some t) (ht : t ≤ at_) :
    exec (.minGapExpiry r at_) s = .next (sendFrame (s.at_ at_) r.toNat) := by
  change execMinGapExpiry r at_ s = _
  unfold execMinGapExpiry
  rw [hd]
  exact doWhen_true (decide_eq_true ht)

theorem routeStale_timeout (he : (s.route r.toNat).event = some t) (hs : isSignal (routeSet s r.toNat) = true)
    (h0 : fld (routeSet s r.toNat) 48 4 ≠ 0) (ht : t + 1000 * fld (routeSet s r.toNat) 48 4 ≤ at_) :
    let u := (s.at_ at_).upRoute r.toNat (fun x => { x with stale := true })
    exec (.routeStale r at_) s = .next (if dstLoop (routeSet s r.toNat) then toLoop u (routeSet s r.toNat) (substOf (routeSet s r.toNat)) else u) := by
  change execRouteStale r at_ s = _
  unfold execRouteStale
  rw [he]
  exact doWhen_true (by rw [hs, bne_iff_ne.mpr h0, decide_eq_true ht]; rfl)

end

/-- Settles O50: each event by the lemma of its row. -/
theorem networkEvents : Obligations.NetworkEvents := by
  refine fun s => ⟨fun c f at_ h => ⟨fun hp => ?routed, fun hp => ?unrouted⟩, fun c f at_ => doWhen_false, fun c at_ q hq hm hb => ?transmitted,
    fun c => doWhen_true, fun p up hm => doWhen_true (bne_iff_ne.mpr hm), fun p at_ t r => gclEntry_ended, fun p k d at_ r hr hm hl => ?received,
    fun r at_ t => minGapExpiry_due, fun r at_ t => routeStale_timeout⟩
  case routed => exact (canFrameReceive_takes h).trans (congrArg _ (if_pos (by simpa using hp)))
  case unrouted => exact (canFrameReceive_takes h).trans (congrArg _ (if_neg (by simpa using hp)))
  case transmitted =>
    have result := canFrameTransmitted_offered (at_ := at_) hq hm hb
    exact ⟨result .sent, result .checkFailed, result .arbitrationLost, result .busError⟩
  case received =>
    have h : PortUp s p r := ⟨hr, hm, hl⟩
    refine ⟨ethFrameReceive_badFcs h, fun hk hlen => (ethFrameReceive_whole h hk rfl).trans (congrArg _ (switched_badLength (by omega))),
      fun hk h60 hmax hq => (ethFrameReceive_whole h hk rfl).trans (congrArg _ (switched_policed (by omega) hq)),
      fun hk h60 hmax hq => (ethFrameReceive_whole h hk rfl).trans (congrArg _ (switched_passes (by omega) hq))⟩

end Sys2Proof.Machine
end

section
/-! SUPPORT. Numbers of a lane's width: wrapping, the two's-complement reading and saturation (R112, R115). -/

namespace Sys2Proof.Machine

theorem wrapBits_cast (n : Nat) (v : Int) : ((wrapBits n v : Nat) : Int) = v % 2 ^ n := by
  have hpos : (0 : Int) < ((2 ^ n : Nat) : Int) := by exact_mod_cast Nat.two_pow_pos n
  rw [wrapBits, Int.toNat_of_nonneg (Int.emod_nonneg _ hpos.ne')]
  push_cast
  rfl

theorem wrapBits_lt (n : Nat) (v : Int) : wrapBits n v < 2 ^ n := by
  have hlt := Int.emod_lt_of_pos v (show (0 : Int) < 2 ^ n by positivity)
  rw [← wrapBits_cast] at hlt
  exact_mod_cast hlt

theorem wrapBits_eq_toNat (n : Nat) (v : Int) : wrapBits n v = (BitVec.ofInt n v).toNat := by
  rw [BitVec.toNat_ofInt]
  rfl

theorem ofNat_wrapBits (n : Nat) (v : Int) : BitVec.ofNat n (wrapBits n v) = BitVec.ofInt n v := by
  rw [wrapBits_eq_toNat, BitVec.ofNat_toNat, BitVec.setWidth_eq]

theorem signed_eq_toInt (n : Nat) (hn : 0 < n) (v : BitVec n) : signed n v.toNat = v.toInt := by
  have hhalf : 2 ^ n = 2 * 2 ^ (n - 1) := by rw [← Nat.pow_succ', Nat.succ_eq_add_one, Nat.sub_add_cancel hn]
  simp only [signed, Nat.mod_eq_of_lt v.isLt, BitVec.toInt_eq_toNat_cond]
  exact if_congr (by omega) rfl rfl

theorem signed_wrapBits {n : Nat} (hn : 0 < n) {v : Int} (hlo : -2 ^ (n - 1) ≤ v) (hhi : v < 2 ^ (n - 1)) : signed n (wrapBits n v) = v := by
  rw [wrapBits_eq_toNat, signed_eq_toInt n hn, BitVec.toInt_ofInt_eq_self hn hlo hhi]

theorem clampTo_value {lo hi : Int} (h : lo ≤ hi) (v : Int) : (clampTo lo hi v).1 = max lo (min hi v) := by
  unfold clampTo
  split
  · show lo = _
    omega
  · split
    · show hi = _
      omega
    · show v = _
      omega

theorem clampTo_flag (lo hi v : Int) :
    (if (clampTo lo hi v).2 then fSat else (0 : Byte)) = if lo ≤ v ∧ v ≤ hi then 0 else fSat := by
  unfold clampTo
  split
  · exact (if_neg (by omega)).symm
  · split
    · exact (if_neg (by omega)).symm
    · exact (if_pos (by omega)).symm

/-! ### The integer result of R115 -/

section
variable {b : Nat} (v : Int)

theorem intResult_wraps (uns : Bool) : ((intResult false uns b v).1 : Int) = v % 2 ^ b ∧ (intResult false uns b v).2 = 0 :=
  ⟨wrapBits_cast b v, rfl⟩

theorem intResult_signed (hb : 1 ≤ b) :
    signed b (intResult true false b v).1 = max (-2 ^ (b - 1)) (min (2 ^ (b - 1) - 1) v) ∧
    (intResult true false b v).2 = if -2 ^ (b - 1) ≤ v ∧ v ≤ 2 ^ (b - 1) - 1 then 0 else fSat := by
  have hpos : (0 : Int) < 2 ^ (b - 1) := by positivity
  have hsat : satS b v = clampTo (-2 ^ (b - 1)) (2 ^ (b - 1) - 1) v := by simp [satS]
  have hvalue := clampTo_value (show -(2 : Int) ^ (b - 1) ≤ 2 ^ (b - 1) - 1 by omega) v
  constructor
  · change signed b (wrapBits b (satS b v).1) = _
    rw [hsat, hvalue, signed_wrapBits hb (by omega) (by omega)]
  · change (if (satS b v).2 then fSat else 0) = _
    rw [hsat, clampTo_flag]

theorem intResult_unsigned :
    ((intResult true true b v).1 : Int) = max 0 (min (2 ^ b - 1) v) ∧
    (intResult true true b v).2 = if 0 ≤ v ∧ v ≤ 2 ^ b - 1 then 0 else fSat := by
  have hpos : (0 : Int) < 2 ^ b := by positivity
  have hsat : satU b v = clampTo 0 (2 ^ b - 1) v := by simp [satU]
  have hvalue := clampTo_value (show (0 : Int) ≤ 2 ^ b - 1 by omega) v
  constructor
  · change ((wrapBits b (satU b v).1 : Nat) : Int) = _
    rw [hsat, hvalue, wrapBits_cast, Int.emod_eq_of_lt (by omega) (by omega)]
  · change (if (satU b v).2 then fSat else 0) = _
    rw [hsat, clampTo_flag]

end

end Sys2Proof.Machine
end

section
/-! SUPPORT. The rows of the vector engine that write V[D] lane by lane, by the number of their operands (R108, R109, R113). -/

namespace Sys2Proof.Machine

/-- Two results of a lane of b bits that leave the same bits and the same flags. -/
def SameLane (b : Nat) (p q : Flagged Nat) : Prop := p.1 % 2 ^ b = q.1 % 2 ^ b ∧ p.2 = q.2

theorem SameLane.of_eq {b : Nat} {p q : Flagged Nat} (h : p = q) : SameLane b p q := by
  subst h
  exact ⟨rfl, rfl⟩

/-- A result reduced to the lane's width is the same lane. -/
theorem SameLane.of_mod {b m : Nat} {f : Byte} : SameLane b (m % 2 ^ b, f) (m, f) := ⟨Nat.mod_mod m _, rfl⟩

section
variable {s : State} {c : CoreId} {w : DWord} {z : VeShape} {row : VI → Nat} {r : Nat} {cmd : Chk → Instr} {g : Nat → Flagged Nat}
  {f : VeSt → VI → VeSt} (R : CoreId → Chk → State → Ans) (h : VeRuns s c w) (hv : veOps.contains z.op = true) (hr0 : r ≠ 0)
  (he : ∀ k, exec (cmd k) s = R c k s) (hR : ∀ k, R c k s = veReg z always row k f c s) (hr : row (decodeVi w) = r)
include h hv hr0 he hR hr

/-- A row by the list of its lanes. -/
theorem veLanes_row {rs : List (Flagged Nat)} (hf : f (s.ve c) (decodeVi w) = putV (s.ve c) (decodeVi w) rs)
    (hl : rs.length = etLanes (decodeVi w).et) (hg : ∀ n, (hn : n < rs.length) → SameLane (etBits (decodeVi w).et) rs[n] (g n)) :
    VeRow s c w z always cmd (LaneOp s c (decodeVi w) cmd r g) :=
  veLane_row z always row r f rs cmd g h hv (fun k => (he k).trans (hR k)) hr hr0 hf hl hg

/-- A row of operand A. -/
theorem veLane1_row {F : VI → Nat → Flagged Nat} (hf : ∀ x i, f x i = putV x i ((aLanes x i).map (F i)))
    (hg : ∀ n, SameLane (etBits (decodeVi w).et) (F (decodeVi w) (laneAt (etBits (decodeVi w).et) ((s.ve c).vr (decodeVi w).a) n)) (g n)) :
    VeRow s c w z always cmd (LaneOp s c (decodeVi w) cmd r g) := by
  refine veLanes_row R h hv hr0 he hR hr (hf _ _) (by simp) fun n hn => ?_
  rw [List.getElem_map, aLanes_get]
  exact hg n

/-- A row of operand B alone. -/
theorem veLaneB_row {F : VeSt → VI → Nat → Flagged Nat} (hf : ∀ x i, f x i = putV x i ((bLanes x i).map (F x i)))
    (hg : ∀ n, SameLane (etBits (decodeVi w).et) (F (s.ve c) (decodeVi w) (laneB (s.ve c) (decodeVi w) n)) (g n)) :
    VeRow s c w z always cmd (LaneOp s c (decodeVi w) cmd r g) := by
  refine veLanes_row R h hv hr0 he hR hr (hf _ _) (by simp) fun n hn => ?_
  rw [List.getElem_map, bLanes_get]
  exact hg n

/-- A row of operands A and B. -/
theorem veLane2_row {F : VI → Nat → Nat → Flagged Nat} (hf : ∀ x i, f x i = putV x i (List.zipWith (F i) (aLanes x i) (bLanes x i)))
    (hg : ∀ n, SameLane (etBits (decodeVi w).et)
      (F (decodeVi w) (laneAt (etBits (decodeVi w).et) ((s.ve c).vr (decodeVi w).a) n) (laneB (s.ve c) (decodeVi w) n)) (g n)) :
    VeRow s c w z always cmd (LaneOp s c (decodeVi w) cmd r g) := by
  refine veLanes_row R h hv hr0 he hR hr (hf _ _) (by simp) fun n hn => ?_
  rw [List.getElem_zipWith, aLanes_get, bLanes_get]
  exact hg n

/-- A row of operands A, B and C. -/
theorem veLane3_row {F : VI → Nat → Nat → Nat → Flagged Nat}
    (hf : ∀ x i, f x i = putV x i (List.zipWith (fun (p : Nat × Nat) v => F i p.1 p.2 v) ((aLanes x i).zip (bLanes x i)) (cLanes x i)))
    (hg : ∀ n, SameLane (etBits (decodeVi w).et)
      (F (decodeVi w) (laneAt (etBits (decodeVi w).et) ((s.ve c).vr (decodeVi w).a) n) (laneB (s.ve c) (decodeVi w) n)
        (laneAt (etBits (decodeVi w).et) ((s.ve c).vr (decodeVi w).c) n)) (g n)) :
    VeRow s c w z always cmd (LaneOp s c (decodeVi w) cmd r g) := by
  refine veLanes_row R h hv hr0 he hR hr (hf _ _) (by simp) fun n hn => ?_
  rw [List.getElem_zipWith, List.getElem_zip, aLanes_get, bLanes_get, cLanes_get]
  exact hg n

end

end Sys2Proof.Machine
end

section
/-! SUPPORT. The integer rows, lane by lane (R113 to R115). -/

namespace Sys2Proof.Machine

/-- The four byte products of VDOT4 in a row. -/
theorem dot4_sum (uns : Bool) (x y : Nat) (z : Int) :
    z + ((List.range 4).map (fun n => byteOf uns x n * byteOf uns y n)).foldl (· + ·) 0 =
      z + laneInt uns 8 (x % 256) * laneInt uns 8 (y % 256) + laneInt uns 8 (x / 2 ^ 8 % 256) * laneInt uns 8 (y / 2 ^ 8 % 256)
        + laneInt uns 8 (x / 2 ^ 16 % 256) * laneInt uns 8 (y / 2 ^ 16 % 256) + laneInt uns 8 (x / 2 ^ 24 % 256) * laneInt uns 8 (y / 2 ^ 24 % 256) := by
  simp [List.range_succ, byteOf, add_assoc]

theorem SameLane.of_shiftLeft {b m k : Nat} : SameLane b ((m <<< k) % 2 ^ b, 0) (m * 2 ^ k, 0) := by
  rw [Nat.shiftLeft_eq]
  exact .of_mod

section
variable {s : State} {c : CoreId} {w : DWord} {z : VeShape} {row : VI → Nat} {r : Nat} {cmd : Chk → Instr} {g : Nat → Flagged Nat}
  (R : CoreId → Chk → State → Ans) (h : VeRuns s c w) (hv : veOps.contains z.op = true) (hr0 : r ≠ 0) (he : ∀ k, exec (cmd k) s = R c k s)
include h hv hr0 he

theorem intOp1_row {op : VI → Nat → Nat → Flagged Nat} (hR : ∀ k, R c k s = veReg z always row k (intOp1 op) c s) (hr : row (decodeVi w) = r)
    (hg : ∀ n, SameLane (etBits (decodeVi w).et)
      (op (decodeVi w) (etBits (decodeVi w).et) (laneAt (etBits (decodeVi w).et) ((s.ve c).vr (decodeVi w).a) n)) (g n)) :
    VeRow s c w z always cmd (LaneOp s c (decodeVi w) cmd r g) :=
  veLane1_row (F := fun i => op i (etBits i.et)) R h hv hr0 he hR hr (fun _ _ => rfl) hg

theorem intOp2_row {op : VI → Nat → Nat → Nat → Flagged Nat} (hR : ∀ k, R c k s = veReg z always row k (intOp2 op) c s)
    (hr : row (decodeVi w) = r)
    (hg : ∀ n, SameLane (etBits (decodeVi w).et)
      (op (decodeVi w) (etBits (decodeVi w).et) (laneAt (etBits (decodeVi w).et) ((s.ve c).vr (decodeVi w).a) n) (laneB (s.ve c) (decodeVi w) n))
      (g n)) :
    VeRow s c w z always cmd (LaneOp s c (decodeVi w) cmd r g) :=
  veLane2_row (F := fun i => op i (etBits i.et)) R h hv hr0 he hR hr (fun _ _ => rfl) hg

theorem intOp3_row {op : VI → Nat → Nat → Nat → Nat → Flagged Nat} (hR : ∀ k, R c k s = veReg z always row k (intOp3 op) c s)
    (hr : row (decodeVi w) = r)
    (hg : ∀ n, SameLane (etBits (decodeVi w).et)
      (op (decodeVi w) (etBits (decodeVi w).et) (laneAt (etBits (decodeVi w).et) ((s.ve c).vr (decodeVi w).a) n) (laneB (s.ve c) (decodeVi w) n)
        (laneAt (etBits (decodeVi w).et) ((s.ve c).vr (decodeVi w).c) n)) (g n)) :
    VeRow s c w z always cmd (LaneOp s c (decodeVi w) cmd r g) :=
  veLane3_row (F := fun i => op i (etBits i.et)) R h hv hr0 he hR hr (fun _ _ => rfl) hg

end

/-- A predicate row of operands A and B without flags. -/
theorem vePred2_row {s : State} {c : CoreId} {w : DWord} {z : VeShape} {extra : VI → Bool} {cmd : Chk → Instr} {f : VeSt → VI → VeSt}
    {F : VI → Nat → Nat → Bool} {g : Nat → Bool} (R : CoreId → Chk → State → Ans) (h : VeRuns s c w) (hv : veOps.contains z.op = true)
    (he : ∀ k, exec (cmd k) s = R c k s) (hR : ∀ k, R c k s = veReg z extra sampled k f c s)
    (hf : ∀ x i, f x i = putPred x i (List.zipWith (F i) (aLanes x i) (bLanes x i)))
    (hg : ∀ n, F (decodeVi w) (laneAt (etBits (decodeVi w).et) ((s.ve c).vr (decodeVi w).a) n) (laneB (s.ve c) (decodeVi w) n) = g n) :
    VeRow s c w z extra cmd (PredOp s c (decodeVi w) cmd (· = 0) g) := by
  refine vePred_row z extra sampled f _ 0 (· = 0) cmd g h hv (fun k => (he k).trans (hR k)) rfl ((hf _ _).trans (VeSt.flag_zero _).symm) rfl
    (by simp) fun n hn => ?_
  rw [List.getElem_zipWith, aLanes_get, bLanes_get]
  exact hg n

/-- Settles O11: the integer result of R115, then each row by the lanes of its operands. -/
theorem veIntegerLanes : Obligations.VeIntegerLanes := by
  refine ⟨fun b v hb => ⟨intResult_wraps v, ⟨(intResult_signed v hb).1, wrapBits_lt b _⟩, (intResult_signed v hb).2, intResult_unsigned v⟩,
    fun s c w h => ?rows⟩
  case rows =>
    intro x i b u sat A B C I N J
    refine ⟨?vadd, ?vsub, ?vmul, ?vmulh, ?vmad, ?vdot4, ?vabs, ?vneg, ?vmin, ?vmax, ?vand, ?vor, ?vxor, ?vnot, ?vshl, ?vshr, ?vclz, ?vcmp⟩
    case vadd => exact intOp2_row execVadd h rfl nofun (fun _ => rfl) (fun _ => rfl) rfl fun n => .of_eq rfl
    case vsub => exact intOp2_row execVsub h rfl nofun (fun _ => rfl) (fun _ => rfl) rfl fun n => .of_eq rfl
    case vmul =>
      exact intOp2_row execVmul h rfl nofun (fun _ => rfl) (fun _ => rfl) rfl fun n => .of_eq (congrArg (intResult sat u b) (mul_comm _ _))
    case vmulh => exact intOp2_row execVmulh h rfl nofun (fun _ => rfl) (fun _ => rfl) rfl fun n => .of_eq rfl
    case vmad => exact intOp3_row execVmad h rfl nofun (fun _ => rfl) (fun _ => rfl) rfl fun n => .of_mod
    case vdot4 =>
      exact intOp3_row execVdot4 h rfl nofun (fun _ => rfl) (fun _ => rfl) rfl
        fun n => .of_eq (congrArg (fun v => (wrapBits 32 v, 0)) (dot4_sum u _ _ _))
    case vabs => exact intOp1_row execVabs h rfl nofun (fun _ => rfl) (fun _ => rfl) rfl fun n => .of_eq rfl
    case vneg => exact intOp1_row execVneg h rfl nofun (fun _ => rfl) (fun _ => rfl) rfl fun n => .of_eq rfl
    case vmin => exact intOp2_row execVmin h rfl nofun (fun _ => rfl) (fun _ => rfl) rfl fun n => .of_eq rfl
    case vmax => exact intOp2_row execVmax h rfl nofun (fun _ => rfl) (fun _ => rfl) rfl fun n => .of_eq rfl
    case vand => exact intOp2_row execVand h rfl nofun (fun _ => rfl) (fun _ => rfl) rfl fun n => .of_eq rfl
    case vor => exact intOp2_row execVor h rfl nofun (fun _ => rfl) (fun _ => rfl) rfl fun n => .of_eq rfl
    case vxor => exact intOp2_row execVxor h rfl nofun (fun _ => rfl) (fun _ => rfl) rfl fun n => .of_eq rfl
    case vnot => exact intOp1_row execVnot h rfl nofun (fun _ => rfl) (fun _ => rfl) rfl fun n => .of_eq rfl
    case vshl => exact intOp2_row execVshl h rfl nofun (fun _ => rfl) (fun _ => rfl) rfl fun n => .of_shiftLeft
    case vshr => exact intOp2_row execVshr h rfl nofun (fun _ => rfl) (fun _ => rfl) rfl fun n => .of_eq rfl
    case vclz => exact intOp1_row execVclz h rfl nofun (fun _ => rfl) (fun _ => rfl) rfl fun n => .of_eq rfl
    case vcmp => exact vePred2_row execVcmp h rfl (fun _ => rfl) (fun _ => rfl) (fun _ _ => rfl) fun n => rfl

end Sys2Proof.Machine
end

section
/-! SUPPORT. The floating-point rows, lane by lane (R114, R116, R117, R120). -/

namespace Sys2Proof.Machine

/-- The flags that the active lanes of a list add up to. -/
theorem active_or_bits {α : Type} (x : VeSt) (i : VI) {n : Nat} {ys : List α} (F : α → Byte) {Y : Nat → α} (hl : ys.length = n)
    (hy : ∀ j, (h : j < ys.length) → ys[j] = Y j) (k : Nat) :
    ((ys.zip (activeLanes x i n)).foldl (fun f p => if p.2 then f ||| F p.1 else f) (0 : Byte)).getLsbD k = true ↔
      ∃ j < n, laneActive x i j = true ∧ (F (Y j)).getLsbD k = true := by
  have hflags := active_flags x i n (ys.map fun y => (0, F y)) (fun j => (0, F (Y j))) (by simpa using hl)
    (fun j hj => by rw [List.getElem_map, hy]) k
  rw [List.zip_map_right, List.foldl_map] at hflags
  rw [← List.zip_swap, List.foldl_map]
  exact hflags

theorem absV_eq (v : FVal) : absV v = if negOf v then negV v else v := by
  cases v with
  | nan => rfl
  | inf neg => cases neg <;> rfl
  | fin neg m e => cases neg <;> rfl

/-- A lane of a float operation of A, B and C. -/
def float3 (g : FVal → FVal → FVal → FVal) (i : VI) (a b d : Nat) : Flagged Nat :=
  floatRes (etFmt i.et) [decodeF (etFmt i.et) a, decodeF (etFmt i.et) b, decodeF (etFmt i.et) d]
    (g (decodeF (etFmt i.et) a) (decodeF (etFmt i.et) b) (decodeF (etFmt i.et) d))

section
variable {s : State} {c : CoreId} {w : DWord} {z : VeShape} {cmd : Chk → Instr} (R : CoreId → Chk → State → Ans) (h : VeRuns s c w)
  (hv : veOps.contains z.op = true) (he : ∀ k, exec (cmd k) s = R c k s)
include h hv he

theorem floatOp1_row {op : FVal → FVal} (hR : ∀ k, R c k s = veReg z always sampled k (floatOp1 op) c s) :
    VeRow s c w z always cmd (LaneOp s c (decodeVi w) cmd 5 fun n =>
      let a := decodeF (etFmt (decodeVi w).et) (laneAt (etBits (decodeVi w).et) ((s.ve c).vr (decodeVi w).a) n)
      floatRes (etFmt (decodeVi w).et) [a] (op a)) :=
  veLane1_row R h hv nofun he hR rfl (fun _ _ => rfl) fun _ => .of_eq rfl

theorem floatOp2_row {op : FVal → FVal → FVal} (hR : ∀ k, R c k s = veReg z always sampled k (floatOp2 op) c s) :
    VeRow s c w z always cmd (LaneOp s c (decodeVi w) cmd 5 fun n =>
      let a := decodeF (etFmt (decodeVi w).et) (laneAt (etBits (decodeVi w).et) ((s.ve c).vr (decodeVi w).a) n)
      let b := decodeF (etFmt (decodeVi w).et) (laneB (s.ve c) (decodeVi w) n)
      floatRes (etFmt (decodeVi w).et) [a, b] (op a b)) :=
  veLane2_row R h hv nofun he hR rfl (fun _ _ => rfl) fun _ => .of_eq rfl

theorem floatOp3_row {op : FVal → FVal → FVal → FVal} (hR : ∀ k, R c k s = veReg z always sampled k (floatOp3 op) c s) :
    VeRow s c w z always cmd (LaneOp s c (decodeVi w) cmd 5 fun n =>
      float3 op (decodeVi w) (laneAt (etBits (decodeVi w).et) ((s.ve c).vr (decodeVi w).a) n) (laneB (s.ve c) (decodeVi w) n)
        (laneAt (etBits (decodeVi w).et) ((s.ve c).vr (decodeVi w).c) n)) :=
  veLane3_row (F := float3 op) R h hv nofun he hR rfl (fun _ _ => rfl) fun _ => .of_eq rfl

theorem transOp_row {op : Nat} (hR : ∀ k, R c k s = veReg z always sampled k (transOp op) c s) :
    VeRow s c w z always cmd (LaneOp s c (decodeVi w) cmd 5 fun n =>
      transLane op (etFmt (decodeVi w).et) (laneAt (etBits (decodeVi w).et) ((s.ve c).vr (decodeVi w).a) n)) :=
  veLane1_row R h hv nofun he hR rfl (fun _ _ => rfl) fun _ => .of_eq rfl

end

/-- The pairs of values that FCMP compares. -/
def fcmpPairs (x : VeSt) (i : VI) : List (FVal × FVal) :=
  ((aLanes x i).map (decodeF (etFmt i.et))).zip ((bLanes x i).map (decodeF (etFmt i.et)))

theorem fcmpPairs_length (x : VeSt) (i : VI) : (fcmpPairs x i).length = etLanes i.et := by simp [fcmpPairs]

theorem fcmpPairs_get (x : VeSt) (i : VI) (n : Nat) (h : n < (fcmpPairs x i).length) :
    (fcmpPairs x i)[n] = (decodeF (etFmt i.et) (laneAt (etBits i.et) (x.vr i.a) n), decodeF (etFmt i.et) (laneB x i n)) := by
  simp [fcmpPairs, aLanes_get, bLanes_get]

/-- What FCMP writes: the comparisons, and NAN where an active lane reads a NaN or an infinity. -/
def fcmpOp (x : VeSt) (i : VI) : VeSt :=
  (putPred x i ((fcmpPairs x i).map fun p => cond i.mod (cmpV p.1 p.2))).flag
    (((fcmpPairs x i).zip (activeLanes x i (etLanes i.et))).foldl (fun f p => if p.2 then f ||| readFlags [p.1.1, p.1.2] else f) 0)

theorem fcmp_runs (s : State) (c : CoreId) (k : Chk) :
    exec (.fcmp c k) s = veReg { floatShape2 0x49 with d := .p, mod := 7 } (condOk false) sampled k fcmpOp c s := rfl

/-- Settles O12: each row by its operands' lanes; FCMP by the pairs that it compares. -/
theorem veFloatLanes : Obligations.VeFloatLanes := by
  intro s c w h x i b f A B C T
  refine ⟨?fadd, ?fsub, ?fmul, ?ffma, ?ffms, ?fmin, ?fmax, ?fabs, ?fneg, ?fcmp, ?fdiv, ?fsqrt, ?frcp, ?frsq, ?fexp2, ?flog2, ?fsin, ?fcos,
    ?ftanh, ?fsigm, ?ffloor, ?fround, ?fclamp⟩
  case fadd => exact floatOp2_row execFadd h rfl (fun _ => rfl) fun _ => rfl
  case fsub => exact floatOp2_row execFsub h rfl (fun _ => rfl) fun _ => rfl
  case fmul => exact floatOp2_row execFmul h rfl (fun _ => rfl) fun _ => rfl
  case ffma => exact floatOp3_row execFfma h rfl (fun _ => rfl) fun _ => rfl
  case ffms => exact floatOp3_row execFfms h rfl (fun _ => rfl) fun _ => rfl
  case fmin => exact floatOp2_row execFmin h rfl (fun _ => rfl) fun _ => rfl
  case fmax => exact floatOp2_row execFmax h rfl (fun _ => rfl) fun _ => rfl
  case fabs =>
    exact veLane1_row execFabs h rfl nofun (fun _ => rfl) (fun _ => rfl) rfl (fun _ _ => rfl) fun n => .of_eq (congrArg (floatRes f [A n]) (absV_eq _))
  case fneg => exact floatOp1_row execFneg h rfl (fun _ => rfl) fun _ => rfl
  case fcmp =>
    refine vePred_row _ (condOk false) sampled fcmpOp _ _ _ _ _ h rfl (fcmp_runs s c) rfl rfl ?flags
      (by rw [List.length_map, fcmpPairs_length]) fun n hn => ?lane
    case flags =>
      exact active_or_bits x i (fun p : FVal × FVal => readFlags [p.1, p.2]) (Y := fun n => (A n, B n)) (fcmpPairs_length x i) (fcmpPairs_get x i)
    case lane => rw [List.getElem_map, fcmpPairs_get]
  case fdiv => exact floatOp2_row execFdiv h rfl (fun _ => rfl) fun _ => rfl
  case fsqrt => exact floatOp1_row execFsqrt h rfl (fun _ => rfl) fun _ => rfl
  case frcp => exact transOp_row execFrcp h rfl (fun _ => rfl) fun _ => rfl
  case frsq => exact transOp_row execFrsq h rfl (fun _ => rfl) fun _ => rfl
  case fexp2 => exact transOp_row execFexp2 h rfl (fun _ => rfl) fun _ => rfl
  case flog2 => exact transOp_row execFlog2 h rfl (fun _ => rfl) fun _ => rfl
  case fsin => exact transOp_row execFsin h rfl (fun _ => rfl) fun _ => rfl
  case fcos => exact transOp_row execFcos h rfl (fun _ => rfl) fun _ => rfl
  case ftanh => exact transOp_row execFtanh h rfl (fun _ => rfl) fun _ => rfl
  case fsigm => exact transOp_row execFsigm h rfl (fun _ => rfl) fun _ => rfl
  case ffloor => exact floatOp1_row execFfloor h rfl (fun _ => rfl) fun _ => rfl
  case fround => exact floatOp1_row execFround h rfl (fun _ => rfl) fun _ => rfl
  case fclamp => exact floatOp3_row execFclamp h rfl (fun _ => rfl) fun _ => rfl

end Sys2Proof.Machine
end

section
/-! SUPPORT. Rows that write registers other than V[D] lane by lane, and the lanes that moves and permutes read (R111 to R113). -/

namespace Sys2Proof.Machine

/-- A row that leaves the vector engine in state y. -/
theorem veWrites_row {s : State} {c : CoreId} {w : DWord} {z : VeShape} {extra : VI → Bool} {row : VI → Nat} {r : Nat} {cmd : Chk → Instr}
    {f : VeSt → VI → VeSt} {y : VeSt} (R : CoreId → Chk → State → Ans) (h : VeRuns s c w) (hv : veOps.contains z.op = true) (hr0 : r ≠ 0)
    (he : ∀ k, exec (cmd k) s = R c k s) (hR : ∀ k, R c k s = veReg z extra row k f c s) (hr : row (decodeVi w) = r)
    (hf : z.ok (decodeVi w) = true → f (s.ve c) (decodeVi w) = y) : VeRow s c w z extra cmd (VeOutcome s c cmd r y) :=
  veReg_row z extra row f cmd _ h hv (fun k => (he k).trans (hR k)) (hr ▸ hr0) fun hz _ ho => hr ▸ hf hz ▸ ho

theorem VeShape.et_of_ok {z : VeShape} {i : VI} (h : z.ok i = true) : i.et ∈ z.et := by
  simp only [VeShape.ok, Bool.and_eq_true, List.contains_iff_mem] at h
  exact h.1.1.1.1.1.1

theorem VeShape.imm_of_ok {z : VeShape} {i : VI} (h : z.ok i = true) : immOk z.imm i = true := by
  simp only [VeShape.ok, Bool.and_eq_true] at h
  exact h.1.2

/-- A row whose immediate names a lane names one that the type has. -/
theorem VeShape.lane_of_ok {z : VeShape} {i : VI} (hz : z.imm = .lane) (h : z.ok i = true) : i.imm.toNat < etLanes i.et := by
  have himm := z.imm_of_ok h
  simp only [hz, immOk, Bool.and_eq_true, decide_eq_true_eq] at himm
  omega

theorem mem_etAny {et : Nat} : et ∈ etAny ↔ et ≤ 5 := by
  simp only [etAny, List.mem_cons, List.not_mem_nil, or_false]
  omega

/-- A B operand is a lane of the type's width. -/
theorem laneB_lt {x : VeSt} {i : VI} (h : i.et ≤ 5) (n : Nat) : laneB x i n < 2 ^ etBits i.et := by
  simp only [laneB]
  split
  · exact laneAt_lt _ _ _
  · split
    · exact Nat.mod_lt _ (Nat.two_pow_pos _)
    · split
      · exact wrapBits_lt _ _
      · split
        case isTrue h5 =>
          have himm := wrapBits_lt 24 i.imm
          rw [h5]
          change wrapBits 24 i.imm * 256 < 2 ^ 32
          omega
        case isFalse h2 h5 =>
          obtain h3 | h4 : i.et = 3 ∨ i.et = 4 := by omega
          · rw [h3]
            exact Nat.mod_lt _ (by decide)
          · rw [h4]
            exact Nat.mod_lt _ (by decide)

theorem etLanes_pos (et : Nat) : 0 < etLanes et := by
  rw [etLanes]
  rcases etBits_cases et with h | h | h <;> rw [h] <;> decide

theorem aLanes_getD {x : VeSt} {i : VI} {n : Nat} (h : n < etLanes i.et) : (aLanes x i).getD n 0 = laneAt (etBits i.et) (x.vr i.a) n := by
  rw [← aLanes_length x i] at h
  rw [List.getD_eq_getElem _ _ h, aLanes_get]

/-- A lane of a register packed from lanes that fit their width. -/
theorem laneAt_ofLanes_fit {b n : Nat} {xs : List Nat} {Y : Nat → Nat} (hl : xs.length = 2048 / b) (hx : ∀ j, (h : j < xs.length) → xs[j] = Y j)
    (hn : n < 2048 / b) (hY : Y n < 2 ^ b) : laneAt b (ofLanes b xs) n = Y n := by
  rw [laneAt_ofLanes b xs n (hl ▸ hn) (hl ▸ Nat.mul_div_le _ _), hx, Nat.mod_eq_of_lt hY]

/-- What VSEL writes: A in the active lanes, B in the others. -/
def vselOp (x : VeSt) (i : VI) : BitVec 2048 :=
  ofLanes (etBits i.et) (((aLanes x i).zip (bLanes x i)).zip (activeLanes x i (etLanes i.et)) |>.map (fun p => if p.2 then p.1.1 else p.1.2))

theorem activeLanes_get {x : VeSt} {i : VI} {n j : Nat} (h : j < (activeLanes x i n).length) : (activeLanes x i n)[j] = laneActive x i j :=
  (List.getElem?_eq_some_iff.mp (laneActive_eq x i n j (by simpa [activeLanes_length] using h))).2

theorem vselOp_lane {x : VeSt} {i : VI} {n : Nat} (het : i.et ≤ 5) (hn : n < etLanes i.et) : laneAt (etBits i.et) (vselOp x i) n =
    if laneActive x i n then laneAt (etBits i.et) (x.vr i.a) n else laneB x i n := by
  refine laneAt_ofLanes_fit (Y := fun n => if laneActive x i n then laneAt (etBits i.et) (x.vr i.a) n else laneB x i n)
    (by simp [activeLanes_length, etLanes_eq]) (fun j hj => ?_) hn ?_
  · simp only [List.getElem_map, List.getElem_zip, activeLanes_get, aLanes_get, bLanes_get]
  · split
    · exact laneAt_lt _ _ _
    · exact laneB_lt het n

/-- What VINS writes: S[A] in lane IMM, when it is active. -/
def vinsOp (x : VeSt) (i : VI) : BitVec 2048 :=
  ofLanes (etBits i.et) (((lanesOf (etBits i.et) (x.vr i.d)).zipIdx).map (fun p =>
    if p.2 = i.imm.toNat then
      (if (activeLanes x i (etLanes i.et)).getD i.imm.toNat false then (x.s i.a).toNat % 2 ^ etBits i.et else if i.zm then 0 else p.1)
    else p.1))

/-- Lane n after VINS. -/
def vinsLane (x : VeSt) (i : VI) (n : Nat) : Nat :=
  if n = i.imm.toNat then
    (if laneActive x i n then (x.s i.a).toNat % 2 ^ etBits i.et else if i.zm then 0 else laneAt (etBits i.et) (x.vr i.d) n)
  else laneAt (etBits i.et) (x.vr i.d) n

theorem vinsLane_lt (x : VeSt) (i : VI) (n : Nat) : vinsLane x i n < 2 ^ etBits i.et := by
  have hpos := Nat.two_pow_pos (etBits i.et)
  have hold := laneAt_lt (etBits i.et) (x.vr i.d) n
  unfold vinsLane
  split
  · split
    · exact Nat.mod_lt _ hpos
    · split <;> assumption
  · exact hold

theorem vinsOp_lane {x : VeSt} {i : VI} {n : Nat} (himm : i.imm.toNat < etLanes i.et) (hn : n < etLanes i.et) :
    laneAt (etBits i.et) (vinsOp x i) n = vinsLane x i n := by
  have hact : (activeLanes x i (etLanes i.et)).getD i.imm.toNat false = laneActive x i i.imm.toNat := by
    rw [List.getD_eq_getElem?_getD, laneActive_eq x i _ _ himm]
    rfl
  refine laneAt_ofLanes_fit (by simp) (fun j hj => ?_) hn (vinsLane_lt x i n)
  simp only [List.getElem_map, List.getElem_zipIdx, Nat.zero_add, lanesOf_get, hact, vinsLane]
  split
  case isTrue hj => rw [hj]
  case isFalse => rfl

/-- Settles O14: each row by the lanes that it reads. -/
theorem veMoves : Obligations.VeMoves := by
  intro s c w h x i b L A B
  refine ⟨?vsel, ?vmov, ?vperm, ?vrot, ?vext, ?vins, ?vidx⟩
  case vsel =>
    refine veReg_row _ _ sampled (fun x i => x.setV i.d (vselOp x i)) (.vsel c) _ h rfl (fun _ => rfl) (Nat.succ_ne_zero 4) fun hz _ ho => ?_
    exact ⟨_, fun n => vselOp_lane (mem_etAny.mp (VeShape.et_of_ok hz)), ho⟩
  case vmov => exact veLaneB_row execVmov h rfl nofun (fun _ => rfl) (fun _ => rfl) rfl (fun _ _ => rfl) fun n => .of_eq rfl
  case vperm =>
    exact veLaneB_row execVperm h rfl nofun (fun _ => rfl) (fun _ => rfl) rfl (fun _ _ => rfl)
      fun n => .of_eq (congrArg (·, 0) (aLanes_getD (Nat.mod_lt _ (etLanes_pos _))))
  case vrot =>
    refine veLanes_row execVrot h rfl nofun (fun _ => rfl) (fun _ => rfl) rfl rfl (by simp) fun j hj => .of_eq ?_
    simp only [List.getElem_map, List.getElem_zipIdx, bLanes_get, Nat.zero_add]
    exact congrArg (·, 0) (aLanes_getD (Nat.mod_lt _ (etLanes_pos _)))
  case vext =>
    refine veWrites_row execVext h rfl nofun (fun _ => rfl) (fun _ => rfl) rfl fun hz => congrArg (x.setS i.d) ?_
    rw [ofNat_wrapBits, aLanes_getD (VeShape.lane_of_ok rfl hz)]
  case vins =>
    refine veReg_row _ _ sampled (fun x i => x.setV i.d (vinsOp x i)) (.vins c) _ h rfl (fun _ => rfl) (Nat.succ_ne_zero 4) fun hz _ ho => ?_
    exact ⟨_, fun n => vinsOp_lane (VeShape.lane_of_ok rfl hz), ho⟩
  case vidx =>
    refine veLanes_row execVidx h rfl nofun (fun _ => rfl) (fun _ => rfl) rfl rfl (by simp) fun j hj => ?_
    rw [List.getElem_map, List.getElem_range]
    exact .of_mod

end Sys2Proof.Machine
end

section
/-! SUPPORT. Reductions along the fixed tree (R118), and predicate operations (R113). -/

namespace Sys2Proof.Machine

/-- The tree over a list of 2^m values, each the node of level j at its place, gives the node of level j + m. -/
theorem treeReduce_eq {α : Type} (comb : α → α → α) (leaf : Nat → α) (m : Nat) :
    ∀ (j fuel : Nat) (xs : List α), m ≤ fuel → xs.length = 2 ^ m →
    (∀ n, (h : n < xs.length) → xs[n] = treeLane comb leaf (2 ^ (j + m)) j n) →
    treeReduce comb fuel xs = [treeLane comb leaf (2 ^ (j + m)) (j + m) 0] := by
  induction m with
  | zero =>
    intro j fuel xs _ hl hx
    obtain ⟨x, rfl⟩ := List.length_eq_one_iff.mp hl
    have hroot := hx 0 Nat.one_pos
    cases fuel <;> simpa [treeReduce] using hroot
  | succ m ih =>
    intro j fuel xs hfuel hl hx
    obtain ⟨fuel, rfl⟩ := Nat.exists_eq_succ_of_ne_zero (show fuel ≠ 0 by omega)
    have hpos := Nat.two_pow_pos m
    have hhalf : xs.length / 2 = 2 ^ m := by rw [hl, Nat.pow_succ, Nat.mul_div_cancel _ Nat.two_pos]
    have hwide : ¬ xs.length ≤ 1 := by omega
    have hstep : 2 ^ (j + (m + 1)) / 2 ^ (j + 1) = 2 ^ m := by
      rw [show j + (m + 1) = m + (j + 1) by omega, Nat.pow_add, Nat.mul_div_cancel _ (Nat.two_pow_pos _)]
    rw [treeReduce, if_neg hwide, hhalf, ih (j + 1) fuel _ (by omega) (by simp; omega), show j + 1 + m = j + (m + 1) by omega]
    intro n hn
    rw [List.getElem_zipWith, List.getElem_take, List.getElem_drop, hx, hx, Nat.add_comm (2 ^ m) n,
      show j + 1 + m = j + (m + 1) by omega, treeLane, hstep]

/-- The tree of a type's lanes. -/
theorem etLanes_levels {et : Nat} (h : et ≤ 5) : etLanes et = 2 ^ treeLevels et ∧ treeLevels et ≤ 8 := by
  interval_cases et <;> decide

/-- A combination of flagged lanes: the flags of both and of the step. -/
def combineFlagged (comb : Nat → Nat → Flagged Nat) (a b : Flagged Nat) : Flagged Nat :=
  ((comb a.1 b.1).1, a.2 ||| b.2 ||| (comb a.1 b.1).2)

/-- A leaf of the tree: a lane of A, or the identity where the lane is inactive. -/
def reduceLeaf (x : VeSt) (i : VI) (idt n : Nat) : Flagged Nat := (if laneActive x i n then laneAt (etBits i.et) (x.vr i.a) n else idt, 0)

/-- The flags of the lanes that a float reduction reads. -/
def reduceFlags (x : VeSt) (i : VI) : Byte :=
  if i.et ≤ 2 then 0
  else ((aLanes x i).zip (activeLanes x i (etLanes i.et))).foldl (fun f p => if p.2 then f ||| readFlags [decodeF (etFmt i.et) p.1] else f) 0

theorem reduceFlags_bits (x : VeSt) (i : VI) (k : Nat) : (reduceFlags x i).getLsbD k = true ↔
    2 < i.et ∧ ∃ n < etLanes i.et, laneActive x i n = true ∧
      (readFlags [decodeF (etFmt i.et) (laneAt (etBits i.et) (x.vr i.a) n)]).getLsbD k = true := by
  unfold reduceFlags
  split
  case isTrue hint => simp [Nat.not_lt.mpr hint]
  case isFalse hfloat =>
    rw [active_or_bits x i (fun a => readFlags [decodeF (etFmt i.et) a]) (aLanes_length x i) (aLanes_get x i)]
    exact (and_iff_right (Nat.not_le.mp hfloat)).symm

/-- The root of the tree that a reduction computes. -/
def reduceRoot (x : VeSt) (i : VI) (idt : Nat) (comb : Nat → Nat → Flagged Nat) : Flagged Nat :=
  treeLane (combineFlagged comb) (reduceLeaf x i idt) (etLanes i.et) (treeLevels i.et) 0

theorem reduce_eq {x : VeSt} {i : VI} (het : i.et ≤ 5) (idt : VI → Nat) (g : VI → Nat → Nat → Flagged Nat) :
    reduce idt g x i = (x.setS i.d (BitVec.ofNat 64 (reduceRoot x i (idt i) (g i)).1)).flag ((reduceRoot x i (idt i) (g i)).2 ||| reduceFlags x i) := by
  obtain ⟨hlanes, hlevels⟩ := etLanes_levels het
  have htree := treeReduce_eq (combineFlagged (g i)) (reduceLeaf x i (idt i)) (treeLevels i.et) 0 8
    (((aLanes x i).zip (activeLanes x i (etLanes i.et))).map (fun p => (if p.2 then p.1 else idt i, 0))) hlevels
    (by simp [activeLanes_length, hlanes]) (fun n hn => by simp only [List.getElem_map, List.getElem_zip, aLanes_get, activeLanes_get, treeLane, reduceLeaf])
  rw [Nat.zero_add, ← hlanes] at htree
  change (x.setS i.d (BitVec.ofNat 64 (((treeReduce (combineFlagged (g i)) 8 _).head?).getD (0, 0)).1)).flag
    ((((treeReduce (combineFlagged (g i)) 8 _).head?).getD (0, 0)).2 ||| reduceFlags x i) = _
  rw [htree]
  rfl

/-- A reduction row. -/
theorem reduces_row {s : State} {c : CoreId} {w : DWord} {z : VeShape} {row : VI → Nat} {r : Nat} {cmd : Chk → Instr} {idt : VI → Nat}
    {g : VI → Nat → Nat → Flagged Nat} {e : Nat} {comb : Nat → Nat → Flagged Nat} (R : CoreId → Chk → State → Ans) (h : VeRuns s c w)
    (hv : veOps.contains z.op = true) (hz : z.et = etAny) (hr0 : r ≠ 0) (he : ∀ k, exec (cmd k) s = R c k s)
    (hR : ∀ k, R c k s = veReg z always row k (reduce idt g) c s) (hr : row (decodeVi w) = r)
    (hi : idt (decodeVi w) = e) (hg : ∀ a b, g (decodeVi w) a b = comb a b) : VeRow s c w z always cmd (Reduces s c (decodeVi w) cmd r e comb) := by
  subst hi
  obtain rfl : g (decodeVi w) = comb := funext fun a => funext (hg a)
  refine veReg_row z always row (reduce idt g) cmd _ h hv (fun k => (he k).trans (hR k)) (hr ▸ hr0) fun hok _ ho => ?_
  rw [hr, reduce_eq (mem_etAny.mp (hz ▸ VeShape.et_of_ok hok))] at ho
  exact ⟨_, reduceFlags_bits _ _, ho⟩

theorem laneLess_iff {i : VI} (h : i.et ≤ 2) {a b : Nat} : laneLess i a b = true ↔ signed (etBits i.et) a < signed (etBits i.et) b := by
  simp [laneLess, h]

/-! ### Predicates -/

theorem predLanes_get {x : VeSt} {i : VI} {p n : Nat} (h : n < (predLanes x i p).length) : (predLanes x i p)[n] = predAt x i p n := by
  simp [predLanes, predLane, predAt]

@[simp] theorem predLanes_length (x : VeSt) (i : VI) (p : Nat) : (predLanes x i p).length = etLanes i.et := by simp [predLanes]

/-- A row that writes P[D] whole, by the list of its lanes. -/
theorem predLanes_row {s : State} {c : CoreId} {w : DWord} {z : VeShape} {cmd : Chk → Instr} {f : VeSt → VI → VeSt} {rs : List Bool} {g : Nat → Bool}
    (R : CoreId → Chk → State → Ans) (h : VeRuns s c w) (hv : veOps.contains z.op = true) (he : ∀ k, exec (cmd k) s = R c k s)
    (hR : ∀ k, R c k s = veReg z always sampled k f c s)
    (hf : f (s.ve c) (decodeVi w) = (s.ve c).setP (decodeVi w).d (predOf (etBits (decodeVi w).et) rs))
    (hl : rs.length = etLanes (decodeVi w).et) (hg : ∀ n, (hn : n < rs.length) → rs[n] = g n) :
    VeRow s c w z always cmd (PredAll s c (decodeVi w) cmd g) :=
  vePredAll_row z always sampled f rs cmd g h hv (fun k => (he k).trans (hR k)) rfl hf hl hg

/-- PFIRSTN limits its count to the lanes there are, which sets the same lanes. -/
theorem lt_clampTo_iff {n L : Nat} (h : n < L) (v : Int) : (n : Int) < (clampTo 0 L v).1 ↔ (n : Int) < v := by
  rw [clampTo_value (by omega)]
  omega

theorem predLanes_count (x : VeSt) (i : VI) (p : Nat) :
    ((predLanes x i p).filter id).length = (List.range (etLanes i.et)).countP (predAt x i p) := by
  rw [predLanes, List.filter_map, List.length_map, List.countP_eq_length_filter]
  rfl

/-- Settles O15: the tree for each reduction, the lanes of each predicate operation. -/
theorem veReductions : Obligations.VeReductions := by
  intro s c w h x i b f L
  refine ⟨?vredadd, ?vredmax, ?vredmin, ?pand, ?por, ?pnot, ?pfirstn, ?pcnt⟩
  case vredadd => exact reduces_row execVredadd h rfl rfl (by split <;> decide) (fun _ => rfl) (fun _ => rfl) rfl rfl fun _ _ => rfl
  case vredmax =>
    refine reduces_row execVredmax h rfl rfl nofun (fun _ => rfl) (fun _ => rfl) rfl rfl fun v y => ?_
    split
    case isTrue hint => exact congrArg (·, 0) (if_congr (laneLess_iff hint) rfl rfl)
    case isFalse => rfl
  case vredmin =>
    refine reduces_row execVredmin h rfl rfl nofun (fun _ => rfl) (fun _ => rfl) rfl rfl fun v y => ?_
    split
    case isTrue hint => exact congrArg (·, 0) (if_congr (laneLess_iff hint) rfl rfl)
    case isFalse => rfl
  case pand =>
    refine predLanes_row execPand h rfl (fun _ => rfl) (fun _ => rfl) rfl (by simp) fun n hn => ?_
    rw [List.getElem_zipWith, predLanes_get, predLanes_get]
  case por =>
    refine predLanes_row execPor h rfl (fun _ => rfl) (fun _ => rfl) rfl (by simp) fun n hn => ?_
    rw [List.getElem_zipWith, predLanes_get, predLanes_get]
  case pnot =>
    refine predLanes_row execPnot h rfl (fun _ => rfl) (fun _ => rfl) rfl (by simp) fun n hn => ?_
    rw [List.getElem_map, predLanes_get]
  case pfirstn =>
    refine predLanes_row execPfirstn h rfl (fun _ => rfl) (fun _ => rfl) rfl (by simp) fun n hn => ?_
    rw [List.getElem_map, List.getElem_range, decide_eq_decide, lt_clampTo_iff (by simpa using hn), signed_eq_toInt 64 (by decide)]
  case pcnt =>
    exact veWrites_row execPcnt h rfl nofun (fun _ => rfl) (fun _ => rfl) rfl fun _ =>
      congrArg (fun n => x.setS i.d (BitVec.ofNat 64 n)) (predLanes_count x i i.a)

end Sys2Proof.Machine
end

section
/-! SUPPORT. The scalar rows (R112 to R114). -/

namespace Sys2Proof.Machine

theorem bScalar_eq (x : VeSt) (i : VI) : bScalar x i = (scalarB x i).toNat := by
  unfold bScalar scalarB
  split
  · exact wrapBits_eq_toNat 64 i.imm
  · rfl

/-- A scalar row of two operands, each a word. -/
theorem scalarOp_row {s : State} {c : CoreId} {w : DWord} {z : VeShape} {extra : VI → Bool} {row : VI → Nat} {r : Nat} {cmd : Chk → Instr}
    {op : VI → Nat → Nat → Nat} {v : DWord} (R : CoreId → Chk → State → Ans) (h : VeRuns s c w) (hv : veOps.contains z.op = true) (hr0 : r ≠ 0)
    (he : ∀ k, exec (cmd k) s = R c k s) (hR : ∀ k, R c k s = veReg z extra row k (scalarOp op) c s) (hr : row (decodeVi w) = r)
    (hop : BitVec.ofNat 64 (op (decodeVi w) ((s.ve c).s (decodeVi w).a).toNat (scalarB (s.ve c) (decodeVi w)).toNat) = v) :
    VeRow s c w z extra cmd (VeOutcome s c cmd r ((s.ve c).setS (decodeVi w).d v)) :=
  veWrites_row R h hv hr0 he hR hr fun _ => by rw [scalarOp, bScalar_eq, hop]

/-! ### The operations of Table 4-4 on words -/

section
variable (a b : DWord)

theorem ofNat_add_toNat : BitVec.ofNat 64 (a.toNat + b.toNat) = a + b := by
  rw [BitVec.ofNat_add, BitVec.ofNat_toNat, BitVec.ofNat_toNat, BitVec.setWidth_eq, BitVec.setWidth_eq]

theorem ofNat_sub_toNat : BitVec.ofNat 64 (a.toNat + (2 ^ 64 - b.toNat)) = a - b := by
  rw [Nat.add_comm]
  rfl

theorem ofNat_mul_toNat : BitVec.ofNat 64 (a.toNat * b.toNat) = a * b := by
  rw [BitVec.ofNat_mul, BitVec.ofNat_toNat, BitVec.ofNat_toNat, BitVec.setWidth_eq, BitVec.setWidth_eq]

theorem ofNat_and_toNat : BitVec.ofNat 64 (a.toNat &&& b.toNat) = a &&& b := by
  rw [← BitVec.toNat_and, BitVec.ofNat_toNat, BitVec.setWidth_eq]

theorem ofNat_or_toNat : BitVec.ofNat 64 (a.toNat ||| b.toNat) = a ||| b := by
  rw [← BitVec.toNat_or, BitVec.ofNat_toNat, BitVec.setWidth_eq]

theorem ofNat_xor_toNat : BitVec.ofNat 64 (a.toNat ^^^ b.toNat) = a ^^^ b := by
  rw [← BitVec.toNat_xor, BitVec.ofNat_toNat, BitVec.setWidth_eq]

theorem ofNat_shiftLeft_toNat (n : Nat) : BitVec.ofNat 64 (a.toNat <<< n) = a <<< n := rfl

theorem ofNat_ushiftRight_toNat (n : Nat) : BitVec.ofNat 64 (a.toNat >>> n) = a >>> n := by
  rw [← BitVec.toNat_ushiftRight, BitVec.ofNat_toNat, BitVec.setWidth_eq]

theorem ofNat_sshiftRight_toNat (n : Nat) : BitVec.ofNat 64 (wrapBits 64 (signed 64 a.toNat / (2 ^ n : Nat))) = a.sshiftRight n := by
  rw [ofNat_wrapBits, signed_eq_toInt 64 (by decide), BitVec.sshiftRight, Int.shiftRight_eq_div_pow]

/-- Words order as their lanes do. -/
theorem laneInt_lt_iff (u : Bool) : laneInt u 64 a.toNat < laneInt u 64 b.toNat ↔ (if u then decide (a < b) else a.slt b) = true := by
  cases u with
  | false => simp [laneInt, signed_eq_toInt, BitVec.slt]
  | true => simp [laneInt, BitVec.lt_def]

theorem compare_laneInt (n : Nat) : compare (laneInt (n == 1) 64 a.toNat) (laneInt (n == 1) 64 b.toNat) =
    if n = 1 then compare a.toNat b.toNat else compare a.toInt b.toInt := by
  split
  case isTrue h => simp [h, laneInt, compare, compareOfLessAndEq]
  case isFalse h => simp [h, laneInt, signed_eq_toInt]

theorem ofNat_bit (p : Bool) : BitVec.ofNat 64 (if p = true then 1 else 0) = if p = true then 1 else 0 := by
  cases p <;> rfl

theorem ofNat_pick (p : Prop) [Decidable p] : BitVec.ofNat 64 (if p then a.toNat else b.toNat) = if p then a else b := by
  split <;> simp

end

/-- Settles O16: each row by its operation on words. -/
theorem veScalars : Obligations.VeScalars := by
  intro s c w h x i a b u O
  refine ⟨?sadd, ?ssub, ?smul, ?sand, ?sor, ?sxor, ?sshl, ?sshr, ?smin, ?smax, ?scmp, ?smovi, ?zero⟩
  case sadd => exact scalarOp_row execSadd h rfl nofun (fun _ => rfl) (fun _ => rfl) rfl (ofNat_add_toNat a b)
  case ssub => exact scalarOp_row execSsub h rfl nofun (fun _ => rfl) (fun _ => rfl) rfl (ofNat_sub_toNat a b)
  case smul => exact scalarOp_row execSmul h rfl nofun (fun _ => rfl) (fun _ => rfl) rfl (ofNat_mul_toNat a b)
  case sand => exact scalarOp_row execSand h rfl nofun (fun _ => rfl) (fun _ => rfl) rfl (ofNat_and_toNat a b)
  case sor => exact scalarOp_row execSor h rfl nofun (fun _ => rfl) (fun _ => rfl) rfl (ofNat_or_toNat a b)
  case sxor => exact scalarOp_row execSxor h rfl nofun (fun _ => rfl) (fun _ => rfl) rfl (ofNat_xor_toNat a b)
  case sshl => exact scalarOp_row execSshl h rfl nofun (fun _ => rfl) (fun _ => rfl) rfl (ofNat_shiftLeft_toNat a _)
  case sshr =>
    refine scalarOp_row execSshr h rfl nofun (fun _ => rfl) (fun _ => rfl) rfl ?_
    change BitVec.ofNat 64 (if u = true then _ else _) = _
    split
    · exact ofNat_ushiftRight_toNat a _
    · exact ofNat_sshiftRight_toNat a _
  case smin =>
    refine scalarOp_row execSmin h rfl nofun (fun _ => rfl) (fun _ => rfl) rfl ?_
    exact (ofNat_pick b a _).trans (if_congr (laneInt_lt_iff b a u) rfl rfl)
  case smax =>
    refine scalarOp_row execSmax h rfl nofun (fun _ => rfl) (fun _ => rfl) rfl ?_
    exact (ofNat_pick b a _).trans (if_congr (laneInt_lt_iff a b u) rfl rfl)
  case scmp =>
    refine scalarOp_row execScmp h rfl nofun (fun _ => rfl) (fun _ => rfl) rfl ?_
    rw [compare_laneInt]
    exact ofNat_bit _
  case smovi => exact veWrites_row execSmovi h rfl nofun (fun _ => rfl) (fun _ => rfl) rfl fun _ => congrArg (x.setS i.d) (ofNat_wrapBits 64 i.imm)
  case zero => exact fun y => ⟨rfl, fun v => rfl⟩

end Sys2Proof.Machine
end

section
/-! SUPPORT. Rows that steer the kernel: branches, LOOP, TRAP and the end of a grid point (R110, R113, R127 to R131). -/

namespace Sys2Proof.Machine

variable {s : State} {c : CoreId} {w : DWord}

/-- A row: ILLEGAL, or what its check makes of its result; `shown` is what the checkers of such a row can show. -/
theorem veStep_row {z : VeShape} {extra : VI → Bool} {row : VI → Nat} {shown : Chk → Chk} {f : State → VeSt → VI → VeRes} {cmd : Chk → Instr}
    {P : Prop} (h : VeRuns s c w) (hv : veOps.contains z.op = true) (he : ∀ k, exec (cmd k) s = veStep z extra row (shown k) f c s)
    (hP : z.ok (decodeVi w) = true → extra (decodeVi w) = true →
      (∀ k, exec (cmd k) s = .next (veChecked s c (decodeVi w) (s.ve c) (row (decodeVi w)) (shown k) (f s (s.ve c) (decodeVi w)))) → P) :
    VeRow s c w z extra cmd P :=
  fun ho => ⟨fun hn => hP hn.1 hn.2 fun k => (he k).trans (veStep_legal z extra row _ f h hv ho hn),
    fun hn k => (he k).trans (veStep_illegal z extra row _ f h hv ho hn)⟩

/-- A result that its instruction's check applies to: no exception, bad granule or sample. -/
def VeRes.checked : VeRes → Prop
  | .exc _ _ _ => False
  | .chk _ => False
  | .sample => False
  | _ => True

theorem veChecked_plain {i : VI} {x : VeSt} {k : Chk} {r : VeRes} (hr : r.checked) :
    veChecked s c i x 0 k r = plainCheck s (veApply s c i x r) c x r k := by
  cases r with
  | exc => exact hr.elim
  | chk => exact hr.elim
  | sample => exact hr.elim
  | _ => rfl

/-- A row of registers alone shows no failed check. -/
theorem vePlain_reg {i : VI} {r : VeRes} {cmd : Chk → Instr} (hr : r.checked)
    (he : ∀ k, exec (cmd k) s = .next (veChecked s c i (s.ve c) 0 (regChk k) r)) : VePlain s c cmd false r (veApply s c i (s.ve c) r) := by
  simp only [veChecked_plain hr] at he
  exact ⟨he .pass, he .transient, he .corrected, he .double, he .fail⟩

/-! ### Branches -/

/-- A row that jumps by IMM when `taken` holds, and goes on otherwise. -/
def Branches (s : State) (c : CoreId) (i : VI) (cmd : Chk → Instr) (taken : Prop) : Prop :=
  ∃ t, VePlain s c cmd false (.jump (s.ve c) ((s.ve c).pc + 1)) t ∧ (taken → t = s.upVe c (fun _ => (s.ve c).next ((s.ve c).pc + i.imm))) ∧
    (¬ taken → t = s.upVe c (fun _ => (s.ve c).next ((s.ve c).pc + 1)))

theorem branch_row {z : VeShape} {cmd : CoreChk → Instr} {T : VeSt → VI → Bool} {taken : Prop} (R : CoreChk → State → Ans) (h : VeRuns s c w)
    (hv : veOps.contains z.op = true) (he : ∀ k, exec (cmd ⟨c, k⟩) s = R ⟨c, k⟩ s)
    (hR : ∀ k, R ⟨c, k⟩ s = veStep z always noCheck (regChk k) (fun _ x i => branchIf (T x i) x i) c s)
    (ht : T (s.ve c) (decodeVi w) = true ↔ taken) :
    VeRow s c w z always (fun k => cmd ⟨c, k⟩) (Branches s c (decodeVi w) (fun k => cmd ⟨c, k⟩) taken) :=
  veStep_row h hv (fun k => (he k).trans (hR k)) fun _ _ hstep =>
    ⟨_, vePlain_reg (r := branchIf _ _ _) trivial hstep, fun htaken => by simp [branchIf, veApply, ht.mpr htaken],
      fun hnot => by simp [branchIf, veApply, mt ht.mp hnot]⟩

theorem anyLane_iff (x : VeSt) (i : VI) : anyLane x i = true ↔ ∃ n < etLanes i.et, predAt x i i.a n = true := by
  simp [anyLane, predLane, predAt]

theorem not_anyLane_iff (x : VeSt) (i : VI) : (!anyLane x i) = true ↔ ∀ n < etLanes i.et, predAt x i i.a n = false := by
  simp [anyLane, predLane, predAt]

/-- What LOOP does: S[A] falls by 1, and the branch is taken while it is not zero. -/
def loopRes (x : VeSt) (i : VI) : VeRes :=
  branchIf ((x.setS i.a (x.s i.a - 1)).s i.a != 0) (x.setS i.a (x.s i.a - 1)) i

theorem VeSt.setS_pc (x : VeSt) (n : Nat) (v : DWord) : (x.setS n v).pc = x.pc := by
  unfold VeSt.setS
  split <;> rfl

theorem loopRes_taken {x : VeSt} {i : VI} (h : (x.setS i.a (x.s i.a - 1)).s i.a ≠ 0) :
    loopRes x i = .jump (x.setS i.a (x.s i.a - 1)) (x.pc + i.imm) := by
  rw [loopRes, branchIf, if_pos (bne_iff_ne.mpr h), VeSt.setS_pc]

theorem loopRes_ends {x : VeSt} {i : VI} (h : (x.setS i.a (x.s i.a - 1)).s i.a = 0) :
    loopRes x i = .jump (x.setS i.a (x.s i.a - 1)) (x.pc + 1) := by
  rw [loopRes, branchIf, if_neg (by simpa using h), VeSt.setS_pc]

/-! ### The end of a grid point (R128, R129) -/

theorem upVe_const (f : VeSt → VeSt) : s.upVe c f = s.upVe c (fun _ => f (s.ve c)) := by
  simp only [State.upVe, State.upCore, tup, State.ve, State.core]

theorem startPoint_upVe (f : VeSt → VeSt) (gx gy : Nat) (x : VeSt) : startPoint (s.upVe c f) c gx gy x = startPoint s c gx gy x := rfl

/-- The end of a grid point at which the vector engine stands as y: the next point of its row, the first of the next row, or the
end of the launch. -/
theorem veHalt_at (y : VeSt) : veHalt (s.upVe c (fun _ => y)) c =
    if y.gx + 1 < fld y.d 6 2 then s.upVe c (fun _ => startPoint s c (y.gx + 1) y.gy y)
    else if y.gy + 1 < fld y.d 8 2 then s.upVe c (fun _ => startPoint s c 0 (y.gy + 1) y)
    else if y.driver = none then ran (s.upVe c (fun _ => { y with running := false })) (.core c) .ve (statusWord (tagOf y.d) 2 y.flags)
    else logFlags (s.upVe c (fun _ => { y with running := false })) (.core c) (statusWord (tagOf y.d) 2 y.flags) := by
  simp only [veHalt, ve_upVe, upVe_upVe, startPoint_upVe]
  cases y.driver <;> rfl

/-- Settles O17: each row by where it leads PC. -/
theorem veFlow : Obligations.VeFlow := by
  intro s c w h x i u Jump Goes
  refine ⟨?nop, ?br, ?brz, ?brnz, ?brany, ?brnone, ?loop, ?trap, ?halt⟩
  case nop =>
    exact veStep_row (row := noCheck) (shown := fun _ => .pass) (f := fun _ x _ => .ok x) h rfl (fun _ => rfl) fun _ _ hstep => hstep .pass
  case br =>
    exact veStep_row (row := noCheck) (shown := fun _ => .pass) (f := fun _ x i => branchIf true x i) h rfl (fun _ => rfl) fun _ _ hstep => hstep .pass
  case brz => exact branch_row execBrz h rfl (fun _ => rfl) (fun _ => rfl) beq_iff_eq
  case brnz => exact branch_row execBrnz h rfl (fun _ => rfl) (fun _ => rfl) bne_iff_ne
  case brany => exact branch_row execBrany h rfl (fun _ => rfl) (fun _ => rfl) (anyLane_iff x i)
  case brnone => exact branch_row execBrnone h rfl (fun _ => rfl) (fun _ => rfl) (not_anyLane_iff x i)
  case loop =>
    refine veStep_row (row := residue) (shown := id) (f := fun _ x i => loopRes x i) h rfl (fun _ => rfl) fun _ _ hstep => ?_
    refine ⟨_, veChecked_ends s c i 4 (loopRes x i) (.loop c) nofun nofun nofun nofun hstep, fun htaken => ?_, fun hnot => ?_⟩
    · exact congrArg (veApply s c i x) (loopRes_taken htaken)
    · exact congrArg (veApply s c i x) (loopRes_ends (not_not.mp hnot))
  case trap =>
    refine veStep_row (row := noCheck) (shown := fun _ => .pass) (f := fun _ _ i => .exc 7 0xFFFF (wrapBits 32 i.imm)) h rfl
      (fun _ => rfl) fun _ _ hstep => ?_
    rw [← wrapBits_eq_toNat]
    exact hstep .pass
  case halt =>
    refine veStep_row (row := noCheck) (shown := fun _ => .pass) (f := fun _ _ _ => .halt) h rfl (fun _ => rfl) fun _ _ hstep => ?_
    have hend := (hstep .pass).trans (congrArg _ ((congrArg (veHalt · c) (upVe_const _)).trans (veHalt_at _)))
    refine ⟨fun hX => hend.trans ?_, fun hX hY => hend.trans ?_, fun hX hY => hend.trans ?_⟩
    · rw [if_pos hX]
    · rw [if_neg (Nat.not_lt.mpr hX), if_pos hY]
    · rw [if_neg (Nat.not_lt.mpr hX), if_neg (Nat.not_lt.mpr hY)]

end Sys2Proof.Machine
end

section
/-! SUPPORT. The exceptions that every vector row raises before it looks at its own instruction (R113, R127, R131). -/

namespace Sys2Proof.Machine

variable {s : State} {c : CoreId} {z : VeShape} {extra : VI → Bool} {row : VI → Nat} {k : Chk}

/-- An answer of core c's vector engine at one of its rows. -/
def IsVeStep (c : CoreId) (s : State) (a : Ans) : Prop := ∃ z extra row k f, a = veStep z extra row k f c s

theorem isVeStep_step {f : State → VeSt → VI → VeRes} : IsVeStep c s (veStep z extra row k f c s) := ⟨z, extra, row, k, f, rfl⟩

theorem isVeStep_reg {f : VeSt → VI → VeSt} : IsVeStep c s (veReg z extra row k f c s) := isVeStep_step

/-- Every row of the vector engine takes its step: NOP, the rows of flow, the scalar and integer rows, the rows of memory and Pip, the
rows from FADD to PCNT, and TSAMPLE. -/
theorem veRows_step (c : CoreId) (k : Chk) (s : State) : ∀ cmd ∈ veRows c k, IsVeStep c s (exec cmd s) := by
  simp only [veRows, List.forall_mem_append, List.forall_mem_cons, List.not_mem_nil, false_imp_iff, implies_true, and_true]
  delta exec
  dsimp only
  and_intros
  · exact isVeStep_reg
  iterate 8 exact isVeStep_step
  iterate 30 exact isVeStep_reg
  iterate 11 exact isVeStep_step
  iterate 44 exact isVeStep_reg
  exact isVeStep_step

theorem veStep_noWord {f : State → VeSt → VI → VeRes} (hr : veReady s c = true) (hw : veWord (s.ve c) = none) :
    veStep z extra row k f c s = .next (veException { s with free := s.free + 1 } c 4 (leNat ((List.range 8).map (Config.freeByte s.free))) 0xFFFF 0) :=
  doWhen_next hr (by rw [hw])

theorem veStep_overBudget {f : State → VeSt → VI → VeRes} {w : DWord} (hr : veReady s c = true) (hw : veWord (s.ve c) = some w)
    (hb : fld (s.ve c).d 16 4 ≤ (s.ve c).count) : veStep z extra row k f c s = .next (veException s c 5 0 0xFFFF 0) :=
  doWhen_next hr (by rw [hw]; exact if_pos hb)

theorem veStep_undefined {f : State → VeSt → VI → VeRes} {w : DWord} (hr : veReady s c = true) (hw : veWord (s.ve c) = some w)
    (hb : (s.ve c).count < fld (s.ve c).d 16 4) (ho : (decodeVi w).op ∉ veOps) :
    veStep z extra row k f c s = .next (veException s c 1 w.toNat 0xFFFF 0) :=
  doWhen_next hr (by rw [hw]; exact (if_neg (Nat.not_le.mpr hb)).trans (if_pos (by simpa using ho)))

/-- Settles O19: every row takes the step of a vector instruction, which looks at PC, the budget and OP first. -/
theorem veExceptions : Obligations.VeExceptions := by
  intro s c k hr cmd hcmd
  obtain ⟨z, extra, row, k, f, hstep⟩ := veRows_step c k s cmd hcmd
  rw [hstep]
  exact ⟨fun hw => ⟨_, veStep_noWord hr hw⟩, fun w hw hb => veStep_overBudget hr hw hb, fun w hw hb ho => veStep_undefined hr hw hb ho⟩

end Sys2Proof.Machine
end

section
/-! SUPPORT. TSAMPLE, and the end of the sample in flight (R125, R129, R131, R187 to R189). -/

namespace Sys2Proof.Machine

variable {s : State} {c : CoreId} {w : DWord}

/-! ### The sample goes to the texture unit -/

/-- What TSAMPLE does at its instruction. -/
def tsampleRes (s : State) (c : CoreId) (i : VI) : VeRes := match boundCtx s c with
  | none => .exc 6 0xFFFF 0
  | some x => if slotNo i < fld x.1 88 2 then .sample else .exc 6 0xFFFF 0

theorem tsampleRes_bound {i : VI} {x : BitVec 1024 × Job} (h : boundCtx s c = some x) :
    tsampleRes s c i = if slotNo i < fld x.1 88 2 then .sample else .exc 6 0xFFFF 0 := by
  rw [tsampleRes, h]

theorem tsampleRes_unbound {i : VI} (h : boundCtx s c = none) : tsampleRes s c i = .exc 6 0xFFFF 0 := by
  rw [tsampleRes, h]

theorem tsample_step (k : Chk) : exec (.tsample c k) s =
    veStep { op := 0x3F, et := [5], d := .v, a := .v, b := .any, c := .v, imm := .low 8, mod := 1 }
      (fun i => decide (i.d ≤ 28) && (bitAt i.mod 0 || i.c == 0)) sampled k (fun s _ i => tsampleRes s c i) c s := rfl

/-! ### The sample ends -/

theorem reachPoint_running {t : State} {u : UnitId} (h : (t.unit u).phase = .running) : reachPoint t u = t := by
  rw [reachPoint, h]

theorem phase_of_working {u : UnitId} (h : working s u = true) : (s.unit u).phase = .running := by
  simp only [working, Bool.and_eq_true, beq_iff_eq] at h
  exact h.1

theorem tsampleResult_ends {r : TexDone} {ctx : BitVec 1024} {j : Job} (ht : (s.ve r.core).tex = some w) (hb : boundCtx s r.core = some (ctx, j))
    (hr : (s.ve r.core).running = true) (hw : working s (.core r.core) = true) :
    exec (.tsampleResult r) s = .next (reachPoint (sampleEnd s r (decodeVi w) (s.ve r.core) ctx j) (.core r.core)) := by
  change execTsampleResult r s = _
  simp only [execTsampleResult, ht, hb]
  exact doWhen_true (by rw [hr, hw]; rfl)

section
variable {r : TexDone} {i : VI} {x : VeSt} {ctx : BitVec 1024} {j : Job}

theorem sampleEnd_fault {va : Nat} (hread : jobRead s j (texSlotVa ctx i) 32 = .fault va) :
    sampleEnd s r i x ctx j = veException (s.upVe r.core (fun x => { x with tex := none, texChk := .pass })) r.core 6 i.w.toNat 0xFFFF 0 := by
  simp only [sampleEnd, hread]

theorem sampleEnd_undefined {bs : Bytes} (hread : jobRead s j (texSlotVa ctx i) 32 = .ok bs) (hf : 0x0B < (slotOf bs).fmt) :
    sampleEnd s r i x ctx j = veException (s.upVe r.core (fun x => { x with tex := none, texChk := .pass })) r.core 6 i.w.toNat 0xFFFF 0 := by
  simp only [sampleEnd, hread, if_pos hf]

theorem veCheck_pass (t : State) (row : Nat) (x : VeSt) : veCheck s t c x row .pass = veDraw t c (if row = 5 then 1 else 0) := by
  have hshow : veShows s c row .pass = .pass := if_neg (by simp)
  simp [veCheck, hshow, checkedBy, chkOutcome_pass]

/-- A sample whose granule and instruction pass their checks writes its four registers. -/
theorem sampleEnd_returns {bs : Bytes} {rs : List (List Nat)} (hp : r.read = .pass) (hc : x.texChk = .pass)
    (hread : jobRead s j (texSlotVa ctx i) 32 = .ok bs) (hf : (slotOf bs).fmt ≤ 0x0B)
    (hs : sampleLanes s j (slotOf bs) (leNat (bs.take 16)) x i ((activeLanes x i 64).zipIdx) = .ok rs) :
    sampleEnd s r i x ctx j = veDraw (s.upVe r.core (fun x => putSample x i rs)) r.core 1 := by
  simp only [sampleEnd, hread, if_neg (Nat.not_lt.mpr hf), hs, hp, hc, veCheck_pass, readBy_pass, if_true]
  split <;> rfl

end

/-- What a sample leaves of the instruction: it has run. -/
theorem putSample_runs (x : VeSt) (i : VI) (rs : List (List Nat)) :
    (putSample x i rs).tex = none ∧ (putSample x i rs).pc = x.pc + 1 ∧ (putSample x i rs).count = x.count + 1 := ⟨rfl, rfl, rfl⟩

/-- Settles O24: where TSAMPLE leads, then the end of a sample by what its slot reads. -/
theorem textureSamples : Obligations.TextureSamples := by
  refine fun s c w => ⟨fun h => ?sent, fun r ctx j hcore ht hb hr hw => ?ended⟩
  case sent =>
    refine veStep_row (shown := id) h rfl tsample_step fun _ _ hstep k => ?_
    have hres := hstep k
    refine ⟨fun ctx j hb hslot => ?_, fun ctx j hb hslot => ?_, fun hb => ?_⟩
    · rwa [tsampleRes_bound hb, if_pos hslot] at hres
    · rwa [tsampleRes_bound hb, if_neg (Nat.not_lt.mpr hslot)] at hres
    · rwa [tsampleRes_unbound hb] at hres
  case ended =>
    subst hcore
    have hend := tsampleResult_ends ht hb hr hw
    refine ⟨fun bs rs hp hc hread hf hs => ?_, fun bs hread hf => ?_, fun va hread => ?_⟩
    · refine ⟨_, hend, ?_⟩
      rw [sampleEnd_returns hp hc hread hf hs, reachPoint_running (by simpa [veDraw] using phase_of_working hw)]
      exact ⟨rfl, by simpa [veDraw] using putSample_runs (s.ve r.core) (decodeVi w) rs⟩
    · rw [hend, sampleEnd_undefined hread hf]
      rfl
    · rw [hend, sampleEnd_fault hread]
      rfl

end Sys2Proof.Machine
end

section
/-! SUPPORT. Two kernels on core 0, of one instruction each, at which the model departs from the statements: an F8PACK of an infinity,
which E4M3 cannot hold and the model flags NAN as Table 2-3 has it, and a VST that merges onto a granule whose carried check fails. -/

namespace Sys2Proof.Machine

/-- A job of core 0. -/
def kernelJob : Job :=
  { endedRender with e := { endedRender.e with cores := 1, rfes := 0 }, entries := [{ unit := some (.core 0) }] }

/-- Core 0 runs this word with these registers, within a budget of one instruction. -/
def kernelOf (w : DWord) (v : Tbl (BitVec 2048)) (p : Tbl (BitVec 256)) : State :=
  { State.reset with
    jobs := [kernelJob], units := [(0, { job := some 0, phase := .running })]
    cores := [(0, { ve := { running := true, d := BitVec.ofNat 512 (2 ^ 128), code := [w], v := v, p := p } })] }

theorem kernelOf_runs (w : DWord) (v : Tbl (BitVec 2048)) (p : Tbl (BitVec 256)) : VeRuns (kernelOf w v p) 0 w := 
  ⟨rfl, rfl, show 0 < fld (BitVec.ofNat 512 (2 ^ 128)) 16 4 by decide +kernel⟩

/-- The vector engine of core 0 after an answer. -/
def veAfter (a : Ans) : VeSt := match a with
  | .next t => t.ve 0
  | _ => {}

/-! ### F8PACK of an infinity -/

/-- F8PACK of FP16 lanes in V[2] to E4M3 in V[1]. -/
def packWord : DWord := BitVec.ofNat 64 (0x61 * 2 ^ 57 + 3 * 2 ^ 54 + 1 * 2 ^ 49 + 2 * 2 ^ 44)

/-- Lane 0 of V[2] is +∞, the others are 0. -/
def packs : State := kernelOf packWord [(2, 0x7C00)] []

theorem packWord_bits : etBits (decodeVi packWord).et = 16 := by decide +kernel
theorem packWord_fmt : etFmt (decodeVi packWord).et = fp16 := by decide +kernel
theorem packWord_a : (decodeVi packWord).a = 2 := by decide +kernel

theorem packs_noNaN : ∀ j < 128, decodeF fp16 (laneAt 16 ((packs.ve 0).vr 2) (0 + j)) ≠ .nan := by decide +kernel

/-- What F8PACK writes. -/
def f8packOp (x : VeSt) (i : VI) : VeSt :=
  convLanes x i (etBits i.et) 8 (i.mod % 4) (fun a => convertF (fp8Of i) (decodeF (etFmt i.et) a))

theorem f8pack_row {s : State} {c : CoreId} {w : DWord} (h : VeRuns s c w) :
    VeRow s c w { op := 0x61, et := etF, d := .v, a := .v, mod := 7 } (fun i => partOk (etBits i.et) 8 (i.mod % 4)) (.f8pack c)
      (VeOutcome s c (.f8pack c) 5 (f8packOp (s.ve c) (decodeVi w))) :=
  veWrites_row execF8pack h rfl nofun (fun _ => rfl) (fun _ => rfl) rfl fun _ => rfl

theorem packs_flags : (f8packOp (packs.ve 0) (decodeVi packWord)).flags = fSat ||| fNan := by decide +kernel

theorem flags_of_outcome {s : State} {cmd : Chk → Instr} {row : Nat} {y : VeSt} (h : VeOutcome s 0 cmd row y) :
    (veAfter (exec (cmd .pass) s)).flags = y.flags := by
  obtain ⟨hpass, -⟩ := h
  rw [hpass]
  simp [veAfter, veDraw, veRan, VeSt.next]

/-- A lane of F8PACK as the statement has it sets no NAN unless it reads a NaN. -/
theorem masked_noNaN {v : FVal} (h : v ≠ .nan) (fl : Byte) : ((fl &&& (fSat ||| fUfl)) ||| (if v = .nan then fNan else 0)).getLsbD 2 = false := by
  rw [if_neg h]
  simp [fSat, fUfl]

/-- Refutes O13: F8PACK of an infinity to E4M3 sets SAT and NAN, and the statement masks NAN out of a lane that is no NaN. -/
theorem not_veConversions : ¬ Obligations.VeConversions := by
  intro h
  have hruns : VeRuns packs 0 packWord := kernelOf_runs _ _ _
  obtain ⟨-, hpack, -⟩ := h packs 0 packWord hruns
  obtain ⟨r, g, hpart, hstated⟩ := (hpack rfl).1 (by decide +kernel)
  have hmodel := (f8pack_row hruns rfl).1 (by decide +kernel)
  have hg : g = fSat ||| fNan := by
    rw [← packs_flags, ← flags_of_outcome hmodel, flags_of_outcome hstated]
    exact (BitVec.zero_or (x := g)).symm
  obtain ⟨j, hj, -, hbit⟩ := (hpart.flags 2).mp (by rw [hg]; rfl)
  rw [packWord_bits] at hj
  dsimp only at hbit
  rw [packWord_bits, packWord_fmt, packWord_a, if_neg (show ¬ 16 < 8 by decide), masked_noNaN (packs_noNaN j hj)] at hbit
  exact absurd hbit (by decide)

/-! ### VST onto a granule whose check fails -/

/-- VST of the 8-bit lanes of V[1] that P[1] names, at address 0. -/
def storeWord : DWord := BitVec.ofNat 64 (0x35 * 2 ^ 57 + 1 * 2 ^ 49 + 1 * 2 ^ 31 + 1 * 2 ^ 30)

/-- P[1] names lane 0, so that the store covers one byte of its granule. -/
def stores : State := kernelOf storeWord [] [(1, 1)]

theorem stores_failed : (veAfter (exec (.vst ⟨0, .fail⟩) stores)).count = 0 := by decide +kernel

/-- Refutes O18: a carried check that fails of the granule that a store merges onto ends the job, and the statement lets the store go on. -/
theorem not_veMemoryAndPip : ¬ Obligations.VeMemoryAndPip := by
  intro h
  obtain ⟨-, -, -, -, hvst, -⟩ := h.1 stores 0 storeWord (kernelOf_runs _ _ _)
  obtain ⟨hstore, -⟩ := (hvst rfl).1 (by decide +kernel)
  obtain ⟨-, -, -, -, hfail⟩ := hstore (by decide +kernel)
  have hcount := congrArg (fun a => (veAfter a).count) hfail
  rw [stores_failed] at hcount
  exact absurd hcount (by decide +kernel)

end Sys2Proof.Machine
end
